-- ==== Sys2Proof/Word.lean ====
section
/-!
DEFINITION. The word types of the model and their plainest arithmetic: bytes, 16-, 32- and 64-bit words, the
512-bit vector word, and the fixed index types (ports, tiles, clusters, registers).
Sizes follow 00_scope.md R10 (registers of 32 or 64 bits), 01_architecture.md R24 (9-bit tile ID) and
05_falesk_instruction_set.md R160 (register files).
-/
namespace Sys2Proof

abbrev Byte := BitVec 8
abbrev U16 := BitVec 16
abbrev U32 := BitVec 32
abbrev U64 := BitVec 64
/-- A vector register of the tile's vector unit. -/
abbrev V512 := BitVec 512

/-- A PCIe port or a fabric port: 0 or 1. -/
abbrev Port := Fin 2
/-- A physical tile ID (R24). -/
abbrev TileId := Fin 512
/-- A global cluster number (R24). -/
abbrev ClusterId := Fin 32
/-- A global region number (R24). -/
abbrev RegionId := Fin 8
/-- A compute die number. -/
abbrev DieId := Fin 4
/-- A job slot. -/
abbrev JobSlot := Fin 16
/-- A buffer pool. -/
abbrev PoolId := Fin 8
/-- A scalar register number. -/
abbrev GReg := Fin 32
/-- A vector register number. -/
abbrev VReg := Fin 32
/-- A predicate register number. -/
abbrev PReg := Fin 8
/-- A sync object number. -/
abbrev SyncId := Fin 16

/-- The die of a tile, bits [8:7] of its ID (R24). -/
def TileId.die (t : TileId) : Nat := t.val / 128
/-- The region of a tile, bits [8:6] of its ID (R24). -/
def TileId.region (t : TileId) : Nat := t.val / 64
/-- The cluster of a tile, bits [8:4] of its ID (R24). -/
def TileId.cluster (t : TileId) : Nat := t.val / 16
/-- The slot of a tile in its cluster, bits [3:0] of its ID (R24). -/
def TileId.slot (t : TileId) : Nat := t.val % 16

/-- A number with a bit set: 1 for true, 0 for false. -/
def boolBit (b : Bool) : Nat := if b then 1 else 0

end Sys2Proof
end

