-- ==== Sys2Proof/Payload.lean ====
section
/-!
DEFINITION. The types of the operands that the commands carry: register writes, management requests, NVMe command
contexts, messages, packets and entries.
-/
namespace Sys2Proof

/-- Who writes a register (01_architecture.md R52, 17 R629): a host port, a control-complex core, or the management
endpoint. -/
inductive Writer where
  | port (p : Port) | core (n : Fin 8) | mgmt
deriving DecidableEq, Repr

/-- One register write: writer, window-2 offset, access size in bytes and value (00_scope.md R10). The writes of one
REGISTER_WRITE happen in one cycle (R18, R52). -/
structure RegWrite where
  who : Writer
  off : BitVec 25
  size : Nat
  val : U64
deriving DecidableEq, Repr

/-- A request on the management bus (02 R59): a read of a register of the standby set, a write to one, or an NVMe-MI
request by its opcode. -/
inductive MgmtReq where
  | read (off : BitVec 25)
  | write (off : BitVec 25) (val : U64)
  | nvmeMi (opcode : Byte)
deriving DecidableEq, Repr

/-- Where an NVMe command came from: port, queue (0 the admin queue) and command identifier. -/
structure NvmeCtx where
  port : Port
  qid : Nat
  cid : U16
deriving DecidableEq, Repr

/-- A key-store package of 03 R119 step 5: the module-set ID, the generation, and the keys sealed under K. -/
structure MigPackage where
  setId : Nat
  generation : Nat
  ciphertext : List Byte
  sealed : List Byte
deriving DecidableEq, Repr

/-- Who asks the buffer pool manager (07 R261): a host port, the control complex, or a data-path unit. -/
inductive Requester where
  | port (p : Port) | control | dataPath
deriving DecidableEq, Repr

/-- How an NVMe-MI command arrives (14 R507): in band through an admin command, or over the management bus. -/
inductive MiPath where
  | inBand (n : NvmeCtx)
  | bus
deriving DecidableEq, Repr

/-- The entry that a pipeline queue hands over (14 R523): the port and queue it comes through, its CID, and the FENCE
and NOTIFY_END flags. -/
structure PipeCtx where
  port : Port
  q : Fin 512
  cid : U16
  fence : Bool
  notifyEnd : Bool
deriving DecidableEq, Repr

/-- A reservation command's operands (14 R512, NVM Express 2.0): the current and the new (or pre-empted) key. -/
structure ResvArgs where
  action : Fin 8
  rtype : Fin 8
  crkey : U64
  nrkey : U64
  iekey : Bool
deriving DecidableEq, Repr

/-- The messages of the manager-worker protocol (12 R429). -/
inductive CtlMsg where
  | hello
  | nonce (n : List Byte)
  | join (cert report : List Byte) (caps fdoms : List Nat) (hasJob : Bool)
  /-- PWR_TOLERANCE_NS of the manager (16 R571). -/
  | welcome (tol : Nat)
  | refuse (status : Nat)
  /-- t1, and t4 of the exchange before, where there was one. -/
  | sync (t1 : Nat) (t4 : Option Nat)
  | syncReply
  /-- PLAN_SEQ, nonce, image digest and length, m, M, L, forwarding children (nodes), decoded-cache homes. -/
  | prepare (planSeq : Nat) (nonce digest : List Byte) (len m modules l : Nat) (children : List Nat) (homes : List (List Nat))
  | ready (planSeq count : Nat)
  | refusePlan (planSeq status : Nat)
  | go (planSeq launch : Nat)
  | cancel (planSeq : Nat)
  /-- PLAN_SEQ, statistics, and at the end of the job the module digest. -/
  | report (planSeq : Nat) (stats : List Nat) (digest : Option (List Byte))
  | lost (planSeq m : Nat)
  | leave
  /-- The health score (17 R608). -/
  | score (n : Nat)
deriving DecidableEq, Repr

/-- What the plan says of a work unit: a sample's that runs the shipped kernels (09 R314), a sample's with the job's own
code (08 R290), or another unit of the job. -/
inductive UnitKind where
  | kernel | sample | other
deriving DecidableEq, Repr

/-- What a mailbox tells of a unit that is collected (06 R230): bytes of its output, its time at 1.8 GHz, tokens made,
text bytes taken, and whether MAX_TOKENS or a check value stopped it. -/
structure UnitReport where
  len : Nat
  ns : Nat
  tokens : Nat
  text : Nat
  tooLong : Bool
  checkFail : Bool
deriving DecidableEq, Repr

/-- A sample read from another module by YFT (08 R283): its frame with FRAME_CRC, content-corrupt by its index (09 R316),
or unreadable after all retries. -/
inductive RemoteRead where
  | frame (bytes : List Byte) (crc : BitVec 32)
  | corrupt
  | failed
deriving DecidableEq, Repr

/-- A received YFT packet of the type that its command names (13 R462, R463): the port, whether the FCS and the UDP
checksum hold, the fields of header and trailer, payload and tag. -/
structure YftPkt where
  port : Port
  frameOk : Bool
  version : Fin 16
  flags : Byte
  path : Byte
  rsv : Byte
  srcNode : U32
  dstNode : U32
  srcQueue : U32
  dstQueue : U32
  psn : U32
  msgSeq : U32
  xmit : U32
  sent : U64
  key : U64
  addr : U64
  msgLen : U32
  off : U32
  payload : List Byte
  tag : List Byte
  crc : U32
deriving DecidableEq, Repr

/-- Readings of an optical engine (13 R458): temperature, supply, receive power and transmit bias by channel, and the
channels whose CMIS low receive-power warning is set (17 R606). -/
structure OeReading where
  temp : U16
  vcc : U16
  chans : List (U16 × U16)
  lowRx : List (Fin 9)
deriving DecidableEq, Repr

/-- A queue-create entry (14 R523). -/
structure QCreate where
  peerNode : U32
  peerQueue : U32
  ringBase : U64
  cqBase : U64
  ringLog : Byte
  cqLog : Byte
  paths : Byte
  recvPool : Byte
  tclass : U16
deriving DecidableEq, Repr

/-- A node-path entry (14 R523). -/
structure PathArgs where
  node : U32
  path : Byte
  kind : Byte
  port : Byte
  vlan : U16
  udpSrc : U16
  mac : List Byte
  ip : List Byte
deriving DecidableEq, Repr

/-- A key command (13 R476, R477, R489). -/
structure KeyCreate where
  base : BitVec 48
  limit : BitVec 48
  nsid : U32
  ns : Bool
  rights : Fin 8
  poolCheck : Bool
deriving DecidableEq, Repr

/-- What the codec kernel made of an item (10 R352 to R359): its output, a failed check, or no check value. -/
inductive CodecOut where
  | out (bytes : List Byte)
  | checkFail
  | checkAbsent
deriving DecidableEq, Repr

/-- A decoded-cache entry as it travels between modules (09 R346, R347): its key of 32 bytes, the generation in its header
and in its bucket, FRAME_LEN and FRAME_CRC, payload and stored CRC. -/
structure DcRemote where
  key : List Byte
  gen : Nat
  bucketGen : Nat
  frameLen : Nat
  frameCrc : Nat
  payload : List Byte
  crc : Nat
deriving DecidableEq, Repr

/-- Fields of a Falesk V-format word (05 R166): vd, vs1, vs2, PG, PN and TYPE; MAJOR and FN are in the command's name. -/
structure VArgs where
  vd : VReg
  vs1 : VReg
  vs2 : VReg
  pg : PReg
  pn : Bool
  ty : Fin 8
deriving DecidableEq, Repr

/-- Fields of VGATHER and VSCATTER (05 R168). -/
structure GatherArgs where
  vd : VReg
  vi : VReg
  rs : GReg
  pg : PReg
  pn : Bool
  sz : Fin 8
  scale : Fin 4
deriving DecidableEq, Repr

/-- Fields of VCVT (05 R168). -/
structure CvtArgs where
  vd : VReg
  vs1 : VReg
  pg : PReg
  pn : Bool
  fromTy : Fin 16
  toTy : Fin 16
  rm : Fin 8
  sat : Bool
  part : Fin 4
deriving DecidableEq, Repr

/-- What the module reads of a flash carrier at mount: the connector's number (J4 + n), the parameter pages and the
carrier record (15 R529, 03 R116); a blank carrier has set 0. -/
structure CarrierInfo where
  conn : Fin 4
  cellBits : Nat
  planes : Nat
  diesPerCh : Nat
  pages : Nat
  blocks : Nat
  ratedPe : Nat
  setId : Nat
  keyGen : Nat
  ident : List Byte
deriving DecidableEq, Repr

/-- A namespace that a mount finds on a module set that the module has not mounted before (03 R116): its definition
and the contents of its mapped indirection units. -/
structure FoundNs where
  setId : Nat
  nsid : Nat
  nsze : Nat
  lba : Nat
  iu : Nat
  kind : Nat
  key : Nat
  attached : List Port
  units : List (Nat × List Byte)
deriving DecidableEq, Repr

/-- A wake event or an arrival while a power state is being entered (16 R579): the participant that owns it, by its
code in PWR_LAST_REFUSER, and whether it comes before the point of no return. -/
structure PsEvent where
  who : Fin 9
  early : Bool
deriving DecidableEq, Repr

/-- A suite of a tile that ran to its end (17 R596): the pattern that failed, if any, the hottest sensor temperature of
the cluster in 0.1 °C and the tile supply voltage in mV. -/
structure SuiteResult where
  tile : TileId
  failed : Option (Fin 4)
  temp : U16
  mv : U16
deriving DecidableEq, Repr

/-- A margin reading (17 R605): index of the lane, channel or die, A and B of its register. -/
structure Margin where
  index : Nat
  a : Fin 4096
  b : Fin 4096
deriving DecidableEq, Repr

/-- What a mount finds that depends on the parts fitted and on the history of the media (15 R558, R565): the carriers;
superblocks and spares, for media that the module has not mounted before; the threshold table; the replay. -/
structure MountInfo where
  carriers : List CarrierInfo
  native : Nat
  slc : Nat
  spares : Nat
  ttbl : List (Fin 256)
  replayed : Nat
  replayUs : Nat
  nss : List FoundNs
deriving DecidableEq, Repr

end Sys2Proof
end

