-- ==== Sys2Proof/Syntax.lean ====
section
/-!
DEFINITION. The commands of the block: one constructor for each row of spec/opcode_table.json, in the table's order.
Each docstring gives the row's mnemonic, its first rule and the table's summary.
-/
namespace Sys2Proof

/-- A command: an operation that software asks for, or an event that happens to the module. -/
inductive Instr where
  /-- REGISTER_WRITE (R13): A write to a register with no row of its own stores, discards or queues the value as the field's access type gives, and same-cycle writes are arbitrated. The accesses of one cycle. -/
  | registerWrite (ws : List RegWrite)
  /-- COMMIT (R15): Writing COMMIT latches every pending RWC value of the block into one commit set. The block by its first byte, and the other accesses of the same cycle. -/
  | commit (w : Writer) (blk : Nat) (also : List RegWrite)
  /-- DISCARD (R16): Writing DISCARD drops the pending values that are not yet latched. The block by its first byte. -/
  | discard (w : Writer) (blk : Nat)
  /-- COMMIT_POINT (R15): At the block's commit point the latched set is applied whole, reserved values are dropped and COMMIT_SEQ advances. The block by its first byte. -/
  | commitPoint (blk : Nat)
  /-- DIE_FAULT (R31): A die-level fault takes the die out of service, re-executes its work, moves its queued entries to surviving dies and notifies the manager. -/
  | dieFault (d : DieId) (cause : BitVec 32)
  /-- HOT_SWAP_CLOSE (R68): VIN rises above undervoltage lockout after J1 contact, and the hot-swap switch closes. -/
  | hotSwapClose (mv : Nat)
  /-- STANDBY_UP (R621): The standby rail comes up, the always-on domain starts, and the management endpoint begins to answer the standby set. -/
  | standbyUp (addrSel : Fin 4)
  /-- STANDBY_LOST (R623): VIN falls below 28 V, the standby rail is lost, and every latched state of the always-on domain is cleared. -/
  | standbyLost (mv : Nat)
  /-- MOD_EN_RISE (R68): MOD_EN rises, which releases eligible latches and starts the coolant check. How long MOD_EN was low, and the levels of EMERG_OFF# and of the input at the rise. -/
  | modEnRise (lowMs : Nat) (emergHigh : Bool) (mv : Nat)
  /-- COOLANT_CHECK (R69): At the end of each 100 ms coolant window, the module starts the main rails if the window passed, or records and repeats the check if it failed. The window's lowest flow (mL/min) and highest inlet temperature (0.1 °C), and the readings at its end. -/
  | coolantCheck (minFlow maxInlet flow inlet : Nat)
  /-- RAILS_IN_REGULATION (R70): All main rails reach regulation in order, and the PWR_OK delay starts. -/
  | railsInRegulation
  /-- RAIL_FAULT (R71): A rail that fails to ramp or leaves regulation switches all main rails off and records cause 0x08. -/
  | railFault (rail : Fin 6)
  /-- PWR_OK_RISE (R62): PWR_OK rises, the straps are sampled, the spindle count starts and the boot begins. The strap levels sampled, in the bit order of GLB_STRAPS. -/
  | pwrOkRise (straps : BitVec 11)
  /-- MOD_EN_FALL (R72): MOD_EN falls, which drops PWR_OK and WP#, writes the off record and switches the main rails off in reverse order. -/
  | modEnFall
  /-- UNDERVOLTAGE_DETECT (R73): VIN falls below undervoltage detect, so operations stop, PWR_OK and WP# drop and the rails run from the bulk capacitance. -/
  | undervoltageDetect (mv : Nat)
  /-- BULK_DEPLETED (R73): The bulk reaches 36 V or a rail leaves regulation, and the main rails switch off. -/
  | bulkDepleted
  /-- EMERG_OFF (R74): EMERG_OFF# goes low, which switches the main rails off on the firmware-free path or sets the latch. -/
  | emergOff
  /-- OVERVOLTAGE (R74): The input rises above the overvoltage threshold, which switches the main rails off and sets the latch. -/
  | overvoltage (mv : Nat)
  /-- JUNCTION_TRIP (R80): A junction sensor reaches 115 °C, the main rails switch off and THERMTRIP# latches. -/
  | junctionTrip (die : Fin 5) (temp : Nat)
  /-- OFF_RECORD (R67): The always-on domain writes the off record to NOR after a firmware-free power-down. -/
  | offRecord
  /-- MOD_RESET (R61): MOD_RESET# held low past the glitch filter causes a warm reset. -/
  | modReset (lowNs : Nat)
  /-- SVC_REQ (R83): SVC_REQ# is asserted, and the module starts to quiesce. -/
  | svcReq
  /-- QUIESCE_COMPLETE (R83): The quiesce finishes: the FTL is journaled, the off record is written, WP# goes low and SVC_READY rises. -/
  | quiesceComplete
  /-- SVC_REQ_RELEASE (R84): SVC_REQ# is released, which abandons the quiesce or returns the module to service and withdraws the off record. -/
  | svcReqRelease
  /-- QUIESCE_TIMEOUT (R84): The quiesce is not complete within 30 s, so SVC_READY stays low and an event is recorded. -/
  | quiesceTimeout
  /-- WAKE_IN (R60): WAKE_IN# is held low as a level wake request to the package. -/
  | wakeIn (heldMs : Nat)
  /-- MGMT_REQUEST (R59): A management request arrives on I3C or SMBus and is served from the standby set, or refused before boot completes. -/
  | mgmtRequest (req : MgmtReq)
  /-- FLOW_LOSS_DETECT (R78): Flow stays below 0.9 L/min, or the sensor is silent, for 500 ms, so FLOW_LOSS is set, power is held to 150 W and the shutdown timer starts. The frequency that holds the input to 150 W. -/
  | flowLossDetect (flow : Nat) (silent : Bool) (mhz : Nat)
  /-- FLOW_LOSS_DEADLINE (R78): The flow-loss timer expires, which causes an emergency shutdown with cause 0x04, or sets the latch when the rails are already off. -/
  | flowLossDeadline
  /-- FLOW_RECOVERY (R79): After 1 s of flow at or above 1.2 L/min, FLOW_LOSS clears and the 150 W limit lifts if the deadline has not passed. -/
  | flowRecovery (flow : Nat)
  /-- INLET_HIGH (R80): The inlet temperature rises above 40 °C, which sets INLET_HIGH and writes a COOLANT record. -/
  | inletHigh (temp : Nat)
  /-- INLET_CLEAR (R80): The inlet falls to 40.0 °C or below, and INLET_HIGH clears. -/
  | inletClear (temp : Nat)
  /-- THROTTLE_START (R80): A junction sensor reaches the STRAP_TLIMIT temperature, and the cluster clocks are limited. The thermal limit's frequency; a sensor number of R630: 16 + die, or 32 + GDDR7 device. -/
  | throttleStart (sensor : Nat) (temp mhz : Nat)
  /-- THROTTLE_END (R80): The junction falls below the throttle temperature, and the thermal limit lifts. -/
  | throttleEnd (sensor : Nat) (temp : Nat)
  /-- POWER_LIMIT_ENGAGE (R65): The 100 ms input power reaches 950 W, and the cluster clocks are lowered. The frequency that the limit sets. -/
  | powerLimitEngage (mhz : Nat)
  /-- POWER_LIMIT_RELEASE (R65): The 950 W limit is released. -/
  | powerLimitRelease
  /-- SUPPLY_SAMPLE (R624): Every 100 µs the input voltage and power are sampled, and VIN and PIN are updated. -/
  | supplySample (mv dw : Nat)
  /-- CARRIER_PG_FALL (R563): A carrier's CARRIER_PG falls, so its channels read absent, WP# goes low and reads fail. -/
  | carrierPgFall (n : Fin 4)
  /-- CARRIER_PG_RISE (R563): CARRIER_PG rises again, the channels are recalibrated and the carrier is re-mounted if its set matches. What the carrier record and the parameter pages hold. -/
  | carrierPgRise (info : CarrierInfo)
  /-- CORES_RELEASE (R98): Once the body is verified, the attempt count is written, the body is copied and control-complex cores 0 to 7 are released. -/
  | coresRelease
  /-- GDDR7_READY (R627): GDDR7 is trained, zero-filled and carved, and STAGE moves to 0x05. -/
  | gddr7Ready
  /-- TILES_READY (R103): Tile self-tests finish, the spare map is applied and STAGE moves to 0x06. The self-tests that ran, one for each tile. -/
  | tilesReady (results : List SuiteResult)
  /-- FTL_MOUNT (R558): The flash is mounted: carriers are adopted, the journal is replayed, open superblocks are closed and a checkpoint is taken. What the mount finds. -/
  | ftlMount (info : MountInfo)
  /-- STAGE_READY (R98): Firmware reaches READY, the pipeline queues accept entries and the slot is confirmed. -/
  | stageReady
  /-- TOOL_REST_READY (R102): Tool rest reaches TOOL_REST_READY and serves its limited command set. -/
  | toolRestReady
  /-- BOOT_WATCHDOG (R101): The 30 s boot watchdog expires before READY and causes a warm reset. -/
  | bootWatchdog
  /-- LINK_TRAINING (R104): A PCIe port starts link training after the later of PWR_OK + 52 ms and PERSTn# deassertion. -/
  | linkTraining (p : Port)
  /-- CONFIG_SPACE_READY (R104): A port's configuration space becomes ready and stops answering with Configuration Request Retry Status. Generation of the trained rate, lanes, and FLIT mode. -/
  | configSpaceReady (p : Port) (speed : Fin 7) (width : Fin 9) (flit : Bool)
  /-- PERST_ASSERT (R498): PERSTn# is asserted, which resets the port's function, deletes its queues, cancels its jobs and frees its resources. -/
  | perstAssert (p : Port)
  /-- HOT_RESET (R498): A hot reset of a port has the same effect on that port as PERSTn#. -/
  | hotReset (p : Port)
  /-- SURPRISE_DOWN (R498): A port's link goes down unexpectedly; its port resources are cleared and in-flight writes complete under R499. -/
  | surpriseDown (p : Port)
  /-- D3HOT (R498): A port's function enters D3hot and its controller resets as for CC.EN 0. -/
  | d3hot (p : Port)
  /-- CC_EN (R105): Host software sets CC.EN and the controller starts to become ready. -/
  | ccEn (p : Port)
  /-- CC_DISABLE (R498): CC.EN is set to 0, and the NVMe controller resets and deletes its I/O queues. -/
  | ccDisable (p : Port)
  /-- CSTS_RDY (R105): CSTS.RDY becomes 1 once STAGE has reached 0x07, or under Tool rest. -/
  | cstsRdy (p : Port)
  /-- LTR (R493): An LTR message from a port updates that port's latency tolerance. The two latency values, ns. -/
  | ltr (p : Port) (snoop noSnoop : U32)
  /-- WIN4_READ (R496): A window-4 read returns GDDR7 contents, 0xFF bytes or restricted data, as the table gives for the address. -/
  | win4Read (p : Port) (off : U64) (len : Nat)
  /-- WIN4_WRITE (R496): A window-4 write is written to GDDR7 or discarded, as the table gives for the address. -/
  | win4Write (p : Port) (off : U64) (data : List Byte)
  /-- FIRMWARE_IMAGE_DOWNLOAD (R98): An image is downloaded into a slot, which is set to PENDING with count 0. -/
  | firmwareImageDownload (n : NvmeCtx) (slot : Fin 4) (image : List Byte)
  /-- FIRMWARE_COMMIT (R112): The image is checked for validity and LIVE_COMPAT, and a live update starts or the command is refused. -/
  | firmwareCommit (n : NvmeCtx) (slot : Fin 4) (action : Fin 8)
  /-- LIVE_UPDATE_CORE (R113): One core's tasks move away, the new body is loaded and self-checked, and the tasks return. -/
  | liveUpdateCore (pass : Bool)
  /-- SECURITY_SEND (R111): Security Send with protocol 0xF1 delivers a 32-byte attestation nonce. -/
  | securitySend (n : NvmeCtx) (data : List Byte)
  /-- SECURITY_RECEIVE (R111): Security Receive with protocol 0xF1 returns the signed attestation report. -/
  | securityReceive (n : NvmeCtx) (alloc : Nat)
  /-- SECURITY_PROTOCOL_LIST (R502): Security Receive with protocol 0x00 lists the supported protocols. -/
  | securityProtocolList (n : NvmeCtx)
  /-- KEY_REQUEST (R119): A replacement sets KEYS_PENDING and requests keys from the source over the fabric. -/
  | keyRequest (source : Nat)
  /-- MIGRATION_NONCE (R119): The source sends the nonce, and the replacement answers with its certificate and attestation report. The node that the source sends its nonce to; none where this module is the replacement and receives it. -/
  | migrationNonce (dst : Option Nat) (nonce : List Byte)
  /-- MIGRATION_ATTESTATION (R119): The source checks the certificate, report, MEAS1 and SVN, and then sends the sealed key store. esc: a key store held in escrow, by its place in the list. -/
  | migrationAttestation (cert report : List Byte) (node : Nat) (esc : Option Nat)
  /-- MIGRATION_PACKAGE (R120): The replacement opens and checks the package, wraps the keys, updates the carriers and returns a receipt. -/
  | migrationPackage (package : MigPackage)
  /-- MIGRATION_RECEIPT (R120): The predecessor receives the receipt and erases its own key store. -/
  | migrationReceipt (receipt : List Byte)
  /-- ADOPT_SEL (R117): A write of ADOPT_SEL chooses a module set, whose carriers are then mounted. -/
  | adoptSel (w : Writer) (sel : Fin 16)
  /-- GOUGE_HASH (R133): A Gouge HASH descriptor computes CRC-32C or GH64 over a range. It is the descriptor at the head of the tile's queue. -/
  | gougeHash (t : TileId)
  /-- GOUGE_LOOKUP (R137): A Gouge LOOKUP descriptor probes a bucketed hash table for up to 64 keys. It is the descriptor at the head of the tile's queue. -/
  | gougeLookup (t : TileId)
  /-- GOUGE_LZEXEC (R134): A Gouge LZEXEC descriptor executes LZ sequences into an output window. It is the descriptor at the head of the tile's queue. -/
  | gougeLzexec (t : TileId)
  /-- GOUGE_HUFF (R133): A Gouge HUFF descriptor decodes canonical Huffman symbols. It is the descriptor at the head of the tile's queue. -/
  | gougeHuff (t : TileId)
  /-- GOUGE_TANS (R133): A Gouge TANS descriptor decodes tANS streams. It is the descriptor at the head of the tile's queue. -/
  | gougeTans (t : TileId)
  /-- GOUGE_STEP (R135): A Gouge STEP descriptor steps DFA or pushdown automata over byte streams. It is the descriptor at the head of the tile's queue. -/
  | gougeStep (t : TileId)
  /-- AES_DECRYPT (R132): The AES-GCM lane decrypts and checks the tag, zeroing its destination on a mismatch. -/
  | aesDecrypt (t : TileId)
  /-- AES_ENCRYPT (R131): The AES-GCM lane encrypts and appends the tag. -/
  | aesEncrypt (t : TileId)
  /-- DMA_COPY (R203): A DMA COPY descriptor copies between backed addresses, with an optional counter add. It is the descriptor at the head of the tile's queue. -/
  | dmaCopy (t : TileId)
  /-- DMA_FILL (R202): A DMA FILL descriptor repeats an 8-byte pattern over a destination. It is the descriptor at the head of the tile's queue. -/
  | dmaFill (t : TileId)
  /-- DMA_COPY2D (R202): A DMA COPY2D descriptor copies rows with strides. It is the descriptor at the head of the tile's queue. -/
  | dmaCopy2d (t : TileId)
  /-- DMA_COUNT (R203): A DMA COUNT descriptor only adds to a completion counter. It is the descriptor at the head of the tile's queue. -/
  | dmaCount (t : TileId)
  /-- CLOCK_STEP (R147): A cluster clock steps 25 MHz towards its effective frequency on its ramp timer. -/
  | clockStep (c : ClusterId)
  /-- TABLE_SET_LOADED (R145): A serving cluster finishes loading a job's table set and may take its first work unit. -/
  | tableSetLoaded (c : ClusterId) (j : JobSlot)
  /-- ADD (R169): Scalar rd := rs1 + rs2 modulo 2^64. -/
  | add (t : TileId) (rd rs1 rs2 : GReg)
  /-- SUB (R169): Scalar rd := rs1 - rs2 modulo 2^64. -/
  | sub (t : TileId) (rd rs1 rs2 : GReg)
  /-- AND (R169): Scalar bitwise AND. -/
  | andI (t : TileId) (rd rs1 rs2 : GReg)
  /-- OR (R169): Scalar bitwise OR. -/
  | orI (t : TileId) (rd rs1 rs2 : GReg)
  /-- XOR (R169): Scalar bitwise XOR. -/
  | xor (t : TileId) (rd rs1 rs2 : GReg)
  /-- SHL (R169): Scalar shift left. -/
  | shl (t : TileId) (rd rs1 rs2 : GReg)
  /-- SHR (R169): Scalar logical shift right. -/
  | shr (t : TileId) (rd rs1 rs2 : GReg)
  /-- SAR (R169): Scalar arithmetic shift right. -/
  | sar (t : TileId) (rd rs1 rs2 : GReg)
  /-- ROR (R169): Scalar rotate right. -/
  | ror (t : TileId) (rd rs1 rs2 : GReg)
  /-- SLT (R169): Scalar signed set-less-than. -/
  | slt (t : TileId) (rd rs1 rs2 : GReg)
  /-- SLTU (R169): Scalar unsigned set-less-than. -/
  | sltu (t : TileId) (rd rs1 rs2 : GReg)
  /-- MIN (R169): Scalar signed minimum. -/
  | minI (t : TileId) (rd rs1 rs2 : GReg)
  /-- MAX (R169): Scalar signed maximum. -/
  | maxI (t : TileId) (rd rs1 rs2 : GReg)
  /-- MINU (R169): Scalar unsigned minimum. -/
  | minu (t : TileId) (rd rs1 rs2 : GReg)
  /-- MAXU (R169): Scalar unsigned maximum. -/
  | maxu (t : TileId) (rd rs1 rs2 : GReg)
  /-- MUL (R169): Scalar low 64 bits of the product. -/
  | mul (t : TileId) (rd rs1 rs2 : GReg)
  /-- MULH (R169): Scalar high 64 bits of the signed product. -/
  | mulh (t : TileId) (rd rs1 rs2 : GReg)
  /-- MULHU (R169): Scalar high 64 bits of the unsigned product. -/
  | mulhu (t : TileId) (rd rs1 rs2 : GReg)
  /-- DIV (R170): Scalar signed division, with defined results for a divisor of zero and for overflow. -/
  | div (t : TileId) (rd rs1 rs2 : GReg)
  /-- DIVU (R170): Scalar unsigned division. -/
  | divu (t : TileId) (rd rs1 rs2 : GReg)
  /-- REM (R170): Scalar signed remainder. -/
  | rem (t : TileId) (rd rs1 rs2 : GReg)
  /-- REMU (R170): Scalar unsigned remainder. -/
  | remu (t : TileId) (rd rs1 rs2 : GReg)
  /-- CLZ (R169): Scalar count of leading zeros. The rs2 field is reserved. -/
  | clz (t : TileId) (rd rs1 rs2 : GReg)
  /-- CTZ (R169): Scalar count of trailing zeros. The rs2 field is reserved. -/
  | ctz (t : TileId) (rd rs1 rs2 : GReg)
  /-- POPC (R169): Scalar population count. The rs2 field is reserved. -/
  | popc (t : TileId) (rd rs1 rs2 : GReg)
  /-- BSWAP (R169): Scalar byte swap. The rs2 field is reserved. -/
  | bswap (t : TileId) (rd rs1 rs2 : GReg)
  /-- ADDI (R167): Scalar add of a sign-extended immediate. -/
  | addi (t : TileId) (rd rs1 : GReg) (imm : BitVec 16)
  /-- ANDI (R167): Scalar AND with a zero-extended immediate. -/
  | andi (t : TileId) (rd rs1 : GReg) (imm : BitVec 16)
  /-- ORI (R167): Scalar OR with a zero-extended immediate. -/
  | ori (t : TileId) (rd rs1 : GReg) (imm : BitVec 16)
  /-- XORI (R167): Scalar XOR with a zero-extended immediate. -/
  | xori (t : TileId) (rd rs1 : GReg) (imm : BitVec 16)
  /-- SHI (R167): Scalar shift or rotate by an immediate. -/
  | shi (t : TileId) (rd rs1 : GReg) (imm : BitVec 16)
  /-- LUI (R167): Scalar load of an upper immediate. The rs1 field is reserved. -/
  | lui (t : TileId) (rd rs1 : GReg) (imm : BitVec 16)
  /-- SLTI (R167): Scalar signed compare with an immediate. -/
  | slti (t : TileId) (rd rs1 : GReg) (imm : BitVec 16)
  /-- SLTIU (R167): Scalar unsigned compare with an immediate. -/
  | sltiu (t : TileId) (rd rs1 : GReg) (imm : BitVec 16)
  /-- LI (R168): Long-form load of a 32-bit immediate into the low or high half. -/
  | li (t : TileId) (rd : GReg) (high : Bool) (imm : BitVec 32)
  /-- BEQ (R171): Branch if equal. -/
  | beq (t : TileId) (rs1 rs2 : GReg) (off : BitVec 16)
  /-- BNE (R171): Branch if not equal. -/
  | bne (t : TileId) (rs1 rs2 : GReg) (off : BitVec 16)
  /-- BLT (R171): Branch if signed less. -/
  | blt (t : TileId) (rs1 rs2 : GReg) (off : BitVec 16)
  /-- BGE (R171): Branch if signed greater or equal. -/
  | bge (t : TileId) (rs1 rs2 : GReg) (off : BitVec 16)
  /-- BLTU (R171): Branch if unsigned less. -/
  | bltu (t : TileId) (rs1 rs2 : GReg) (off : BitVec 16)
  /-- BGEU (R171): Branch if unsigned greater or equal. -/
  | bgeu (t : TileId) (rs1 rs2 : GReg) (off : BitVec 16)
  /-- JAL (R171): Jump and link. -/
  | jal (t : TileId) (rd : GReg) (off : BitVec 21)
  /-- JALR (R171): Jump to a register and link. -/
  | jalr (t : TileId) (rd rs1 : GReg) (imm : BitVec 16)
  /-- LOAD (R172): Scalar load from tile or cluster SRAM, with zero or sign extension. -/
  | load (t : TileId) (rd rs1 : GReg) (w : Fin 8) (off : BitVec 13)
  /-- STORE (R172): Scalar store to tile or cluster SRAM. -/
  | store (t : TileId) (rd rs1 : GReg) (w : Fin 8) (off : BitVec 13)
  /-- VLD (R175): Vector load of 64 bytes or of a broadcast element. -/
  | vld (t : TileId) (vd : VReg) (rs1 : GReg) (pg : PReg) (mode : Fin 8) (off : BitVec 10)
  /-- VST (R175): Vector store of the active byte lanes. -/
  | vst (t : TileId) (vd : VReg) (rs1 : GReg) (pg : PReg) (mode : Fin 8) (off : BitVec 10)
  /-- VFP_ADD (R176): Vector floating-point add. -/
  | vfpAdd (t : TileId) (a : VArgs)
  /-- VFP_SUB (R176): Vector floating-point subtract. -/
  | vfpSub (t : TileId) (a : VArgs)
  /-- VFP_MUL (R176): Vector floating-point multiply. -/
  | vfpMul (t : TileId) (a : VArgs)
  /-- VFP_DIV (R176): Vector floating-point divide. -/
  | vfpDiv (t : TileId) (a : VArgs)
  /-- SQRT (R176): Vector floating-point square root. -/
  | sqrt (t : TileId) (a : VArgs)
  /-- VFP_MIN (R176): Vector minimumNumber. -/
  | vfpMin (t : TileId) (a : VArgs)
  /-- VFP_MAX (R176): Vector maximumNumber. -/
  | vfpMax (t : TileId) (a : VArgs)
  /-- VFP_ABS (R176): Vector floating-point absolute value. -/
  | vfpAbs (t : TileId) (a : VArgs)
  /-- NEG (R176): Vector floating-point negation. -/
  | neg (t : TileId) (a : VArgs)
  /-- FLOOR (R176): Vector round towards minus infinity. -/
  | floor (t : TileId) (a : VArgs)
  /-- CEIL (R176): Vector round towards plus infinity. -/
  | ceil (t : TileId) (a : VArgs)
  /-- TRUNC (R176): Vector round towards zero. -/
  | trunc (t : TileId) (a : VArgs)
  /-- RINT (R176): Vector round to nearest even. -/
  | rint (t : TileId) (a : VArgs)
  /-- VINT_ADD (R176): Vector integer add modulo the width. -/
  | vintAdd (t : TileId) (a : VArgs)
  /-- VINT_SUB (R176): Vector integer subtract modulo the width. -/
  | vintSub (t : TileId) (a : VArgs)
  /-- ADDS (R176): Vector signed saturating add. -/
  | adds (t : TileId) (a : VArgs)
  /-- ADDUS (R176): Vector unsigned saturating add. -/
  | addus (t : TileId) (a : VArgs)
  /-- SUBS (R176): Vector signed saturating subtract. -/
  | subs (t : TileId) (a : VArgs)
  /-- SUBUS (R176): Vector unsigned saturating subtract. -/
  | subus (t : TileId) (a : VArgs)
  /-- VINT_MUL (R176): Vector integer multiply, low half. -/
  | vintMul (t : TileId) (a : VArgs)
  /-- MADD (R176): Vector integer multiply-add. -/
  | madd (t : TileId) (a : VArgs)
  /-- VINT_MIN (R176): Vector signed minimum. -/
  | vintMin (t : TileId) (a : VArgs)
  /-- VINT_MAX (R176): Vector signed maximum. -/
  | vintMax (t : TileId) (a : VArgs)
  /-- VINT_MINU (R176): Vector unsigned minimum. -/
  | vintMinu (t : TileId) (a : VArgs)
  /-- VINT_MAXU (R176): Vector unsigned maximum. -/
  | vintMaxu (t : TileId) (a : VArgs)
  /-- MULHS (R176): Vector signed multiply, high half. -/
  | mulhs (t : TileId) (a : VArgs)
  /-- VINT_MULHU (R176): Vector unsigned multiply, high half. -/
  | vintMulhu (t : TileId) (a : VArgs)
  /-- ABSDIFFU (R176): Vector unsigned absolute difference. -/
  | absdiffu (t : TileId) (a : VArgs)
  /-- VBIT_AND (R176): Vector bitwise AND. -/
  | vbitAnd (t : TileId) (a : VArgs)
  /-- VBIT_OR (R176): Vector bitwise OR. -/
  | vbitOr (t : TileId) (a : VArgs)
  /-- VBIT_XOR (R176): Vector bitwise XOR. -/
  | vbitXor (t : TileId) (a : VArgs)
  /-- ANDN (R176): Vector vs1 AND NOT vs2. -/
  | andn (t : TileId) (a : VArgs)
  /-- VBIT_SHL (R176): Vector shift left by lane. -/
  | vbitShl (t : TileId) (a : VArgs)
  /-- VBIT_SHR (R176): Vector logical shift right by lane. -/
  | vbitShr (t : TileId) (a : VArgs)
  /-- VBIT_SAR (R176): Vector arithmetic shift right by lane. -/
  | vbitSar (t : TileId) (a : VArgs)
  /-- SHLI (R176): Vector shift left by an immediate. -/
  | shli (t : TileId) (a : VArgs)
  /-- SHRI (R176): Vector logical shift right by an immediate. -/
  | shri (t : TileId) (a : VArgs)
  /-- SARI (R176): Vector arithmetic shift right by an immediate. -/
  | sari (t : TileId) (a : VArgs)
  /-- VBIT_ABS (R176): Vector signed absolute value. -/
  | vbitAbs (t : TileId) (a : VArgs)
  /-- AVGU (R176): Vector unsigned rounding average. -/
  | avgu (t : TileId) (a : VArgs)
  /-- VCMP_EQ (R177): Vector compare equal into a predicate. -/
  | vcmpEq (t : TileId) (a : VArgs)
  /-- VCMP_NE (R177): Vector compare not equal into a predicate. -/
  | vcmpNe (t : TileId) (a : VArgs)
  /-- VCMP_LT (R177): Vector compare less into a predicate. -/
  | vcmpLt (t : TileId) (a : VArgs)
  /-- VCMP_LE (R177): Vector compare less or equal into a predicate. -/
  | vcmpLe (t : TileId) (a : VArgs)
  /-- VCMP_LTU (R177): Vector unsigned compare less into a predicate. -/
  | vcmpLtu (t : TileId) (a : VArgs)
  /-- VCMP_LEU (R177): Vector unsigned compare less or equal into a predicate. -/
  | vcmpLeu (t : TileId) (a : VArgs)
  /-- UNORD (R177): Vector unordered compare into a predicate. -/
  | unord (t : TileId) (a : VArgs)
  /-- REV (R178): Reverse the lanes. -/
  | rev (t : TileId) (a : VArgs)
  /-- ZIPLO (R178): Interleave the low halves. -/
  | ziplo (t : TileId) (a : VArgs)
  /-- ZIPHI (R178): Interleave the high halves. -/
  | ziphi (t : TileId) (a : VArgs)
  /-- UNZIPE (R178): Take the even lanes. -/
  | unzipe (t : TileId) (a : VArgs)
  /-- UNZIPO (R178): Take the odd lanes. -/
  | unzipo (t : TileId) (a : VArgs)
  /-- DUP (R178): Broadcast lane 0. -/
  | dup (t : TileId) (a : VArgs)
  /-- COMPRESS (R178): Pack the active lanes to the bottom. -/
  | compress (t : TileId) (a : VArgs)
  /-- SEL (R178): Select lanes by the predicate. -/
  | sel (t : TileId) (a : VArgs)
  /-- VTBL (R179): Byte table permute over 128 bytes. -/
  | vtbl (t : TileId) (a : VArgs) (vi : VReg)
  /-- VGATHER (R180): Indexed gather of 16 elements. -/
  | vgather (t : TileId) (a : GatherArgs)
  /-- VSCATTER (R180): Indexed scatter of 16 elements. -/
  | vscatter (t : TileId) (a : GatherArgs)
  /-- FMA (R181): VFMA vs1*vs2+vs3 with one rounding. -/
  | fma (t : TileId) (a : VArgs) (vs3 : VReg)
  /-- FMS (R181): VFMA vs1*vs2-vs3 with one rounding. -/
  | fms (t : TileId) (a : VArgs) (vs3 : VReg)
  /-- FNMA (R181): VFMA -(vs1*vs2)+vs3 with one rounding. -/
  | fnma (t : TileId) (a : VArgs) (vs3 : VReg)
  /-- FNMS (R181): VFMA -(vs1*vs2)-vs3 with one rounding. -/
  | fnms (t : TileId) (a : VArgs) (vs3 : VReg)
  /-- VDOT (R182): Dot-product accumulate into 32-bit lanes. -/
  | vdot (t : TileId) (a : VArgs) (fn : Fin 16)
  /-- VCMX (R183): Apply a 3x4 colour matrix to three planes. The vs2 field names a g register. -/
  | vcmx (t : TileId) (a : VArgs)
  /-- VCVT (R190): Convert lanes between types with the chosen rounding and saturation. -/
  | vcvt (t : TileId) (a : CvtArgs)
  /-- SUM (R191): Fixed-order tree sum reduction. -/
  | sumI (t : TileId) (a : VArgs)
  /-- VRED_MIN (R191): Fixed-order minimum reduction. -/
  | vredMin (t : TileId) (a : VArgs)
  /-- VRED_MAX (R191): Fixed-order maximum reduction. -/
  | vredMax (t : TileId) (a : VArgs)
  /-- SUMW (R191): Fixed-order widening sum reduction. -/
  | sumw (t : TileId) (a : VArgs)
  /-- PRED_AND (R198): Predicate AND. -/
  | predAnd (t : TileId) (pd pa pb : PReg)
  /-- PRED_OR (R198): Predicate OR. -/
  | predOr (t : TileId) (pd pa pb : PReg)
  /-- PRED_XOR (R198): Predicate XOR. -/
  | predXor (t : TileId) (pd pa pb : PReg)
  /-- PRED_ANDN (R198): Predicate AND NOT. -/
  | predAndn (t : TileId) (pd pa pb : PReg)
  /-- NOT (R198): Predicate NOT. -/
  | notI (t : TileId) (pd pa : PReg)
  /-- PRED_FROM_G (R198): Set a predicate register from a g register. -/
  | predFromG (t : TileId) (pd : PReg) (rs : GReg)
  /-- PRED_TO_G (R198): Copy a predicate register into a g register. -/
  | predToG (t : TileId) (rs : GReg) (pa : PReg)
  /-- PRED_FIRST_N (R198): Set the first min(g,64) lanes of a predicate. -/
  | predFirstN (t : TileId) (pd : PReg) (rs : GReg)
  /-- PRED_POPC (R198): Count the set bits of a predicate into a g register. -/
  | predPopc (t : TileId) (rs : GReg) (pa : PReg)
  /-- VTOG (R197): Move a vector lane to a g register. -/
  | vtog (t : TileId) (rd : GReg) (rs1 : VReg) (rs2 : GReg) (size : Fin 4)
  /-- GTOV (R197): Move a g register into a vector lane. -/
  | gtov (t : TileId) (vd : VReg) (rs1 rs2 : GReg) (size : Fin 4)
  /-- GBCAST (R197): Broadcast a g register to every lane. -/
  | gbcast (t : TileId) (vd : VReg) (rs1 : GReg) (size : Fin 4)
  /-- VMOV (R197): Copy a vector register. -/
  | vmov (t : TileId) (vd vs : VReg)
  /-- CSRR (R197): Read a CSR. -/
  | csrr (t : TileId) (rd : GReg) (n : Fin 32)
  /-- CSRW (R162): Write a CSR; writes to CYCLE or WUDESC raise ILLEGAL. -/
  | csrw (t : TileId) (n : Fin 32) (rs1 : GReg)
  /-- WAIT (R214): Block until a sync object's count is at least 1, then decrement it. With e it goes into the vector queue. -/
  | wait (t : TileId) (e : Bool) (k : SyncId)
  /-- WAIT_RELEASE (R215): A blocked waiter is served by a signal and released 4 cycles later. The engine: 0 scalar core, 1 vector unit, 2 Gouge, 3 AES-GCM, 4 DMA. -/
  | waitRelease (t : TileId) (eng : Fin 5)
  /-- SIGNAL (R214): Increment a sync object's count, saturating with OVF; fence audit may flag it. -/
  | signal (t : TileId) (e : Bool) (k : SyncId)
  /-- TRYWAIT (R215): Decrement a sync object's count without blocking if possible, and report the result. -/
  | trywait (t : TileId) (e : Bool) (k : SyncId) (rd : GReg)
  /-- FENCE (R199): Wait until earlier writes are visible, or earlier reads are complete, within the tile. -/
  | fence (t : TileId) (e r w : Bool)
  /-- GQ (R200): Enqueue a 64-byte descriptor to the Gouge queue. -/
  | gq (t : TileId) (vs : VReg)
  /-- AQ (R200): Enqueue a descriptor to the AES-GCM queue. -/
  | aq (t : TileId) (vs : VReg)
  /-- DQ (R200): Enqueue a descriptor to the DMA queue. -/
  | dq (t : TileId) (vs : VReg)
  /-- NOP (R201): SYS NOP does nothing. -/
  | nopI (t : TileId)
  /-- DONE (R201): Drain the engines, fence, and end the work unit with its status, making the entry DONE. -/
  | done (t : TileId) (rs : GReg)
  /-- TRAP (R201): Raise TRAP with a code. -/
  | trap (t : TileId) (code : BitVec 16)
  /-- CRC32CB (R193): Advance a CRC-32C state over 1 byte. -/
  | crc32cb (t : TileId) (rd rs1 rs2 : GReg)
  /-- CRC32CH (R193): Advance a CRC-32C state over 2 bytes. -/
  | crc32ch (t : TileId) (rd rs1 rs2 : GReg)
  /-- CRC32CW (R193): Advance a CRC-32C state over 4 bytes. -/
  | crc32cw (t : TileId) (rd rs1 rs2 : GReg)
  /-- CRC32CD (R193): Advance a CRC-32C state over 8 bytes. -/
  | crc32cd (t : TileId) (rd rs1 rs2 : GReg)
  /-- GHINIT (R193): Initialise a GH64 state. -/
  | ghinit (t : TileId) (rd rs1 rs2 : GReg)
  /-- GHSTEP (R193): Perform one GH64 word step. -/
  | ghstep (t : TileId) (rd rs1 rs2 : GReg)
  /-- GHFIN (R193): Finalise a GH64 state. -/
  | ghfin (t : TileId) (rd rs1 rs2 : GReg)
  /-- VHASH_GHINIT (R194): GHINIT on eight 64-bit lanes. -/
  | vhashGhinit (t : TileId) (a : VArgs)
  /-- VHASH_GHSTEP (R194): GHSTEP on eight 64-bit lanes. -/
  | vhashGhstep (t : TileId) (a : VArgs)
  /-- VHASH_GHFIN (R194): GHFIN on eight 64-bit lanes. -/
  | vhashGhfin (t : TileId) (a : VArgs)
  /-- VHASH_CRC32CD (R194): CRC32CD on eight 64-bit lanes. -/
  | vhashCrc32cd (t : TileId) (a : VArgs)
  /-- RNGCTR (R195): Compute Philox 4x32-10 on four counter groups. The vs2 field names a g register. -/
  | rngctr (t : TileId) (a : VArgs)
  /-- TILE_DEADLOCK (R224): The tile detector fires after DEADLOCK_WINDOW quiet cycles, ends the unit without DONE and re-runs it elsewhere. -/
  | tileDeadlock (t : TileId)
  /-- ENTRY_PLACE (R230): The control complex writes a work-unit entry into a queue as WAITING or READY. The queue, the 64 bytes, and what the plan says of the unit: bytes of its slot, module rows it completes, buffers its DONE releases, and whether it is a sample's, with the shipped kernels or the job's own code. -/
  | entryPlace (toDie : Bool) (n : Fin 32) (bytes : List Byte) (slotLen : Nat) (rows frees : List Nat) (kind : UnitKind)
  /-- DEPENDENCY_MET (R231): A WAITING entry's counter reaches DEP_VALUE, and the entry becomes READY. -/
  | dependencyMet (c : ClusterId) (pos : Fin 4096)
  /-- WORK_UNIT_TAKE (R235): An idle tile with a duty takes the next READY entry in its own cluster, region or die-queue order. -/
  | workUnitTake (t : TileId)
  /-- SPILL (R238): A cluster queue above SPILL_MARK moves its newest READY entry to the die queue. -/
  | spill (c : ClusterId)
  /-- ENTRY_COLLECT (R230): The control complex collects a DONE entry, reads its mailboxes and frees the buffers the plan names. The queue and the position of the entry, and what its mailboxes tell. -/
  | entryCollect (onDie : Bool) (q : Fin 32) (pos : Nat) (report : UnitReport)
  /-- CLUSTER_DEADLOCK (R240): The cluster detector fires when duty tiles are blocked and WAITING counters do not move for its window. -/
  | clusterDeadlock (c : ClusterId)
  /-- DEADLOCK_EXAMINE (R241): The control complex examines each job of the fired cluster, re-arming the detector or failing the job. Jobs with a YFT operation in flight, and jobs with a planned entry not yet placed. -/
  | deadlockExamine (c : ClusterId) (yft planned : List JobSlot)
  /-- SCRUB_READ (R253): A background scrub read checks and corrects a word. -/
  | scrubRead (a : U64)
  /-- REFRESH (R247): A per-bank GDDR7 refresh is performed at its interval. A refresh changes latency only. -/
  | refresh (dev : Fin 16) (bank : Nat)
  /-- RETRAIN_START (R254): A retraining trigger starts the live retraining of a GDDR7 channel within the concurrency limits. The trigger: 0 link CRC, 1 temperature, 2 period, 3 a bit of MEM_RETRAIN_REQ. -/
  | retrainStart (chan : Fin 64) (trig : Fin 4)
  /-- RETRAIN_END (R255): The retraining ends, held accesses resume, or the channel is degraded or taken out of service. Whether the training passes. -/
  | retrainEnd (chan : Fin 64) (pass : Bool)
  /-- MEM_RETRAIN_REQ (R254): Writing a bit of MEM_RETRAIN_REQ requests a retraining of that channel. -/
  | memRetrainReq (w : Writer) (bits : U64)
  /-- MEM_HOST_LIMIT (R628): A write of LIMIT while the MEM block is idle moves the host and module areas or is refused. -/
  | memHostLimit (w : Writer) (val : U64)
  /-- ALLOC (R265): A buffer allocation is served from the Chuck, waits, or fails with ST_POOL_EMPTY. -/
  | alloc (u : Requester) (owner size : Nat)
  /-- FREE (R262): A buffer free is checked, and the handle is returned with a new GEN or refused. -/
  | free (u : Requester) (owner : Nat) (handle : U32)
  /-- CHUCK_REFILL (R260): A ring read of 128 handles lands in the Chuck. -/
  | chuckRefill (k : Fin 8)
  /-- POOL_ENABLE (R269): Writing ENABLE 1 checks the pool's areas and fills its ring, state table and Chuck. COUNT is written with ENABLE. -/
  | poolEnable (w : Writer) (k : Fin 8) (count : BitVec 25)
  /-- POOL_DISABLE (R269): Writing ENABLE 0 clears READY and discards the ring. -/
  | poolDisable (w : Writer) (k : Fin 8) (count : BitVec 25)
  /-- CTX_CREATE (R271): A context slot is created for a shard cursor, sequence or YFT queue. KIND less 1. -/
  | ctxCreate (kind : Fin 3) (owner : U16) (body : List Byte)
  /-- CTX_FREE (R271): A context slot is freed, and its GEN advances. -/
  | ctxFree (ref : U32)
  /-- CTX_CHECKOUT (R274): A unit checks a slot out of the context cache, waiting on contention. -/
  | ctxCheckout (unit : Nat) (ref : U32) (pin : Bool)
  /-- CTX_MISS_FILL (R274): A missed slot's GDDR7 read completes, and a victim is written back. -/
  | ctxMissFill (slot : BitVec 18)
  /-- CTX_CHECKIN (R274): A unit checks a slot back in. -/
  | ctxCheckin (unit : Nat) (slot : BitVec 18) (body : Option (List Byte)) (unpin : Bool)
  /-- CTX_FLUSH (R277): Writing FLUSH writes every dirty slot back to GDDR7. -/
  | ctxFlush (w : Writer)
  /-- JOB_START (R523): A JOB_START pipeline entry starts a standalone or multi-module job. The fields of the entry. -/
  | jobStart (c : PipeCtx) (image len launch list : U64) (count : U16)
  /-- LAUNCH (R438): The spindle count reaches LAUNCH and the job starts running. -/
  | launch (j : JobSlot)
  /-- JOB_CANCEL (R525): A JOB_CANCEL entry cancels a job slot, subject to ownership. -/
  | jobCancel (c : PipeCtx) (slot : Byte)
  /-- SAMPLE_FETCH (R37): A sample's record extent is fetched through the FTL or by a YFT read into a pool buffer. The position (N or more for a reserve index), the time the fetch took, what a YFT read of another owner brought, and the indirection units that all retries leave unreadable. -/
  | sampleFetch (j : JobSlot) (epoch : U32) (pos : Nat) (ns : Nat) (remote : Option RemoteRead) (bad : List Nat)
  /-- BATCH_START (R304): Work for batch k starts once batch k-D has finished its emission. The module channel. -/
  | batchStart (k : Fin 68)
  /-- BATCH_EMIT (R305): The batch begins emission once written, in order and due, late if needed, updating the digest. The module channel. -/
  | batchEmit (k : Fin 68)
  /-- RECORD_EMIT (R307): An unordered record is emitted as soon as its work unit completes. -/
  | recordEmit (j : JobSlot) (epoch : U32) (pos : Nat)
  /-- JOB_RELEASE (R312): An ended job's last emission finishes, its slot and resources are freed, and the END completion is posted. -/
  | jobRelease (j : JobSlot)
  /-- AUG_READY (R338): A write of AUG_READY hands augmentation ring slots to the module or is discarded. -/
  | augReady (w : Writer) (j : JobSlot) (val : U32)
  /-- DC_LOOKUP (R347): A serving module looks up a sample's key at its homes by local or YFT reads. The position; FRAME_LEN and FRAME_CRC that a YFT read brought for a shard of another owner; what reads of each home in order brought; units unreadable after all retries; the flash tier could not be read. -/
  | dcLookup (j : JobSlot) (epoch : U32) (pos : Nat) (index : Option (Nat × Nat)) (found : List (Option DcRemote)) (bad : List Nat) (flashBad : Bool)
  /-- DC_OFFER (R347): After a miss everywhere, the decoded entry is offered to each home's insert ring. The position and the decoded sample; index and bad as in DC_LOOKUP. -/
  | dcOffer (j : JobSlot) (epoch : U32) (pos : Nat) (payload : List Byte) (index : Option (Nat × Nat)) (bad : List Nat)
  /-- DC_INSERT (R348): A home accepts or refuses an offer and publishes the payload, header and bucket. An offer written by a peer; none for the head of the insert ring. -/
  | dcInsert (peer : Option DcRemote)
  /-- SEGMENT_REUSE (R348): An unlinked segment becomes reusable 1 ms later with an advanced generation. -/
  | segmentReuse
  /-- CODEC (R362): A CODEC entry starts a compress, decompress or verify request as a job. The address of the request block. -/
  | codec (c : PipeCtx) (request : U64)
  /-- CODEC_COMPLETE (R365): Every item finishes, and the request completes, or fails with ST_OUT_OVERFLOW. -/
  | codecComplete (j : JobSlot)
  /-- KEY_CREATE (R373): Generate a key with its policy, flags and signer in the key store. -/
  | keyCreate (n : NvmeCtx) (policy : Byte) (flags : U16) (signer : List Byte)
  /-- KEY_IMPORT (R373): Import an encapsulated key into the key store. -/
  | keyImport (n : NvmeCtx) (policy : Byte) (flags : U16) (signer kem iv ct tag : List Byte)
  /-- KEY_NARROW (R373): Narrow a key's POLICY. -/
  | keyNarrow (n : NvmeCtx) (h : U64) (policy : Byte)
  /-- KEY_REVOKE (R375): Revoke a key, which clears job tables and lane caches and fails the jobs that hold it. -/
  | keyRevoke (n : NvmeCtx) (h : U64)
  /-- KEY_DESTROY (R373): Erase a revoked key and free its ID. -/
  | keyDestroy (n : NvmeCtx) (h : U64)
  /-- KEY_LIST (R373): Return every key record without its material. -/
  | keyList (n : NvmeCtx)
  /-- SESSION_START (R402): A SESSION_START entry starts a generation session as a job. The address of the session block. -/
  | sessionStart (c : PipeCtx) (session : U64)
  /-- SESSION_MESSAGE (R403): A YFT message to a session queue is parsed into commands or discarded whole. The session and the receive queue whose oldest message it is. -/
  | sessionMessage (j : JobSlot) (q : U32)
  /-- OPEN (R404): Create a generation sequence and write its first result with a mask. The 64 bytes of the command. -/
  | openI (j : JobSlot) (cmd : List Byte)
  /-- STEP (R405): Apply a token to a sequence: checks, stop match, end, grammar advance and next mask. -/
  | step (j : JobSlot) (ref stepNo token : U32)
  /-- CLOSE (R407): End a sequence with CLOSED and free its slot. -/
  | closeI (j : JobSlot) (ref : U32)
  /-- OUTPUT_FRAME_WRITE (R411): An ended sequence's output frame is written to the extent, and GRM_OUT advances. -/
  | outputFrameWrite (j : JobSlot)
  /-- SYNC_PERIOD (R419): The manager's period timer sends SYNC to a worker with stamp t1. The worker, and the stamp of the frame. -/
  | syncPeriod (node : U32) (t1 : U64)
  /-- SYNC (R419): A worker receives SYNC, replies, and evaluates its exchange window to step or slew. t1 and t4 from the message, the stamps t2 and t3 of this module, and its estimate of the bound of R423. -/
  | sync (node : U32) (t1 t2 t3 : U64) (t4 : Option U64) (est : Nat)
  /-- SYNC_REPLY (R419): The manager receives SYNC_REPLY and records t4 for the next SYNC. -/
  | syncReply (node : U32) (t2 t3 t4 : U64)
  /-- HOLDOVER_ENTER (R421): No accepted window for 64 periods moves a LOCKED worker to HOLDOVER. -/
  | holdoverEnter
  /-- UNSYNC_ENTER (R421): ERR_BOUND grows above UNSYNC_NS and the worker enters UNSYNC. -/
  | unsyncEnter
  /-- SPN_SET (R426): A write of SPN_SET steps the spindle count when permitted. -/
  | spnSet (w : Writer) (val : U64)
  /-- SPN_MGR_NODE (R428): A write of NODE makes the worker leave its manager and send HELLO to the new one. -/
  | spnMgrNode (w : Writer) (node : U32)
  /-- HELLO (R428): The manager receives HELLO and replies with a nonce. -/
  | hello (node : U32)
  /-- NONCE (R428): The worker receives the nonce and sends JOIN with its certificate and report. -/
  | nonce (node : U32) (nonce : List Byte)
  /-- JOIN (R428): The manager checks JOIN and sends WELCOME or REFUSE, adopting counts when returning. The message, and the stamps of the exchange by which a returning manager measures the worker (R437). -/
  | join (node : U32) (cert report : List Byte) (caps fdoms : List Nat) (hasJob : Bool) (t1 t2 t3 t4 : U64)
  /-- WELCOME (R428): The worker is joined and starts synchronising. The manager, and its PWR_TOLERANCE_NS. -/
  | welcome (node tol : U32)
  /-- REFUSE (R428): The worker stays unjoined and records an event. -/
  | refuse (node : U32) (status : U16)
  /-- PREPARE (R431): A worker receives the plan and starts receiving and forwarding the image. -/
  | prepare (node planSeq : U32) (nonce digest : List Byte) (len idx modules l : Nat) (children : List Nat) (homes : List (List Nat))
  /-- IMAGE_STAGED (R431): The image arrives in staging, its digest is checked, it is forwarded and accepted, and READY or REFUSE_PLAN is sent. -/
  | imageStaged (planSeq : U32) (image : List Byte)
  /-- READY (R432): The manager records READY and sends GO when every module is ready. -/
  | ready (node planSeq : U32) (count : U64)
  /-- REFUSE_PLAN (R432): The manager receives a refusal and cancels the start. -/
  | refusePlan (node planSeq : U32) (status : U16)
  /-- PREPARE_TIMEOUT (R432): No reply within 120 s of PREPARE makes the manager cancel the start. -/
  | prepareTimeout (planSeq : U32)
  /-- GO (R433): A worker sets LAUNCH and waits, or starts at once if the count has passed it. -/
  | go (node planSeq : U32) (launch : U64)
  /-- CANCEL (R433): A worker cancels the job in any state. -/
  | cancel (node planSeq : U32)
  /-- REPORT (R429): The manager takes statistics and final digests from a worker. -/
  | report (node planSeq : U32) (stats : List Nat) (digest : Option (List Byte))
  /-- LOST (R435): A module stops YFT traffic to the lost module and treats its samples as media failures. -/
  | lost (node planSeq : U32) (idx : Nat)
  /-- LEAVE (R435): The manager receives LEAVE and sends LOST for the worker. -/
  | leave (node : U32)
  /-- WORKER_SILENT (R435): A worker silent for 1 s is declared lost by the manager. -/
  | workerSilent (node : U32)
  /-- TIME (R483): A TIME exchange from a non-module peer is answered as SYNC. The peer, and the stamps of this module. -/
  | time (node : U32) (t2 t3 : U64)
  /-- LINK_UP (R453): A fabric port's link comes up, sparing maps reset and SPARE_HELLO begins. Whether the engine advertises the application that the mode needs. -/
  | linkUp (p : Port) (app : Bool)
  /-- LINK_DOWN (R453): A fabric port's link goes down, and its paths are marked bad. -/
  | linkDown (p : Port)
  /-- BRINGUP_RETRY (R453): A down port retries bring-up every 100 ms. Whether the engine reports its data path active, and as in LINK_UP. -/
  | bringupRetry (p : Port) (active app : Bool)
  /-- SPARE_HELLO (R454): The partner's answer to SPARE_HELLO sets PARTNER. -/
  | spareHello (p : Port)
  /-- LANE_DEGRADE (R455): A lane's BER stays above threshold for 1 s or it loses lock or signal, and a swap is requested. -/
  | laneDegrade (p : Port) (lane : Fin 9)
  /-- SPARE_REQ (R455): The transmitter receives SPARE_REQ, acknowledges and mirrors the lane onto lane 8. -/
  | spareReq (p : Port) (lane : Fin 9)
  /-- SPARE_ACK (R455): The receiver locks lane 8, switches at an alignment marker and sends SPARE_DONE. -/
  | spareAck (p : Port)
  /-- SPARE_DONE (R455): The transmitter turns the failed lane off and records the swap. -/
  | spareDone (p : Port)
  /-- SPARE_ABANDON (R457): No SPARE_ACK within 1 ms abandons the swap, to be repeated after 1 s. -/
  | spareAbandon (p : Port)
  /-- REQ (R455): Writing REQ requests a swap of the receive lane REQ_LANE. -/
  | req (p : Port)
  /-- REVERT (R457): Writing REVERT returns the spared lane to service make-before-break. -/
  | revert (p : Port)
  /-- CMIS_POLL (R458): The optical-engine monitors are read every 100 ms. -/
  | cmisPoll (p : Port) (r : OeReading)
  /-- OE_INTERRUPT (R458): OEn_INTL falls, and the latched flags are read within 1 ms. Lanes whose channel has lost its signal or has a laser fault. -/
  | oeInterrupt (p : Port) (lanes : List Nat)
  /-- OE_REMOVAL (R458): OEn_PRSL goes high, and the port goes down at once. -/
  | oeRemoval (p : Port)
  /-- OE_INSERTION (R458): An engine is inserted and reset at the next enable. -/
  | oeInsertion (p : Port)
  /-- MARGIN_SWEEP (R460): Every MARGIN_S seconds each receive lane's margin is swept. BER_EXP, HMARGIN and VMARGIN of each physical lane. -/
  | marginSweep (p : Port) (l : List (Nat × Nat × Nat))
  /-- WRITE (R481): A received YFT WRITE packet is judged, checked and placed. -/
  | write (p : YftPkt)
  /-- READ_REQ (R479): A received READ_REQ is judged and checked, and the data is read and returned. The packet, and the indirection units that all flash retries leave unreadable. -/
  | readReq (p : YftPkt) (bad : List Nat)
  /-- READ_RESP (R473): A received READ_RESP places response data at the requester. -/
  | readResp (p : YftPkt)
  /-- FETCH_ADD (R473): A received FETCH_ADD applies the add atomically and returns the old value. -/
  | fetchAdd (p : YftPkt)
  /-- CAS (R473): A received CAS compares and swaps atomically and returns the old value. -/
  | cas (p : YftPkt)
  /-- ATOMIC_RESP (R473): A received ATOMIC_RESP writes the old value at the requester. -/
  | atomicResp (p : YftPkt)
  /-- SEND (R475): A received SEND takes a receive buffer, or is answered with a NAK. -/
  | send (p : YftPkt)
  /-- ACK (R481): A received ACK advances acknowledgement and completes entries. -/
  | ack (p : YftPkt)
  /-- NAK (R478): A received NAK fails the message with its status, or schedules a resend. -/
  | nak (p : YftPkt)
  /-- ACK_TIMER (R481): 1 µs after an accepted packet, an ACK is sent. The queue. -/
  | ackTimer (q : U32)
  /-- RETRANSMIT (R481): A packet unacknowledged after RTO_US is retransmitted, or fails after RETRY_LIMIT. -/
  | retransmit (q psn : U32)
  /-- PATH_PROBE (R466): A bad path is probed again after 1 ms. -/
  | pathProbe (node : U32) (path : Fin 64) (acked : Bool)
  /-- READ_TIMEOUT (R479): A namespace read not begun within READ_TIMEOUT_MS fails with ST_MEDIA_UNRECOVERABLE. The queue and the ring count of the entry. -/
  | readTimeout (q index : U32)
  /-- XPT_DOORBELL (R470): A doorbell gives a queue its new TAIL, or is discarded. -/
  | xptDoorbell (w : Writer) (q tail : U32)
  /-- YFT_WRITE (R473): A queue entry WRITE sends a message sprayed over paths. The queue whose next entry it is. -/
  | yftWrite (q : U32)
  /-- YFT_READ (R473): A queue entry READ requests remote bytes. The queue whose next entry it is. -/
  | yftRead (q : U32)
  /-- YFT_FETCH_ADD (R473): A queue entry FETCH_ADD requests a remote atomic add. The queue whose next entry it is. -/
  | yftFetchAdd (q : U32)
  /-- YFT_CAS (R473): A queue entry CAS requests a remote compare-and-swap. The queue whose next entry it is. -/
  | yftCas (q : U32)
  /-- YFT_SEND (R475): A queue entry SEND sends a message into a remote receive buffer. The queue whose next entry it is. -/
  | yftSend (q : U32)
  /-- YFT_NOP (R472): A queue entry NOP completes once its waits are met. The queue whose next entry it is. -/
  | yftNop (q : U32)
  /-- XPT_QDELETE (R468): A delete puts the queue in draining. -/
  | xptQdelete (w : Writer) (q : U32)
  /-- QUEUE_DRAIN_END (R468): After 2 x LIFETIME_US, the remaining entries fail and the slot is freed. -/
  | queueDrainEnd (q : U32)
  /-- XPT_CQ_CONSUMED (R474): The owner reports consumed completion entries, or the write is discarded. -/
  | xptCqConsumed (w : Writer) (q count : U32)
  /-- KEYCMD_CREATE (R477): An access-key create command executes at the commit point. The fields of the committed set. -/
  | keycmdCreate (w : Writer) (k : KeyCreate)
  /-- KEYCMD_INVALIDATE (R480): An access-key invalidate advances the key's GEN at the commit point. -/
  | keycmdInvalidate (w : Writer) (id : U32)
  /-- CREATE_IO_SQ (R501): NVMe Create I/O Submission Queue. -/
  | createIoSq (n : NvmeCtx) (qid size cqid : Nat)
  /-- DELETE_IO_SQ (R501): NVMe Delete I/O Submission Queue. -/
  | deleteIoSq (n : NvmeCtx) (qid : Nat)
  /-- CREATE_IO_CQ (R501): NVMe Create I/O Completion Queue. -/
  | createIoCq (n : NvmeCtx) (qid size vector : Nat) (ien : Bool)
  /-- DELETE_IO_CQ (R501): NVMe Delete I/O Completion Queue. -/
  | deleteIoCq (n : NvmeCtx) (qid : Nat)
  /-- GET_LOG_PAGE (R505): Return a log page, event records included. -/
  | getLogPage (n : NvmeCtx) (lid : Byte) (off len : Nat)
  /-- IDENTIFY (R502): Return an Identify data structure. -/
  | identify (n : NvmeCtx) (cns : Byte) (nsid : U32)
  /-- ABORT (R502): Abort a command that has not started. -/
  | abort (n : NvmeCtx) (qid : Nat) (cid : U16)
  /-- SET_FEATURES (R504): Set a supported feature, owner-only where marked. -/
  | setFeatures (n : NvmeCtx) (fid : Byte) (val : U32) (hostId : List Byte)
  /-- GET_FEATURES (R504): Return a feature's value. -/
  | getFeatures (n : NvmeCtx) (fid : Byte)
  /-- ASYNC_EVENT_REQUEST (R502): Post an asynchronous event request, up to 8 outstanding. -/
  | asyncEventRequest (n : NvmeCtx)
  /-- NAMESPACE_CREATE (R506): Create a namespace with its IU, kind and key at the lowest free NSID. Size in blocks, LBA format, IU, NSKIND, KEY, and whether a reserved byte of R506 is not 0. -/
  | namespaceCreate (n : NvmeCtx) (nsze : U64) (lbaf : Fin 16) (iu kind : Byte) (key : U64) (rsvd : Bool)
  /-- NAMESPACE_DELETE (R502): Delete a namespace. -/
  | namespaceDelete (n : NvmeCtx) (nsid : U32)
  /-- NAMESPACE_ATTACH (R502): Attach a namespace to a controller. -/
  | namespaceAttach (n : NvmeCtx) (nsid : U32) (ports : List Port)
  /-- NAMESPACE_DETACH (R502): Detach a namespace from a controller. -/
  | namespaceDetach (n : NvmeCtx) (nsid : U32) (ports : List Port)
  /-- NVME_MI_SEND (R507): Carry an NVMe-MI request in band. The opcode of the request it carries, with its identifier and value. -/
  | nvmeMiSend (n : NvmeCtx) (op : Byte) (arg val : U32)
  /-- NVME_MI_RECEIVE (R507): Return an NVMe-MI response in band. -/
  | nvmeMiReceive (n : NvmeCtx)
  /-- READ_NVME_MI_DATA_STRUCTURE (R507): NVMe-MI Read NVMe-MI Data Structure. -/
  | readNvmeMiDataStructure (p : MiPath) (dtyp : Byte)
  /-- SUBSYSTEM_HEALTH_STATUS_POLL (R507): NVMe-MI NVM Subsystem Health Status Poll. -/
  | subsystemHealthStatusPoll (p : MiPath)
  /-- CONTROLLER_HEALTH_STATUS_POLL (R507): NVMe-MI Controller Health Status Poll. -/
  | controllerHealthStatusPoll (p : MiPath)
  /-- CONFIGURATION_GET (R507): NVMe-MI Configuration Get. -/
  | configurationGet (p : MiPath) (ident : Byte)
  /-- CONFIGURATION_SET (R507): NVMe-MI Configuration Set of the SMBus frequency or MCTP unit. -/
  | configurationSet (p : MiPath) (ident : Byte) (val : U32)
  /-- VPD_READ (R507): NVMe-MI VPD Read. -/
  | vpdRead (p : MiPath)
  /-- FORMAT_NVM (R517): Format one or all namespaces with the chosen erase and LBA format. -/
  | formatNvm (n : NvmeCtx) (nsid : U32) (ses : Fin 8) (lbaf : Fin 16)
  /-- BLOCK_ERASE (R516): Sanitize Block Erase of every user block. -/
  | blockErase (n : NvmeCtx)
  /-- CRYPTO_ERASE (R516): Sanitize Crypto Erase replaces the media key and deallocates everything. -/
  | cryptoErase (n : NvmeCtx)
  /-- EXIT_FAILURE_MODE (R516): Sanitize Exit Failure Mode. -/
  | exitFailureMode (n : NvmeCtx)
  /-- OVERWRITE (R516): Sanitize Overwrite completes with ST_INVALID_FIELD. -/
  | overwrite (n : NvmeCtx)
  /-- RAISE_SECURITY_VERSION (R503): Raise FW_MIN_SVN or TR_MIN_SVN by blowing fuses when the value is permitted. TYPE 1 for TR_MIN_SVN. -/
  | raiseSecurityVersion (n : NvmeCtx) (tr : Bool) (val : Byte)
  /-- CREATE_PIPELINE_QUEUE (R521): Create a pipeline queue with its rings and vector. -/
  | createPipelineQueue (n : NvmeCtx) (q sqLog cqLog vector : Nat) (ien : Bool) (sqBase cqBase : U64)
  /-- DELETE_PIPELINE_QUEUE (R521): Delete a pipeline queue, dropping unstarted entries. -/
  | deletePipelineQueue (n : NvmeCtx) (q : Nat)
  /-- FLUSH (R503): NVMe Flush completes after the earlier writes. -/
  | flush (n : NvmeCtx) (nsid : U32)
  /-- NVM_WRITE (R537): NVMe Write is sealed, programmed to SLC and journaled before completion. Units in part covered whose old contents cannot be read. -/
  | nvmWrite (n : NvmeCtx) (nsid : U32) (slba : U64) (data : List Byte) (bad : List Nat)
  /-- NVM_READ (R511): NVMe Read through the map, with the special-case outcomes. Units whose read fails after all retries, and units whose tag does not match. -/
  | nvmRead (n : NvmeCtx) (nsid : U32) (slba : U64) (nlb : Nat) (bad tag : List Nat)
  /-- WRITE_ZEROES (R536): Deallocate the covered units. -/
  | writeZeroes (n : NvmeCtx) (nsid : U32) (slba : U64) (nlb : Nat)
  /-- DATASET_MANAGEMENT (R536): Deallocate ranges. Ranges: first block and count. -/
  | datasetManagement (n : NvmeCtx) (nsid : U32) (deallocate : Bool) (ranges : List (Nat × Nat))
  /-- RESERVATION_REGISTER (R512): NVMe Reservation Register. -/
  | reservationRegister (n : NvmeCtx) (nsid : U32) (a : ResvArgs)
  /-- RESERVATION_REPORT (R512): NVMe Reservation Report. -/
  | reservationReport (n : NvmeCtx) (nsid : U32)
  /-- RESERVATION_ACQUIRE (R512): NVMe Reservation Acquire. -/
  | reservationAcquire (n : NvmeCtx) (nsid : U32) (a : ResvArgs)
  /-- RESERVATION_RELEASE (R512): NVMe Reservation Release. -/
  | reservationRelease (n : NvmeCtx) (nsid : U32) (a : ResvArgs)
  /-- SQ_TAIL (R522): A pipeline SQ_TAIL doorbell publishes new entries, or is discarded with DB_ERR. The writing port, and the port and queue of the doorbell page. -/
  | sqTail (writer page : Port) (q : Fin 512) (tail : BitVec 12)
  /-- CQ_HEAD (R522): A pipeline CQ_HEAD doorbell frees completion-ring room. -/
  | cqHead (writer page : Port) (q : Fin 512) (head : BitVec 12)
  /-- YFT_QCREATE (R527): A pipeline entry creates a YFT queue owned by the port. -/
  | yftQcreate (c : PipeCtx) (q : QCreate)
  /-- YFT_QCONNECT (R527): A pipeline entry gives a queue its peer queue, making it ready. -/
  | yftQconnect (c : PipeCtx) (q peer : U32)
  /-- NODE_PATH (R527): A pipeline entry sets or clears a path in the node table. -/
  | nodePath (c : PipeCtx) (a : PathArgs)
  /-- PIPE_NOP (R523): A pipeline NOP completes at once. -/
  | pipeNop (c : PipeCtx)
  /-- HANDOVER (R514): The owner port passes administrative ownership. claimToo: the other port writes CLAIM in the same cycle. -/
  | handover (p : Port) (claimToo : Bool)
  /-- CLAIM (R514): The other port claims ownership after 10 s of the owner's link being down. -/
  | claim (p : Port)
  /-- FLASH_READ (R546): A NAND read completes through the threshold ladder, or fails with ST_MEDIA_UNRECOVERABLE. Superblock, ladder step (8 a failure), whether the hard decode used over half the capability, and the unit read. -/
  | flashRead (sb : Nat) (step : Fin 9) (half : Bool) (nsid unit : Nat)
  /-- FLASH_PROGRAM_FAIL (R538): A failed program reprograms the unit elsewhere and retires the block. Superblock and physical block. -/
  | flashProgramFail (sb : Nat) (block : U64)
  /-- FOLD (R539): Valid SLC units are folded into a native superblock, verified and journaled. Whether the verify passes. -/
  | fold (verify : Bool)
  /-- GC_COLLECT (R551): A victim superblock is copied, journaled, erased and freed. Units whose read fails, and whether a destination block fails. -/
  | gcCollect (bad : List (Nat × Nat)) (fails : Bool)
  /-- JOURNAL_PAGE_PROGRAM (R555): A full journal page, or one 20 µs old, is programmed on the mirrors. -/
  | journalPageProgram
  /-- CHECKPOINT (R556): Dirty map pages and the directory are written and the anchor is updated. -/
  | checkpoint
  /-- CHANNEL_RECAL (R561): An ONFI channel is recalibrated live, and fails the channel after two failures. Trigger: 0 temperature, 1 period, 2 codewords at step 1 or above, 3 a bit of FLM_RECAL_REQ. -/
  | channelRecal (chan : Fin 32) (trig : Fin 4) (pass : Bool)
  /-- FLM_RECAL_REQ (R561): Writing a bit requests a recalibration of a channel. -/
  | flmRecalReq (w : Writer) (bits : U32)
  /-- DIE_FAILURE (R562): A die stops responding and its superblocks are queued for evacuation. -/
  | dieFailure (chan : Fin 32) (die : Fin 32)
  /-- MEDIA_TIME_TICK (R544): The media time advances by one second. -/
  | mediaTimeTick
  /-- FLM_MEDIA_TIME (R544): A write sets the media time and clears TIME_UNCERTAIN. -/
  | flmMediaTime (w : Writer) (val : U64)
  /-- FLM_STORED_CFG (R568): A write stores MAPCACHE_GIB and SLC_PCT in NOR for the next boot. -/
  | flmStoredCfg (w : Writer) (val : U32)
  /-- PS1_ENTER (R580): An idle cluster drains its port, stops its clock and moves its bias. -/
  | ps1Enter (c : ClusterId)
  /-- PS1_EXIT (R580): A cluster with a takeable READY entry restores its bias and clock. -/
  | ps1Exit (c : ClusterId)
  /-- PS2_ENTER (R581): A region is polled, closed and powered off. -/
  | ps2Enter (r : Fin 8) (ev : Option PsEvent)
  /-- PS2_EXIT (R581): A region is powered on with spacing, its SRAM zeroed and its tiles reset. -/
  | ps2Exit (r : Fin 8)
  /-- PS3_ENTER (R582): The package is polled and enters self-refresh and gating, or aborts. -/
  | ps3Enter (ev : Option PsEvent)
  /-- PS3_EXIT (R582): The package leaves PS3 on a wake and retrains GDDR7. GDDR7 channels that do not train from stored values, with the rate at which they train, 0 for none. -/
  | ps3Exit (failed : List (Fin 64 × Nat))
  /-- PS4_ENTER (R583): The package saves manager state, drops fabric and compute rails. -/
  | ps4Enter (ev : Option PsEvent)
  /-- PS4_EXIT (R583): The package restores rails, managers, GDDR7 and Chucks within 5 ms. As PS3_EXIT. -/
  | ps4Exit (failed : List (Fin 64 × Nat))
  /-- RESAMPLE (R589): Firmware re-samples edge sources after entry and starts an exit if one is found. The sources found, as in PWR_RESAMPLE.LAST. -/
  | resample (found : Fin 16)
  /-- KNOWN_EVENT_WAKE (R574): The comparator starts an exit so the unit is in PS0 at its known event. -/
  | knownEventWake
  /-- PWR_WAKE_AT (R574): A write sets the package's known-event wake count. -/
  | pwrWakeAt (w : Writer) (val : U64)
  /-- IDLE_SLOW_LIMIT (R576): An idle cluster receives, or loses, a tolerance clock limit. -/
  | idleSlowLimit (c : ClusterId)
  /-- SELFTEST_SLOT (R596): A region's slot runs the known-answer suite on idle and spare tiles. The region, and the suites that ran in its slot. -/
  | selftestSlot (r : Fin 8) (results : List SuiteResult)
  /-- HARD_FAULT (R597): A tile stops answering or fails engine parity and is confirmed at once. -/
  | hardFault (t : TileId)
  /-- SUSPECT_CONFIRMATION (R598): A suspect tile's three suites end, returning it to duty or confirming it. The three suites, and the frequency in MHz at which the derating test ended, if it ended at one. -/
  | suspectConfirmation (t : TileId) (suites : List SuiteResult) (derateAt : Option Nat)
  /-- STORM_END (R602): After 3,600 s without confirmation, or a W1C write, STORM ends and quarantined tiles are re-confirmed. Whether host software writes the W1C bit. -/
  | stormEnd (w1c : Bool)
  /-- SPARE_TAKEOVER (R601): At the next batch boundary the spare takes over the retired tile's duty. -/
  | spareTakeover (c : ClusterId)
  /-- RAS_DERATE_CLEAR (R600): A write clears a tile's derating. Bit GO and the tile of the value written. -/
  | rasDerateClear (go : Bool) (t : TileId)
  /-- ECC_CE (R604): The injection flips one bit at the next write of a word. -/
  | eccCe
  /-- ECC_UE (R604): The injection flips three bits at the next write of a word. -/
  | eccUe
  /-- LANE_LOSS (R604): The injection makes a fabric lane lose lock. -/
  | laneLoss
  /-- TILE_FAULT (R604): The injection makes a tile fail its comparisons and self-tests. The suite of the target tile that fails. -/
  | tileFault (r : SuiteResult)
  /-- PROGRAM_FAIL (R604): The injection makes the next program on a die fail. Superblock and physical block of the program that fails. -/
  | programFail (sb : Nat) (block : U64)
  /-- PS_REFUSE (R604): The injection makes a participant refuse the next entry into a state. The region of a refused PS2. -/
  | psRefuse (r : Fin 8)
  /-- INJECTION_DISARM (R604): A commit with TYPE 0 disarms the armed injection. -/
  | injectionDisarm (w : Writer)
  /-- MARGIN_READING (R605): Every PERIOD_MIN minutes GDDR7, PCIe and supply margins are read and marked. -/
  | marginReading (eyes lanes0 lanes1 supplies : List Margin)
  /-- RECORD_TO_NOR (R614): Buffered records are written to the circular and permanent NOR areas. -/
  | recordToNor
  /-- EVR_RD_SEQ (R617): A write loads a record into the port's read window. -/
  | evrRdSeq (w : Writer) (sel : Port) (seq : BitVec 32)
  /-- EVR_RD_LOADED (R617): The record load finishes, and BUSY clears with the state. -/
  | evrRdLoaded (sel : Port)
  /-- INPUT_RETURN (R76): After an input-loss power-down that left the standby rail up, VIN rises back above undervoltage lockout and the main rails may start again without a MOD_EN toggle. -/
  | inputReturn (mv : Nat)
  /-- ROOT_OF_TRUST_FAULT (R35): The root-of-trust core halts on a fault, ROT_FAULT is set and no key operation is served. -/
  | rootOfTrustFault
  /-- SENSOR_CALIBRATION (R577): A thermal sensor calibration runs for at most 2 ms every 10 minutes, and PS2 and PS3 entry are refused while it runs. -/
  | sensorCalibration (running : Bool)
  /-- CTX_FLUSH_COMPLETE (R277): The last dirty slot of a context-cache flush is written back and BUSY returns to 0. -/
  | ctxFlushComplete
  /-- SANITIZE_COMPLETE (R518): A running Sanitize finishes or fails, SANITIZE clears, NVMe commands are served again and pipeline entries are fetched. -/
  | sanitizeComplete (ok : Bool)
  /-- FORMAT_COMPLETE (R518): A running Format NVM finishes, FORMAT clears and the held commands and pipeline entries proceed. -/
  | formatComplete
  /-- D3HOT_EXIT (R493): A port's function returns from D3hot to D0, so the port again imposes its LTR tolerance. -/
  | d3hotExit (p : Port)
  /-- LINK_POWER_STATE_CHANGE (R577): A PCIe link enters or leaves L1, L1.1 or L1.2, which changes LSTATE and the PS4 refusal and wake conditions. The new LSTATE. -/
  | linkPowerStateChange (p : Port) (lstate : Fin 5)
  /-- MARGINING_COMMAND (R492): A Lane Margining at Receiver command from the host arrives, waits up to 2 ms if the module is measuring, and is served. -/
  | marginingCommand (p : Port)
  /-- CONFIGURATION_REQUEST (R104): A PCIe configuration request arrives and is answered with Configuration Request Retry Status until the configuration space is ready, and normally after. -/
  | configurationRequest (p : Port)
  /-- SWAP_REPEAT (R457): One second after a swap was abandoned, the receiver repeats its SPARE_REQ. -/
  | swapRepeat (p : Port)
  /-- NON_YFT_FRAME (R452): A received PAUSE, PFC or other non-YFT frame is discarded and counted in PAUSE_DISC or OTHER_DISC. -/
  | nonYftFrame (p : Port) (pause : Bool)
  /-- WORKER_REJOIN (R436): When a lost manager returns, its workers rejoin under R428 and their counts are brought together as R437 gives. -/
  | workerRejoin
  /-- DERATE_BAND_CHANGE (R599): A cluster's hottest sensor crosses a derating band boundary (70, 85 or 95 °C), applying or lifting a derated tile's clock limit. Temperature of the hottest sensor, 0.1 °C. -/
  | derateBandChange (c : ClusterId) (temp : U16)
deriving DecidableEq, Repr

end Sys2Proof
end

