-- ==== Sys2Proof/WellFormed.lean ====
section
/-!
DEFINITION. Well-formed commands: the conditions that the spec puts on operands beyond their types, such as the length
of a byte string and the size of an access. A meaning is total all the same: it answers on every operand.
-/
namespace Sys2Proof

/-- A list without repeats. -/
def distinct {α : Type} [BEq α] : List α → Bool
  | [] => true
  | a :: r => !r.contains a && distinct r

/-- An access of the bus is 1, 2, 4 or 8 bytes wide and lies in the window (00_scope.md R10). -/
def RegWrite.wellFormed (w : RegWrite) : Bool :=
  decide (w.size = 1 ∨ w.size = 2 ∨ w.size = 4 ∨ w.size = 8) && decide (w.val.toNat < 256 ^ w.size)

/-- The first offset of a block of window 2 that has a control word (01_architecture.md R50, 00_scope.md R13): a block of
32 KiB or 64 KiB below the doorbells, or a TILE page. -/
def hasControlWord (blk : Nat) : Bool :=
  decide (blk = 0x8000 ∨ (blk < 0x120000 ∧ blk % 0x10000 = 0) ∨
    (0x1000000 ≤ blk ∧ blk < 0x1200000 ∧ blk % 0x1000 = 0))

/-- A YFT packet carries at most 4,096 bytes of payload, and its tag, where it has one, is 16 bytes (13 R463). -/
def YftPkt.wellFormed (p : YftPkt) : Bool :=
  decide (p.payload.length ≤ 4096) && decide (p.tag.length = 0 ∨ p.tag.length = 16)

/-- The operands of a command meet the conditions that the spec puts on them. -/
def Instr.wellFormed : Instr → Bool
  | .registerWrite ws => !ws.isEmpty && ws.all RegWrite.wellFormed
  | .commit _ blk also => hasControlWord blk && also.all RegWrite.wellFormed
  | .discard _ blk => hasControlWord blk
  | .commitPoint blk => hasControlWord blk
  | .dieFault .. | .hotSwapClose .. | .standbyUp .. | .standbyLost .. | .modEnRise .. | .coolantCheck ..
  | .railsInRegulation .. | .railFault .. | .pwrOkRise .. | .modEnFall .. | .undervoltageDetect ..
  | .bulkDepleted .. | .emergOff .. | .overvoltage .. | .junctionTrip .. | .offRecord .. | .modReset ..
  | .svcReq .. | .quiesceComplete .. | .svcReqRelease .. | .quiesceTimeout .. | .wakeIn .. | .mgmtRequest ..
  | .flowLossDetect .. | .flowLossDeadline .. | .flowRecovery .. | .inletHigh .. | .inletClear ..
  | .throttleStart .. | .throttleEnd .. | .powerLimitEngage .. | .powerLimitRelease .. | .supplySample ..
  | .carrierPgFall .. | .carrierPgRise .. | .coresRelease .. | .gddr7Ready .. | .tilesReady .. => true
  | .ftlMount info => distinct (info.carriers.map (fun c => c.conn.val))
  | .stageReady .. | .toolRestReady .. | .bootWatchdog .. | .linkTraining .. | .configSpaceReady ..
  | .perstAssert .. | .hotReset .. | .surpriseDown .. | .d3hot .. | .ccEn .. | .ccDisable .. | .cstsRdy ..
  | .ltr .. => true
  | .win4Read _ _ len => 0 < len
  | .win4Write _ _ data => !data.isEmpty
  | .firmwareImageDownload _ _ image => !image.isEmpty
  | .firmwareCommit .. | .liveUpdateCore .. | .securitySend .. | .securityReceive .. | .securityProtocolList ..
  | .keyRequest .. => true
  | .migrationNonce _ nn => nn.length = 32
  | .migrationAttestation .. | .migrationPackage .. | .migrationReceipt .. | .adoptSel .. | .gougeHash ..
  | .gougeLookup .. | .gougeLzexec .. | .gougeHuff .. | .gougeTans .. | .gougeStep .. | .aesDecrypt ..
  | .aesEncrypt .. | .dmaCopy .. | .dmaFill .. | .dmaCopy2d .. | .dmaCount .. | .clockStep .. | .tableSetLoaded ..
  | .add .. | .sub .. | .andI .. | .orI .. | .xor .. | .shl .. | .shr .. | .sar .. | .ror .. | .slt .. | .sltu ..
  | .minI .. | .maxI .. | .minu .. | .maxu .. | .mul .. | .mulh .. | .mulhu .. | .div .. | .divu .. | .rem ..
  | .remu .. | .clz .. | .ctz .. | .popc .. | .bswap .. | .addi .. | .andi .. | .ori .. | .xori .. | .shi ..
  | .lui .. | .slti .. | .sltiu .. | .li .. | .beq .. | .bne .. | .blt .. | .bge .. | .bltu .. | .bgeu ..
  | .jal .. | .jalr .. | .load .. | .store .. | .vld .. | .vst .. | .vfpAdd .. | .vfpSub .. | .vfpMul ..
  | .vfpDiv .. | .sqrt .. | .vfpMin .. | .vfpMax .. | .vfpAbs .. | .neg .. | .floor .. | .ceil .. | .trunc ..
  | .rint .. | .vintAdd .. | .vintSub .. | .adds .. | .addus .. | .subs .. | .subus .. | .vintMul .. | .madd ..
  | .vintMin .. | .vintMax .. | .vintMinu .. | .vintMaxu .. | .mulhs .. | .vintMulhu .. | .absdiffu ..
  | .vbitAnd .. | .vbitOr .. | .vbitXor .. | .andn .. | .vbitShl .. | .vbitShr .. | .vbitSar .. | .shli ..
  | .shri .. | .sari .. | .vbitAbs .. | .avgu .. | .vcmpEq .. | .vcmpNe .. | .vcmpLt .. | .vcmpLe .. | .vcmpLtu ..
  | .vcmpLeu .. | .unord .. | .rev .. | .ziplo .. | .ziphi .. | .unzipe .. | .unzipo .. | .dup .. | .compress ..
  | .sel .. | .vtbl .. | .vgather .. | .vscatter .. | .fma .. | .fms .. | .fnma .. | .fnms .. | .vdot ..
  | .vcmx .. | .vcvt .. | .sumI .. | .vredMin .. | .vredMax .. | .sumw .. | .predAnd .. | .predOr .. | .predXor ..
  | .predAndn .. | .notI .. | .predFromG .. | .predToG .. | .predFirstN .. | .predPopc .. | .vtog .. | .gtov ..
  | .gbcast .. | .vmov .. | .csrr .. | .csrw .. | .wait .. | .waitRelease .. | .signal .. | .trywait ..
  | .fence .. | .gq .. | .aq .. | .dq .. | .nopI .. | .done .. | .trap .. | .crc32cb .. | .crc32ch ..
  | .crc32cw .. | .crc32cd .. | .ghinit .. | .ghstep .. | .ghfin .. | .vhashGhinit .. | .vhashGhstep ..
  | .vhashGhfin .. | .vhashCrc32cd .. | .rngctr .. | .tileDeadlock .. => true
  | .entryPlace _ _ bytes _ _ _ _ => bytes.length = 64
  | .dependencyMet .. | .workUnitTake .. | .spill .. | .entryCollect .. | .clusterDeadlock .. => true
  | .deadlockExamine _ yft planned => distinct yft && distinct planned
  | .scrubRead .. | .refresh .. | .retrainStart .. | .retrainEnd .. | .memRetrainReq .. | .memHostLimit .. => true
  | .alloc _ owner _ => owner < 65536
  | .free _ owner _ => owner < 65536
  | .chuckRefill .. | .poolEnable .. | .poolDisable .. => true
  | .ctxCreate _ _ body => body.length ≤ 240
  | .ctxFree .. | .ctxCheckout .. | .ctxMissFill .. => true
  | .ctxCheckin _ _ body _ => body.all (fun b => b.length ≤ 240)
  | .ctxFlush .. | .jobStart .. | .launch .. | .jobCancel .. | .sampleFetch .. | .batchStart .. | .batchEmit ..
  | .recordEmit .. | .jobRelease .. | .augReady .. | .dcLookup .. => true
  | .dcOffer _ _ _ payload _ _ => !payload.isEmpty
  | .dcInsert .. | .segmentReuse .. | .codec .. | .codecComplete .. | .keyCreate .. | .keyImport ..
  | .keyNarrow .. | .keyRevoke .. | .keyDestroy .. | .keyList .. | .sessionStart .. | .sessionMessage .. => true
  | .openI _ cmd => cmd.length = 64
  | .step .. | .closeI .. | .outputFrameWrite .. | .syncPeriod .. | .sync .. | .syncReply .. | .holdoverEnter ..
  | .unsyncEnter .. | .spnSet .. | .spnMgrNode .. | .hello .. => true
  | .nonce _ nn => nn.length = 32
  | .join .. | .welcome .. | .refuse .. => true
  | .prepare _ _ nn digest _ idx modules _ _ _ => nn.length = 32 && digest.length = 64 && idx < modules
  | .imageStaged .. | .ready .. | .refusePlan .. | .prepareTimeout .. | .go .. | .cancel .. | .report ..
  | .lost .. | .leave .. | .workerSilent .. | .time .. | .linkUp .. | .linkDown .. | .bringupRetry ..
  | .spareHello .. | .laneDegrade .. | .spareReq .. | .spareAck .. | .spareDone .. | .spareAbandon .. | .req ..
  | .revert .. | .cmisPoll .. => true
  | .oeInterrupt _ lanes => distinct lanes && lanes.all (fun l => l < 9)
  | .oeRemoval .. | .oeInsertion .. | .marginSweep .. => true
  | .write p => p.wellFormed
  | .readReq p _ => p.wellFormed
  | .readResp p => p.wellFormed
  | .fetchAdd p => p.wellFormed
  | .cas p => p.wellFormed
  | .atomicResp p => p.wellFormed
  | .send p => p.wellFormed
  | .ack p => p.wellFormed
  | .nak p => p.wellFormed
  | .ackTimer .. | .retransmit .. | .pathProbe .. | .readTimeout .. | .xptDoorbell .. | .yftWrite .. | .yftRead ..
  | .yftFetchAdd .. | .yftCas .. | .yftSend .. | .yftNop .. | .xptQdelete .. | .queueDrainEnd ..
  | .xptCqConsumed .. | .keycmdCreate .. | .keycmdInvalidate .. | .createIoSq .. | .deleteIoSq .. | .createIoCq ..
  | .deleteIoCq .. | .getLogPage .. | .identify .. | .abort .. | .setFeatures .. | .getFeatures ..
  | .asyncEventRequest .. | .namespaceCreate .. | .namespaceDelete .. => true
  | .namespaceAttach _ _ ports => distinct ports
  | .namespaceDetach _ _ ports => distinct ports
  | .nvmeMiSend .. | .nvmeMiReceive .. | .readNvmeMiDataStructure .. | .subsystemHealthStatusPoll ..
  | .controllerHealthStatusPoll .. | .configurationGet .. | .configurationSet .. | .vpdRead .. | .formatNvm ..
  | .blockErase .. | .cryptoErase .. | .exitFailureMode .. | .overwrite .. | .raiseSecurityVersion ..
  | .createPipelineQueue .. | .deletePipelineQueue .. | .flush .. => true
  | .nvmWrite _ _ _ data _ => !data.isEmpty
  | .nvmRead _ _ _ nlb _ _ => 0 < nlb
  | .writeZeroes _ _ _ nlb => 0 < nlb
  | .datasetManagement .. | .reservationRegister .. | .reservationReport .. | .reservationAcquire ..
  | .reservationRelease .. | .sqTail .. | .cqHead .. | .yftQcreate .. | .yftQconnect .. | .nodePath ..
  | .pipeNop .. | .handover .. | .claim .. | .flashRead .. | .flashProgramFail .. | .fold .. | .gcCollect ..
  | .journalPageProgram .. | .checkpoint .. | .channelRecal .. | .flmRecalReq .. | .dieFailure ..
  | .mediaTimeTick .. | .flmMediaTime .. | .flmStoredCfg .. | .ps1Enter .. | .ps1Exit .. | .ps2Enter ..
  | .ps2Exit .. | .ps3Enter .. | .ps3Exit .. | .ps4Enter .. | .ps4Exit .. | .resample .. | .knownEventWake ..
  | .pwrWakeAt .. | .idleSlowLimit .. => true
  | .selftestSlot r results => results.all (fun x => TileId.region x.tile = r.val)
  | .hardFault .. => true
  | .suspectConfirmation t suites _ => suites.all (fun r => r.tile = t)
  | .stormEnd .. | .spareTakeover .. | .rasDerateClear .. | .eccCe .. | .eccUe .. | .laneLoss .. | .tileFault ..
  | .programFail .. | .psRefuse .. | .injectionDisarm .. | .marginReading .. | .recordToNor .. | .evrRdSeq ..
  | .evrRdLoaded .. | .inputReturn .. | .rootOfTrustFault .. | .sensorCalibration .. | .ctxFlushComplete ..
  | .sanitizeComplete .. | .formatComplete .. | .d3hotExit .. | .linkPowerStateChange .. | .marginingCommand ..
  | .configurationRequest .. | .swapRepeat .. | .nonYftFrame .. | .workerRejoin .. | .derateBandChange .. => true

end Sys2Proof
end

