-- ==== Sys2Proof/Decode.lean ====
section
/-!
DEFINITION. The command that a word spells. The block takes commands from outside, and spec/opcode_table.json gives no
row any bits: a word spells none of them. (The Falesk words of 05_falesk_instruction_set.md are the tiles' own programs;
their fields arrive as the operands of the commands.)
-/
namespace Sys2Proof

/-- The command that the low nbits of w spell by the table's bits: none, as no row of the table has bits. -/
def decodeTableWord (_nbits _w : Nat) : Option Instr := none

end Sys2Proof
end

