-- ==== Sys2Proof/Config.lean ====
section
/-!
DEFINITION. What an implementation fixes, and the free values: constants without a body, so that nothing in Lean
can evaluate them or prove a value of them. Each is named in a row of notes/assumptions.
-/
namespace Sys2Proof

/-- The three order numbers of 00_scope.md R2. -/
inductive Variant where
  | ylm5120 | ylm3840 | ylm2560L
deriving DecidableEq, Repr

namespace Config

/-- Bits of a draw from the root-of-trust random generator, and of every other value that the spec leaves open:
the first argument says what is drawn, the second is the state's draw counter. -/
opaque freeNat : Nat → Nat → Nat

/-- Bytes of a value that the spec leaves open: what is drawn, the draw counter and the number of the byte. -/
opaque freeByte : Nat → Nat → Nat → Byte

/-- The value that a job's plan gives a completion counter (06 R228), from the bytes of the PLAN section, whose layout
the spec does not give, and the counter's index in the job's range. -/
opaque planCounter : List Byte → Nat → Nat

/-- Buffers of pool k that firmware enables at boot (07 R626), from the number of compute dies and MAPCACHE_GIB; 0 for
a pool it leaves off. -/
opaque bootPoolCount : Nat → Nat → Nat → Nat

end Config
end Sys2Proof
end

