-- ==== Sys2Proof/Machine/Bits.lean ====
section
/-!
DEFINITION. Bit fields, byte order, sparse maps, the memory of bytes and the check values of the spec.
Byte order: least significant byte first (00_scope.md R9). A memory is a list of cells in canonical form.
-/
namespace Sys2Proof

/-! ### Bit fields of natural numbers and words -/

/-- Bits [hi:lo] of a number. -/
def bitsOf (n hi lo : Nat) : Nat := n / 2 ^ lo % 2 ^ (hi + 1 - lo)

/-- A number with bits [hi:lo] replaced by the low bits of v. -/
def putBits (n hi lo v : Nat) : Nat :=
  n / 2 ^ (hi + 1) * 2 ^ (hi + 1) + v % 2 ^ (hi + 1 - lo) * 2 ^ lo + n % 2 ^ lo

/-- Bits [hi:lo] of a 64-bit word as a number. -/
def fieldOf (w : U64) (hi lo : Nat) : Nat := bitsOf w.toNat hi lo

/-- A 64-bit word with bits [hi:lo] replaced. -/
def putField (w : U64) (hi lo v : Nat) : U64 := BitVec.ofNat 64 (putBits w.toNat hi lo v)

/-- Bit i of a number. -/
def bitAt (n i : Nat) : Bool := n.testBit i

/-- The number whose bit i is set for each i of the list. -/
def bitMask (l : List Nat) : Nat := l.foldl (fun a i => a ||| 2 ^ i) 0

/-- A number read as two's complement of w bits. -/
def signedOf (w n : Nat) : Int :=
  let m := n % 2 ^ w
  if 2 * m < 2 ^ w then (m : Int) else (m : Int) - 2 ^ w

/-- An integer as a number of w bits, modulo 2^w. -/
def unsignedOf (w : Nat) (i : Int) : Nat := (i % (2 ^ w : Int)).toNat

/-- Saturating addition at a ceiling. -/
def satAdd (cap a b : Nat) : Nat := min cap (a + b)

/-! ### Byte order -/

/-- The n low bytes of a number, least significant first (R9). -/
def leBytes : Nat → Nat → List Byte
  | 0, _ => []
  | n + 1, v => BitVec.ofNat 8 v :: leBytes n (v / 256)

/-- The number whose bytes, least significant first, are the list (R9). -/
def ofLe : List Byte → Nat
  | [] => 0
  | b :: r => b.toNat + 256 * ofLe r

/-- The n low bytes of a number, most significant first. -/
def beBytes (n v : Nat) : List Byte := (leBytes n v).reverse

/-- The number whose bytes, most significant first, are the list. -/
def ofBe (l : List Byte) : Nat := ofLe l.reverse

/-- n bytes of a list from offset o, with zeros past its end. -/
def sliceBytes (l : List Byte) (o n : Nat) : List Byte :=
  let t := (l.drop o).take n
  t ++ List.replicate (n - t.length) 0

/-- The little-endian number in n bytes of a list at offset o. -/
def leAt (l : List Byte) (o n : Nat) : Nat := ofLe (sliceBytes l o n)

/-- A list with bytes put at offset o, extended with zeros where it is too short. -/
def putAt (l : List Byte) (o : Nat) (b : List Byte) : List Byte :=
  sliceBytes l 0 o ++ b ++ l.drop (o + b.length)

/-! ### Sparse maps -/

/-- A sparse map from numbers: a list of pairs with rising keys; a key not listed has a default value. -/
abbrev SMap (α : Type) := List (Nat × α)

/-- The value of a key, the default where it is not listed. -/
def mapGet {α : Type} (d : Nat → α) (m : SMap α) (k : Nat) : α :=
  match m with
  | [] => d k
  | (k', v) :: r => if k' = k then v else mapGet d r k

/-- The value of a key that is listed. -/
def mapFind {α : Type} (m : SMap α) (k : Nat) : Option α :=
  match m with
  | [] => none
  | (k', v) :: r => if k' = k then some v else mapFind r k

/-- The map without a key. -/
def mapErase {α : Type} (m : SMap α) (k : Nat) : SMap α := m.filter (fun p => p.1 ≠ k)

/-- The pair put before the first greater key. -/
def mapInsert {α : Type} (m : SMap α) (k : Nat) (v : α) : SMap α :=
  match m with
  | [] => [(k, v)]
  | (k', v') :: r => if k < k' then (k, v) :: (k', v') :: r else (k', v') :: mapInsert r k v

/-- The map with a key's value replaced. -/
def mapSet {α : Type} (m : SMap α) (k : Nat) (v : α) : SMap α := mapInsert (mapErase m k) k v

/-- The keys of a sparse map rise strictly. -/
def mapSorted {α : Type} (m : SMap α) : Bool := decide (m.Pairwise (fun a b => a.1 < b.1))

/-! ### Memory of bytes -/

/-- A memory of bytes: the listed cells; an unlisted byte reads 0x00. -/
abbrev Memory := SMap Byte

/-- What an unlisted byte reads as. -/
def memDefault : Nat → Byte := fun _ => 0

/-- The byte at an address. -/
def memByte (m : Memory) (a : Nat) : Byte := mapGet memDefault m a

/-- A memory with one byte written; writing what an unlisted byte reads as removes the entry. -/
def memPut (m : Memory) (a : Nat) (b : Byte) : Memory :=
  if b = 0 then mapErase m a else mapSet m a b

/-- n bytes from an address. -/
def memRead (m : Memory) (a n : Nat) : List Byte := (List.range n).map (fun i => memByte m (a + i))

/-- The bytes written from an address up. -/
def memWrite (m : Memory) (a : Nat) (bs : List Byte) : Memory :=
  match bs with
  | [] => m
  | b :: r => memWrite (memPut m a b) (a + 1) r

/-- The little-endian number in n bytes from an address (R9). -/
def memNat (m : Memory) (a n : Nat) : Nat := ofLe (memRead m a n)

/-- A number written as n bytes, least significant first (R9). -/
def memPutNat (m : Memory) (a n v : Nat) : Memory := memWrite m a (leBytes n v)

/-- The memory with every cell of [a, a+n) dropped, which then reads 0x00. -/
def memZero (m : Memory) (a n : Nat) : Memory := m.filter (fun p => ¬(a ≤ p.1 ∧ p.1 < a + n))

/-- The canonical form: addresses strictly rising and no entry equal to what an unlisted byte reads as. -/
def Memory.wf (m : Memory) : Bool := mapSorted m && m.all (fun p => p.2 ≠ 0)

/-! ### Check values -/

/-- One bit step of the reflected CRC-32C, polynomial 0x82F63B78. -/
def crcBit (c : U32) : U32 := if c.getLsbD 0 then (c >>> 1) ^^^ 0x82F63B78#32 else c >>> 1

/-- The CRC-32C state after one byte. -/
def crcByte (c : U32) (b : Byte) : U32 :=
  let x := c ^^^ b.setWidth 32
  crcBit (crcBit (crcBit (crcBit (crcBit (crcBit (crcBit (crcBit x)))))))

/-- The CRC-32C state after a list of bytes. -/
def crcState (c : U32) (l : List Byte) : U32 := l.foldl crcByte c

/-- CRC-32C in its standard form: initial value and final inversion all ones. -/
def crc32c (l : List Byte) : U32 := ~~~ crcState 0xFFFFFFFF#32 l

end Sys2Proof
end

