-- ==== Sys2Proof/Machine/Crypto.lean ====
section
/-!
DEFINITION. The published algorithms that the spec names: SHAKE256 (FIPS 202), AES-256 (FIPS 197), its GCM mode
(SP 800-38D) and its XTS mode. The signature and encapsulation schemes ML-DSA-65 and ML-KEM-768 are free functions.
-/
namespace Sys2Proof

namespace Config
/-- ML-DSA-65 verification, pure form, empty context: public key, message, signature (03 R96). -/
opaque mldsaVerify : List Byte → List Byte → List Byte → Bool
/-- ML-DSA-65 signature under a key of the module: which key, message (03 R107). -/
opaque mldsaSign : Nat → List Byte → List Byte
/-- The public keys of the module's identity: 0 signing, 1 encapsulation (03 R107). -/
opaque identityKey : Nat → List Byte
/-- ML-KEM-768 decapsulation under the module's encapsulation key: the shared secret (03 R119). -/
opaque kemDecaps : List Byte → List Byte
/-- ML-KEM-768 encapsulation to a public key, by a draw: ciphertext and shared secret (03 R119). -/
opaque kemEncaps : List Byte → Nat → List Byte × List Byte
end Config

/-! ### SHAKE256 -/

/-- Rotation offsets of Keccak, lane x + 5 y. -/
def keccakRot : List Nat :=
  [0, 1, 62, 28, 27, 36, 44, 6, 55, 20, 3, 10, 43, 25, 39, 41, 45, 15, 21, 8, 18, 2, 61, 56, 14]

/-- Round constants of Keccak-f[1600]. -/
def keccakRc : List U64 :=
  [0x0000000000000001, 0x0000000000008082, 0x800000000000808A, 0x8000000080008000, 0x000000000000808B,
   0x0000000080000001, 0x8000000080008081, 0x8000000000008009, 0x000000000000008A, 0x0000000000000088,
   0x0000000080008009, 0x000000008000000A, 0x000000008000808B, 0x800000000000008B, 0x8000000000008089,
   0x8000000000008003, 0x8000000000008002, 0x8000000000000080, 0x000000000000800A, 0x800000008000000A,
   0x8000000080008081, 0x8000000000008080, 0x0000000080000001, 0x8000000080008008]

/-- Lane i of a state, 0 past its end. -/
def laneAt (a : List U64) (i : Nat) : U64 := a.getD i 0

/-- One round of Keccak-f[1600]. -/
def keccakRound (a : List U64) (rc : U64) : List U64 :=
  let c := (List.range 5).map (fun x =>
    laneAt a x ^^^ laneAt a (x + 5) ^^^ laneAt a (x + 10) ^^^ laneAt a (x + 15) ^^^ laneAt a (x + 20))
  let d := (List.range 5).map (fun x => laneAt c ((x + 4) % 5) ^^^ (laneAt c ((x + 1) % 5)).rotateLeft 1)
  let t := (List.range 25).map (fun i => (laneAt a i ^^^ laneAt d (i % 5)).rotateLeft (keccakRot.getD i 0))
  let b := (List.range 25).map (fun i => laneAt t ((i % 5 + 3 * (i / 5)) % 5 + 5 * (i % 5)))
  let e := (List.range 25).map (fun i =>
    let y := 5 * (i / 5)
    laneAt b i ^^^ (~~~ laneAt b (y + (i % 5 + 1) % 5) &&& laneAt b (y + (i % 5 + 2) % 5)))
  match e with
  | h :: r => (h ^^^ rc) :: r
  | [] => []

/-- Keccak-f[1600]. -/
def keccakF (a : List U64) : List U64 := keccakRc.foldl keccakRound a

/-- A block of 136 bytes absorbed. -/
def shakeAbsorb (a : List U64) (blk : List Byte) : List U64 :=
  keccakF ((List.range 25).map (fun i =>
    if i < 17 then laneAt a i ^^^ BitVec.ofNat 64 (leAt blk (8 * i) 8) else laneAt a i))

/-- Output blocks squeezed: n blocks of 136 bytes. -/
def shakeSqueeze : Nat → List U64 → List Byte
  | 0, _ => []
  | n + 1, a => ((a.take 17).flatMap (fun w => leBytes 8 w.toNat)) ++ shakeSqueeze n (keccakF a)

/-- The message padded for SHAKE: 0x1F, zeros, and 0x80 in the last byte of the block. -/
def shakePad (l : List Byte) : List Byte :=
  let k := 136 - l.length % 136
  if k = 1 then l ++ [0x9F] else l ++ [0x1F] ++ List.replicate (k - 2) 0 ++ [0x80]

/-- SHAKE256 of a message, n bytes of output. -/
def shake256 (l : List Byte) (n : Nat) : List Byte :=
  let p := shakePad l
  let a := (List.range (p.length / 136)).foldl (fun a i => shakeAbsorb a (sliceBytes p (136 * i) 136))
    (List.replicate 25 0)
  (shakeSqueeze ((n + 135) / 136) a).take n

/-! ### AES-256 -/

/-- Multiplication by x in GF(2^8). -/
def gfX (a : Byte) : Byte := if a.getLsbD 7 then (a <<< 1) ^^^ 0x1B else a <<< 1

/-- Multiplication in GF(2^8). -/
def gfMul (a b : Byte) : Byte :=
  ((List.range 8).foldl (fun (s : Byte × Byte) i =>
    (if b.getLsbD i then s.1 ^^^ s.2 else s.1, gfX s.2)) (0, a)).1

/-- The inverse in GF(2^8), a^254; 0 for 0. -/
def gfInv (a : Byte) : Byte :=
  let a2 := gfMul a a
  let a4 := gfMul a2 a2
  let a8 := gfMul a4 a4
  let a16 := gfMul a8 a8
  let a32 := gfMul a16 a16
  let a64 := gfMul a32 a32
  let a128 := gfMul a64 a64
  gfMul a2 (gfMul a4 (gfMul a8 (gfMul a16 (gfMul a32 (gfMul a64 a128)))))

/-- The S-box. -/
def aesSbox (a : Byte) : Byte :=
  let b := gfInv a
  b ^^^ b.rotateLeft 1 ^^^ b.rotateLeft 2 ^^^ b.rotateLeft 3 ^^^ b.rotateLeft 4 ^^^ 0x63

/-- Exclusive or of two byte lists. -/
def xorBytes (a b : List Byte) : List Byte := List.zipWith (· ^^^ ·) a b

/-- One more word of the key schedule of AES-256: word i from the words before it, newest first. -/
def aesNextWord (ws : List (List Byte)) (i : Nat) (rcon : Byte) : List Byte :=
  let prev := ws.getD 0 []
  let back := ws.getD 7 []
  let t :=
    if i % 8 = 0 then
      match prev with
      | [a, b, c, d] => [aesSbox b ^^^ rcon, aesSbox c, aesSbox d, aesSbox a]
      | l => l
    else if i % 8 = 4 then prev.map aesSbox else prev
  xorBytes back t

/-- The 60 words of the key schedule of AES-256, in order. -/
def aesSchedule (key : List Byte) : List (List Byte) :=
  let init := ((List.range 8).map (fun i => sliceBytes key (4 * i) 4)).reverse
  let r := (List.range 52).foldl (fun (s : List (List Byte) × Byte) j =>
    (aesNextWord s.1 (8 + j) s.2 :: s.1, if j % 8 = 0 then gfX s.2 else s.2)) (init, 1)
  r.1.reverse

/-- Round key r of a schedule. -/
def aesRoundKey (ws : List (List Byte)) (r : Nat) : List Byte := ((ws.drop (4 * r)).take 4).flatten

/-- ShiftRows on a block in column order. -/
def aesShiftRows (b : List Byte) : List Byte :=
  (List.range 16).map (fun i => b.getD ((i + 4 * (i % 4)) % 16) 0)

/-- MixColumns on a block in column order. -/
def aesMixColumns (b : List Byte) : List Byte :=
  (List.range 16).map (fun i =>
    let c := i / 4 * 4
    let g := fun k => b.getD (c + (i + k) % 4) 0
    gfX (g 0) ^^^ (gfX (g 1) ^^^ g 1) ^^^ g 2 ^^^ g 3)

/-- One block encrypted under a schedule. -/
def aesBlock (ws : List (List Byte)) (b : List Byte) : List Byte :=
  let s := xorBytes b (aesRoundKey ws 0)
  let s := (List.range 13).foldl (fun s r =>
    xorBytes (aesMixColumns (aesShiftRows (s.map aesSbox))) (aesRoundKey ws (r + 1))) s
  xorBytes (aesShiftRows (s.map aesSbox)) (aesRoundKey ws 14)

/-! ### Galois counter mode -/

/-- Multiplication in GF(2^128) as GCM orders its bits: numbers whose most significant bit is the first. -/
def ghashMul (x y : Nat) : Nat :=
  ((List.range 128).foldl (fun (s : Nat × Nat) i =>
    (if x.testBit (127 - i) then s.1 ^^^ s.2 else s.1,
     if s.2 % 2 = 1 then s.2 / 2 ^^^ (0xE1 * 2 ^ 120) else s.2 / 2)) (0, y)).1

/-- A byte list cut into pieces of n, the last padded with zeros. -/
def blocksOf (n : Nat) (l : List Byte) : List (List Byte) :=
  (List.range ((l.length + n - 1) / n)).map (fun i => sliceBytes l (n * i) n)

/-- GHASH of additional data and ciphertext under a hash key. -/
def ghash (h : Nat) (aad ct : List Byte) : Nat :=
  let blks := (blocksOf 16 aad ++ blocksOf 16 ct).map ofBe ++ [8 * aad.length * 2 ^ 64 + 8 * ct.length]
  blks.foldl (fun y b => ghashMul (y ^^^ b) h) 0

/-- The keystream of counter mode from a counter block. -/
def ctrStream (ws : List (List Byte)) (iv : List Byte) (from_ n : Nat) : List Byte :=
  (List.range n).flatMap (fun i => aesBlock ws (iv ++ beBytes 4 (from_ + i)))

/-- The tag of AES-256-GCM with a 96-bit nonce. -/
def gcmTag (ws : List (List Byte)) (iv aad ct : List Byte) : List Byte :=
  let h := ofBe (aesBlock ws (List.replicate 16 0))
  xorBytes (beBytes 16 (ghash h aad ct)) (aesBlock ws (iv ++ beBytes 4 1))

/-- Counter mode of GCM over a text, either way. -/
def gcmCrypt (ws : List (List Byte)) (iv text : List Byte) : List Byte :=
  xorBytes text (ctrStream ws iv 2 ((text.length + 15) / 16))

/-- AES-256-GCM encryption: ciphertext and 16-byte tag. -/
def gcmSeal (key iv aad pt : List Byte) : List Byte × List Byte :=
  let ws := aesSchedule key
  let ct := gcmCrypt ws iv pt
  (ct, gcmTag ws iv aad ct)

/-- AES-256-GCM decryption: the plaintext where the tag matches. -/
def gcmOpen (key iv aad ct tag : List Byte) : Option (List Byte) :=
  let ws := aesSchedule key
  if gcmTag ws iv aad ct = tag then some (gcmCrypt ws iv ct) else none

end Sys2Proof
end

