-- ==== Sys2Proof/Machine/Parts/Boot.lean ====
section
/-!
DEFINITION. State of the root of trust, the firmware slots, the measurements, live update and migration
(03_startup_and_trust.md R93 to R120, R625).
-/
namespace Sys2Proof.Machine

/-- State of a slot record (R98). -/
inductive SlotState where
  | empty | pending | confirmed | failed
deriving DecidableEq, Repr

/-- What a slot or the Tool rest area holds: nothing, the valid image it was shipped with (R625), or the bytes of a
downloaded image, header first (R95). -/
inductive SlotImage where
  | none | shipped | bytes (l : List Byte)
deriving DecidableEq, Repr

/-- A firmware slot: its record (state and attempt count) and its image. -/
structure Slot where
  state : SlotState
  count : Nat
  image : SlotImage
deriving DecidableEq, Repr

/-- One entry of the measurement log (R110). -/
structure MeasEntry where
  reg : Nat
  typ : Nat
  seq : Nat
  spindle : Nat
  digest : List Byte
  name : List Byte
deriving DecidableEq, Repr

/-- Progress of a live update (R113): the target slot, the next core (7 down to 0) and the command to complete. -/
structure LiveUpdate where
  slot : Nat
  core : Nat
  updated : List Nat
  port : Nat
  cid : Nat
deriving DecidableEq, Repr

/-- The steps of an attested migration (R119), on the replacement or on the source. -/
inductive Migration where
  | idle
  | requested
  | reported (nonce : List Byte)
  | imported (generation : Nat)
  | offered (nonce : List Byte)
  | sent
deriving DecidableEq, Repr

/-- Root of trust, slots, measurements, live update and migration. -/
structure Boot where
  /-- Fuses: revoked vendor keys (4 bits), FW_MIN_SVN and TR_MIN_SVN (R93). -/
  revoked : Nat
  fwMinSvn : Nat
  trMinSvn : Nat
  slotA : Slot
  slotB : Slot
  toolRest : SlotImage
  /-- The image chosen at this boot: 0 slot A, 1 slot B, 2 Tool rest; none before the choice or when halted. -/
  chosen : Option Nat
  /-- The boot watchdog runs (R101). -/
  watchdog : Bool
  /-- MEAS0 to MEAS7, 64 bytes each (R109). -/
  meas : List (List Byte)
  measLog : List MeasEntry
  measSeq : Nat
  /-- Nonce waiting for a Security Receive, per port (R111). -/
  nonce0 : Option (List Byte)
  nonce1 : Option (List Byte)
  live : Option LiveUpdate
  migration : Migration
deriving DecidableEq, Repr

/-- The state in which a module leaves the factory (R625). -/
def Boot.factory : Boot :=
  { revoked := 0, fwMinSvn := 0, trMinSvn := 0, slotA := ⟨.confirmed, 0, .shipped⟩, slotB := ⟨.empty, 0, .none⟩,
    toolRest := .shipped, chosen := none, watchdog := false, meas := List.replicate 8 (List.replicate 64 0),
    measLog := [], measSeq := 0, nonce0 := none, nonce1 := none, live := none, migration := .idle }

end Sys2Proof.Machine
end

