-- ==== Sys2Proof/Machine/Parts/Flash.lean ====
section
/-!
DEFINITION. State of the flash translation layer and of the namespaces (15_flash_translation.md R529 to R568,
14 R501, R506, R512). Contents are kept in the clear with the handle of the key that seals them: what the cipher
text is shows nowhere that the spec describes.
-/
namespace Sys2Proof.Machine

/-- A carrier on a flash connector, as its parameter pages and its carrier record give it (R529, 03 R116). -/
structure Carrier where
  info : CarrierInfo
  /-- CARRIER_PG is high. -/
  pg : Bool
  mounted : Bool
deriving DecidableEq, Repr

/-- Kinds of superblock (R531). -/
inductive SbKind where
  | native | slc | map | journal
deriving DecidableEq, Repr

inductive SbState where
  | free | opened | closed
deriving DecidableEq, Repr

/-- A superblock (R530). -/
structure SBlk where
  kind : SbKind
  carrier : Nat
  /-- Die position. -/
  die : Nat
  state : SbState
  /-- Data slots programmed. -/
  used : Nat
  closeTime : Nat
  /-- Write temperature, bin of R545. -/
  wbin : Nat
  /-- Erase count of its blocks. -/
  pe : Nat
  /-- BIN_BIAS (R547). -/
  bias : Nat
  verifyFails : Nat
deriving DecidableEq, Repr

/-- A map entry with what its slots' metadata tell (R532, R533): an entry that is not listed is not MAPPED. -/
structure UnitRec where
  sb : Nat
  slot : Nat
  lost : Bool
  seq : Nat
  /-- Handle of the key that seals the unit, 0 for none. -/
  key : Nat
deriving DecidableEq, Repr

/-- Reservation state of a namespace (14 R512). -/
structure Resv where
  /-- Registered host identifiers with their reservation keys. -/
  regs : List (List Byte × Nat)
  /-- Holder and type. -/
  holder : Option (List Byte)
  rtype : Nat
  gen : Nat
  ptpl : Bool
deriving DecidableEq, Repr

def Resv.reset : Resv := ⟨[], .none, 0, 0, false⟩

/-- A namespace. -/
structure Ns where
  /-- Size in blocks. -/
  nsze : Nat
  /-- LBA format: 4,096 or 512 bytes. -/
  lba : Nat
  /-- IU: 0 for 16 KiB, 1 for 1 MiB. -/
  iu : Nat
  /-- NSKIND: 0 data, 1 cache. -/
  kind : Nat
  key : Nat
  /-- Ports whose controllers it is attached to. -/
  attached : List Nat
  /-- Keys of the restricted job that sealed a cache namespace (10 R377). -/
  sealedBy : Option (List Nat)
  /-- Job slot that uses a cache namespace as its flash tier. -/
  usedBy : Option Nat
  units : SMap UnitRec
  /-- Contents by byte offset. -/
  data : Memory
  resv : Resv
deriving DecidableEq, Repr

/-- Who waits for an update of the map to be durable. -/
inductive FlashDone where
  | nvme (n : NvmeCtx)
  | inner
deriving DecidableEq, Repr

/-- A change of the map whose journal records are not yet on every mirror (R537, R536, R542). -/
inductive MapChange where
  /-- Bytes written at an offset of a namespace, and the entries of the units they lie in. -/
  | write (nsid off : Nat) (bytes : List Byte) (units : List (Nat × UnitRec))
  /-- Units deallocated: first and count. -/
  | unmap (nsid first count : Nat)
  /-- A unit moved, if its entry still names the source superblock and slot. -/
  | move (nsid unit sb slot : Nat) (dst : UnitRec)
  | lost (nsid unit : Nat)
  /-- A superblock erased: ERASE_PENDING to ERASED. -/
  | erase (sb : Nat)
deriving DecidableEq, Repr

/-- A host write that waits for an SLC superblock (R541, R550). -/
structure WaitWrite where
  done : FlashDone
  nsid : Nat
  off : Nat
  bytes : List Byte
deriving DecidableEq, Repr

structure Flash where
  carriers : SMap Carrier
  /-- The mounted module-set ID, and whether the flash is mounted. -/
  setId : Nat
  mounted : Bool
  /-- What the last mount found. -/
  found : Option MountInfo
  sbs : SMap SBlk
  /-- Superblocks queued for refresh, evacuation or closure after a program failure, in order (R549). -/
  queued : List Nat
  spares : Nat
  retired : Nat
  nss : SMap Ns
  /-- Journal records of the open page with the changes they carry, and how many wait for their completion. -/
  pendJ : List (MapChange × FlashDone)
  /-- Records journaled since the last checkpoint. -/
  sinceCkpt : Nat
  /-- Spindle count of the last checkpoint (R556). -/
  lastCkpt : Nat
  seq : Nat
  waiting : List WaitWrite
  /-- Dies that failed: channel and die position; channels that failed; recalibration failures in a row. -/
  deadDies : List (Nat × Nat)
  recalFails : SMap Nat
  /-- Media key (R534): how often it has been replaced. -/
  mediaKey : Nat
  /-- Media time saved in NOR (R544). -/
  savedTime : Nat
  /-- MAPCACHE_GIB and SLC_PCT in NOR (R568). -/
  storedCfg : Nat
deriving DecidableEq, Repr

def Flash.reset : Flash :=
  { carriers := [], setId := 0, mounted := false, found := none, sbs := [], queued := [], spares := 0, retired := 0, nss := [],
    pendJ := [], sinceCkpt := 0, lastCkpt := 0, seq := 0, waiting := [], deadDies := [], recalFails := [], mediaKey := 0, savedTime := 0,
    storedCfg := 0x0802 }

end Sys2Proof.Machine
end

