-- ==== Sys2Proof/Machine/Parts/Host.lean ====
section
/-!
DEFINITION. State of the host ports, the NVMe controllers and the pipeline queues
(14_host_ports_and_command_queues.md R490 to R528).
-/
namespace Sys2Proof.Machine

/-- An NVMe controller. -/
structure Ctl where
  /-- CC.EN and CSTS.RDY. -/
  en : Bool
  rdy : Bool
  /-- I/O submission queues: size and completion queue. -/
  sqs : SMap (Nat × Nat)
  /-- I/O completion queues: size, vector, interrupts enabled. -/
  cqs : SMap (Nat × Nat × Bool)
  /-- Feature values set (R504). -/
  feats : SMap Nat
  hostId : Option (List Byte)
  /-- Asynchronous event requests outstanding, by command identifier. -/
  aers : List Nat
  /-- Completions with an error, newest first: queue, command, status code type and status code (R505). -/
  errs : List (Nat × Nat × Nat × Nat)
  /-- A response that NVMe-MI Receive returns. -/
  mi : List Byte
deriving DecidableEq, Repr

def Ctl.reset : Ctl :=
  { en := false, rdy := false, sqs := [], cqs := [], feats := [], hostId := none, aers := [], errs := [], mi := [] }

/-- A completion entry of a pipeline queue (R523). -/
structure PipeCpl where
  result : Nat
  cid : Nat
  status : Nat
  fin : Bool
deriving DecidableEq, Repr

/-- A pipeline queue (R521 to R523). -/
structure PipeQ where
  /-- Which creation of the queue this is (the model's own field). -/
  serial : Nat
  sqLog : Nat
  cqLog : Nat
  vector : Nat
  ien : Bool
  sqBase : Nat
  cqBase : Nat
  sqHead : Nat
  sqTail : Nat
  /-- Completion entries posted in all, and the host's head index. -/
  posted : Nat
  cqHead : Nat
  /-- Identifiers of entries started and not yet completed. -/
  started : List Nat
  /-- Completions that wait for room. -/
  waiting : List PipeCpl
deriving DecidableEq, Repr

/-- A PCIe port. -/
structure PortSt where
  /-- PERSTn# is asserted. -/
  perst : Bool
  training : Bool
  /-- The link is up; the configuration space is ready. -/
  up : Bool
  cfgReady : Bool
  d3 : Bool
  /-- LSTATE of HIF_PORTn_LINK. -/
  lstate : Nat
  speed : Nat
  width : Nat
  flit : Bool
  /-- Latest LTR since link-up: the smaller of its two values, ns. -/
  ltr : Option Nat
  /-- Spindle count since when the link has been down or PERSTn# asserted without interruption. -/
  downSince : Option Nat
  /-- The last whole second in which a window-4 access was recorded (R496). -/
  win4Sec : Option Nat
  /-- A margining command waits (R492). -/
  marginWait : Bool
  ctl : Ctl
  pipes : SMap PipeQ
deriving DecidableEq, Repr

def PortSt.reset : PortSt :=
  { perst := true, training := false, up := false, cfgReady := false, d3 := false, lstate := 5, speed := 0, width := 0,
    flit := false, ltr := none, downSince := some 0, win4Sec := none, marginWait := false, ctl := .reset, pipes := [] }

/-- Kinds of a running operation of HIF_MAINT (R516, R517). -/
inductive MaintKind where
  | blockErase | cryptoErase | format (nsid ses lba : Nat)
deriving DecidableEq, Repr

/-- A running Sanitize or Format; progress is kept in NOR (R518). -/
structure Maint where
  kind : MaintKind
  percent : Nat
  resumed : Bool
  done : Option NvmeCtx
deriving DecidableEq, Repr

structure HostIf where
  p0 : PortSt
  p1 : PortSt
  /-- Administrative owner port (R513). -/
  owner : Nat
  maint : Option Maint
  /-- The subsystem is in the sanitize failure mode. -/
  sanFailed : Bool
  /-- A Sanitize has completed since manufacture. -/
  sanDone : Bool
  /-- The in-service measurement holds the margin sampler (R492). -/
  margining : Bool
  /-- Pipeline queues created so far (the model's own field). -/
  made : Nat
deriving DecidableEq, Repr

def HostIf.reset : HostIf :=
  { p0 := .reset, p1 := .reset, owner := 0, maint := none, sanFailed := false, sanDone := false, margining := false, made := 0 }

end Sys2Proof.Machine
end

