-- ==== Sys2Proof/Machine/Parts/Jobs.lean ====
section
/-!
DEFINITION. State of the job slots: jobs of an image, codec requests and generation sessions, the module channels and
the decoded cache (08 R278 to R313, 09 R334 to R351, 10 R362, 11 R402 to R412).
-/
namespace Sys2Proof.Machine

/-- A shard (08 R282). -/
structure ShardSpec where
  nsid : Nat
  owner : Nat
  enc : Bool
  indexLba : Nat
  records : Nat
  key : Nat
  first : Nat
deriving DecidableEq, Repr

/-- The BATCH section (08 R293). -/
structure BatchSpec where
  packed : Bool
  elem : Nat
  split : Nat
  rows : Nat
  elems : Nat
  pad : Nat
  sep : Nat
  /-- DIM0 to DIM3. -/
  dims : List Nat
deriving DecidableEq, Repr

/-- A channel descriptor (08 R302). -/
structure ChanSpec where
  kind : Nat
  ordered : Bool
  dest : Nat
  depth : Nat
  node : Nat
  addr : Nat
  key : Nat
  slots : Nat
  slotBytes : Nat
  period : Nat
  offset : Nat
  lead : Nat
deriving DecidableEq, Repr

/-- The POLICIES section (08 R289); the limit is the substitutions that a lane may make in an epoch. -/
structure PolicySpec where
  corruptFail : Bool
  mediaSubst : Bool
  checkAccept : Bool
  tail : Nat
  limit : Nat
deriving DecidableEq, Repr

/-- The AUGMENT section (09 R334). -/
structure AugSpec where
  source : Nat
  layout : Nat
  ringEpochs : Nat
  ringAddr : Nat
  slotBytes : Nat
  mean : List Nat
  scale : List Nat
  /-- SMIN, SMAX, RMIN, RMAX, P_HFLIP, JB, JC, JS. -/
  draw : List Nat
deriving DecidableEq, Repr

/-- The CACHE section (09 R344). -/
structure CacheSpec where
  id : List Byte
  gddrBytes : Nat
  nsid : Nat
  point : Nat
  clock : Bool
  replicas : Nat
deriving DecidableEq, Repr

/-- A job image (08 R278). -/
structure JobImage where
  signed : Bool
  seed : Nat
  n : Nat
  first : Nat
  /-- Epochs to run; the field's 0 stands for every epoch up to 0xFFFF_FFFF. -/
  epochs : Nat
  shuffle : Nat
  blockLog : Nat
  l : Nat
  modules : Nat
  shards : List ShardSpec
  batch : Option BatchSpec
  chans : List ChanSpec
  policy : PolicySpec
  mbox : Nat
  cnt : Nat
  clusters : Nat
  aug : Option AugSpec
  cache : Option CacheSpec
  digest : List Byte
deriving DecidableEq, Repr

/-- What the module knows of a sample (08 R290, R292): its unit's output, content-corrupt, or unreadable. -/
inductive SampleRes where
  | good (output : List Byte)
  | corrupt
  | media
deriving DecidableEq, Repr

/-- What a place of a lane holds: the position, the sample, the reserve index of a substitute, and the unit's output. -/
structure Item where
  epoch : Nat
  pos : Nat
  sample : Nat
  reserve : Option Nat
  media : Bool
  output : List Byte
  /-- Spindle count at which the place was filled. -/
  time : Nat
deriving DecidableEq, Repr

/-- A lane: epoch (from 0) and place of its next position, substitutions made in that epoch, a media failure met at that
position, and the items of every place filled. -/
structure Lane where
  e : Nat
  t : Nat
  q : Nat
  media : Bool
  items : List Item
deriving DecidableEq, Repr

def Lane.start : Lane := ⟨0, 0, 0, false, []⟩

/-- Statistics of R309: unit times at 1.8 GHz (sum, count, longest) and fetch times. -/
structure JobStats where
  unitSum : Nat
  unitCount : Nat
  unitMax : Nat
  fetches : List Nat
deriving DecidableEq, Repr

def JobStats.zero : JobStats := ⟨0, 0, 0, []⟩

/-- A codec request (10 R362) with the gain captured at acceptance (R361). -/
structure CodecReq where
  op : Nat
  format : Nat
  level : Nat
  abhar : Bool
  encrypt : Bool
  acceptAbsent : Bool
  typ : Nat
  items : List (Nat × Nat)
  dst : Nat
  dstLen : Nat
  results : Nat
  key : Nat
  gain : Nat
  /-- The entry that started it has completed. -/
  answered : Bool
deriving DecidableEq, Repr

/-- A sequence of a session beside its context slot: the last result written, the output kept, the held-back bytes and
the buffer of a spilled mask. -/
structure SeqRec where
  ref : Nat
  last : List Byte
  output : List Byte
  held : List Byte
  spill : Option Nat
  /-- Buffers that hold the output, in order. -/
  chain : List Nat
deriving DecidableEq, Repr

/-- A generation session (11 R402). -/
structure SessReq where
  vocab : Nat
  tables : List Byte
  inBase : Nat
  inQueues : Nat
  maxSeqs : Nat
  outNsid : Nat
  outLba : Nat
  outBlocks : Nat
  /-- Bytes of the extent taken by frames, and bytes that hold completed frames (GRM_OUTj). -/
  used : Nat
  done : Nat
  /-- Frames whose write has not completed, oldest first. -/
  writing : List (List Byte)
  /-- Handle of the access key by which spilled masks are read (R409). -/
  key : Nat
  seqs : List SeqRec
deriving DecidableEq, Repr

inductive JobKind where
  | image (i : JobImage)
  | codec (c : CodecReq)
  | session (s : SessReq)
deriving DecidableEq, Repr

/-- Who a job belongs to (14 R525): the port whose queue started it, with the entry, or a manager on the fabric. -/
inductive JobOwner where
  | pipe (port q cid serial : Nat) (notifyEnd : Bool)
  | manager (node : Nat)
deriving DecidableEq, Repr

/-- A sample in buffers of its job: their handles, its bytes, and FRAME_CRC of its index entry for a frame; none for a
decoded sample that the cache has served (09 R346). -/
structure Fetched where
  bufs : List Nat
  len : Nat
  crc : Option Nat
deriving DecidableEq, Repr

structure Job where
  /-- STATE of PIPE_JOBj_STATE (R312). -/
  state : Nat
  status : Nat
  nonrepro : Bool
  planSeq : Nat
  /-- The image (R278): device address and IMAGE_LEN. -/
  imageAddr : Nat
  imageLen : Nat
  kind : JobKind
  owner : JobOwner
  /-- Module index, modules, and lane count in effect. -/
  m : Nat
  modules : Nat
  l : Nat
  /-- The launch count, once it is fixed; the start entry's LAUNCH. -/
  launch : Option Nat
  asked : Nat
  /-- Its table sets are loaded in every serving cluster, at this count. -/
  loadedAt : Option Nat
  /-- Module channels, in the order of the job's channels. -/
  chans : List Nat
  /-- Base of the batch area of each ordered channel. -/
  areas : List Nat
  lanes : SMap Lane
  results : List ((Nat × Nat) × SampleRes)
  /-- Samples fetched: epoch, position, and what lies in the buffers. -/
  fetched : List ((Nat × Nat) × Fetched)
  /-- Unordered records emitted: epoch and position. -/
  emitted : List (Nat × Nat)
  cur : JobStats
  last : Option JobStats
  tokens : Nat
  samples : Nat
  subst : Nat
  mediaSubst : Nat
  augReady : Nat
  /-- Decoded-cache homes of each module index (12 R434). -/
  homes : List (List Nat)
  /-- Modules lost (12 R435). -/
  lost : List Nat
  /-- Buffers that the job still holds when it ends are in the pools; context references of its shard cursors. -/
  cursors : List Nat
deriving DecidableEq, Repr

/-- A module channel (08 R312): bound to a job's channel. -/
structure Chan where
  job : Nat
  index : Nat
  ordered : Bool
  depth : Nat
  /-- The 64-bit number of the next batch to emit, and of batches started. -/
  next : Nat
  started : Nat
  /-- Spindle count of the last emission, if any. -/
  lastEmit : Option Nat
  late : Nat
  maxLate : Nat
deriving DecidableEq, Repr

/-- An entry of the decoded cache (09 R345, R346): key of 32 bytes, generation of its segment, FRAME_LEN and FRAME_CRC,
payload and the stored CRC. -/
structure DcEntry where
  key : List Byte
  gen : Nat
  frameLen : Nat
  frameCrc : Nat
  payload : List Byte
  crc : Nat
deriving DecidableEq, Repr

/-- A segment of 4 MiB (09 R346): tier, generation, reference bit, entries, and when it was unlinked. -/
structure DcSeg where
  flash : Bool
  gen : Nat
  referenced : Bool
  entries : List DcEntry
  unlinked : Option Nat
deriving DecidableEq, Repr

/-- The decoded cache (09 R344 to R351). The segments of both tiers in clock order; the next generation. -/
structure DecCache where
  /-- The job that uses it, with its GDDR7 tier in segments. -/
  job : Option Nat
  base : Nat
  gddrSegs : Nat
  flashNs : Nat
  flashSegs : Nat
  segs : List DcSeg
  hand : Nat
  nextGen : Nat
  /-- Entries in the insert ring: offered and not yet taken (09 R347). -/
  ring : List DcEntry
deriving DecidableEq, Repr

def DecCache.reset : DecCache := ⟨none, 0, 0, 0, 0, [], 0, 1, []⟩

structure Jobs where
  slots : SMap Job
  /-- Module channels 0 to 63 ordered, 64 to 67 unordered; only bound ones are listed. -/
  chans : SMap Chan
  dc : DecCache
  /-- Segments of flash tiers that no job uses now, by namespace (09 R350). -/
  tiers : SMap (List DcSeg)
deriving DecidableEq, Repr

def Jobs.reset : Jobs := ⟨[], [], .reset, []⟩

end Sys2Proof.Machine
end

