-- ==== Sys2Proof/Machine/Parts/Keys.lean ====
section
/-!
DEFINITION. State of the key store and of the jobs' key tables (10_compression_and_sealed_data.md R369 to R379).
-/
namespace Sys2Proof.Machine

/-- A key record (R371). -/
structure KeyRec where
  id : Nat
  gen : Nat
  revoked : Bool
  policy : Nat
  flags : Nat
  signer : List Byte
  seals : Nat
  material : List Byte
deriving DecidableEq, Repr

/-- A key store in escrow: module-set ID, generation and keys (03 R119). -/
structure Escrow where
  setId : Nat
  generation : Nat
  keys : List KeyRec
deriving DecidableEq, Repr

structure KeyStore where
  /-- OPEN of SEC_KS_INFO. -/
  isOpen : Bool
  keys : List KeyRec
  /-- The last GEN of a KEY_ID that has been assigned (R370). -/
  gens : SMap Nat
  /-- Key-store generation (R373). -/
  generation : Nat
  escrow : List Escrow
  /-- Key table of each job slot: key handles in entry order; a revoked entry is cleared (R374, R375). -/
  tables : SMap (List (Option Nat))
  /-- The secret drawn at boot that keys the tags (R374). -/
  tagSecret : List Byte
  /-- Jobs whose image carried a valid signature. -/
  signedJobs : List Nat
deriving DecidableEq, Repr

/-- An empty key store (03 R625). -/
def KeyStore.reset : KeyStore :=
  { isOpen := false, keys := [], gens := [], generation := 0, escrow := [], tables := [], tagSecret := [], signedJobs := [] }

end Sys2Proof.Machine
end

