-- ==== Sys2Proof/Machine/Parts/Mem.lean ====
section
/-!
DEFINITION. State of GDDR7, the buffer pools and the context table (07_memory_buffer_pools_contexts.md).
-/
namespace Sys2Proof.Machine

/-- A buffer state entry (R260), with the mark of a lost buffer (R252). -/
structure BufState where
  owner : Nat
  alloc : Bool
  gen : Nat
  lost : Bool
deriving DecidableEq, Repr

/-- The state of a buffer after an enable: free, GEN 1 (R259, R269). -/
def BufState.fresh : BufState := ⟨0, false, 1, false⟩

/-- Who waits for a buffer (R266): the owner it asks for, and a number that names the request. -/
structure BufWait where
  owner : Nat
  tag : Nat
deriving DecidableEq, Repr

/-- A buffer pool (R260). The ring holds the handles of indices not yet taken from it since the enable, from `fresh`
up to the count, in front of the handles written back to it. -/
structure Pool where
  enabled : Bool
  ready : Bool
  count : Nat
  fresh : Nat
  ring : List Nat
  chuck : List Nat
  bufs : SMap BufState
  waiting : List BufWait
  /-- Ring reads in flight, each with the handles that will land (R260). -/
  inFlight : List (List Nat)
deriving DecidableEq, Repr

def Pool.reset : Pool :=
  { enabled := false, ready := false, count := 0, fresh := 0, ring := [], chuck := [], bufs := [],
    waiting := [], inFlight := [] }

/-- A context slot (R272): the current contents, which the context cache may hold. -/
structure CtxSlot where
  kind : Nat
  flags : Nat
  gen : Nat
  owner : Nat
  body : List Byte
deriving DecidableEq, Repr

def CtxSlot.free : CtxSlot := ⟨0, 0, 1, 0, List.replicate 240 0⟩

/-- A way of the context cache (R274). -/
structure CtxWay where
  slot : Nat
  dirty : Bool
  pinned : Bool
  /-- The unit that has it checked out. -/
  out : Option Nat
  /-- A fill is in progress. -/
  filling : Bool
deriving DecidableEq, Repr

/-- An area of GDDR7 carved for a job: base, bytes, job slot (R626). -/
structure Area where
  base : Nat
  len : Nat
  job : Nat
deriving DecidableEq, Repr

structure MemState where
  /-- The bytes of GDDR7 (01 R44). -/
  gddr : Memory
  trained : Bool
  /-- Device addresses of words with an uncorrectable error, and of words whose stored form holds one flipped bit. -/
  badWords : List Nat
  ceWords : List Nat
  /-- Corrected errors recorded by word address, and when (R251). -/
  ceSeen : SMap Nat
  /-- Channels in retraining with their trigger, and triggers that wait their turn (R254). -/
  retraining : SMap Nat
  retrainWait : SMap Nat
  /-- Failed trainings of a retraining at the present rate (R256). -/
  trainFails : SMap Nat
  /-- Channels out of service (R256). -/
  chansOut : List Nat
  pools : SMap Pool
  /-- BASE, RING_BASE and COUNT that firmware gave each pool at boot (R626). -/
  bootPools : SMap (Nat × Nat × Nat)
  ctx : SMap CtxSlot
  /-- Context cache ways, least recently checked in first. -/
  ways : List CtxWay
  /-- Check-outs that wait: slot and unit (R275). -/
  ctxWait : List (Nat × Nat)
  ctxFlushing : Bool
  /-- Dirty slots checked out when the flush began (R277). -/
  flushLater : List Nat
  /-- Areas carved for jobs (R626). -/
  areas : List Area
  /-- Next buffer-request number (the model's own field). -/
  reqTag : Nat
deriving DecidableEq, Repr

def MemState.reset : MemState :=
  { gddr := [], trained := false, badWords := [], ceWords := [], ceSeen := [], retraining := [], retrainWait := [],
    trainFails := [], chansOut := [], pools := [], bootPools := [], ctx := [], ways := [], ctxWait := [], ctxFlushing := false, flushLater := [],
    areas := [], reqTag := 0 }

end Sys2Proof.Machine
end

