-- ==== Sys2Proof/Machine/Parts/Recorder.lean ====
section
/-!
DEFINITION. State of the event recorder (17_health_faults_event_recorder.md R611 to R619, R631 to R633).
-/
namespace Sys2Proof.Machine

/-- One event record (R611), without its LENGTH and CRC, which follow from the rest. -/
structure EvRecord where
  typ : Nat
  injected : Bool
  spindle : Nat
  seq : Nat
  source : Nat
  status : Nat
  payload : List Byte
deriving DecidableEq, Repr

/-- A record that is kept: in the buffer, in the circular area (with its sector), in the permanent area (R615, R632). -/
structure KeptRec where
  record : EvRecord
  buffered : Bool
  circ : Bool
  perm : Bool
  sector : Nat
deriving DecidableEq, Repr

/-- A port's read window (R617): its selector, its area bit, the load in progress and what is loaded. -/
structure ReadWin where
  seq : Nat
  area : Bool
  busy : Bool
  loadArea : Bool
  state : Nat
  data : List Byte
deriving DecidableEq, Repr

/-- The event recorder. -/
structure Recorder where
  /-- Records kept, oldest first. -/
  kept : List KeptRec
  nextSeq : Nat
  /-- Records dropped since boot, modulo 2^32 (EVR_DROPPED). -/
  dropped : Nat
  /-- Records dropped and not yet reported by a DROPPED record, and the TYPE of the first (R614). -/
  dropRun : Nat
  dropType : Nat
  permFull : Bool
  permUsed : Nat
  /-- Next byte of the circular area, 0 to 15 MiB - 1 (R615). -/
  circPos : Nat
  /-- Records made in the last 3,600 s: spindle count and bytes (the rate of R614). -/
  made : List (Nat × Nat)
  win0 : ReadWin
  win1 : ReadWin
  /-- Records the always-on domain keeps until the rising edge of PWR_OK (R613). -/
  pre : List EvRecord
  preDropped : Nat
  preDropType : Nat
  bootCount : Nat
deriving DecidableEq, Repr

/-- A read window at reset: STATE 10, not yet made. -/
def ReadWin.reset : ReadWin := ⟨0, false, false, false, 2, []⟩

/-- An event recorder that has made no record. -/
def Recorder.reset : Recorder :=
  { kept := [], nextSeq := 0, dropped := 0, dropRun := 0, dropType := 0, permFull := false, permUsed := 0,
    circPos := 0, made := [], win0 := .reset, win1 := .reset, pre := [], preDropped := 0, preDropType := 0,
    bootCount := 0 }

end Sys2Proof.Machine
end

