-- ==== Sys2Proof/Machine/Parts/Out.lean ====
section
/-!
DEFINITION. What the module sends out: completions, answers, messages and frames, in the order sent. The list that
holds them is the model's own; the outside takes them from it.
-/
namespace Sys2Proof.Machine

/-- One thing sent. -/
inductive Out where
  /-- ST_ARB_LOST for port 1's write of a register that port 0 wrote in the same cycle (R18). -/
  | arbLost (off : Nat)
  /-- An answer on the management bus: status code and data (02 R59). -/
  | mgmt (status : Nat) (data : List Byte)
  /-- An NVMe completion: where it came from, status code type, status code, Dword 1, and data returned (14 R508). -/
  | nvme (port qid cid sct sc dw1 : Nat) (data : List Byte)
  /-- A copy of an event record sent to the manager (17 R609). -/
  | notify (r : EvRecord)
  /-- Pins: ALERT#, WAKEn# and the like are read from State; this marks an interrupt to a port. -/
  | irq (port vector : Nat)
  /-- A migration message to a node of the fabric (03 R119): step and bytes. -/
  | migration (step : Nat) (node : Nat) (data : List Byte)
  /-- A buffer request answered (07 R265, R266): number of the request, status, handle. -/
  | buffer (tag status handle : Nat)
  /-- A free answered (07 R262): handle and status. -/
  | freed (handle status : Nat)
  /-- A context-table request answered (07 R270, R271, R274): status and reference. -/
  | ctx (status ref : Nat)
  /-- A completion entry written to a pipeline completion ring (14 R523): port, queue, RESULT, SQ_HEAD, CID, STATUS,
  PHASE and END. -/
  | pipe (port q result sqHead cid status : Nat) (phase fin : Bool)
  /-- A batch or an unordered record emitted (08 R305, R307): module channel, DEST, DEST_NODE, address in the ring,
  DEST_KEY and bytes. -/
  | emit (chan dest node addr key : Nat) (bytes : List Byte)
  /-- A message of the manager-worker protocol sent on a control queue (12 R429): node and message. -/
  | ctl (node : Nat) (m : CtlMsg)
  /-- A job image forwarded by YFT writes into a worker's staging area (12 R431): node, PLAN_SEQ and bytes. -/
  | stage (node planSeq : Nat) (bytes : List Byte)
  /-- A YFT packet (13 R462): fabric port, path index and the bytes from the header to the CRC. -/
  | yft (port path : Nat) (bytes : List Byte)
  /-- A TIME exchange of a peer answered (13 R483): node and the stamps t2 and t3. -/
  | time (node t2 t3 : Nat)
  /-- A session result written by one YFT write (11 R409): key, address and bytes. -/
  | result (key addr : Nat) (bytes : List Byte)
  /-- A sparing frame (13 R454, R455): port, message (0 SPARE_HELLO, 1 SPARE_REQ, 2 SPARE_ACK, 3 SPARE_DONE) and lane. -/
  | spare (port msg lane : Nat)
  /-- A decoded-cache entry offered by a YFT write into a home's insert ring (09 R347): module index of the home. -/
  | offer (home : Nat) (e : DcRemote)
  /-- Bytes that answer a read over a port: port and data (14 R496). -/
  | readData (port : Nat) (data : List Byte)
  /-- An answer to a configuration request (03 R104): port, Configuration Request Retry Status. -/
  | config (port : Nat) (retry : Bool)
deriving DecidableEq, Repr

end Sys2Proof.Machine
end

