-- ==== Sys2Proof/Machine/Parts/Power.lean ====
section
/-!
DEFINITION. State of the connectors, supply, always-on domain and coolant
(02_module_connectors_power_cooling.md R53 to R92, R621 to R624).
-/
namespace Sys2Proof.Machine

/-- The main rails (R68, R70 to R73): off, ramping in order, in regulation, or fed from the bulk after undervoltage
detect. -/
inductive Rails where
  | off | ramping | regulated | bulk
deriving DecidableEq, Repr

/-- The quiesce of R83 and R84. -/
inductive Quiesce where
  | none | running | ready | overrun
deriving DecidableEq, Repr

/-- One off record of R67; a withdrawal mark may follow it in NOR. -/
structure OffRec where
  cause : Nat
  withdrawn : Bool
deriving DecidableEq, Repr

/-- Pins, input, always-on domain and coolant. -/
structure Power where
  /-- Input voltage at the last event that named it, mV (the instantaneous input of R64). -/
  vin : Nat
  /-- The hot-swap switch is closed. -/
  closed : Bool
  /-- The standby rail is up. -/
  standby : Bool
  /-- SMBus static address sampled with the standby rail (R621). -/
  smbusAddr : Nat
  modEn : Bool
  emergLow : Bool
  overvolt : Bool
  svcReq : Bool
  wakeIn : Bool
  rails : Rails
  pwrOk : Bool
  /-- Power-down latches of R76: by EMERG_OFF#, by overvoltage, by any other cause. -/
  latchEmerg : Bool
  latchOv : Bool
  latchOther : Bool
  /-- THERMTRIP# is low. -/
  thermTrip : Bool
  checkRunning : Bool
  checkFailing : Bool
  /-- A flow loss is detected (FLOW_LOSS), its timer runs, its deadline has passed. -/
  flowTimer : Bool
  deadlinePassed : Bool
  limit150 : Bool
  limit950 : Bool
  /-- Dies (0 to 3, 4 the I/O die) and GDDR7 devices that throttle: sensor numbers of R630. -/
  throttled : List Nat
  quiesce : Quiesce
  /-- Bit n: WP# of flash connector J4 + n is low (R55). -/
  wpLow : Nat
  /-- Off records, newest first, and whether one has been written since the last boot. -/
  offRecs : List OffRec
  offSinceBoot : Bool
  /-- The cause the always-on domain has still to write after a firmware-free power-down (R67). -/
  offDue : Option Nat
  /-- The media time that this record will save (15 R544). -/
  dueTime : Nat
  /-- The last 100 samples of input voltage (mV) and power (0.1 W), newest first (R624). -/
  samples : List (Nat × Nat)
  /-- A thermal sensor calibration runs (R577). -/
  calibrating : Bool
deriving DecidableEq, Repr

/-- A module that has never had 54 V: every pin at its resistor's level (R58), no off record. -/
def Power.reset : Power :=
  { vin := 0, closed := false, standby := false, smbusAddr := 0, modEn := false, emergLow := false,
    overvolt := false, svcReq := false, wakeIn := false, rails := .off, pwrOk := false, latchEmerg := false,
    latchOv := false, latchOther := false, thermTrip := false, checkRunning := false, checkFailing := false,
    flowTimer := false, deadlinePassed := false, limit150 := false, limit950 := false, throttled := [],
    quiesce := .none, wpLow := 0xF, offRecs := [], offSinceBoot := false, offDue := none, dueTime := 0, samples := [],
    calibrating := false }

end Sys2Proof.Machine
end

