-- ==== Sys2Proof/Machine/Parts/PowerStates.lean ====
section
/-!
DEFINITION. State of the power states (16_power_states.md R569 to R591). Clusters in PS1 are marked in their own state.
-/
namespace Sys2Proof.Machine

structure PowerStates where
  /-- State of the package: 0, 3 or 4. -/
  pkg : Nat
  /-- Regions in PS2 (powered off). -/
  regionsOff : List Nat
  /-- An exit of the package has been started. -/
  waking : Bool
  /-- Counts before which a refused state is not tried again (R578): key 2 × 8 + region, 24 for PS3, 32 for PS4. -/
  notBefore : SMap Nat
deriving DecidableEq, Repr

def PowerStates.reset : PowerStates := { pkg := 0, regionsOff := [], waking := false, notBefore := [] }

end Sys2Proof.Machine
end

