-- ==== Sys2Proof/Machine/Parts/Ras.lean ====
section
/-!
DEFINITION. State of fault injection, retirement and margins (17_health_faults_event_recorder.md R592 to R609).
-/
namespace Sys2Proof.Machine

/-- An armed injection (R604): type, target, operations left, PERSIST. -/
structure Injection where
  typ : Nat
  target : Nat
  left : Nat
  persist : Bool
deriving DecidableEq, Repr

/-- A fabric lane that an injection holds out of lock: port, lane, and the count at which it locks again; none holds
until the injection is disarmed. -/
structure LaneOut where
  port : Nat
  lane : Nat
  till : Option Nat
deriving DecidableEq, Repr

structure Ras where
  inj : Option Injection
  /-- Words whose stored error an injection made. -/
  injWords : List Nat
  lanesOut : List LaneOut
  /-- Suspect tiles whose suspicion an injection caused. -/
  injTiles : List Nat
  /-- Spindle counts of the confirmed retirements of the last 3,600 s (R602). -/
  retireTimes : List Nat
  /-- Count of the last confirmation (R602). -/
  lastConfirm : Nat
  /-- Tiles quarantined by a storm. -/
  quarantine : List Nat
  /-- Last score sent to the manager (R608). -/
  score : Nat
  /-- Optical channels whose low receive-power warning stands: port and channel (R606). -/
  lowRx : List (Nat × Nat)
  /-- The retirement and derating map kept in NOR (R600): tiles retired, and tile, band and limit of derated ones. -/
  norRetired : List Nat
  norDerated : List (Nat × Nat × Nat)
  /-- RAS_FDOM0 to 3 as kept in NOR (R607). -/
  norFdom : List Nat
  /-- Band of each cluster's hottest sensor at its last crossing (R599). -/
  bands : SMap Nat
deriving DecidableEq, Repr

def Ras.reset : Ras :=
  { inj := none, injWords := [], lanesOut := [], injTiles := [], retireTimes := [], lastConfirm := 0, quarantine := [],
    score := 1000, lowRx := [], norRetired := [], norDerated := [], norFdom := [0, 0, 0, 0], bands := [] }

end Sys2Proof.Machine
end

