-- ==== Sys2Proof/Machine/RegTable.lean ====
section
/-!
DEFINITION. The register tables of the spec as data: for every register of window 2 and of a TILE page its offset,
its repetition, its width and its fields with bits, access type, reset value and permitted values
(01_architecture.md R50; the tables of the chapters; 00_scope.md R13 for the access types). The reset of a field
whose table names no number (a strap, a value set at boot or at mount, a variant's value) is 0 here and is given
by the operation that sets it.
-/
namespace Sys2Proof

/-- The access types of R13. -/
inductive Access where
  | ro | rw | w1c | w1s | wo | rwc | rwi
deriving DecidableEq, Repr

/-- One field: bits [hi:lo], access type, reset value, permitted values (ranges, all when empty) and their step. -/
structure FieldDef where
  hi : Nat
  lo : Nat
  acc : Access
  rst : Nat
  ranges : List (Nat × Nat)
  step : Nat
deriving DecidableEq, Repr

/-- A register, or an array of registers with strides and counts, outermost first. -/
structure RegDef where
  base : Nat
  dims : List (Nat × Nat)
  width : Nat
  fields : List FieldDef
deriving DecidableEq, Repr

/-- A value is not reserved for a field. -/
def FieldDef.okVal (f : FieldDef) (v : Nat) : Bool :=
  (f.ranges.isEmpty || f.ranges.any (fun r => r.1 ≤ v && v ≤ r.2)) && v % f.step = 0

namespace Reg
/-- GLB_CC_STATUS (01_architecture.md). -/
def glbCcStatus : Nat := 0x20
/-- GLB_STRAPS (02_module_connectors_power_cooling.md). -/
def glbStraps : Nat := 0x40
/-- GLB_SUPPLY (02_module_connectors_power_cooling.md). -/
def glbSupply : Nat := 0x44
/-- GLB_LAST_OFF (02_module_connectors_power_cooling.md). -/
def glbLastOff : Nat := 0x48
/-- GLB_COOLANT (02_module_connectors_power_cooling.md). -/
def glbCoolant : Nat := 0x4c
/-- GLB_COOLANT_TIMER (02_module_connectors_power_cooling.md). -/
def glbCoolantTimer : Nat := 0x50
/-- GLB_EMC_CFG (02_module_connectors_power_cooling.md). -/
def glbEmcCfg : Nat := 0x54
/-- GLB_BOOT_STATUS (03_startup_and_trust.md). -/
def glbBootStatus : Nat := 0x60
/-- GLB_FW_VERSION (03_startup_and_trust.md). -/
def glbFwVersion : Nat := 0x68
/-- GLB_ADOPT (03_startup_and_trust.md). -/
def glbAdopt : Nat := 0x78
/-- CAP_ID (00_scope.md). -/
def capId : Nat := 0x8000
/-- CAP_COMPUTE (00_scope.md). -/
def capCompute : Nat := 0x8004
/-- CAP_MEMORY (00_scope.md). -/
def capMemory : Nat := 0x8008
/-- CAP_NAND (00_scope.md). -/
def capNand : Nat := 0x800c
/-- CAP_PORTS (00_scope.md). -/
def capPorts : Nat := 0x8010
/-- PWR_STATUS (16_power_states.md). -/
def pwrStatus : Nat := 0x10000
/-- PWR_CLUSTER_GATED (16_power_states.md). -/
def pwrClusterGated : Nat := 0x10004
/-- PWR_REGION_WOKE (16_power_states.md). -/
def pwrRegionWoke : Nat := 0x10008
/-- PWR_TOLERANCE_NS (16_power_states.md). -/
def pwrToleranceNs : Nat := 0x10010
/-- PWR_TOL_EFFECTIVE (16_power_states.md). -/
def pwrTolEffective : Nat := 0x10014
/-- PWR_CFG (16_power_states.md). -/
def pwrCfg : Nat := 0x10018
/-- PWR_WAKE_AT (16_power_states.md). -/
def pwrWakeAt : Nat := 0x10020
/-- PWR_NEXT_EVENT (16_power_states.md). -/
def pwrNextEvent : Nat := 0x10028
/-- PWR_NEXT_SRC (16_power_states.md). -/
def pwrNextSrc : Nat := 0x10030
/-- PWR_RESIDs (16_power_states.md). -/
def pwrResid (a : Nat) : Nat := 0x10100 + a * 0x8
/-- PWR_ENTRIESs (16_power_states.md). -/
def pwrEntries (a : Nat) : Nat := 0x10140 + a * 0x4
/-- PWR_REFUSE_COUNTs (16_power_states.md). -/
def pwrRefuseCount (a : Nat) : Nat := 0x10180 + a * 0x4
/-- PWR_LAST_REFUSER (16_power_states.md). -/
def pwrLastRefuser : Nat := 0x101a0
/-- PWR_RESAMPLE (16_power_states.md). -/
def pwrResample : Nat := 0x101a4
/-- CLK_CL_TARGETn (04_tiles_clusters_regions.md). -/
def clkClTarget (a : Nat) : Nat := 0x20000 + a * 0x10
/-- CLK_CL_STATUSn (04_tiles_clusters_regions.md). -/
def clkClStatus (a : Nat) : Nat := 0x20004 + a * 0x10
/-- CLK_CL_CYCLESn (04_tiles_clusters_regions.md). -/
def clkClCycles (a : Nat) : Nat := 0x20008 + a * 0x10
/-- RAS_CALIPER_CFG (17_health_faults_event_recorder.md). -/
def rasCaliperCfg : Nat := 0x30000
/-- RAS_CAL_RUNS (17_health_faults_event_recorder.md). -/
def rasCalRuns : Nat := 0x30008
/-- RAS_CAL_MISMATCH (17_health_faults_event_recorder.md). -/
def rasCalMismatch : Nat := 0x30010
/-- RAS_SELFTESTS (17_health_faults_event_recorder.md). -/
def rasSelftests : Nat := 0x30018
/-- RAS_SELFTEST_FAILS (17_health_faults_event_recorder.md). -/
def rasSelftestFails : Nat := 0x30020
/-- RAS_RETIRE_CFG (17_health_faults_event_recorder.md). -/
def rasRetireCfg : Nat := 0x30040
/-- RAS_RETIRE_STATUS (17_health_faults_event_recorder.md). -/
def rasRetireStatus : Nat := 0x30044
/-- RAS_TILES (17_health_faults_event_recorder.md). -/
def rasTiles : Nat := 0x30048
/-- RAS_DERATE_CLEAR (17_health_faults_event_recorder.md). -/
def rasDerateClear : Nat := 0x3004c
/-- RAS_HEALTH (17_health_faults_event_recorder.md). -/
def rasHealth : Nat := 0x30050
/-- RAS_FDOMk (17_health_faults_event_recorder.md). -/
def rasFdom (a : Nat) : Nat := 0x30060 + a * 0x4
/-- RAS_INJ_CTL (17_health_faults_event_recorder.md). -/
def rasInjCtl : Nat := 0x30080
/-- RAS_INJ_TARGET (17_health_faults_event_recorder.md). -/
def rasInjTarget : Nat := 0x30088
/-- RAS_INJ_DONE (17_health_faults_event_recorder.md). -/
def rasInjDone : Nat := 0x30090
/-- RAS_MARGIN_CFG (17_health_faults_event_recorder.md). -/
def rasMarginCfg : Nat := 0x300c0
/-- RAS_GDDR7_EYEn (17_health_faults_event_recorder.md). -/
def rasGddr7Eye (a : Nat) : Nat := 0x30100 + a * 0x4
/-- RAS_PCIE_MARGINp_m (17_health_faults_event_recorder.md). -/
def rasPcieMargin (a b : Nat) : Nat := 0x30200 + a * 0x40 + b * 0x4
/-- RAS_SUPPLYd (17_health_faults_event_recorder.md). -/
def rasSupply (a : Nat) : Nat := 0x30300 + a * 0x4
/-- EVR_STATUS (17_health_faults_event_recorder.md). -/
def evrStatus : Nat := 0x40000
/-- EVR_NEXT_SEQ (17_health_faults_event_recorder.md). -/
def evrNextSeq : Nat := 0x40004
/-- EVR_OLDEST_SEQ (17_health_faults_event_recorder.md). -/
def evrOldestSeq : Nat := 0x40008
/-- EVR_PERM_LAST (17_health_faults_event_recorder.md). -/
def evrPermLast : Nat := 0x4000c
/-- EVR_DROPPED (17_health_faults_event_recorder.md). -/
def evrDropped : Nat := 0x40010
/-- EVR_ALERT_MASK (17_health_faults_event_recorder.md). -/
def evrAlertMask : Nat := 0x40020
/-- EVR_RD_SEQp (17_health_faults_event_recorder.md). -/
def evrRdSeq (a : Nat) : Nat := 0x40030 + a * 0x10
/-- EVR_RD_STATUSp (17_health_faults_event_recorder.md). -/
def evrRdStatus (a : Nat) : Nat := 0x40034 + a * 0x10
/-- SEC_KS_INFO (10_compression_and_sealed_data.md). -/
def secKsInfo : Nat := 0x50000
/-- SEC_KS_GEN (10_compression_and_sealed_data.md). -/
def secKsGen : Nat := 0x50008
/-- SEC_DENIED (10_compression_and_sealed_data.md). -/
def secDenied : Nat := 0x50040
/-- SEC_POLICY_REFUSED (10_compression_and_sealed_data.md). -/
def secPolicyRefused : Nat := 0x50044
/-- SEC_WIN4_BLOCKED (10_compression_and_sealed_data.md). -/
def secWin4Blocked : Nat := 0x50048
/-- SEC_JOB_POLICYj (10_compression_and_sealed_data.md). -/
def secJobPolicy (a : Nat) : Nat := 0x50100 + a * 0x4
/-- BPM_POOLk_BUF (07_memory_buffer_pools_contexts.md). -/
def bpmPoolBuf (a : Nat) : Nat := 0x60000 + a * 0x40
/-- BPM_POOLk_RING (07_memory_buffer_pools_contexts.md). -/
def bpmPoolRing (a : Nat) : Nat := 0x60008 + a * 0x40
/-- BPM_POOLk_CFG (07_memory_buffer_pools_contexts.md). -/
def bpmPoolCfg (a : Nat) : Nat := 0x60010 + a * 0x40
/-- BPM_POOLk_FREE (07_memory_buffer_pools_contexts.md). -/
def bpmPoolFree (a : Nat) : Nat := 0x60014 + a * 0x40
/-- BPM_POOLk_CHUCK (07_memory_buffer_pools_contexts.md). -/
def bpmPoolChuck (a : Nat) : Nat := 0x60018 + a * 0x40
/-- BPM_POOLk_LOST (07_memory_buffer_pools_contexts.md). -/
def bpmPoolLost (a : Nat) : Nat := 0x6001c + a * 0x40
/-- BPM_POOLk_ALLOCS (07_memory_buffer_pools_contexts.md). -/
def bpmPoolAllocs (a : Nat) : Nat := 0x60020 + a * 0x40
/-- BPM_POOLk_MISSES (07_memory_buffer_pools_contexts.md). -/
def bpmPoolMisses (a : Nat) : Nat := 0x60028 + a * 0x40
/-- CTX_FREE (07_memory_buffer_pools_contexts.md). -/
def ctxFree : Nat := 0x70000
/-- CTX_HITS (07_memory_buffer_pools_contexts.md). -/
def ctxHits : Nat := 0x70008
/-- CTX_MISSES (07_memory_buffer_pools_contexts.md). -/
def ctxMisses : Nat := 0x70010
/-- CTX_FLUSH (07_memory_buffer_pools_contexts.md). -/
def ctxFlush : Nat := 0x70018
/-- CTX_ERR (07_memory_buffer_pools_contexts.md). -/
def ctxErr : Nat := 0x7001c
/-- MEM_CARVE_BASEi (07_memory_buffer_pools_contexts.md). -/
def memCarveBase (a : Nat) : Nat := 0x80000 + a * 0x10
/-- MEM_CARVE_SIZEi (07_memory_buffer_pools_contexts.md). -/
def memCarveSize (a : Nat) : Nat := 0x80008 + a * 0x10
/-- MEM_HOST_LIMIT (07_memory_buffer_pools_contexts.md). -/
def memHostLimit : Nat := 0x80050
/-- MEM_CHn_STATUS (07_memory_buffer_pools_contexts.md). -/
def memChStatus (a : Nat) : Nat := 0x81000 + a * 0x4
/-- MEM_CHn_ERR (07_memory_buffer_pools_contexts.md). -/
def memChErr (a : Nat) : Nat := 0x81100 + a * 0x4
/-- MEM_RETRAIN_REQ (07_memory_buffer_pools_contexts.md). -/
def memRetrainReq : Nat := 0x81200
/-- MEM_RETRAIN_CFG (07_memory_buffer_pools_contexts.md). -/
def memRetrainCfg : Nat := 0x81208
/-- MEM_ECC_CE (07_memory_buffer_pools_contexts.md). -/
def memEccCe : Nat := 0x81300
/-- MEM_ECC_UE (07_memory_buffer_pools_contexts.md). -/
def memEccUe : Nat := 0x81304
/-- MEM_ECC_LAST (07_memory_buffer_pools_contexts.md). -/
def memEccLast : Nat := 0x81308
/-- MEM_SCRUB_CFG (07_memory_buffer_pools_contexts.md). -/
def memScrubCfg : Nat := 0x81310
/-- MEM_RD_LAT (07_memory_buffer_pools_contexts.md). -/
def memRdLat : Nat := 0x81320
/-- MEM_DC_STATUS (09_decode_augment_cache.md). -/
def memDcStatus : Nat := 0x82000
/-- MEM_DC_FLASH_SEGS (09_decode_augment_cache.md). -/
def memDcFlashSegs : Nat := 0x82004
/-- MEM_DC_HITS (09_decode_augment_cache.md). -/
def memDcHits : Nat := 0x82008
/-- MEM_DC_MISSES (09_decode_augment_cache.md). -/
def memDcMisses : Nat := 0x82010
/-- MEM_DC_INSERTS (09_decode_augment_cache.md). -/
def memDcInserts : Nat := 0x82018
/-- MEM_DC_REFUSED (09_decode_augment_cache.md). -/
def memDcRefused : Nat := 0x82020
/-- MEM_DC_BAD (09_decode_augment_cache.md). -/
def memDcBad : Nat := 0x82028
/-- FLM_GEOM (15_flash_translation.md). -/
def flmGeom : Nat := 0x90000
/-- FLM_GEOM2 (15_flash_translation.md). -/
def flmGeom2 : Nat := 0x90004
/-- FLM_USER_BYTES (15_flash_translation.md). -/
def flmUserBytes : Nat := 0x90008
/-- FLM_SB (15_flash_translation.md). -/
def flmSb : Nat := 0x90010
/-- FLM_GC_CFG (15_flash_translation.md). -/
def flmGcCfg : Nat := 0x90018
/-- FLM_GC_STATUS (15_flash_translation.md). -/
def flmGcStatus : Nat := 0x9001c
/-- FLM_HOST_SLOTS (15_flash_translation.md). -/
def flmHostSlots : Nat := 0x90020
/-- FLM_GC_SLOTS (15_flash_translation.md). -/
def flmGcSlots : Nat := 0x90028
/-- FLM_SLC (15_flash_translation.md). -/
def flmSlc : Nat := 0x90030
/-- FLM_STORED_CFG (15_flash_translation.md). -/
def flmStoredCfg : Nat := 0x90034
/-- FLM_MAP_HITS (15_flash_translation.md). -/
def flmMapHits : Nat := 0x90038
/-- FLM_MAP_MISSES (15_flash_translation.md). -/
def flmMapMisses : Nat := 0x90040
/-- FLM_CKPT (15_flash_translation.md). -/
def flmCkpt : Nat := 0x90048
/-- FLM_REPLAY (15_flash_translation.md). -/
def flmReplay : Nat := 0x90050
/-- FLM_MEDIA_TIME (15_flash_translation.md). -/
def flmMediaTime : Nat := 0x90058
/-- FLM_STATUS (15_flash_translation.md). -/
def flmStatus : Nat := 0x90060
/-- FLM_RETIRED (15_flash_translation.md). -/
def flmRetired : Nat := 0x90068
/-- FLM_SPARES (15_flash_translation.md). -/
def flmSpares : Nat := 0x9006c
/-- FLM_READ_STEPk (15_flash_translation.md). -/
def flmReadStep (a : Nat) : Nat := 0x90100 + a * 0x8
/-- FLM_CHn_STATUS (15_flash_translation.md). -/
def flmChStatus (a : Nat) : Nat := 0x91000 + a * 0x4
/-- FLM_RECAL_REQ (15_flash_translation.md). -/
def flmRecalReq : Nat := 0x91080
/-- FLM_TTBLi (15_flash_translation.md). -/
def flmTtbl (a : Nat) : Nat := 0x92000 + a * 0x4
/-- HIF_PORTn_LINK (14_host_ports_and_command_queues.md). -/
def hifLink (a : Nat) : Nat := 0xa0000 + a * 0x100
/-- HIF_PORTn_LTR (14_host_ports_and_command_queues.md). -/
def hifLtr (a : Nat) : Nat := 0xa0004 + a * 0x100
/-- HIF_PORTn_DOWNS (14_host_ports_and_command_queues.md). -/
def hifDowns (a : Nat) : Nat := 0xa0008 + a * 0x100
/-- HIF_PORTn_WIN4 (14_host_ports_and_command_queues.md). -/
def hifWin4 (a : Nat) : Nat := 0xa000c + a * 0x100
/-- HIF_PORTn_DB_ERR (14_host_ports_and_command_queues.md). -/
def hifDbErr (a : Nat) : Nat := 0xa0010 + a * 0x100
/-- HIF_ADMIN (14_host_ports_and_command_queues.md). -/
def hifAdmin : Nat := 0xa0800
/-- HIF_MAINT (14_host_ports_and_command_queues.md). -/
def hifMaint : Nat := 0xa0804
/-- FAB_PORTn_CFG (13_fabric_and_remote_access.md). -/
def fabCfg (a : Nat) : Nat := 0xb0000 + a * 0x1000
/-- FAB_PORTn_STATUS (13_fabric_and_remote_access.md). -/
def fabStatus (a : Nat) : Nat := 0xb0004 + a * 0x1000
/-- FAB_PORTn_SPARE_CTL (13_fabric_and_remote_access.md). -/
def fabSpareCtl (a : Nat) : Nat := 0xb0008 + a * 0x1000
/-- FAB_PORTn_LANEm_MARGIN (13_fabric_and_remote_access.md). -/
def fabLaneMargin (a b : Nat) : Nat := 0xb0010 + a * 0x1000 + b * 0x4
/-- FAB_PORTn_OEc_MON (13_fabric_and_remote_access.md). -/
def fabOeMon (a b : Nat) : Nat := 0xb0040 + a * 0x1000 + b * 0x4
/-- FAB_PORTn_OE_TEMP (13_fabric_and_remote_access.md). -/
def fabOeTemp (a : Nat) : Nat := 0xb0064 + a * 0x1000
/-- FAB_PORTn_FRAMES_RX (13_fabric_and_remote_access.md). -/
def fabFramesRx (a : Nat) : Nat := 0xb0080 + a * 0x1000
/-- FAB_PORTn_FRAMES_TX (13_fabric_and_remote_access.md). -/
def fabFramesTx (a : Nat) : Nat := 0xb0088 + a * 0x1000
/-- FAB_PORTn_FCS_ERR (13_fabric_and_remote_access.md). -/
def fabFcsErr (a : Nat) : Nat := 0xb0090 + a * 0x1000
/-- FAB_PORTn_FEC_UNCORR (13_fabric_and_remote_access.md). -/
def fabFecUncorr (a : Nat) : Nat := 0xb0098 + a * 0x1000
/-- FAB_PORTn_PAUSE_DISC (13_fabric_and_remote_access.md). -/
def fabPauseDisc (a : Nat) : Nat := 0xb00a0 + a * 0x1000
/-- FAB_PORTn_OTHER_DISC (13_fabric_and_remote_access.md). -/
def fabOtherDisc (a : Nat) : Nat := 0xb00a8 + a * 0x1000
/-- FAB_PORTn_SWAPS (13_fabric_and_remote_access.md). -/
def fabSwaps (a : Nat) : Nat := 0xb00b0 + a * 0x1000
/-- FAB_NODE_ID (13_fabric_and_remote_access.md). -/
def fabNodeId : Nat := 0xbf000
/-- FAB_ENCAP (13_fabric_and_remote_access.md). -/
def fabEncap : Nat := 0xbf004
/-- FAB_MARGIN_CFG (13_fabric_and_remote_access.md). -/
def fabMarginCfg : Nat := 0xbf008
/-- XPT_CFG (13_fabric_and_remote_access.md). -/
def xptCfg : Nat := 0xc0000
/-- XPT_DOORBELL (13_fabric_and_remote_access.md). -/
def xptDoorbell : Nat := 0xc0008
/-- XPT_QDELETE (13_fabric_and_remote_access.md). -/
def xptQdelete : Nat := 0xc0010
/-- XPT_CQ_CONSUMED (14_host_ports_and_command_queues.md). -/
def xptCqConsumed : Nat := 0xc0018
/-- XPT_ACCEPTED (13_fabric_and_remote_access.md). -/
def xptAccepted : Nat := 0xc0100
/-- XPT_DUP (13_fabric_and_remote_access.md). -/
def xptDup : Nat := 0xc0108
/-- XPT_LATE (13_fabric_and_remote_access.md). -/
def xptLate : Nat := 0xc0110
/-- XPT_STRAY (13_fabric_and_remote_access.md). -/
def xptStray : Nat := 0xc0118
/-- XPT_OUT_WINDOW (13_fabric_and_remote_access.md). -/
def xptOutWindow : Nat := 0xc0120
/-- XPT_BAD (13_fabric_and_remote_access.md). -/
def xptBad : Nat := 0xc0128
/-- XPT_RETX (13_fabric_and_remote_access.md). -/
def xptRetx : Nat := 0xc0130
/-- XPT_NAK (13_fabric_and_remote_access.md). -/
def xptNak : Nat := 0xc0138
/-- XPT_KEYCMD_BASE (13_fabric_and_remote_access.md). -/
def xptKeycmdBase : Nat := 0xc1000
/-- XPT_KEYCMD_LIMIT (13_fabric_and_remote_access.md). -/
def xptKeycmdLimit : Nat := 0xc1008
/-- XPT_KEYCMD_ARG (13_fabric_and_remote_access.md). -/
def xptKeycmdArg : Nat := 0xc1010
/-- XPT_KEYCMD_CTL (13_fabric_and_remote_access.md). -/
def xptKeycmdCtl : Nat := 0xc1014
/-- XPT_KEYCMD_KEY (13_fabric_and_remote_access.md). -/
def xptKeycmdKey : Nat := 0xc1018
/-- XPT_KEYCMD_STATUS (13_fabric_and_remote_access.md). -/
def xptKeycmdStatus : Nat := 0xc1020
/-- XPT_KEYCMD_RESULT (13_fabric_and_remote_access.md). -/
def xptKeycmdResult : Nat := 0xc1024
/-- PIPE_JOBj_STATE (08_jobs_shuffle_batches.md). -/
def pipeJobState (a : Nat) : Nat := 0xd0000 + a * 0x100
/-- PIPE_JOBj_EPOCH (08_jobs_shuffle_batches.md). -/
def pipeJobEpoch (a : Nat) : Nat := 0xd0004 + a * 0x100
/-- PIPE_JOBj_FRONTIER (08_jobs_shuffle_batches.md). -/
def pipeJobFrontier (a : Nat) : Nat := 0xd0008 + a * 0x100
/-- PIPE_JOBj_LAUNCH (08_jobs_shuffle_batches.md). -/
def pipeJobLaunch (a : Nat) : Nat := 0xd0010 + a * 0x100
/-- PIPE_JOBj_LANES (08_jobs_shuffle_batches.md). -/
def pipeJobLanes (a : Nat) : Nat := 0xd0018 + a * 0x100
/-- PIPE_JOBj_UNIT_MEAN (08_jobs_shuffle_batches.md). -/
def pipeJobUnitMean (a : Nat) : Nat := 0xd001c + a * 0x100
/-- PIPE_JOBj_UNIT_MAX (08_jobs_shuffle_batches.md). -/
def pipeJobUnitMax (a : Nat) : Nat := 0xd0020 + a * 0x100
/-- PIPE_JOBj_FETCH_P999 (08_jobs_shuffle_batches.md). -/
def pipeJobFetchP999 (a : Nat) : Nat := 0xd0024 + a * 0x100
/-- PIPE_JOBj_TOK_MEAN (08_jobs_shuffle_batches.md). -/
def pipeJobTokMean (a : Nat) : Nat := 0xd0028 + a * 0x100
/-- PIPE_JOBj_SUBST (08_jobs_shuffle_batches.md). -/
def pipeJobSubst (a : Nat) : Nat := 0xd002c + a * 0x100
/-- PIPE_JOBj_MEDIA_SUBST (08_jobs_shuffle_batches.md). -/
def pipeJobMediaSubst (a : Nat) : Nat := 0xd0030 + a * 0x100
/-- PIPE_JOBj_AUG_READY (09_decode_augment_cache.md). -/
def pipeJobAugReady (a : Nat) : Nat := 0xd0040 + a * 0x100
/-- PIPE_JOBj_AUG_DONE (09_decode_augment_cache.md). -/
def pipeJobAugDone (a : Nat) : Nat := 0xd0044 + a * 0x100
/-- PIPE_CHk_CFG (08_jobs_shuffle_batches.md). -/
def pipeChCfg (a : Nat) : Nat := 0xd4000 + a * 0x40
/-- PIPE_CHk_NEXT (08_jobs_shuffle_batches.md). -/
def pipeChNext (a : Nat) : Nat := 0xd4008 + a * 0x40
/-- PIPE_CHk_DUE (08_jobs_shuffle_batches.md). -/
def pipeChDue (a : Nat) : Nat := 0xd4010 + a * 0x40
/-- PIPE_CHk_ROB (08_jobs_shuffle_batches.md). -/
def pipeChRob (a : Nat) : Nat := 0xd4018 + a * 0x40
/-- PIPE_CHk_LATE (08_jobs_shuffle_batches.md). -/
def pipeChLate (a : Nat) : Nat := 0xd401c + a * 0x40
/-- PIPE_CHk_MAX_LATE (08_jobs_shuffle_batches.md). -/
def pipeChMaxLate (a : Nat) : Nat := 0xd4020 + a * 0x40
/-- PIPE_CLQ_STATUSn (06_synchronisation_and_work_stealing.md). -/
def pipeClqStatus (a : Nat) : Nat := 0xdc000 + a * 0x10
/-- PIPE_CLQ_CFGn (06_synchronisation_and_work_stealing.md). -/
def pipeClqCfg (a : Nat) : Nat := 0xdc004 + a * 0x10
/-- PIPE_CLQ_STEALSn (06_synchronisation_and_work_stealing.md). -/
def pipeClqSteals (a : Nat) : Nat := 0xdc008 + a * 0x10
/-- PIPE_DQ_STATUSd (06_synchronisation_and_work_stealing.md). -/
def pipeDqStatus (a : Nat) : Nat := 0xdd000 + a * 0x10
/-- PIPE_TILECFG (06_synchronisation_and_work_stealing.md). -/
def pipeTilecfg : Nat := 0xde000
/-- TOK_TOKENS (11_tokeniser_and_grammar.md). -/
def tokTokens : Nat := 0xe0000
/-- TOK_BYTES (11_tokeniser_and_grammar.md). -/
def tokBytes : Nat := 0xe0008
/-- TOK_OVER (11_tokeniser_and_grammar.md). -/
def tokOver : Nat := 0xe0010
/-- GRM_LIVE (11_tokeniser_and_grammar.md). -/
def grmLive : Nat := 0xf0000
/-- GRM_STEPS (11_tokeniser_and_grammar.md). -/
def grmSteps : Nat := 0xf0008
/-- GRM_DEAD (11_tokeniser_and_grammar.md). -/
def grmDead : Nat := 0xf0010
/-- GRM_STOP (11_tokeniser_and_grammar.md). -/
def grmStop : Nat := 0xf0014
/-- GRM_FORCED (11_tokeniser_and_grammar.md). -/
def grmForced : Nat := 0xf0018
/-- GRM_SPILLED (11_tokeniser_and_grammar.md). -/
def grmSpilled : Nat := 0xf001c
/-- GRM_REFUSED (11_tokeniser_and_grammar.md). -/
def grmRefused : Nat := 0xf0020
/-- GRM_OUTj (11_tokeniser_and_grammar.md). -/
def grmOut (a : Nat) : Nat := 0xf0100 + a * 0x8
/-- CMP_MIN_GAIN (10_compression_and_sealed_data.md). -/
def cmpMinGain : Nat := 0x100000
/-- CMP_ITEMS (10_compression_and_sealed_data.md). -/
def cmpItems : Nat := 0x100008
/-- CMP_NOGAIN (10_compression_and_sealed_data.md). -/
def cmpNogain : Nat := 0x100010
/-- CMP_CHECK_FAIL (10_compression_and_sealed_data.md). -/
def cmpCheckFail : Nat := 0x100018
/-- CMP_CHECK_ABSENT (10_compression_and_sealed_data.md). -/
def cmpCheckAbsent : Nat := 0x100020
/-- SPN_COUNT (12_spindle_count_and_determinism.md). -/
def spnCount : Nat := 0x110000
/-- SPN_SET (12_spindle_count_and_determinism.md). -/
def spnSet : Nat := 0x110008
/-- SPN_STATE (12_spindle_count_and_determinism.md). -/
def spnState : Nat := 0x110010
/-- SPN_OFFSET (12_spindle_count_and_determinism.md). -/
def spnOffset : Nat := 0x110018
/-- SPN_DELAY (12_spindle_count_and_determinism.md). -/
def spnDelay : Nat := 0x11001c
/-- SPN_ERR (12_spindle_count_and_determinism.md). -/
def spnErr : Nat := 0x110020
/-- SPN_RATE (12_spindle_count_and_determinism.md). -/
def spnRate : Nat := 0x110024
/-- SPN_CFG (12_spindle_count_and_determinism.md). -/
def spnCfg : Nat := 0x110028
/-- SPN_MGR_NODE (12_spindle_count_and_determinism.md). -/
def spnMgrNode : Nat := 0x11002c
/-- SPN_EXCH (12_spindle_count_and_determinism.md). -/
def spnExch : Nat := 0x110030
/-- SPN_MEMBERS (12_spindle_count_and_determinism.md). -/
def spnMembers : Nat := 0x110034
/-- SPN_CHk_DIG (12_spindle_count_and_determinism.md). -/
def spnChDig (a b : Nat) : Nat := 0x114000 + a * 0x40 + b * 0x8
/-- SPN_CHk_COUNT (12_spindle_count_and_determinism.md). -/
def spnChCount (a : Nat) : Nat := 0x114020 + a * 0x40
/-- SPN_JOBj_DIG (12_spindle_count_and_determinism.md). -/
def spnJobDig (a b : Nat) : Nat := 0x116000 + a * 0x40 + b * 0x8
/-- SPN_JOBj_DIGSTAT (12_spindle_count_and_determinism.md). -/
def spnJobDigstat (a : Nat) : Nat := 0x116020 + a * 0x40
/-- PIPE_DB_SQ_TAIL (14_host_ports_and_command_queues.md). -/
def pipeDbSqTail (a : Nat) : Nat := 0x400000 + a * 0x1000
/-- PIPE_DB_CQ_HEAD (14_host_ports_and_command_queues.md). -/
def pipeDbCqHead (a : Nat) : Nat := 0x400004 + a * 0x1000
/-- TILE_STATE (04_tiles_clusters_regions.md). -/
def tileState (a : Nat) : Nat := 0x1000000 + a * 0x1000
/-- TILE_ENGINES (04_tiles_clusters_regions.md). -/
def tileEngines (a : Nat) : Nat := 0x1000004 + a * 0x1000
/-- TILE_QUEUES (04_tiles_clusters_regions.md). -/
def tileQueues (a : Nat) : Nat := 0x1000008 + a * 0x1000
/-- TILE_SYNCk (04_tiles_clusters_regions.md). -/
def tileSync (a b : Nat) : Nat := 0x1000040 + a * 0x1000 + b * 0x4
/-- TILE_DLK_CFG (04_tiles_clusters_regions.md). -/
def tileDlkCfg (a : Nat) : Nat := 0x1000080 + a * 0x1000
/-- TILE_DLK_STATUS (04_tiles_clusters_regions.md). -/
def tileDlkStatus (a : Nat) : Nat := 0x1000084 + a * 0x1000
/-- TILE_AUDIT (04_tiles_clusters_regions.md). -/
def tileAudit (a : Nat) : Nat := 0x1000088 + a * 0x1000
/-- TILE_CALIPER (04_tiles_clusters_regions.md). -/
def tileCaliper (a : Nat) : Nat := 0x10000c0 + a * 0x1000
/-- TILE_EXC (04_tiles_clusters_regions.md). -/
def tileExc (a : Nat) : Nat := 0x1000100 + a * 0x1000
/-- TILE_PERF_CYCLES (04_tiles_clusters_regions.md). -/
def tilePerfCycles (a : Nat) : Nat := 0x1000200 + a * 0x1000
/-- TILE_PERF_WAIT (04_tiles_clusters_regions.md). -/
def tilePerfWait (a : Nat) : Nat := 0x1000208 + a * 0x1000
/-- TILE_PERF_GOUGE (04_tiles_clusters_regions.md). -/
def tilePerfGouge (a : Nat) : Nat := 0x1000210 + a * 0x1000
/-- TILE_PERF_DMA_BYTES (04_tiles_clusters_regions.md). -/
def tilePerfDmaBytes (a : Nat) : Nat := 0x1000218 + a * 0x1000
end Reg

/-- Registers of the Glb group. -/
def regsGlb : List RegDef := [
  ⟨0x20, [], 32,
    [⟨17, 17, .ro, 0, [], 1⟩, ⟨16, 16, .ro, 0, [], 1⟩, ⟨15, 8, .ro, 0, [], 1⟩, ⟨7, 0, .ro, 0, [], 1⟩]⟩,
  ⟨0x40, [], 32,
    [⟨31, 31, .w1c, 0, [], 1⟩, ⟨10, 9, .ro, 0, [], 1⟩, ⟨8, 7, .ro, 0, [], 1⟩, ⟨6, 6, .ro, 0, [], 1⟩, ⟨5, 5, .ro, 0, [], 1⟩, ⟨4, 3, .ro, 0, [], 1⟩, ⟨2, 2, .ro, 0, [], 1⟩, ⟨1, 0, .ro, 0, [], 1⟩]⟩,
  ⟨0x44, [], 32,
    [⟨31, 16, .ro, 0, [], 1⟩, ⟨15, 0, .ro, 0, [], 1⟩]⟩,
  ⟨0x48, [], 32,
    [⟨7, 0, .ro, 0, [], 1⟩]⟩,
  ⟨0x4C, [], 32,
    [⟨30, 30, .ro, 0, [], 1⟩, ⟨29, 29, .ro, 0, [], 1⟩, ⟨28, 28, .ro, 0, [], 1⟩, ⟨27, 16, .ro, 0, [], 1⟩, ⟨15, 0, .ro, 0, [], 1⟩]⟩,
  ⟨0x50, [], 32,
    [⟨13, 0, .ro, 0, [], 1⟩]⟩,
  ⟨0x54, [], 32,
    [⟨7, 6, .rw, 0, [(0, 2)], 1⟩, ⟨5, 4, .rwc, 0, [(0, 2)], 1⟩, ⟨3, 0, .rwc, 0, [(0, 10)], 1⟩]⟩,
  ⟨0x60, [], 32,
    [⟨31, 16, .ro, 0, [], 1⟩, ⟨15, 12, .ro, 0, [], 1⟩, ⟨11, 8, .ro, 0xf, [], 1⟩, ⟨7, 0, .ro, 0, [], 1⟩]⟩,
  ⟨0x68, [], 64,
    [⟨63, 0, .ro, 0, [], 1⟩]⟩,
  ⟨0x78, [], 32,
    [⟨31, 31, .ro, 0, [], 1⟩, ⟨30, 30, .ro, 0, [], 1⟩, ⟨11, 8, .wo, 0, [], 1⟩, ⟨7, 4, .ro, 0, [], 1⟩, ⟨3, 0, .ro, 0, [], 1⟩]⟩,
  ⟨0x8000, [], 32,
    [⟨31, 16, .ro, 0x594c, [], 1⟩, ⟨15, 8, .ro, 0, [], 1⟩, ⟨7, 0, .ro, 0, [], 1⟩]⟩,
  ⟨0x8004, [], 32,
    [⟨19, 14, .ro, 0, [], 1⟩, ⟨13, 4, .ro, 0, [], 1⟩, ⟨3, 0, .ro, 0, [], 1⟩]⟩,
  ⟨0x8008, [], 32,
    [⟨23, 16, .ro, 0, [], 1⟩, ⟨15, 0, .ro, 0, [], 1⟩]⟩,
  ⟨0x800C, [], 32,
    [⟨31, 0, .ro, 0, [], 1⟩]⟩,
  ⟨0x8010, [], 32,
    [⟨3, 2, .ro, 3, [], 1⟩, ⟨1, 0, .ro, 0, [], 1⟩]⟩]

/-- Registers of the Pwr group. -/
def regsPwr : List RegDef := [
  ⟨0x10000, [], 32,
    [⟨31, 31, .ro, 0, [], 1⟩, ⟨30, 28, .ro, 0, [], 1⟩, ⟨23, 16, .ro, 0, [], 1⟩, ⟨2, 0, .ro, 0, [], 1⟩]⟩,
  ⟨0x10004, [], 32,
    [⟨31, 0, .ro, 0, [], 1⟩]⟩,
  ⟨0x10008, [], 32,
    [⟨7, 0, .w1c, 0, [], 1⟩]⟩,
  ⟨0x10010, [], 32,
    [⟨31, 0, .rwc, 0xffffffff, [], 1⟩]⟩,
  ⟨0x10014, [], 32,
    [⟨31, 0, .ro, 0xffffffff, [], 1⟩]⟩,
  ⟨0x10018, [], 32,
    [⟨31, 24, .rwc, 0x64, [(1, 255)], 1⟩, ⟨23, 16, .rwc, 0xa, [(1, 255)], 1⟩, ⟨15, 8, .rwc, 8, [(4, 16)], 1⟩, ⟨3, 3, .rwc, 1, [], 1⟩, ⟨2, 0, .rwc, 4, [(0, 4)], 1⟩]⟩,
  ⟨0x10020, [], 64,
    [⟨63, 0, .rw, 0, [], 1⟩]⟩,
  ⟨0x10028, [], 64,
    [⟨63, 0, .ro, 0, [], 1⟩]⟩,
  ⟨0x10030, [], 32,
    [⟨2, 0, .ro, 0, [], 1⟩]⟩,
  ⟨0x10100, [(0x8, 5)], 64,
    [⟨63, 0, .ro, 0, [], 1⟩]⟩,
  ⟨0x10140, [(0x4, 5)], 32,
    [⟨31, 0, .ro, 0, [], 1⟩]⟩,
  ⟨0x10180, [(0x4, 5)], 32,
    [⟨31, 16, .ro, 0, [], 1⟩, ⟨15, 0, .ro, 0, [], 1⟩]⟩,
  ⟨0x101A0, [], 32,
    [⟨31, 31, .ro, 0, [], 1⟩, ⟨30, 28, .ro, 0, [], 1⟩, ⟨10, 8, .ro, 0, [], 1⟩, ⟨3, 0, .ro, 0, [], 1⟩]⟩,
  ⟨0x101A4, [], 32,
    [⟨31, 16, .ro, 0, [], 1⟩, ⟨3, 0, .ro, 0, [], 1⟩]⟩]

/-- Registers of the Clk group. -/
def regsClk : List RegDef := [
  ⟨0x20000, [(0x10, 32)], 32,
    [⟨10, 0, .rwc, 0x708, [(400, 1800)], 25⟩]⟩,
  ⟨0x20004, [(0x10, 32)], 32,
    [⟨29, 29, .ro, 0, [], 1⟩, ⟨28, 24, .ro, 0, [], 1⟩, ⟨21, 11, .ro, 0x708, [], 1⟩, ⟨10, 0, .ro, 0x708, [], 1⟩]⟩,
  ⟨0x20008, [(0x10, 32)], 64,
    [⟨63, 0, .ro, 0, [], 1⟩]⟩]

/-- Registers of the Ras group. -/
def regsRas : List RegDef := [
  ⟨0x30000, [], 32,
    [⟨15, 8, .rwc, 0x1e, [(1, 255)], 1⟩, ⟨4, 0, .rwc, 0xa, [(0, 0), (4, 20)], 1⟩]⟩,
  ⟨0x30008, [], 64,
    [⟨63, 0, .ro, 0, [], 1⟩]⟩,
  ⟨0x30010, [], 64,
    [⟨63, 0, .ro, 0, [], 1⟩]⟩,
  ⟨0x30018, [], 64,
    [⟨63, 0, .ro, 0, [], 1⟩]⟩,
  ⟨0x30020, [], 64,
    [⟨63, 0, .ro, 0, [], 1⟩]⟩,
  ⟨0x30040, [], 32,
    [⟨15, 8, .rwc, 4, [(1, 255)], 1⟩, ⟨7, 0, .rwc, 0x30, [(16, 72)], 1⟩]⟩,
  ⟨0x30044, [], 32,
    [⟨31, 31, .w1c, 0, [], 1⟩, ⟨23, 16, .ro, 0, [], 1⟩, ⟨9, 0, .ro, 0, [], 1⟩]⟩,
  ⟨0x30048, [], 32,
    [⟨29, 20, .ro, 0, [], 1⟩, ⟨19, 10, .ro, 0, [], 1⟩, ⟨9, 0, .ro, 0, [], 1⟩]⟩,
  ⟨0x3004C, [], 32,
    [⟨9, 9, .wo, 0, [], 1⟩, ⟨8, 0, .wo, 0, [], 1⟩]⟩,
  ⟨0x30050, [], 32,
    [⟨31, 16, .ro, 0, [], 1⟩, ⟨9, 0, .ro, 0, [], 1⟩]⟩,
  ⟨0x30060, [(0x4, 4)], 32,
    [⟨31, 0, .rw, 0, [], 1⟩]⟩,
  ⟨0x30080, [], 32,
    [⟨31, 31, .ro, 0, [], 1⟩, ⟨30, 30, .rwc, 0, [], 1⟩, ⟨23, 16, .rwc, 1, [(1, 255)], 1⟩, ⟨3, 0, .rwc, 0, [(0, 6)], 1⟩]⟩,
  ⟨0x30088, [], 64,
    [⟨63, 0, .rwc, 0, [], 1⟩]⟩,
  ⟨0x30090, [], 32,
    [⟨31, 0, .ro, 0, [], 1⟩]⟩,
  ⟨0x300C0, [], 32,
    [⟨23, 16, .rwc, 0x3c, [(1, 255)], 1⟩, ⟨15, 8, .rwc, 0x19, [(5, 60)], 1⟩, ⟨7, 0, .rwc, 0x14, [(5, 100)], 1⟩]⟩,
  ⟨0x30100, [(0x4, 64)], 32,
    [⟨31, 31, .ro, 0, [], 1⟩, ⟨23, 12, .ro, 0, [], 1⟩, ⟨11, 0, .ro, 0, [], 1⟩]⟩,
  ⟨0x30200, [(0x40, 2), (0x4, 8)], 32,
    [⟨31, 31, .ro, 0, [], 1⟩, ⟨23, 12, .ro, 0, [], 1⟩, ⟨11, 0, .ro, 0, [], 1⟩]⟩,
  ⟨0x30300, [(0x4, 5)], 32,
    [⟨31, 31, .ro, 0, [], 1⟩, ⟨23, 12, .ro, 0, [], 1⟩, ⟨11, 0, .ro, 0, [], 1⟩]⟩]

/-- Registers of the Evr group. -/
def regsEvr : List RegDef := [
  ⟨0x40000, [], 32,
    [⟨31, 31, .ro, 0, [], 1⟩, ⟨30, 30, .w1c, 0, [], 1⟩, ⟨18, 0, .ro, 0, [], 1⟩]⟩,
  ⟨0x40004, [], 32,
    [⟨31, 0, .ro, 0, [], 1⟩]⟩,
  ⟨0x40008, [], 32,
    [⟨31, 0, .ro, 0, [], 1⟩]⟩,
  ⟨0x4000C, [], 32,
    [⟨31, 0, .ro, 0, [], 1⟩]⟩,
  ⟨0x40010, [], 32,
    [⟨31, 0, .ro, 0, [], 1⟩]⟩,
  ⟨0x40020, [], 32,
    [⟨15, 0, .rw, 0x8104, [], 1⟩]⟩,
  ⟨0x40030, [(0x10, 2)], 32,
    [⟨31, 0, .rw, 0, [], 1⟩]⟩,
  ⟨0x40034, [(0x10, 2)], 32,
    [⟨31, 30, .ro, 2, [], 1⟩, ⟨29, 29, .rw, 0, [], 1⟩, ⟨28, 28, .ro, 0, [], 1⟩, ⟨12, 0, .ro, 0, [], 1⟩]⟩]

/-- Registers of the Sec group. -/
def regsSec : List RegDef := [
  ⟨0x50000, [], 32,
    [⟨29, 29, .ro, 0, [], 1⟩, ⟨12, 0, .ro, 0, [], 1⟩]⟩,
  ⟨0x50008, [], 64,
    [⟨63, 0, .ro, 0, [], 1⟩]⟩,
  ⟨0x50040, [], 32,
    [⟨31, 0, .ro, 0, [], 1⟩]⟩,
  ⟨0x50044, [], 32,
    [⟨31, 0, .ro, 0, [], 1⟩]⟩,
  ⟨0x50048, [], 32,
    [⟨31, 0, .ro, 0, [], 1⟩]⟩,
  ⟨0x50100, [(0x4, 16)], 32,
    [⟨16, 10, .ro, 0, [], 1⟩, ⟨9, 9, .ro, 0, [], 1⟩, ⟨8, 8, .ro, 0, [], 1⟩, ⟨4, 0, .ro, 0x1f, [], 1⟩]⟩]

/-- Registers of the Bpm group. -/
def regsBpm : List RegDef := [
  ⟨0x60000, [(0x40, 8)], 64,
    [⟨47, 0, .rwi, 0, [], 1⟩]⟩,
  ⟨0x60008, [(0x40, 8)], 64,
    [⟨47, 0, .rwi, 0, [], 4096⟩]⟩,
  ⟨0x60010, [(0x40, 8)], 32,
    [⟨31, 31, .rwi, 0, [], 1⟩, ⟨24, 0, .rwi, 0, [(1, 16777216)], 1⟩]⟩,
  ⟨0x60014, [(0x40, 8)], 32,
    [⟨24, 0, .ro, 0, [], 1⟩]⟩,
  ⟨0x60018, [(0x40, 8)], 32,
    [⟨31, 31, .w1c, 0, [], 1⟩, ⟨30, 30, .w1c, 0, [], 1⟩, ⟨29, 29, .ro, 0, [], 1⟩, ⟨8, 0, .ro, 0, [], 1⟩]⟩,
  ⟨0x6001C, [(0x40, 8)], 32,
    [⟨24, 0, .ro, 0, [], 1⟩]⟩,
  ⟨0x60020, [(0x40, 8)], 64,
    [⟨63, 0, .ro, 0, [], 1⟩]⟩,
  ⟨0x60028, [(0x40, 8)], 64,
    [⟨63, 0, .ro, 0, [], 1⟩]⟩]

/-- Registers of the Ctx group. -/
def regsCtx : List RegDef := [
  ⟨0x70000, [], 32,
    [⟨18, 0, .ro, 0x40000, [], 1⟩]⟩,
  ⟨0x70008, [], 64,
    [⟨63, 0, .ro, 0, [], 1⟩]⟩,
  ⟨0x70010, [], 64,
    [⟨63, 0, .ro, 0, [], 1⟩]⟩,
  ⟨0x70018, [], 32,
    [⟨1, 1, .ro, 0, [], 1⟩, ⟨0, 0, .wo, 0, [], 1⟩]⟩,
  ⟨0x7001C, [], 32,
    [⟨31, 31, .w1c, 0, [], 1⟩, ⟨17, 0, .ro, 0, [], 1⟩]⟩]

/-- Registers of the Mem group. -/
def regsMem : List RegDef := [
  ⟨0x80000, [(0x10, 5)], 64,
    [⟨47, 0, .ro, 0, [], 1⟩]⟩,
  ⟨0x80008, [(0x10, 5)], 64,
    [⟨63, 0, .ro, 0, [], 1⟩]⟩,
  ⟨0x80050, [], 64,
    [⟨47, 0, .rwi, 0, [], 1⟩]⟩,
  ⟨0x81000, [(0x4, 64)], 32,
    [⟨31, 30, .ro, 0, [], 1⟩, ⟨23, 16, .ro, 0x20, [], 1⟩, ⟨15, 0, .ro, 0, [], 1⟩]⟩,
  ⟨0x81100, [(0x4, 64)], 32,
    [⟨31, 16, .ro, 0, [], 1⟩, ⟨15, 0, .ro, 0, [], 1⟩]⟩,
  ⟨0x81200, [], 64,
    [⟨63, 0, .w1s, 0, [], 1⟩]⟩,
  ⟨0x81208, [], 32,
    [⟨31, 24, .rwc, 0x10, [], 1⟩, ⟨23, 16, .rwc, 0xa, [], 1⟩, ⟨15, 0, .rwc, 0x3c, [], 1⟩]⟩,
  ⟨0x81300, [], 32,
    [⟨31, 0, .ro, 0, [], 1⟩]⟩,
  ⟨0x81304, [], 32,
    [⟨31, 0, .ro, 0, [], 1⟩]⟩,
  ⟨0x81308, [], 64,
    [⟨63, 60, .ro, 0, [], 1⟩, ⟨56, 56, .ro, 0, [], 1⟩, ⟨47, 0, .ro, 0, [], 1⟩]⟩,
  ⟨0x81310, [], 32,
    [⟨23, 16, .rwc, 0x18, [(1, 168)], 1⟩, ⟨10, 0, .rwc, 0x3c, [(10, 1440)], 1⟩]⟩,
  ⟨0x81320, [], 32,
    [⟨31, 16, .ro, 0, [], 1⟩, ⟨15, 0, .ro, 0, [], 1⟩]⟩,
  ⟨0x82000, [], 32,
    [⟨31, 31, .ro, 0, [], 1⟩, ⟨30, 30, .ro, 0, [], 1⟩, ⟨29, 29, .ro, 0, [], 1⟩, ⟨19, 16, .ro, 0, [], 1⟩, ⟨15, 0, .ro, 0, [], 1⟩]⟩,
  ⟨0x82004, [], 32,
    [⟨31, 0, .ro, 0, [], 1⟩]⟩,
  ⟨0x82008, [], 64,
    [⟨63, 0, .ro, 0, [], 1⟩]⟩,
  ⟨0x82010, [], 64,
    [⟨63, 0, .ro, 0, [], 1⟩]⟩,
  ⟨0x82018, [], 64,
    [⟨63, 0, .ro, 0, [], 1⟩]⟩,
  ⟨0x82020, [], 64,
    [⟨63, 0, .ro, 0, [], 1⟩]⟩,
  ⟨0x82028, [], 64,
    [⟨63, 0, .ro, 0, [], 1⟩]⟩]

/-- Registers of the Flm group. -/
def regsFlm : List RegDef := [
  ⟨0x90000, [], 32,
    [⟨31, 28, .ro, 0, [], 1⟩, ⟨27, 24, .ro, 0, [], 1⟩, ⟨23, 18, .ro, 0, [], 1⟩, ⟨12, 0, .ro, 0, [], 1⟩]⟩,
  ⟨0x90004, [], 32,
    [⟨31, 16, .ro, 0, [], 1⟩, ⟨15, 0, .ro, 0, [], 1⟩]⟩,
  ⟨0x90008, [], 64,
    [⟨63, 0, .ro, 0, [], 1⟩]⟩,
  ⟨0x90010, [], 64,
    [⟨63, 32, .ro, 0, [], 1⟩, ⟨31, 0, .ro, 0, [], 1⟩]⟩,
  ⟨0x90018, [], 32,
    [⟨31, 24, .rwc, 0x40, [], 1⟩, ⟨23, 16, .rwc, 0x10, [], 1⟩, ⟨15, 8, .rwc, 0x40, [(8, 255)], 1⟩, ⟨7, 0, .rwc, 4, [(2, 254)], 1⟩]⟩,
  ⟨0x9001C, [], 32,
    [⟨31, 30, .ro, 0, [], 1⟩, ⟨7, 0, .ro, 0x80, [], 1⟩]⟩,
  ⟨0x90020, [], 64,
    [⟨63, 0, .ro, 0, [], 1⟩]⟩,
  ⟨0x90028, [], 64,
    [⟨63, 0, .ro, 0, [], 1⟩]⟩,
  ⟨0x90030, [], 32,
    [⟨23, 16, .ro, 0, [], 1⟩, ⟨15, 8, .rwc, 0x32, [(10, 90)], 1⟩]⟩,
  ⟨0x90034, [], 32,
    [⟨15, 8, .rw, 8, [(2, 16)], 1⟩, ⟨7, 0, .rw, 2, [(1, 10)], 1⟩]⟩,
  ⟨0x90038, [], 64,
    [⟨63, 0, .ro, 0, [], 1⟩]⟩,
  ⟨0x90040, [], 64,
    [⟨63, 0, .ro, 0, [], 1⟩]⟩,
  ⟨0x90048, [], 64,
    [⟨63, 0, .ro, 0, [], 1⟩]⟩,
  ⟨0x90050, [], 64,
    [⟨63, 32, .ro, 0, [], 1⟩, ⟨31, 0, .ro, 0, [], 1⟩]⟩,
  ⟨0x90058, [], 64,
    [⟨63, 0, .rw, 0, [], 1⟩]⟩,
  ⟨0x90060, [], 32,
    [⟨31, 31, .ro, 0, [], 1⟩, ⟨30, 30, .ro, 1, [], 1⟩, ⟨29, 29, .ro, 0, [], 1⟩, ⟨28, 28, .ro, 0, [], 1⟩, ⟨3, 0, .ro, 0, [], 1⟩]⟩,
  ⟨0x90068, [], 32,
    [⟨31, 0, .ro, 0, [], 1⟩]⟩,
  ⟨0x9006C, [], 32,
    [⟨31, 0, .ro, 0, [], 1⟩]⟩,
  ⟨0x90100, [(0x8, 9)], 64,
    [⟨63, 0, .ro, 0, [], 1⟩]⟩,
  ⟨0x91000, [(0x4, 32)], 32,
    [⟨31, 30, .ro, 0, [], 1⟩, ⟨15, 0, .ro, 0, [], 1⟩]⟩,
  ⟨0x91080, [], 32,
    [⟨31, 0, .w1s, 0, [], 1⟩]⟩,
  ⟨0x92000, [(0x4, 128)], 32,
    [⟨7, 0, .ro, 0, [], 1⟩]⟩]

/-- Registers of the Hif group. -/
def regsHif : List RegDef := [
  ⟨0xA0000, [(0x100, 2)], 32,
    [⟨31, 31, .ro, 0, [], 1⟩, ⟨30, 30, .ro, 0, [], 1⟩, ⟨29, 29, .ro, 0, [], 1⟩, ⟨23, 20, .ro, 0, [], 1⟩, ⟨19, 16, .ro, 0, [], 1⟩, ⟨7, 4, .ro, 5, [], 1⟩, ⟨3, 3, .ro, 1, [], 1⟩, ⟨2, 2, .ro, 0, [], 1⟩]⟩,
  ⟨0xA0004, [(0x100, 2)], 32,
    [⟨31, 0, .ro, 0xffffffff, [], 1⟩]⟩,
  ⟨0xA0008, [(0x100, 2)], 32,
    [⟨31, 16, .ro, 0, [], 1⟩, ⟨15, 0, .ro, 0, [], 1⟩]⟩,
  ⟨0xA000C, [(0x100, 2)], 32,
    [⟨31, 0, .ro, 0, [], 1⟩]⟩,
  ⟨0xA0010, [(0x100, 2)], 32,
    [⟨31, 0, .ro, 0, [], 1⟩]⟩,
  ⟨0xA0800, [], 32,
    [⟨5, 5, .wo, 0, [], 1⟩, ⟨4, 4, .wo, 0, [], 1⟩, ⟨1, 1, .w1c, 0, [], 1⟩, ⟨0, 0, .ro, 0, [], 1⟩]⟩,
  ⟨0xA0804, [], 32,
    [⟨31, 31, .ro, 0, [], 1⟩, ⟨30, 30, .ro, 0, [], 1⟩, ⟨29, 29, .ro, 0, [], 1⟩, ⟨6, 0, .ro, 0, [], 1⟩]⟩]

/-- Registers of the Fab group. -/
def regsFab : List RegDef := [
  ⟨0xB0000, [(0x1000, 2)], 32,
    [⟨7, 6, .rwc, 2, [(0, 2)], 1⟩, ⟨0, 0, .rwc, 1, [], 1⟩]⟩,
  ⟨0xB0004, [(0x1000, 2)], 32,
    [⟨31, 31, .ro, 0, [], 1⟩, ⟨30, 30, .ro, 0, [], 1⟩, ⟨29, 29, .ro, 0, [], 1⟩, ⟨28, 28, .ro, 0, [], 1⟩, ⟨23, 20, .ro, 0xf, [], 1⟩, ⟨19, 16, .ro, 0xf, [], 1⟩, ⟨0, 0, .ro, 0, [], 1⟩]⟩,
  ⟨0xB0008, [(0x1000, 2)], 32,
    [⟨31, 31, .w1s, 0, [], 1⟩, ⟨30, 30, .wo, 0, [], 1⟩, ⟨23, 20, .rw, 0, [], 1⟩, ⟨4, 0, .rwc, 0xc, [(8, 15)], 1⟩]⟩,
  ⟨0xB0010, [(0x1000, 2), (0x4, 9)], 32,
    [⟨31, 24, .ro, 0, [], 1⟩, ⟨23, 12, .ro, 0, [], 1⟩, ⟨11, 0, .ro, 0, [], 1⟩]⟩,
  ⟨0xB0040, [(0x1000, 2), (0x4, 9)], 32,
    [⟨31, 16, .ro, 0, [], 1⟩, ⟨15, 0, .ro, 0, [], 1⟩]⟩,
  ⟨0xB0064, [(0x1000, 2)], 32,
    [⟨31, 16, .ro, 0, [], 1⟩, ⟨15, 0, .ro, 0, [], 1⟩]⟩,
  ⟨0xB0080, [(0x1000, 2)], 64,
    [⟨63, 0, .ro, 0, [], 1⟩]⟩,
  ⟨0xB0088, [(0x1000, 2)], 64,
    [⟨63, 0, .ro, 0, [], 1⟩]⟩,
  ⟨0xB0090, [(0x1000, 2)], 64,
    [⟨63, 0, .ro, 0, [], 1⟩]⟩,
  ⟨0xB0098, [(0x1000, 2)], 64,
    [⟨63, 0, .ro, 0, [], 1⟩]⟩,
  ⟨0xB00A0, [(0x1000, 2)], 64,
    [⟨63, 0, .ro, 0, [], 1⟩]⟩,
  ⟨0xB00A8, [(0x1000, 2)], 64,
    [⟨63, 0, .ro, 0, [], 1⟩]⟩,
  ⟨0xB00B0, [(0x1000, 2)], 64,
    [⟨63, 0, .ro, 0, [], 1⟩]⟩,
  ⟨0xBF000, [], 32,
    [⟨31, 0, .rwi, 0, [], 1⟩]⟩,
  ⟨0xBF004, [], 32,
    [⟨31, 16, .rwi, 0x88b5, [], 1⟩, ⟨15, 0, .rwi, 0xb5d0, [], 1⟩]⟩,
  ⟨0xBF008, [], 32,
    [⟨7, 0, .rwc, 0xa, [(1, 255)], 1⟩]⟩]

/-- Registers of the Xpt group. -/
def regsXpt : List RegDef := [
  ⟨0xC0000, [], 32,
    [⟨31, 28, .rwc, 8, [(1, 15)], 1⟩, ⟨27, 18, .rwc, 0x32, [(10, 1000)], 1⟩, ⟨17, 10, .rwc, 0x14, [(1, 255)], 1⟩, ⟨8, 0, .rwc, 0x1f4, [(10, 500)], 1⟩]⟩,
  ⟨0xC0008, [], 64,
    [⟨63, 32, .wo, 0, [], 1⟩, ⟨31, 0, .wo, 0, [], 1⟩]⟩,
  ⟨0xC0010, [], 32,
    [⟨31, 0, .wo, 0, [], 1⟩]⟩,
  ⟨0xC0018, [], 64,
    [⟨63, 32, .wo, 0, [], 1⟩, ⟨31, 0, .wo, 0, [], 1⟩]⟩,
  ⟨0xC0100, [], 64,
    [⟨63, 0, .ro, 0, [], 1⟩]⟩,
  ⟨0xC0108, [], 64,
    [⟨63, 0, .ro, 0, [], 1⟩]⟩,
  ⟨0xC0110, [], 64,
    [⟨63, 0, .ro, 0, [], 1⟩]⟩,
  ⟨0xC0118, [], 64,
    [⟨63, 0, .ro, 0, [], 1⟩]⟩,
  ⟨0xC0120, [], 64,
    [⟨63, 0, .ro, 0, [], 1⟩]⟩,
  ⟨0xC0128, [], 64,
    [⟨63, 0, .ro, 0, [], 1⟩]⟩,
  ⟨0xC0130, [], 64,
    [⟨63, 0, .ro, 0, [], 1⟩]⟩,
  ⟨0xC0138, [], 64,
    [⟨63, 0, .ro, 0, [], 1⟩]⟩,
  ⟨0xC1000, [], 64,
    [⟨47, 0, .rwc, 0, [], 1⟩]⟩,
  ⟨0xC1008, [], 64,
    [⟨47, 0, .rwc, 0, [], 1⟩]⟩,
  ⟨0xC1010, [], 32,
    [⟨31, 0, .rwc, 0, [], 1⟩]⟩,
  ⟨0xC1014, [], 32,
    [⟨6, 6, .rwc, 0, [], 1⟩, ⟨5, 3, .rwc, 0, [], 1⟩, ⟨2, 2, .rwc, 0, [], 1⟩, ⟨1, 0, .rwc, 0, [], 1⟩]⟩,
  ⟨0xC1018, [], 64,
    [⟨63, 32, .ro, 0, [], 1⟩, ⟨31, 0, .ro, 0, [], 1⟩]⟩,
  ⟨0xC1020, [], 32,
    [⟨14, 0, .ro, 0, [], 1⟩]⟩,
  ⟨0xC1024, [], 32,
    [⟨15, 0, .ro, 0, [], 1⟩]⟩]

/-- Registers of the Pipe group. -/
def regsPipe : List RegDef := [
  ⟨0xD0000, [(0x100, 16)], 32,
    [⟨31, 16, .ro, 0, [], 1⟩, ⟨15, 15, .ro, 0, [], 1⟩, ⟨3, 0, .ro, 0, [], 1⟩]⟩,
  ⟨0xD0004, [(0x100, 16)], 32,
    [⟨31, 0, .ro, 0, [], 1⟩]⟩,
  ⟨0xD0008, [(0x100, 16)], 64,
    [⟨47, 0, .ro, 0, [], 1⟩]⟩,
  ⟨0xD0010, [(0x100, 16)], 64,
    [⟨63, 0, .ro, 0, [], 1⟩]⟩,
  ⟨0xD0018, [(0x100, 16)], 32,
    [⟨31, 22, .ro, 0, [], 1⟩, ⟨21, 12, .ro, 0, [], 1⟩, ⟨8, 0, .ro, 0, [], 1⟩]⟩,
  ⟨0xD001C, [(0x100, 16)], 32,
    [⟨31, 0, .ro, 0, [], 1⟩]⟩,
  ⟨0xD0020, [(0x100, 16)], 32,
    [⟨31, 0, .ro, 0, [], 1⟩]⟩,
  ⟨0xD0024, [(0x100, 16)], 32,
    [⟨31, 0, .ro, 0, [], 1⟩]⟩,
  ⟨0xD0028, [(0x100, 16)], 32,
    [⟨31, 0, .ro, 0, [], 1⟩]⟩,
  ⟨0xD002C, [(0x100, 16)], 32,
    [⟨31, 0, .ro, 0, [], 1⟩]⟩,
  ⟨0xD0030, [(0x100, 16)], 32,
    [⟨31, 0, .ro, 0, [], 1⟩]⟩,
  ⟨0xD0040, [(0x100, 16)], 32,
    [⟨31, 0, .rw, 0, [], 1⟩]⟩,
  ⟨0xD0044, [(0x100, 16)], 32,
    [⟨31, 0, .ro, 0, [], 1⟩]⟩,
  ⟨0xD4000, [(0x40, 68)], 32,
    [⟨31, 31, .ro, 0, [], 1⟩, ⟨23, 20, .ro, 0, [], 1⟩, ⟨13, 8, .ro, 0, [], 1⟩, ⟨7, 7, .ro, 0, [], 1⟩, ⟨6, 0, .ro, 0, [], 1⟩]⟩,
  ⟨0xD4008, [(0x40, 68)], 64,
    [⟨63, 0, .ro, 0, [], 1⟩]⟩,
  ⟨0xD4010, [(0x40, 68)], 64,
    [⟨63, 0, .ro, 0, [], 1⟩]⟩,
  ⟨0xD4018, [(0x40, 68)], 32,
    [⟨15, 8, .ro, 0, [], 1⟩, ⟨7, 0, .ro, 0, [], 1⟩]⟩,
  ⟨0xD401C, [(0x40, 68)], 32,
    [⟨31, 0, .ro, 0, [], 1⟩]⟩,
  ⟨0xD4020, [(0x40, 68)], 32,
    [⟨31, 0, .ro, 0, [], 1⟩]⟩,
  ⟨0xDC000, [(0x10, 32)], 32,
    [⟨31, 31, .w1c, 0, [], 1⟩, ⟨25, 13, .ro, 0, [], 1⟩, ⟨12, 0, .ro, 0, [], 1⟩]⟩,
  ⟨0xDC004, [(0x10, 32)], 32,
    [⟨21, 17, .rwc, 0x18, [(16, 30)], 1⟩, ⟨16, 16, .rwc, 1, [], 1⟩, ⟨12, 0, .rwc, 0x800, [(0, 4096)], 1⟩]⟩,
  ⟨0xDC008, [(0x10, 32)], 32,
    [⟨31, 16, .ro, 0, [], 1⟩, ⟨15, 0, .ro, 0, [], 1⟩]⟩,
  ⟨0xDD000, [(0x10, 4)], 32,
    [⟨13, 0, .ro, 0, [], 1⟩]⟩,
  ⟨0xDE000, [], 32,
    [⟨13, 12, .rwc, 0, [(0, 2)], 1⟩, ⟨11, 10, .rwc, 0, [(0, 2)], 1⟩, ⟨9, 9, .rwc, 0, [], 1⟩, ⟨4, 0, .rwc, 0x14, [(10, 30)], 1⟩]⟩]

/-- Registers of the Tok group. -/
def regsTok : List RegDef := [
  ⟨0xE0000, [], 64,
    [⟨63, 0, .ro, 0, [], 1⟩]⟩,
  ⟨0xE0008, [], 64,
    [⟨63, 0, .ro, 0, [], 1⟩]⟩,
  ⟨0xE0010, [], 32,
    [⟨31, 0, .ro, 0, [], 1⟩]⟩]

/-- Registers of the Grm group. -/
def regsGrm : List RegDef := [
  ⟨0xF0000, [], 32,
    [⟨18, 0, .ro, 0, [], 1⟩]⟩,
  ⟨0xF0008, [], 64,
    [⟨63, 0, .ro, 0, [], 1⟩]⟩,
  ⟨0xF0010, [], 32,
    [⟨31, 0, .ro, 0, [], 1⟩]⟩,
  ⟨0xF0014, [], 32,
    [⟨31, 0, .ro, 0, [], 1⟩]⟩,
  ⟨0xF0018, [], 32,
    [⟨31, 0, .ro, 0, [], 1⟩]⟩,
  ⟨0xF001C, [], 32,
    [⟨31, 0, .ro, 0, [], 1⟩]⟩,
  ⟨0xF0020, [], 32,
    [⟨31, 0, .ro, 0, [], 1⟩]⟩,
  ⟨0xF0100, [(0x8, 16)], 64,
    [⟨63, 0, .ro, 0, [], 1⟩]⟩]

/-- Registers of the Cmp group. -/
def regsCmp : List RegDef := [
  ⟨0x100000, [], 32,
    [⟨16, 0, .rwc, 0x40, [(0, 65536)], 1⟩]⟩,
  ⟨0x100008, [], 64,
    [⟨63, 0, .ro, 0, [], 1⟩]⟩,
  ⟨0x100010, [], 64,
    [⟨63, 0, .ro, 0, [], 1⟩]⟩,
  ⟨0x100018, [], 64,
    [⟨63, 0, .ro, 0, [], 1⟩]⟩,
  ⟨0x100020, [], 64,
    [⟨63, 0, .ro, 0, [], 1⟩]⟩]

/-- Registers of the Spn group. -/
def regsSpn : List RegDef := [
  ⟨0x110000, [], 64,
    [⟨63, 0, .ro, 0, [], 1⟩]⟩,
  ⟨0x110008, [], 64,
    [⟨63, 0, .wo, 0, [], 1⟩]⟩,
  ⟨0x110010, [], 32,
    [⟨31, 31, .w1c, 0, [], 1⟩, ⟨30, 30, .ro, 0, [], 1⟩, ⟨5, 4, .ro, 0, [], 1⟩, ⟨2, 0, .ro, 0, [], 1⟩]⟩,
  ⟨0x110018, [], 32,
    [⟨31, 0, .ro, 0, [], 1⟩]⟩,
  ⟨0x11001C, [], 32,
    [⟨31, 0, .ro, 0, [], 1⟩]⟩,
  ⟨0x110020, [], 32,
    [⟨31, 16, .ro, 0, [], 1⟩, ⟨15, 0, .ro, 0, [], 1⟩]⟩,
  ⟨0x110024, [], 32,
    [⟨31, 0, .ro, 0, [], 1⟩]⟩,
  ⟨0x110028, [], 32,
    [⟨31, 24, .rwc, 0, [], 1⟩, ⟨23, 16, .rwc, 0xa, [(1, 100)], 1⟩, ⟨15, 0, .rwc, 0x3e8, [(100, 65535)], 1⟩]⟩,
  ⟨0x11002C, [], 32,
    [⟨31, 0, .rwi, 0, [], 1⟩]⟩,
  ⟨0x110030, [], 32,
    [⟨31, 16, .ro, 0, [], 1⟩, ⟨15, 0, .ro, 0, [], 1⟩]⟩,
  ⟨0x110034, [], 32,
    [⟨10, 0, .ro, 0, [], 1⟩]⟩,
  ⟨0x114000, [(0x40, 68), (0x8, 4)], 64,
    [⟨63, 0, .ro, 0, [], 1⟩]⟩,
  ⟨0x114020, [(0x40, 68)], 64,
    [⟨63, 0, .ro, 0, [], 1⟩]⟩,
  ⟨0x116000, [(0x40, 16), (0x8, 4)], 64,
    [⟨63, 0, .ro, 0, [], 1⟩]⟩,
  ⟨0x116020, [(0x40, 16)], 32,
    [⟨31, 31, .ro, 0, [], 1⟩, ⟨30, 30, .ro, 0, [], 1⟩, ⟨10, 0, .ro, 0, [], 1⟩]⟩]

/-- Registers of the Doorbell group. -/
def regsDoorbell : List RegDef := [
  ⟨0x400000, [(0x1000, 1024)], 32,
    [⟨11, 0, .wo, 0, [], 1⟩]⟩,
  ⟨0x400004, [(0x1000, 1024)], 32,
    [⟨11, 0, .wo, 0, [], 1⟩]⟩]

/-- Registers of the Tile group. -/
def regsTile : List RegDef := [
  ⟨0x1000000, [(0x1000, 512)], 32,
    [⟨30, 30, .ro, 0, [], 1⟩, ⟨29, 21, .ro, 0, [], 1⟩, ⟨20, 18, .ro, 0, [], 1⟩, ⟨17, 17, .ro, 0, [], 1⟩, ⟨16, 16, .ro, 1, [], 1⟩, ⟨8, 0, .ro, 0, [], 1⟩]⟩,
  ⟨0x1000004, [(0x1000, 512)], 32,
    [⟨19, 16, .ro, 0, [], 1⟩, ⟨15, 12, .ro, 0, [], 1⟩, ⟨11, 8, .ro, 0, [], 1⟩, ⟨7, 4, .ro, 0, [], 1⟩, ⟨3, 0, .ro, 0, [], 1⟩]⟩,
  ⟨0x1000008, [(0x1000, 512)], 32,
    [⟨17, 13, .ro, 0, [], 1⟩, ⟨12, 9, .ro, 0, [], 1⟩, ⟨8, 5, .ro, 0, [], 1⟩, ⟨4, 0, .ro, 0, [], 1⟩]⟩,
  ⟨0x1000040, [(0x1000, 512), (0x4, 16)], 32,
    [⟨16, 16, .w1c, 0, [], 1⟩, ⟨15, 0, .ro, 0, [], 1⟩]⟩,
  ⟨0x1000080, [(0x1000, 512)], 32,
    [⟨5, 5, .rwi, 1, [], 1⟩, ⟨4, 0, .rwi, 0x14, [(10, 30)], 1⟩]⟩,
  ⟨0x1000084, [(0x1000, 512)], 32,
    [⟨31, 31, .w1c, 0, [], 1⟩, ⟨20, 16, .ro, 0, [], 1⟩, ⟨15, 0, .ro, 0, [], 1⟩]⟩,
  ⟨0x1000088, [(0x1000, 512)], 32,
    [⟨31, 31, .w1c, 0, [], 1⟩, ⟨16, 16, .rwi, 0, [], 1⟩, ⟨15, 0, .ro, 0, [], 1⟩]⟩,
  ⟨0x10000C0, [(0x1000, 512)], 32,
    [⟨31, 30, .ro, 0, [], 1⟩, ⟨29, 28, .ro, 0, [], 1⟩, ⟨27, 16, .ro, 0, [], 1⟩, ⟨15, 0, .ro, 0, [], 1⟩]⟩,
  ⟨0x1000100, [(0x1000, 512)], 64,
    [⟨63, 32, .ro, 0, [], 1⟩, ⟨15, 8, .ro, 0, [], 1⟩, ⟨7, 0, .ro, 0, [], 1⟩]⟩,
  ⟨0x1000200, [(0x1000, 512)], 64,
    [⟨63, 0, .ro, 0, [], 1⟩]⟩,
  ⟨0x1000208, [(0x1000, 512)], 64,
    [⟨63, 0, .ro, 0, [], 1⟩]⟩,
  ⟨0x1000210, [(0x1000, 512)], 64,
    [⟨63, 0, .ro, 0, [], 1⟩]⟩,
  ⟨0x1000218, [(0x1000, 512)], 64,
    [⟨63, 0, .ro, 0, [], 1⟩]⟩]

/-- The table that holds a window-2 offset (R50). -/
def regTableOf (off : Nat) : List RegDef :=
  if off < 0x10000 then regsGlb
  else if off < 0x120000 then
    match off / 0x10000 with
    | 1 => regsPwr
    | 2 => regsClk
    | 3 => regsRas
    | 4 => regsEvr
    | 5 => regsSec
    | 6 => regsBpm
    | 7 => regsCtx
    | 8 => regsMem
    | 9 => regsFlm
    | 10 => regsHif
    | 11 => regsFab
    | 12 => regsXpt
    | 13 => regsPipe
    | 14 => regsTok
    | 15 => regsGrm
    | 16 => regsCmp
    | 17 => regsSpn
    | _ => []
  else if 0x400000 ≤ off && off < 0x800000 then regsDoorbell
  else if 0x1000000 ≤ off && off < 0x1200000 then regsTile
  else []

/-- A distance falls on an element of nested arrays. -/
def inDims : List (Nat × Nat) → Nat → Bool
  | [], d => d = 0
  | (s, c) :: r, d => decide (d / s < c) && inDims r (d % s)

/-- An offset lies on the first byte of a register of a definition. -/
def RegDef.covers (r : RegDef) (off : Nat) : Bool := r.base ≤ off && inDims r.dims (off - r.base)

/-- The definition of the register at an offset, none where no register lies (R51). -/
def regAt (off : Nat) : Option RegDef := (regTableOf off).find? (fun r => r.covers off)

/-- The reset value of a register from its fields. -/
def RegDef.resetVal (r : RegDef) : U64 :=
  BitVec.ofNat 64 (r.fields.foldl (fun a f => a + f.rst * 2 ^ f.lo) 0)

end Sys2Proof
end

