-- ==== Sys2Proof/Machine/Parts/Registers.lean ====
section
/-!
DEFINITION. State of the register file: stored values, pending RWC values and latched commit sets
(00_scope.md R13 to R17).
-/
namespace Sys2Proof.Machine

/-- A pending write of the RWC fields of one register: the fields' bits, their value, and the SOURCE of the writer. -/
structure PendWrite where
  off : Nat
  mask : Nat
  val : Nat
  src : Nat
deriving DecidableEq, Repr

/-- A commit set latched by a COMMIT write (R15). -/
structure CommitSet where
  blk : Nat
  writes : List PendWrite
deriving DecidableEq, Repr

/-- The register file. A register not listed holds its reset value. -/
structure RegFile where
  vals : SMap U64
  pend : List PendWrite
  latched : List CommitSet
  /-- Commits of PIPE_TILECFG counted in COMMIT_SEQ that some tile has not yet applied (06 R242). -/
  tileWait : Nat
deriving DecidableEq, Repr

def RegFile.reset : RegFile := ⟨[], [], [], 0⟩

end Sys2Proof.Machine
end

