-- ==== Sys2Proof/Machine/Parts/Spindle.lean ====
section
/-!
DEFINITION. State of the spindle counter and of the manager-worker protocol
(12_spindle_count_and_determinism.md R415 to R451).
-/
namespace Sys2Proof.Machine

/-- A worker as its manager knows it (R424, R428). -/
structure Member where
  /-- Digest of its identity signing key. -/
  ident : List Byte
  caps : List Nat
  fdoms : List Nat
  joined : Bool
  /-- The nonce of the attestation asked for last. -/
  nonce : List Byte
  /-- t1 of the exchange in progress, and t4 to return in the next SYNC. -/
  t1 : Option Nat
  t4 : Option Nat
  /-- One-way delay of the last exchange, ns. -/
  delay : Nat
  /-- Count at which it last answered. -/
  heard : Nat
deriving DecidableEq, Repr

/-- A module of a job that a manager leads: its node (none for the manager itself), what it answered to PREPARE, its
module digest, and whether it has been lost. -/
structure StartMod where
  node : Option Nat
  ready : Option Nat
  refused : Option Nat
  digest : Option (List Byte)
  stats : List Nat
  lost : Bool
deriving DecidableEq, Repr

inductive StartPhase where
  | preparing | launched | over
deriving DecidableEq, Repr

/-- A job that a manager leads (R430 to R432): PLAN_SEQ, the entry that started it, the LAUNCH asked for, when PREPARE
was sent, and the slot that the manager's own module holds, or reported. -/
structure StartRec where
  planSeq : Nat
  port : Nat
  q : Nat
  cid : Nat
  serial : Nat
  asked : Nat
  sentAt : Nat
  slot : Nat
  mods : List StartMod
  phase : StartPhase
deriving DecidableEq, Repr

/-- Where a worker stands with its manager (R428). -/
inductive JoinPhase where
  | out | greeted | applied | joined
deriving DecidableEq, Repr

/-- A plan that a worker prepares (R431): PREPARE's contents and the staging area. -/
structure PlanRec where
  planSeq : Nat
  digest : List Byte
  len : Nat
  m : Nat
  modules : Nat
  l : Nat
  children : List Nat
  homes : List (List Nat)
  area : Nat
deriving DecidableEq, Repr

structure Spindle where
  /-- The 64-bit spindle count, ns (R415). -/
  count : Nat
  running : Bool
  /-- Manager: workers by node, jobs led, the last PLAN_SEQ given (kept in NOR), and whether the count has not yet been
  brought together with a worker's since it restarted (R437). -/
  members : SMap Member
  starts : List StartRec
  planSeq : Nat
  fresh : Bool
  /-- Worker: where it stands, and the plans it prepares. -/
  phase : JoinPhase
  plans : List PlanRec
  /-- Worker: stamps t1, t2, t3 of the exchange whose t4 comes with the next SYNC. -/
  exch : Option (Nat × Nat × Nat)
  /-- Exchanges of the window so far, and the accepted ones: offset and delay. -/
  seen : Nat
  window : List (Int × Int)
  /-- Delays of the last second, with the count of each. -/
  delays : List (Nat × Int)
  /-- Accepted windows since joining, or since HOLDOVER or UNSYNC; count at the last of them. -/
  accepted : Nat
  lastAccept : Nat
  /-- Offset still to be slewed out, ns (R422). -/
  slewLeft : Int
  /-- Ticks since the last slew of 1 ns, and since the last growth of ERR_BOUND in HOLDOVER (the model's own fields). -/
  slewTicks : Nat
  holdTicks : Nat
deriving DecidableEq, Repr

def Spindle.reset : Spindle :=
  { count := 0, running := false, members := [], starts := [], planSeq := 0, fresh := true, phase := .out, plans := [],
    exch := none, seen := 0, window := [], delays := [], accepted := 0, lastAccept := 0, slewLeft := 0, slewTicks := 0,
    holdTicks := 0 }

end Sys2Proof.Machine
end

