-- ==== Sys2Proof/Machine/Parts/TileIns.lean ====
section
/-!
DEFINITION. The Falesk instructions as a tile holds them: what the scalar core issues and what waits in the vector
queue (05_falesk_instruction_set.md R164 to R201). A vector operation carries the g register values it reads.
-/
namespace Sys2Proof.Machine

/-- SALU operations (R169). -/
inductive SOp where
  | add | sub | and | or | xor | shl | shr | sar | ror | slt | sltu | min | max | minu | maxu
  | mul | mulh | mulhu | div | divu | rem | remu | clz | ctz | popc | bswap
deriving DecidableEq, Repr

/-- Branch conditions (R171). -/
inductive BrOp where
  | eq | ne | lt | ge | ltu | geu
deriving DecidableEq, Repr

/-- VFP operations (R176). -/
inductive FpOp where
  | add | sub | mul | div | sqrt | min | max | abs | neg | floor | ceil | trunc | rint
deriving DecidableEq, Repr

/-- VINT operations (R176). -/
inductive IntOp where
  | add | sub | adds | addus | subs | subus | mul | madd | min | max | minu | maxu | mulhs | mulhu | absdiffu
deriving DecidableEq, Repr

/-- VBIT operations (R176). -/
inductive BitOp where
  | and | or | xor | andn | shl | shr | sar | shli | shri | sari | abs | avgu
deriving DecidableEq, Repr

/-- VCMP operations (R176, R177). -/
inductive CmpOp where
  | eq | ne | lt | le | ltu | leu | unord
deriving DecidableEq, Repr

/-- VPERM operations (R178). -/
inductive PermOp where
  | rev | ziplo | ziphi | unzipe | unzipo | dup | compress | sel
deriving DecidableEq, Repr

/-- VRED operations (R191). -/
inductive RedOp where
  | sum | min | max | sumw
deriving DecidableEq, Repr

/-- VFMA operations (R181). -/
inductive FmaOp where
  | fma | fms | fnma | fnms
deriving DecidableEq, Repr

/-- HASH and VHASH operations (R193, R194); a CRC operation names its bytes. -/
inductive HashOp where
  | crc (n : Nat) | ghinit | ghstep | ghfin
deriving DecidableEq, Repr

/-- PRED operations on predicates alone (R198). -/
inductive PredOp where
  | and | or | xor | andn | not
deriving DecidableEq, Repr

/-- The descriptor engines of a tile (R121). -/
inductive EngId where
  | gouge | aes | dma
deriving DecidableEq, Repr

/-- An operation of the vector queue. -/
inductive VOp where
  | fp (op : FpOp) (a : VArgs)
  | int (op : IntOp) (a : VArgs)
  | bit (op : BitOp) (a : VArgs)
  | cmp (op : CmpOp) (a : VArgs)
  | perm (op : PermOp) (a : VArgs)
  | tbl (a : VArgs) (vi : VReg)
  | gather (a : GatherArgs) (base : U64)
  | scatter (a : GatherArgs) (base : U64)
  | fma (op : FmaOp) (a : VArgs) (vs3 : VReg)
  | dot (uns : Bool) (a : VArgs)
  | cmx (a : VArgs) (addr : U64)
  | cvt (a : CvtArgs)
  | red (op : RedOp) (a : VArgs)
  | pred (op : PredOp) (pd pa pb : PReg)
  | predSet (pd : PReg) (val : U64)
  | gtov (vd : VReg) (size : Fin 4) (lane : U64) (val : U64)
  | bcast (vd : VReg) (size : Fin 4) (val : U64)
  | vmov (vd vs : VReg)
  | vld (vd : VReg) (pg : PReg) (mode : Fin 8) (addr : U64)
  | vst (vd : VReg) (pg : PReg) (addr : U64)
  | vhash (op : HashOp) (a : VArgs)
  | rng (a : VArgs) (key : U64)
  | wait (k : SyncId)
  | signal (k : SyncId)
  | fence (w r : Bool)
deriving DecidableEq, Repr

/-- An instruction that the scalar core issues. -/
inductive TInstr where
  | salu (op : SOp) (rd rs1 rs2 : GReg)
  | saluImm (op : SOp) (rd rs1 : GReg) (imm : U64)
  | li (rd : GReg) (high : Bool) (imm : BitVec 32)
  | br (op : BrOp) (rs1 rs2 : GReg) (off : BitVec 16)
  | jal (rd : GReg) (off : BitVec 21)
  | jalr (rd rs1 : GReg) (imm : BitVec 16)
  | load (rd rs1 : GReg) (w : Fin 8) (off : BitVec 13)
  | store (rd rs1 : GReg) (w : Fin 8) (off : BitVec 13)
  | hash (op : HashOp) (rd rs1 rs2 : GReg)
  | vec (v : VOp)
  | vtog (rd : GReg) (rs1 : VReg) (rs2 : GReg) (size : Fin 4)
  | predToG (rs : GReg) (pa : PReg)
  | predPopc (rs : GReg) (pa : PReg)
  | csrr (rd : GReg) (n : Fin 32)
  | csrw (n : Fin 32) (rs1 : GReg)
  | wait (k : SyncId)
  | signal (k : SyncId)
  | trywait (k : SyncId) (rd : GReg)
  | fence (w r : Bool)
  | enq (e : EngId) (vs : VReg)
  | nop
  | done (rs : GReg)
  | trap (code : BitVec 16)
  | illegal
deriving DecidableEq, Repr

end Sys2Proof.Machine
end

