-- ==== Sys2Proof/Machine/Parts/Tiles.lean ====
section
/-!
DEFINITION. State of the tiles, the clusters and the work queues (04_tiles_clusters_regions.md,
05_falesk_instruction_set.md, 06_synchronisation_and_work_stealing.md; Caliper runs of 17 R592 to R594).
-/
namespace Sys2Proof.Machine

/-- The engines of a tile in their order (R121, R129): 0 scalar core, 1 vector unit, 2 Gouge, 3 AES-GCM, 4 DMA. -/
abbrev EngNo := Fin 5

/-- An engine that waits on a sync object; served when its count has been taken and the release is due (R215). -/
structure WaitRec where
  eng : EngNo
  obj : SyncId
  served : Bool
deriving DecidableEq, Repr

/-- An entry of the vector queue with the address of its instruction. -/
structure VqEntry where
  op : VOp
  pc : Nat
deriving DecidableEq, Repr

/-- A descriptor queue; started when the head descriptor's wait, if any, is over. -/
structure EngineQ where
  q : List (List Byte)
  started : Bool
deriving DecidableEq, Repr

/-- Where a work-unit entry lies: a cluster queue's ring or a die queue, and its position. -/
inductive QLoc where
  | cluster (c : Nat) (pos : Nat)
  | die (d : Nat) (pos : Nat)
deriving DecidableEq, Repr

/-- Caliper's part of an entry (17 R592 to R594): not selected, first run, twin, third run. -/
inductive CalPart where
  | plain | first | twin | third
deriving DecidableEq, Repr

/-- The work unit that a tile holds. -/
structure WorkUnit where
  /-- The entry's 64 bytes (R229). -/
  entry : List Byte
  loc : QLoc
  part : CalPart
  /-- Device address and length of the code object. -/
  codeBase : Nat
  codeLen : Nat
  /-- Bytes of the output slot, from the plan. -/
  slotLen : Nat
deriving DecidableEq, Repr

/-- The roles of a tile (TILE_STATE.ROLE). -/
inductive TileRole where
  | active | spare | onDuty | retired | diagnostic
deriving DecidableEq, Repr

/-- One suite of a tile's history (17 R596): spindle count, clock, band of R599, passed. -/
structure SuiteRec where
  time : Nat
  mhz : Nat
  band : Nat
  passed : Bool
deriving DecidableEq, Repr

/-- A tile. -/
structure Tile where
  g : Vector U64 32
  v : Vector V512 32
  p : Vector U64 8
  pc : Nat
  /-- FSTAT bits [5:0]. -/
  fstat : Nat
  /-- Counts of s0 to s15. -/
  sync : Vector Nat 16
  waits : List WaitRec
  vq : List VqEntry
  gq : EngineQ
  aq : EngineQ
  dq : EngineQ
  /-- An instruction that the scalar core holds (R123): a full queue, an interlock or DONE. -/
  stalled : Option TInstr
  unit : Option WorkUnit
  /-- The held unit executes; false from its end until the engines have drained. -/
  running : Bool
  /-- Adds held until DONE (06 R232): counter address and count. -/
  heldAdds : SMap Nat
  /-- Writes of a twin or third run kept aside (17 R593). -/
  aside : SMap Byte
  /-- Fence audit: the unfenced flag, and a signal of this unit has been flagged (06 R220, R221). -/
  unfenced : Bool
  flagged : Bool
  /-- Unwrapped key schedules of the AES-GCM lane, newest first, and the job they belong to (04 R131). -/
  keyCache : List Nat
  keyJob : Option Nat
  sram : Memory
  role : TileRole
  /-- The tile whose duty this one carries (R155). -/
  dutyOf : Option Nat
  /-- Derating limit in MHz and the band from which it applies (17 R599). -/
  derate : Option (Nat × Nat)
  /-- A committed PIPE_TILECFG set that applies at the next work-unit start (06 R242). -/
  cfgPend : Option Nat
  suspect : Bool
  /-- Spindle counts of unconfirmed suspicions (17 R598). -/
  suspicions : List Nat
  history : List SuiteRec
  /-- Retired by an injection: undone at the next warm reset or PWR_OK (17 R604). -/
  retireInj : Bool
  /-- Retired but the spare has not yet taken over (17 R601). -/
  handoverDue : Bool
deriving DecidableEq, Repr

def EngineQ.empty : EngineQ := ⟨[], false⟩

/-- A tile as the factory map gives it (01 R25): slot 15 is the spare, the others carry their own duty. -/
def Tile.factory (t : Nat) : Tile :=
  { g := Vector.replicate 32 0, v := Vector.replicate 32 0, p := Vector.replicate 8 0, pc := 0, fstat := 0,
    sync := Vector.replicate 16 0, waits := [], vq := [], gq := .empty, aq := .empty, dq := .empty, stalled := none,
    unit := none, running := false, heldAdds := [], aside := [], unfenced := false,
    flagged := false, keyCache := [], keyJob := none, sram := [],
    role := if t % 16 = 15 then .spare else .active, dutyOf := if t % 16 = 15 then none else some t, derate := none,
    cfgPend := none, suspect := false, suspicions := [], history := [], retireInj := false, handoverDue := false }

/-- The states of a ring entry (06 R230); FREE is an absent position. -/
inductive EntState where
  | waiting | ready | taken | done
deriving DecidableEq, Repr

/-- How a run that did not reach DONE ended (05 R211, 06 R224, 07 R252, 17 R603). -/
inductive RunEnd where
  | exception (cause pc code : Nat)
  | deadlock (blocked waited : Nat)
  | memory
  | tileFault
deriving DecidableEq, Repr

/-- One run of a unit that ended without DONE. -/
structure RunRec where
  tile : Nat
  how : RunEnd
deriving DecidableEq, Repr

/-- How a unit of the shipped kernels ends (09 R314): its status, its output, tokens made and bytes of text taken (11 R414),
whether R390 makes it content-corrupt, and whether a check of its frame failed (10 R361). -/
structure KernelOut where
  status : Nat
  out : Option (List Byte)
  tokens : Nat
  text : Nat
  tooLong : Bool
  check : Bool
deriving DecidableEq, Repr

/-- An entry in a queue. -/
structure QEntry where
  state : EntState
  bytes : List Byte
  slotLen : Nat
  part : CalPart
  /-- Runs so far that ended without DONE. -/
  runs : List RunRec
  /-- DONE status (05 R201), once DONE. -/
  status : Nat
  /-- The tile that has taken it. -/
  takenBy : Option Nat
  /-- Module rows that the unit completes, and buffers that its DONE releases, by the job's plan (07 R261, 08 R305). -/
  rows : List Nat
  frees : List Nat
  /-- Which programs the unit runs (09 R314), by the job's plan. -/
  kind : UnitKind
  /-- Adds applied at its DONE. -/
  adds : SMap Nat
  /-- What the shipped kernels made (09 R322, 11 R390), until the entry is collected. -/
  held : Option KernelOut
deriving DecidableEq, Repr

/-- A sample's unit (08 R290). -/
def QEntry.sample (e : QEntry) : Bool := e.kind ≠ .other

/-- A run of a selected unit that has reached DONE (17 R594). -/
structure CalRun where
  part : CalPart
  tile : Nat
  status : Nat
  slot : List Byte
  aside : SMap Byte
  adds : SMap Nat
  /-- An injection makes it fail its comparison (17 R604). -/
  forced : Bool
deriving DecidableEq, Repr

/-- A selected unit: job, UNIT_SEQ and the runs that have reached DONE. -/
structure CalUnit where
  job : Nat
  seq : Nat
  runs : List CalRun
deriving DecidableEq, Repr

/-- A cluster. -/
structure Cluster where
  sram : Memory
  /-- Limits in MHz: thermal, 950 W, flow loss, derating, tolerance (R147). -/
  lim : List (Option Nat)
  current : Nat
  /-- Clock stopped in PS1. -/
  gated : Bool
  ring : SMap QEntry
  /-- Key of the next entry placed; an entry's ring position is its key modulo 4,096. -/
  ringNext : Nat
  /-- Jobs that the cluster serves (at most four, R144), and those whose tables are loaded (R145). -/
  serves : List Nat
  loaded : List Nat
  /-- The cluster detector is armed (R241). -/
  armed : Bool
deriving DecidableEq, Repr

def Cluster.reset : Cluster :=
  { sram := [], lim := [none, none, none, none, none], current := 1800, gated := false, ring := [], ringNext := 0, serves := [],
    loaded := [], armed := true }

/-- The mailbox and counter ranges that a job has in a cluster (06 R228). -/
structure Grant where
  job : Nat
  cluster : Nat
  mboxBase : Nat
  mboxCount : Nat
  cntBase : Nat
  cntCount : Nat
deriving DecidableEq, Repr

/-- Tiles, clusters, die queues, dies out of service, selected units, and the Caliper seed drawn at boot. -/
structure Fabric where
  tiles : SMap Tile
  clusters : SMap Cluster
  dieQ : SMap (SMap QEntry)
  dieNext : SMap Nat
  diesOut : List Nat
  cal : List CalUnit
  calSeed : Nat
  grants : List Grant
  /-- Adds of units collected as DONE, by counter address (06 R237). -/
  collected : SMap Nat
  /-- Clusters whose detector has fired and whose jobs the control complex has still to examine (06 R241). -/
  examine : List Nat
deriving DecidableEq, Repr

def Fabric.reset : Fabric :=
  { tiles := [], clusters := [], dieQ := [], dieNext := [], diesOut := [], cal := [], calSeed := 0,
    grants := [], collected := [], examine := [] }

end Sys2Proof.Machine
end

