-- ==== Sys2Proof/Machine/Parts/Xpt.lean ====
section
/-!
DEFINITION. State of the fabric ports and of the Yelmos Fabric Transport (13_fabric_and_remote_access.md R451 to R489).
-/
namespace Sys2Proof.Machine

/-- A path of a peer (R465, R466): good or bad, consecutive timeouts, and since when it has been bad. -/
structure NetPath where
  port : Nat
  routed : Bool
  vlan : Nat
  udpSrc : Nat
  mac : List Byte
  ip : List Byte
  good : Bool
  timeouts : Nat
  badSince : Nat
deriving DecidableEq, Repr

/-- A peer of the node table: its paths by index, and the place of the round robin. -/
structure Peer where
  paths : SMap NetPath
  turn : Nat
deriving DecidableEq, Repr

/-- An access key (R476). -/
structure XKey where
  id : Nat
  gen : Nat
  ns : Bool
  base : Nat
  limit : Nat
  rights : Nat
  owner : Nat
  poolCheck : Bool
  nsid : Nat
  valid : Bool
deriving DecidableEq, Repr

/-- A packet sent and not yet acknowledged (R481). -/
structure TxPkt where
  psn : Nat
  typ : Nat
  msgSeq : Nat
  flags : Nat
  key : Nat
  addr : Nat
  msgLen : Nat
  off : Nat
  payload : List Byte
  /-- Count of its last transmission; none before the first (the window of R482). -/
  sent : Option Nat
  path : Nat
  tries : Nat
deriving DecidableEq, Repr

/-- An entry taken (R470): its ring count, its bytes, bytes placed of its response, when its request was acknowledged,
whether a response has begun, and its status once complete. -/
structure TxMsg where
  index : Nat
  bytes : List Byte
  got : Nat
  ackedAt : Option Nat
  answered : Bool
  status : Option Nat
deriving DecidableEq, Repr

/-- An incoming message (R473, R475): bytes placed and its receive buffer. -/
structure RxMsg where
  placed : Nat
  bufs : List Nat
deriving DecidableEq, Repr

/-- What a queue holds beside its context slot. -/
structure XQueue where
  entries : List TxMsg
  pkts : List TxPkt
  rx : SMap RxMsg
  /-- Packets accepted since the last ACK, and when the first of them arrived. -/
  unacked : Nat
  ackSince : Nat
  /-- Completion entries consumed, and when a delete began. -/
  consumed : Nat
  drainSince : Option Nat
  /-- SENDs received and not yet taken by their session: handle chain and length. -/
  inbox : List (List Nat × Nat)
deriving DecidableEq, Repr

def XQueue.fresh : XQueue := ⟨[], [], [], 0, 0, 0, none, []⟩

/-- A swap in progress in one direction of a port (R455, R457). -/
structure Swap where
  lane : Nat
  acked : Bool
  revert : Bool
  since : Nat
deriving DecidableEq, Repr

/-- A fabric port (R453 to R460). -/
structure FabPort where
  /-- Since when the link has been down; none while it is up. -/
  downSince : Option Nat
  upAt : Nat
  rx : Option Swap
  tx : Option Swap
  /-- A swap that was abandoned, and when (R457). -/
  abandoned : Option (Nat × Nat)
  /-- Transmitters turned off by a swap, and Tx Disable written in the engine (R459). -/
  txOff : Option Nat
  /-- The engine is held in low power; it is reset at the next enable (R458). -/
  lowPower : Bool
  resetDue : Bool
deriving DecidableEq, Repr

def FabPort.reset : FabPort := ⟨some 0, 0, none, none, none, none, true, false⟩

structure Xpt where
  f0 : FabPort
  f1 : FabPort
  nodes : SMap Peer
  keys : List XKey
  /-- Last GEN of a KEY_ID, and the last KEY_ID assigned. -/
  keyGens : SMap Nat
  lastKey : Nat
  queues : SMap XQueue
deriving DecidableEq, Repr

def Xpt.reset : Xpt := { f0 := .reset, f1 := .reset, nodes := [], keys := [], keyGens := [], lastKey := 0, queues := [] }

end Sys2Proof.Machine
end

