-- ==== Sys2Proof/Machine/State.lean ====
section
/-!
DEFINITION. The state of the block: the order number, the queue of waiting commands and the machine proper, whose
parts follow the chapters of the spec.
-/
namespace Sys2Proof.Machine

/-- Everything of the module that a command may change. -/
structure Mach where
  regs : RegFile
  evr : Recorder
  power : Power
  boot : Boot
  spn : Spindle
  tl : Fabric
  mem : MemState
  jobs : Jobs
  ras : Ras
  ps : PowerStates
  ks : KeyStore
  ftl : Flash
  hif : HostIf
  xp : Xpt
  /-- What the module has sent, oldest first (the model's own field). -/
  out : List Out
  /-- Draws made so far of values that the spec leaves open (the model's own field). -/
  draws : Nat
deriving DecidableEq, Repr

structure State where
  /-- The order number of the part (00_scope.md R2); nothing changes it. -/
  variant : Variant
  /-- Commands waiting, first in, first out. -/
  pending : List Instr
  mach : Mach
deriving DecidableEq, Repr

/-- Why a step stops the machine. No command of this block does: the type has no constructor. -/
inductive Fault where
deriving DecidableEq, Repr

/-- Why a command has no meaning. -/
inductive Refusal where
  /-- The command of this mnemonic is not modelled. Raised by its arm of exec alone. Safe: the machine stops. -/
  | notModelled (mnemonic : String)
deriving DecidableEq, Repr

/-- The machine as it leaves the factory, with no 54 V input (03 R625). -/
def Mach.factory : Mach :=
  { regs := .reset, evr := .reset, power := .reset, boot := .factory, spn := .reset, tl := .reset,
    mem := .reset, jobs := .reset, ras := .reset, ps := .reset, ks := .reset,
    ftl := .reset, hif := .reset, xp := .reset, out := [], draws := 0 }

/-- The state after reset: a YLM-5120 as it leaves the factory, no command waiting. -/
def State.reset : State := { variant := .ylm5120, pending := [], mach := Mach.factory }

end Sys2Proof.Machine
end

