-- ==== Sys2Proof/Machine/Status.lean ====
section
/-!
DEFINITION. The 16-bit status codes of 00_scope.md R19 and the choice among several of R20.
-/
namespace Sys2Proof.Machine.St

def ok : Nat := 0x0000
def noGain : Nat := 0x0001
def invalidOpcode : Nat := 0x0101
def invalidField : Nat := 0x0102
def unitAbsent : Nat := 0x0103
def badHandle : Nat := 0x0104
def arbLost : Nat := 0x0105
def mediaUnrecoverable : Nat := 0x0201
def checkFail : Nat := 0x0301
def checkAbsent : Nat := 0x0302
def sampleCorrupt : Nat := 0x0303
def keyDenied : Nat := 0x0401
def bounds : Nat := 0x0402
def rights : Nat := 0x0403
def policy : Nat := 0x0404
def notOwner : Nat := 0x0405
def poolEmpty : Nat := 0x0501
def outOverflow : Nat := 0x0502
def nonreproducible : Nat := 0x0601
def late : Nat := 0x0602
def grammarDead : Nat := 0x0701
def stopMatch : Nat := 0x0702
def entryAborted : Nat := 0x0801
def supply : Nat := 0x0802
def thermal : Nat := 0x0803
def coolant : Nat := 0x0804
def internal : Nat := 0x0F01

/-- The place of a code's group in the order of R20. -/
def groupRank (c : Nat) : Nat :=
  match c / 256 with
  | 0x0F => 0 | 0x04 => 1 | 0x01 => 2 | 0x05 => 3 | 0x02 => 4 | 0x03 => 5 | 0x08 => 6 | 0x07 => 7 | 0x06 => 8
  | 0x00 => 9
  | _ => 0

/-- The code reported of two that apply (R20): the earlier group, and within a group the lower code, where ST_OK
gives way to every other code. -/
def first (a b : Nat) : Nat :=
  if a = 0 then b else if b = 0 then a
  else if groupRank a < groupRank b then a
  else if groupRank b < groupRank a then b
  else min a b

end Sys2Proof.Machine.St
end

