-- ==== Sys2Proof/Machine/Ops.lean ====
section
/-!
DEFINITION. The shared operations of the block: the form of a meaning, the register file, what is sent out, and the
making of event records (17_health_faults_event_recorder.md R611 to R618, R629 to R633).
-/
namespace Sys2Proof.Machine

/-- What a command answers. -/
abbrev Res := Host.Outcome State Fault Refusal

/-- A command that always completes: it changes the machine proper and leaves the order number and the queue. -/
def act (f : Variant → Mach → Mach) (s : State) : Res :=
  .next { s with mach := f s.variant s.mach }

/-- A command that always completes and does not look at the order number. -/
def doing (f : Mach → Mach) (s : State) : Res := act (fun _ m => f m) s

/-! ### The register file -/

/-- The value of a register that holds its reset value. -/
def regReset (off : Nat) : U64 :=
  match regAt off with
  | some r => r.resetVal
  | none => 0

/-- The stored value of the register at a window-2 offset. -/
def Mach.reg (m : Mach) (off : Nat) : U64 := mapGet regReset m.regs.vals off

/-- The machine with a register's stored value replaced. -/
def Mach.setReg (m : Mach) (off : Nat) (v : U64) : Mach :=
  { m with regs := { m.regs with vals := mapSet m.regs.vals off v } }

/-- Bits [hi:lo] of a stored register. -/
def Mach.fld (m : Mach) (off hi lo : Nat) : Nat := fieldOf (m.reg off) hi lo

/-- The machine with bits [hi:lo] of a stored register replaced. -/
def Mach.setFld (m : Mach) (off hi lo v : Nat) : Mach := m.setReg off (putField (m.reg off) hi lo v)

/-- Bit i of a stored register. -/
def Mach.bit (m : Mach) (off i : Nat) : Bool := (m.reg off).getLsbD i

/-- The machine with bit i of a stored register set or cleared. -/
def Mach.setBit (m : Mach) (off i : Nat) (b : Bool) : Mach := m.setFld off i i (boolBit b)

/-- A field that counts modulo 2^(its width), advanced by n. -/
def Mach.addFld (m : Mach) (off hi lo n : Nat) : Mach := m.setFld off hi lo (m.fld off hi lo + n)

/-- A field that saturates at its largest value, advanced by n. -/
def Mach.satFld (m : Mach) (off hi lo n : Nat) : Mach :=
  m.setFld off hi lo (satAdd (2 ^ (hi + 1 - lo) - 1) (m.fld off hi lo) n)

/-! ### What is sent out and what is drawn -/

/-- The machine with one more thing sent. -/
def Mach.send (m : Mach) (o : Out) : Mach := { m with out := m.out ++ [o] }

/-- A value that the spec leaves open: what is drawn says which; the counter makes each draw a fresh one. -/
def Mach.drawn (m : Mach) (what : Nat) : Nat := Config.freeNat what m.draws

/-- The machine after a draw. -/
def Mach.draw (m : Mach) : Mach := { m with draws := m.draws + 1 }

/-- n bytes that the spec leaves open. -/
def Mach.drawnBytes (m : Mach) (what n : Nat) : List Byte :=
  (List.range n).map (fun i => Config.freeByte what m.draws i)

/-- The number that a kind of event has in a payload byte whose codes the spec does not state (17 R618). -/
def kindCode (typ kind : Nat) : Nat := Config.freeNat (1000 + typ) kind % 256

/-! ### Event records -/

/-- A payload: fields of given sizes in bytes, least significant byte first (R9). -/
def payloadOf (l : List (Nat × Nat)) : List Byte := l.flatMap (fun p => leBytes p.1 p.2)

/-- The SOURCE field: class and index (R611). -/
def sourceOf (cls idx : Nat) : Nat := cls * 4096 + idx % 4096

/-- Bytes of a whole record (R611). -/
def EvRecord.size (r : EvRecord) : Nat := 24 + r.payload.length

/-- The bytes of a record, its CRC-32C last (R611). -/
def EvRecord.bytes (r : EvRecord) : List Byte :=
  let body := leBytes 2 r.size ++ leBytes 2 (r.typ + boolBit r.injected * 0x8000) ++ leBytes 8 r.spindle ++
    leBytes 4 r.seq ++ leBytes 2 r.source ++ leBytes 2 r.status ++ r.payload
  body ++ leBytes 4 (crc32c body).toNat

/-- Bytes that wait in the buffer (EVR_STATUS.BUFFERED). -/
def Recorder.buffered (e : Recorder) : Nat :=
  ((e.kept.filter (fun k => k.buffered)).map (fun k => k.record.size)).sum

/-- The record types marked "alert" in R618. -/
def alertTypes : List Nat := [0x0002, 0x0014, 0x0081]

/-- A record asserts ALERT# (R618): its type is marked, or the mask has the bit of its group byte's low nibble. -/
def alerts (mask typ status : Nat) : Bool :=
  alertTypes.contains typ || bitAt mask (status / 256 % 16)

/-- The event recorder takes records: the standby rail is up and PWR_OK has risen, so that the I/O die has power. -/
def Mach.recorderOn (m : Mach) : Bool := m.power.pwrOk || m.power.rails = .bulk

/-- Bytes made within the last 3,600 s (R614). -/
def Recorder.rateUsed (e : Recorder) (now : Nat) : Nat :=
  ((e.made.filter (fun p => now < p.1 + 3600000000000)).map (fun p => p.2)).sum

/-- A record of n bytes has room in the buffer and within 4 KiB/s over 3,600 s (R614). -/
def Recorder.room (e : Recorder) (now n : Nat) : Bool :=
  e.buffered + n ≤ 262144 && e.rateUsed now + n ≤ 3600 * 4096

/-- The record numbered and put into the buffer; the permanent area takes it if it still has room (R615, R632). -/
def Recorder.keep (e : Recorder) (now : Nat) (r : EvRecord) : Recorder :=
  let n := r.size
  let perm := !e.permFull && e.permUsed + n ≤ 1048576
  { e with
    kept := e.kept ++ [⟨{ r with seq := e.nextSeq }, true, true, perm, 0⟩]
    nextSeq := (e.nextSeq + 1) % 2 ^ 32
    permFull := e.permFull || !perm
    permUsed := if perm then e.permUsed + n else e.permUsed
    made := (now, n) :: e.made.filter (fun p => now < p.1 + 3600000000000) }

/-- The DROPPED record, made when room has returned (R614). -/
def Recorder.reportDrops (e : Recorder) (now : Nat) : Recorder :=
  if e.dropRun ≠ 0 && e.room now 32 then
    { e.keep now ⟨0x00FE, false, now, 0, 0, St.ok, payloadOf [(4, e.dropRun), (2, e.dropType), (2, 0)]⟩ with
      dropRun := 0, dropType := 0 }
  else e

/-- A record made: numbered and kept, or dropped and counted where it finds no room (R612, R614). -/
def Recorder.make (e : Recorder) (now : Nat) (r : EvRecord) : Recorder :=
  let e := e.reportDrops now
  if e.dropRun = 0 && e.room now r.size then e.keep now r
  else { e with nextSeq := (e.nextSeq + 1) % 2 ^ 32, dropped := (e.dropped + 1) % 2 ^ 32, dropRun := e.dropRun + 1,
                dropType := if e.dropRun = 0 then r.typ else e.dropType }

/-- A record the always-on domain keeps until PWR_OK rises, at most 4 KiB of them; its SPINDLE is 0 (R613). -/
def Recorder.keepPre (e : Recorder) (r : EvRecord) : Recorder :=
  if (e.pre.map EvRecord.size).sum + r.size ≤ 4096 then { e with pre := e.pre ++ [{ r with spindle := 0 }] }
  else { e with preDropped := e.preDropped + 1, preDropType := if e.preDropped = 0 then r.typ else e.preDropType }

/-- An event record is made (R611): type, SOURCE, STATUS and payload; with no standby rail there is none. -/
def Mach.recordAs (m : Mach) (inj : Bool) (typ src status : Nat) (payload : List Byte) : Mach :=
  let r : EvRecord := ⟨typ, inj, m.spn.count, 0, src, status, payload⟩
  if m.recorderOn then
    let m := { m with evr := m.evr.make m.spn.count r }
    if alerts (m.fld Reg.evrAlertMask 15 0) typ status then m.setBit Reg.evrStatus 30 true else m
  else if m.power.standby then { m with evr := m.evr.keepPre r }
  else m

/-- An event record that no injection caused. -/
def Mach.record (m : Mach) (typ src status : Nat) (payload : List Byte) : Mach :=
  m.recordAs false typ src status payload

/-- A NOTICE record (R629): code, SOURCE, argument and STATUS. -/
def Mach.notice (m : Mach) (code src arg status : Nat) : Mach :=
  m.record 0x00A3 src status (payloadOf [(2, code), (2, 0), (8, arg)])

/-- The SOURCE of a CFG_REJECTED record: the writer (R629). -/
def writerSource (w : Writer) : Nat :=
  match w with
  | .port p => sourceOf 7 p.val
  | .core n => sourceOf 11 n.val
  | .mgmt => sourceOf 0 0

/-- The STATUS of a CFG_REJECTED record by its reason (R629). -/
def rejectStatus (reason : Nat) : Nat :=
  if reason = 2 then St.notOwner else if reason = 5 then St.bounds else St.invalidField

/-- A CFG_REJECTED record: SOURCE, window-2 offset, value written and reason (R618, R629). -/
def Mach.rejected (m : Mach) (src off val reason : Nat) : Mach :=
  m.record 0x00A0 src (rejectStatus reason) (payloadOf [(4, off), (4, val % 2 ^ 32), (4, reason)])

/-- A copy of the newest record goes to the manager (R609). -/
def Mach.notifyLast (m : Mach) : Mach :=
  match m.evr.kept.getLast? with
  | some k => m.send (.notify k.record)
  | none => m

/-! ### NVMe completions -/

/-- The status code type and status code of a module status code (14 R508). -/
def nvmeStatusOf (c : Nat) : Nat × Nat :=
  if c = St.ok then (0x0, 0x00)
  else if c = St.invalidOpcode then (0x0, 0x01)
  else if c = St.invalidField then (0x0, 0x02)
  else if c = St.internal then (0x0, 0x06)
  else if c = St.bounds then (0x0, 0x80)
  else if c = St.mediaUnrecoverable || c = St.checkFail then (0x2, 0x81)
  else if c = St.keyDenied || c = St.rights || c = St.policy then (0x2, 0x86)
  else (0x7, c % 256)

/-- A port. -/
def Mach.port (m : Mach) (p : Nat) : PortSt := if p = 0 then m.hif.p0 else m.hif.p1

/-- The machine with a port replaced. -/
def Mach.setPort (m : Mach) (p : Nat) (x : PortSt) : Mach :=
  if p = 0 then { m with hif := { m.hif with p0 := x } } else { m with hif := { m.hif with p1 := x } }

/-- The machine with a port's controller replaced. -/
def Mach.setCtl (m : Mach) (p : Nat) (c : Ctl) : Mach := m.setPort p { m.port p with ctl := c }

/-- An NVMe completion posted; one with an error enters the controller's error log of 64 entries (14 R505). -/
def Mach.nvmePost (m : Mach) (n : NvmeCtx) (sct sc dw1 : Nat) (data : List Byte) : Mach :=
  let c := (m.port n.port.val).ctl
  let m := if sct = 0 && sc = 0 then m
    else m.setCtl n.port.val { c with errs := ((n.qid, n.cid.toNat, sct, sc) :: c.errs).take 64 }
  m.send (.nvme n.port.val n.qid n.cid.toNat sct sc dw1 data)

/-- An NVMe completion whose outcome is a module status code, carried in Dword 1 (14 R508). -/
def Mach.nvmeDone (m : Mach) (n : NvmeCtx) (code : Nat) (data : List Byte) : Mach :=
  let p := nvmeStatusOf code
  let m := if code = St.keyDenied then m.addFld Reg.secDenied 31 0 1 else m
  m.nvmePost n p.1 p.2 code data

/-- An NVMe completion whose outcome NVMe itself defines: Dword 1 is 0 (14 R508). -/
def Mach.nvmeStd (m : Mach) (n : NvmeCtx) (sct sc : Nat) : Mach := m.nvmePost n sct sc 0 []

end Sys2Proof.Machine
end

