-- ==== Sys2Proof/Machine/BootOps.lean ====
section
/-!
DEFINITION. The operations of start-up: images and their checks, the choice of a slot, measurements, and the
attestation report (03_startup_and_trust.md R93 to R114).
-/
namespace Sys2Proof

namespace Config
/-- VENDOR_KEY_DIGEST[k], set at manufacture (03 R93). -/
opaque vendorKeyDigest : Nat → List Byte
/-- DEVICE_SECRET, set at manufacture, which only the root of trust reads (03 R93). -/
opaque deviceSecret : List Byte
/-- SERIAL, 16 bytes, set at manufacture (03 R93). -/
opaque serial : List Byte
/-- The identity certificate in NOR (03 R108). -/
opaque certificate : List Byte
/-- The boot ROM's digest, the measurement types and names, and the digests of the shipped images. -/
opaque measuredConst : Nat → List Byte
/-- VERSION, SVN and LIVE_COMPAT of the shipped images, given in release notes (03 R625). -/
opaque shippedField : Nat → Nat
end Config

namespace Machine

/-! ### Images -/

/-- TYPE of an image: 1 control-complex firmware, 2 Tool rest (R95). -/
def SlotImage.typ (i : SlotImage) (place : Nat) : Nat :=
  match i with | .none => 0 | .shipped => place | .bytes l => leAt l 6 2

/-- VERSION of an image (R95). -/
def SlotImage.version (i : SlotImage) : Nat :=
  match i with | .none => 0 | .shipped => Config.shippedField 0 % 2 ^ 64 | .bytes l => leAt l 8 8

/-- SVN of an image (R95); a shipped image's lies in 0 to 64. -/
def SlotImage.svn (i : SlotImage) : Nat :=
  match i with | .none => 0 | .shipped => Config.shippedField 1 % 65 | .bytes l => leAt l 0x10 1

/-- LIVE_COMPAT of an image (R95). -/
def SlotImage.liveCompat (i : SlotImage) : Nat :=
  match i with | .none => 0 | .shipped => Config.shippedField 2 % 2 ^ 16 | .bytes l => leAt l 0x12 2

/-- Every byte of a range is 0. -/
def zeroRange (l : List Byte) (o n : Nat) : Bool := (sliceBytes l o n).all (fun b => b = 0)

/-- Step 1 of R96: MAGIC, HDR_VERSION, TYPE for the place, SVN, BODY_LEN and reserved fields. -/
def headerDefined (l : List Byte) (place : Nat) : Bool :=
  leAt l 0 4 = 0x46474C53 && leAt l 4 2 = 1 && leAt l 6 2 = place && decide (leAt l 0x10 1 ≤ 64) &&
  decide (1 ≤ leAt l 0x14 4 ∧ leAt l 0x14 4 ≤ 16769024) && l.length = 0x2000 + leAt l 0x14 4 &&
  zeroRange l 0x18 8 && zeroRange l 0x14ED 2835

/-- Step 2 of R96: the public key has the fused digest of its index. -/
def keyKnown (l : List Byte) : Bool :=
  decide (leAt l 0x11 1 ≤ 3) && shake256 (sliceBytes l 0x60 1952) 32 = Config.vendorKeyDigest (leAt l 0x11 1)

/-- Steps 3 and 5 of R96. -/
def signatureOk (l : List Byte) : Bool :=
  Config.mldsaVerify (sliceBytes l 0x60 1952) (shake256 (sliceBytes l 0 0x800) 64) (sliceBytes l 0x800 3309)

def bodyOk (l : List Byte) : Bool := shake256 (l.drop 0x2000) 64 = sliceBytes l 0x20 64

/-- The checks of R96 in order, for a place (1 a slot, 2 the Tool rest area): the status of the first that fails.
The shipped images are valid (R625). -/
def imageCheck (b : Boot) (place : Nat) (i : SlotImage) : Option Nat :=
  match i with
  | .none => some St.checkFail
  | .shipped =>
    if i.svn < (if place = 1 then b.fwMinSvn else b.trMinSvn) then some St.keyDenied else none
  | .bytes l =>
    if !headerDefined l place then some St.checkFail
    else if !keyKnown l then some St.checkFail
    else if bitAt b.revoked (leAt l 0x11 1) then some St.keyDenied
    else if !signatureOk l then some St.checkFail
    else if leAt l 0x10 1 < (if place = 1 then b.fwMinSvn else b.trMinSvn) then some St.keyDenied
    else if !bodyOk l then some St.checkFail
    else none

/-- Slot A is 0, slot B is 1. -/
def Boot.slot (b : Boot) (i : Nat) : Slot := if i = 0 then b.slotA else b.slotB

def Boot.setSlot (b : Boot) (i : Nat) (s : Slot) : Boot := if i = 0 then { b with slotA := s } else { b with slotB := s }

/-- The image that a choice names: 0 and 1 the slots, 2 Tool rest. -/
def Boot.image (b : Boot) (i : Nat) : SlotImage := if i = 2 then b.toolRest else (b.slot i).image

/-! ### The choice of an image (R98 to R100) -/

/-- What the boot ROM has found: the slots after it, the image chosen, FALLBACK and LAST_ERROR. -/
structure Choice where
  boot : Boot
  chosen : Option Nat
  fallback : Nat
  lastError : Nat
deriving DecidableEq, Repr

/-- A slot tried: none when it starts, else the FALLBACK code of what made it unusable; a slot with count 3 becomes
FAILED without a check (R98, R99). -/
def trySlot (c : Choice) (i : Nat) : Choice × Option Nat :=
  let s := c.boot.slot i
  match s.state with
  | .empty => (c, some 5)
  | .failed => (c, some 2)
  | _ =>
    if s.count = 3 then ({ c with boot := c.boot.setSlot i { s with state := .failed } }, some 2)
    else match imageCheck c.boot 1 s.image with
      | some e => ({ c with lastError := e }, some 1)
      | none => ({ c with chosen := some i }, none)

/-- Tool rest tried: chosen when valid, else the boot halts with nothing chosen (R100). -/
def tryToolRest (c : Choice) (fallback : Nat) : Choice :=
  match imageCheck c.boot 2 c.boot.toolRest with
  | some e => { c with lastError := e, fallback := fallback }
  | none => { c with chosen := some 2, fallback := fallback }

/-- A first slot, then a second, then Tool rest (R99, straps 00 and 01). -/
def chooseFixed (c : Choice) (a b : Nat) : Choice :=
  match trySlot c a with
  | (c, none) => c
  | (c, some e) =>
    match trySlot c b with
    | (c, none) => { c with fallback := e }
    | (c, some _) => tryToolRest c 3

/-- A slot may be chosen by its state (R99). -/
def Slot.candidate (s : Slot) : Bool := s.state = .pending || s.state = .confirmed

/-- The candidate with the higher VERSION, slot A on a tie, then the other (R99, strap 10). -/
def chooseNewest (c : Choice) : Choice :=
  let a := c.boot.slotA.candidate
  let b := c.boot.slotB.candidate
  let first := if a && b then (if c.boot.slotA.image.version < c.boot.slotB.image.version then 1 else 0)
    else if a then 0 else 1
  if !a && !b then tryToolRest c 3
  else match trySlot c first with
    | (c, none) => c
    | (c, some e) =>
      if a && b then
        match trySlot c (1 - first) with
        | (c, none) => { c with fallback := e }
        | (c, some _) => tryToolRest c 3
      else tryToolRest c 3

/-- The choice by STRAP_BOOT (R99). -/
def chooseImage (b : Boot) (strap : Nat) : Choice :=
  let c : Choice := ⟨b, none, 0, 0⟩
  match strap with
  | 0 => chooseFixed c 0 1
  | 1 => chooseFixed c 1 0
  | 2 => chooseNewest c
  | _ => tryToolRest c 4

/-! ### Measurements (R109, R110) -/

/-- Register i extended by a type and a 64-byte digest; an entry is kept while the log holds fewer than 4,096. -/
def Mach.measure (m : Mach) (i typ : Nat) (digest name : List Byte) : Mach :=
  let b := m.boot
  let old := b.meas.getD i []
  let new := shake256 (old ++ leBytes 2 typ ++ sliceBytes digest 0 64) 64
  let e : MeasEntry := ⟨i, typ, b.measSeq, m.spn.count, sliceBytes digest 0 64, sliceBytes name 0 16⟩
  { m with boot := { b with meas := b.meas.set i new, measSeq := (b.measSeq + 1) % 2 ^ 32,
                            measLog := if b.measLog.length < 4096 then b.measLog ++ [e] else b.measLog } }

/-- A measurement of contents: the digest is SHAKE256 of them; the spec states no TYPE number and no name. -/
def Mach.measureData (m : Mach) (i : Nat) (content : List Byte) : Mach :=
  m.measure i (Config.freeNat 10 i % 2 ^ 16) (shake256 content 64) (Config.measuredConst (100 + i))

/-- The content measured of an image: header and body, or the shipped image's own digest. -/
def SlotImage.measured (i : SlotImage) : List Byte :=
  match i with | .none => [] | .shipped => Config.measuredConst 1 | .bytes l => l

/-- The bytes of a log entry (R110). -/
def MeasEntry.bytes (e : MeasEntry) : List Byte :=
  leBytes 1 e.reg ++ [0] ++ leBytes 2 e.typ ++ leBytes 4 e.seq ++ leBytes 8 e.spindle ++ e.digest ++ e.name

/-! ### The attestation report (R111) -/

/-- The report with a nonce, signed by the identity signing key; cap is the five CAP words. -/
def Mach.attestation (m : Mach) (cap : List Nat) (nonce : List Byte) : List Byte :=
  let b := m.boot
  let flags := boolBit (b.chosen = some 2) + 2 * boolBit (decide (4096 < b.measSeq)) +
    4 * boolBit (m.bit Reg.glbAdopt 31)
  let body := leBytes 4 0x50525441 ++ leBytes 2 1 ++ leBytes 2 flags ++ sliceBytes nonce 0 32 ++
    sliceBytes Config.serial 0 16 ++ shake256 (Config.identityKey 0) 32 ++ shake256 (Config.identityKey 1) 32 ++
    leBytes 1 b.fwMinSvn ++ leBytes 1 b.trMinSvn ++ leBytes 1 (m.fld Reg.glbBootStatus 11 8) ++ [0] ++
    leBytes 8 (m.reg Reg.glbFwVersion).toNat ++ leBytes 8 (m.reg Reg.secKsGen).toNat ++ leBytes 8 m.spn.count ++
    leBytes 4 b.measLog.length ++ (b.meas.flatMap (fun x => sliceBytes x 0 64)) ++
    (cap.flatMap (leBytes 4)) ++
    ((List.range 4).flatMap (fun k => leBytes 4 (m.reg (Reg.rasFdom k)).toNat)) ++ leBytes 4 0
  sliceBytes (sliceBytes body 0 0x2C0 ++
    sliceBytes (Config.mldsaSign 0 (shake256 (sliceBytes body 0 0x2C0) 64)) 0 3309) 0 4096

/-! ### Booting -/

/-- The BOOT record (17 R612, R618): boot count, SLOT_RUNNING, FALLBACK, CAUSE and the running VERSION. -/
def Mach.bootRecord (m : Mach) : Mach :=
  let err := m.fld Reg.glbBootStatus 31 16
  m.record 0x0001 (sourceOf 0 0) err
    (payloadOf [(4, m.evr.bootCount), (1, m.fld Reg.glbBootStatus 11 8), (1, m.fld Reg.glbBootStatus 15 12),
      (1, m.fld Reg.glbLastOff 7 0), (1, 0), (8, (m.reg Reg.glbFwVersion).toNat)])

/-- The boot ROM's part of a boot (R99 to R101, R103): the root of trust passes its self-tests, an image is chosen and
checked; STAGE 0x02 with one, HALTED without. -/
def Mach.startBoot (m : Mach) : Mach :=
  let strap := m.fld Reg.glbStraps 4 3
  let c := chooseImage m.boot strap
  let m := { m with
    boot := { c.boot with chosen := c.chosen, watchdog := c.chosen.isSome, live := none, nonce0 := none, nonce1 := none,
                          meas := List.replicate 8 (List.replicate 64 0), measLog := [], measSeq := 0 }
    evr := { m.evr with bootCount := (m.evr.bootCount + 1) % 2 ^ 32, dropped := 0 } }
  let m := (m.setBit Reg.glbCcStatus 16 true).setFld Reg.glbBootStatus 31 16 c.lastError
  let m := m.setFld Reg.glbBootStatus 15 12 c.fallback
  match c.chosen with
  | some _ => m.setFld Reg.glbBootStatus 7 0 2
  | none => (m.setFld Reg.glbBootStatus 7 0 0xFF).bootRecord

/-- A downloaded image stored: slots 1 and 2 become PENDING with count 0, slot 3 is the Tool rest area (R94, R98). -/
def Mach.storeImage (m : Mach) (slot : Nat) (image : List Byte) : Mach :=
  if slot = 3 then { m with boot := { m.boot with toolRest := .bytes image } }
  else { m with boot := m.boot.setSlot (slot - 1) ⟨.pending, 0, .bytes image⟩ }

end Machine
end Sys2Proof
end

