-- ==== Sys2Proof/Machine/Variants.lean ====
section
/-!
DEFINITION. What each order number has (00_scope.md R2, R5, R7).
-/
namespace Sys2Proof.Machine

/-- Compute dies present. -/
def dieCount (v : Variant) : Nat := match v with | .ylm5120 => 4 | .ylm3840 => 3 | .ylm2560L => 2

/-- ACTIVE_TILES (R7). -/
def activeTiles (v : Variant) : Nat := 120 * dieCount v

/-- Clusters present. -/
def clusterCount (v : Variant) : Nat := 8 * dieCount v

/-- GDDR7 devices present. -/
def gddrDevices (v : Variant) : Nat := match v with | .ylm2560L => 8 | _ => 16

/-- GDDR7 channels present (07 R245). -/
def gddrChannels (v : Variant) : Nat := 4 * gddrDevices v

/-- The first device address past backed GDDR7 (01 R44). -/
def gddrTop (v : Variant) : Nat := match v with | .ylm2560L => 0x600000000 | _ => 0xC00000000

/-- ONFI channels present. -/
def nandChannels (v : Variant) : Nat := match v with | .ylm2560L => 16 | _ => 32

/-- Fabric ports present. -/
def fabPorts (v : Variant) : Nat := match v with | .ylm2560L => 1 | _ => 2

/-- A tile of the fitted variant. -/
def tilePresent (v : Variant) (t : Nat) : Bool := t < 128 * dieCount v

/-- The five CAP words (R7). -/
def capWords (v : Variant) : List Nat :=
  let part := match v with | .ylm5120 => 1 | .ylm3840 => 2 | .ylm2560L => 3
  [0x594C0000 + part * 256 + 1,
    8 * dieCount v * 2 ^ 14 + activeTiles v * 2 ^ 4 + (2 ^ dieCount v - 1),
    3 * gddrDevices v * 2 ^ 16 + (2 ^ gddrDevices v - 1),
    2 ^ nandChannels v - 1,
    3 * 4 + (2 ^ fabPorts v - 1)]

/-! ### Tiles and clusters -/

def Mach.tile (m : Mach) (t : Nat) : Tile := mapGet Tile.factory m.tl.tiles t

def Mach.setTile (m : Mach) (t : Nat) (x : Tile) : Mach := { m with tl := { m.tl with tiles := mapSet m.tl.tiles t x } }

def Mach.clus (m : Mach) (c : Nat) : Cluster := mapGet (fun _ => Cluster.reset) m.tl.clusters c

def Mach.setClus (m : Mach) (c : Nat) (x : Cluster) : Mach :=
  { m with tl := { m.tl with clusters := mapSet m.tl.clusters c x } }

def Mach.dieQueue (m : Mach) (d : Nat) : SMap QEntry := mapGet (fun _ => []) m.tl.dieQ d

def Mach.setDieQueue (m : Mach) (d : Nat) (q : SMap QEntry) : Mach :=
  { m with tl := { m.tl with dieQ := mapSet m.tl.dieQ d q } }

/-- The region of a tile is powered. -/
def Mach.tilePowered (m : Mach) (t : Nat) : Bool := !m.ps.regionsOff.contains (t / 64) && !m.tl.diesOut.contains (t / 128)

/-- Tiles of the fitted variant. -/
def allTiles (v : Variant) : List Nat := List.range (128 * dieCount v)

end Sys2Proof.Machine
end

