-- ==== Sys2Proof/Machine/KeyBase.lean ====
section
/-!
DEFINITION. Keys as other units see them: the handles, the jobs' key tables and the output policies
(10 R369 to R377, 04 R131).
-/
namespace Sys2Proof.Machine

/-- A key handle: GEN[63:32] · KEY_ID[31:0] (R370). -/
def keyHandle (id gen : Nat) : Nat := gen * 2 ^ 32 + id
def KeyRec.handle (k : KeyRec) : Nat := keyHandle k.id k.gen

/-- The record that a key handle names, with its GEN (R370); the handle 0 names none. -/
def Mach.key? (m : Mach) (h : Nat) : Option KeyRec :=
  if h % 2 ^ 64 = 0 then none else m.ks.keys.find? (fun k => k.handle = h % 2 ^ 64)

/-- Use of a key: ST_KEY_DENIED where the store is closed, the handle names no key or the key is revoked. -/
def Mach.keyStatus (m : Mach) (h : Nat) : Nat :=
  match m.key? h with
  | some k => if m.ks.isOpen && !k.revoked then St.ok else St.keyDenied
  | none => St.keyDenied

/-- The keys that a job slot holds in its table. -/
def Mach.jobTable (m : Mach) (j : Nat) : List (Option Nat) := mapGet (fun _ => []) m.ks.tables j
def Mach.jobKeys (m : Mach) (j : Nat) : List KeyRec := (m.jobTable j).filterMap (fun e => e.bind m.key?)

/-- The allowed set of some keys: the intersection of their POLICY fields (R376). -/
def allowedOf (ks : List KeyRec) : Nat := ks.foldl (fun a k => a &&& k.policy) 0x1F

/-- The allowed set of a job slot under the current policies; 0x1F for a free slot. -/
def Mach.jobAllowed (m : Mach) (j : Nat) : Nat := allowedOf (m.jobKeys j)

/-- A job that holds a key whose POLICY lacks PLAINTEXT is restricted (R377). -/
def Mach.jobRestricted (m : Mach) (j : Nat) : Bool := (m.jobKeys j).any (fun k => !bitAt k.policy 0)

/-- TAG of a wrapped handle: 54 bits of SHAKE256 keyed by the boot secret, over ENTRY and JOB (R374). -/
def wrapTag (secret : List Byte) (entry job : Nat) : Nat :=
  ofLe (shake256 (secret ++ leBytes 1 entry ++ leBytes 1 job) 7) % 2 ^ 54

/-- A wrapped handle: TAG[63:10] · ENTRY[9:4] · JOB[3:0] (R374). -/
def Mach.wrapKey (m : Mach) (entry job : Nat) : Nat := wrapTag m.ks.tagSecret entry job * 2 ^ 10 + entry * 16 + job

/-- The key that a wrapped handle gives an AES-GCM lane that runs a unit of a job (R374, 04 R131). -/
def Mach.unwrapKey (m : Mach) (job h : Nat) : Option KeyRec :=
  let e := bitsOf h 9 4
  if h % 16 = job && h % 2 ^ 64 / 2 ^ 10 = wrapTag m.ks.tagSecret e job then
    match (m.jobTable job).getD e none with
    | some k => if m.keyStatus k = St.ok then m.key? k else none
    | none => none
  else none

/-- The machine with a key record replaced. -/
def Mach.setKey (m : Mach) (k : KeyRec) : Mach :=
  { m with ks := { m.ks with keys := m.ks.keys.map (fun (x : KeyRec) => if x.id = k.id then k else x) } }

/-- A sealing counted; the 2^32nd is recorded (R369). -/
def Mach.countSeal (m : Mach) (k : KeyRec) : Mach :=
  let m := m.setKey { k with seals := k.seals + 1 }
  if k.seals + 1 = 2 ^ 32 then m.notice 0x0007 (sourceOf 12 0) k.handle St.keyDenied else m

/-- The key may seal once more (R369). -/
def KeyRec.maySeal (k : KeyRec) : Bool := k.seals < 2 ^ 32

/-- A completion with ST_KEY_DENIED counted (SEC_DENIED). -/
def Mach.countDenied (m : Mach) (st : Nat) : Mach := if st = St.keyDenied then m.addFld Reg.secDenied 31 0 1 else m

/-! ### Where a restricted job may write (R377) -/

/-- Bytes of a buffer of pool k (07 R258). -/
def bufSize (k : Nat) : Nat := 256 * 4 ^ k

/-- A handle (R259). -/
def handleOf (k i g : Nat) : Nat := k * 2 ^ 29 + i * 32 + g
def handlePool (h : Nat) : Nat := bitsOf h 31 29
def handleIndex (h : Nat) : Nat := bitsOf h 28 5
def handleGen (h : Nat) : Nat := h % 32

/-- The device address of a handle's buffer (R259). -/
def Mach.bufAddr (m : Mach) (h : Nat) : Nat :=
  m.fld (Reg.bpmPoolBuf (handlePool h)) 47 0 + handleIndex h * bufSize (handlePool h)

/-- An address lies in a buffer that an owner holds. -/
def Mach.inBufOf (m : Mach) (owner a : Nat) : Bool :=
  m.mem.pools.any (fun p =>
    let base := m.fld (Reg.bpmPoolBuf p.1) 47 0
    decide (base ≤ a) && decide (a < base + p.2.count * bufSize p.1) &&
      (match mapFind p.2.bufs ((a - base) / bufSize p.1) with
      | some b => b.alloc && b.owner = owner
      | none => false))

/-- An address lies in a batch area, staging area or decoded-cache tier of a job slot. -/
def Mach.inAreaOf (m : Mach) (j a : Nat) : Bool :=
  m.mem.areas.any (fun x => x.job = j && decide (x.base ≤ a) && decide (a < x.base + x.len))

end Sys2Proof.Machine
end

