-- ==== Sys2Proof/Machine/HostBase.lean ====
section
/-!
DEFINITION. When an NVMe command is served (14 R502, R516 to R519, 03 R102, R105).
-/
namespace Sys2Proof.Machine

/-- Tool rest runs. -/
def Mach.toolRest (m : Mach) : Bool := m.power.pwrOk && m.fld Reg.glbBootStatus 11 8 = 2

/-- The module has booted far enough that its managers serve the host: STAGE 0x08 READY. -/
def Mach.ready (m : Mach) : Bool := m.power.pwrOk && m.fld Reg.glbBootStatus 7 0 = 8

/-- What a command is, for the conditions on serving it. -/
structure NvmeKind where
  /-- Only the administrative owner port may send it (R502). -/
  ownerOnly : Bool
  /-- Tool rest serves it (03 R102). -/
  inToolRest : Bool
  /-- Served while a Sanitize or Format runs: Identify and Get Log Page (R518). -/
  inMaint : Bool
  /-- An I/O command. -/
  io : Bool
deriving DecidableEq, Repr

def NvmeKind.admin : NvmeKind := ⟨false, false, false, false⟩
def NvmeKind.owner : NvmeKind := ⟨true, false, false, false⟩
def NvmeKind.ioCmd : NvmeKind := ⟨false, false, false, true⟩

/-- The queue that a command came through exists. -/
def Mach.nvmeQueue (m : Mach) (n : NvmeCtx) : Bool :=
  n.qid = 0 || (mapFind (m.port n.port.val).ctl.sqs n.qid).isSome

/-- What stops a command before its own effect: status code type, status code, Dword 1. -/
def Mach.nvmeStop (m : Mach) (n : NvmeCtx) (k : NvmeKind) : Option (Nat × Nat × Nat) :=
  let code (c : Nat) : Option (Nat × Nat × Nat) := some ((nvmeStatusOf c).1, (nvmeStatusOf c).2, c)
  if m.toolRest && !(k.inToolRest && n.port.val = m.hif.owner) then code St.unitAbsent
  else if k.ownerOnly && n.port.val ≠ m.hif.owner then code St.notOwner
  else
    match m.hif.maint with
    | some x =>
      if k.inMaint then none
      else match x.kind with
        | .format _ _ _ => some (0x0, 0x84, 0)
        | _ => some (0x0, 0x1D, 0)
    | none =>
      if m.power.quiesce ≠ .none && m.power.quiesce ≠ .overrun then some (0x0, 0x82, 0)
      else if m.hif.sanFailed && k.io then some (0x0, 0x1C, 0)
      else none

/-- An NVMe command: taken where its controller is ready and its queue exists, stopped where a rule says so, else
served. -/
def Mach.nvmeServe (m : Mach) (n : NvmeCtx) (k : NvmeKind) (f : Mach → Mach) : Mach :=
  if (m.port n.port.val).ctl.rdy && m.nvmeQueue n then
    match m.nvmeStop n k with
    | some (t, c, d) => m.nvmePost n t c d []
    | none => f m
  else m

end Sys2Proof.Machine
end

