-- ==== Sys2Proof/Machine/CfgOps.lean ====
section
/-!
DEFINITION. What register writes of several blocks have in common (00 R13, R17, 17 R629).
-/
namespace Sys2Proof.Machine

/-- An RWI write to a busy block is ignored and sets CFG_WHILE_BUSY of the block (R17). -/
def Mach.cfgBusy (m : Mach) (blk : Nat) : Mach := m.setBit (blk + 0xFF8) 8 true

end Sys2Proof.Machine
end

