-- ==== Sys2Proof/Machine/Hash.lean ====
section
/-!
DEFINITION. GH64 and CRC-32C as instructions and as a whole (04 R136, 05 R193).
-/
namespace Sys2Proof.Machine

/-- GHINIT (R193). -/
def ghInit (seed len : U64) : U64 := seed ^^^ (len * 0xA24BAED4963EE407#64)

/-- GHSTEP (R193). -/
def ghStep (h w : U64) : U64 :=
  let t := (h ^^^ w) * 0x9FB21C651E98DF25#64
  t ^^^ (t >>> 29)

/-- GHFIN (R193). -/
def ghFin (h : U64) : U64 := h ^^^ (h >>> 32)

/-- The 8-byte words of a list, the last padded with zeros; fuel counts words. -/
def words8 : Nat → List Byte → List U64
  | 0, _ => []
  | n + 1, l => BitVec.ofNat 64 (leAt l 0 8) :: words8 n (l.drop 8)

/-- GH64 of bytes (R136). -/
def gh64 (seed : U64) (l : List Byte) : U64 :=
  ghFin ((words8 ((l.length + 7) / 8) l).foldl ghStep (ghInit seed (BitVec.ofNat 64 l.length)))

/-- A HASH or VHASH operation on two 64-bit operands (R193, R194). -/
def hashOp (op : HashOp) (a b : U64) : U64 :=
  match op with
  | .crc n => (crcState (a.setWidth 32) (leBytes n b.toNat)).setWidth 64
  | .ghinit => ghInit a b
  | .ghstep => ghStep a b
  | .ghfin => ghFin a

end Sys2Proof.Machine
end

