-- ==== Sys2Proof/Machine/Lookup.lean ====
section
/-!
DEFINITION. The probing of a LOOKUP table (04 R137, 11 R382).
-/
namespace Sys2Proof.Machine

/-- One bucket probed for a key: a hit with its value, the end of the search, or on to the next bucket (R137, 11 R382).
-/
inductive Probe where
  | hit (value : Nat) | stop | next
deriving DecidableEq, Repr

/-- The four entries of a bucket in order. -/
def probeEntries (kb vb key : Nat) : List Nat → Probe
  | [] => .next
  | e :: r =>
    if !bitAt e 63 then .stop
    else if e % 2 ^ kb = key then .hit (e / 2 ^ kb % 2 ^ vb)
    else if r.isEmpty && bitAt e 62 then .stop
    else probeEntries kb vb key r

/-- A probe over buckets from b, wrapping; some (some value) a hit, some none a miss, none the limit (R137). -/
def probeBuckets (bucket : Nat → List Nat) (n kb vb key : Nat) : Nat → Nat → Option (Option Nat)
  | 0, _ => none
  | k + 1, b =>
    match probeEntries kb vb key (bucket b) with
    | .hit x => some (some x)
    | .stop => some none
    | .next => probeBuckets bucket n kb vb key k ((b + 1) % n)

end Sys2Proof.Machine
end

