-- ==== Sys2Proof/Machine/Flags.lean ====
section
/-!
DEFINITION. The sticky arithmetic flags of FSTAT (05 R161 to R163): a set of flags is a number with bits NV 0, DZ 1,
OF 2, UF 3, NX 4 and SAT 5; an operation adds its flags and clears none.
-/
namespace Sys2Proof.Machine

abbrev Flags := Nat

def Flags.none : Flags := 0
def Flags.nv : Flags := 1
def Flags.dz : Flags := 2
def Flags.ovf : Flags := 4
def Flags.unf : Flags := 8
def Flags.nx : Flags := 16
def Flags.sat : Flags := 32

/-- Flags of two operations together. -/
def Flags.join (a b : Flags) : Flags := a ||| b

/-- A flag that is set under a condition. -/
def Flags.when (c : Bool) (f : Flags) : Flags := if c then f else 0

end Sys2Proof.Machine
end

