-- ==== Sys2Proof/Machine/Fp.lean ====
section
/-!
DEFINITION. Floating point of the vector unit (05 R184 to R190): exact values, one rounding, canonical NaNs, tininess
after rounding, the five formats.
-/
namespace Sys2Proof.Machine

/-- A format of R184: exponent bits, fraction bits, bias, infinities present, canonical NaN. -/
structure FpFmt where
  eb : Nat
  fb : Nat
  bias : Nat
  inf : Bool
  nan : Nat
deriving DecidableEq, Repr

def fp32 : FpFmt := ⟨8, 23, 127, true, 0x7FC00000⟩
def fp16 : FpFmt := ⟨5, 10, 15, true, 0x7E00⟩
def bf16 : FpFmt := ⟨8, 7, 127, true, 0x7FC0⟩
def fpE4M3 : FpFmt := ⟨4, 3, 7, false, 0x7F⟩
def fpE5M2 : FpFmt := ⟨5, 2, 15, true, 0x7E⟩

/-- Width in bits of a format. -/
def FpFmt.width (f : FpFmt) : Nat := 1 + f.eb + f.fb

/-- The sign bit of a format. -/
def FpFmt.signBit (f : FpFmt) : Nat := 2 ^ (f.eb + f.fb)

/-- A value: a NaN (signalling or not), an infinity, or the exact (-1)^s × mant × 2^exp. -/
inductive Fp where
  | nan (signalling : Bool)
  | inf (s : Bool)
  | fin (s : Bool) (mant : Nat) (exp : Int)
deriving DecidableEq, Repr

/-- The least exponent of a value's last place. -/
def FpFmt.qmin (f : FpFmt) : Int := 1 - (f.bias : Int) - (f.fb : Int)

/-- The value of a bit pattern (R184). -/
def FpFmt.decode (f : FpFmt) (w : Nat) : Fp :=
  let s := w / 2 ^ (f.eb + f.fb) % 2 = 1
  let e := w / 2 ^ f.fb % 2 ^ f.eb
  let m := w % 2 ^ f.fb
  if f.inf && e = 2 ^ f.eb - 1 then
    if m = 0 then .inf s else .nan (m < 2 ^ (f.fb - 1))
  else if !f.inf && e = 2 ^ f.eb - 1 && m = 2 ^ f.fb - 1 then .nan false
  else if e = 0 then .fin s m f.qmin
  else .fin s (m + 2 ^ f.fb) (f.qmin + (e : Int) - 1)

/-- A rounding mode (R188): nearest-even, towards zero, down, up, nearest with ties away. -/
inductive Rm where
  | rne | rtz | rdn | rup | rna
deriving DecidableEq, Repr

/-- Whether a magnitude with quotient q and remainder r over 2^sh rounds up. -/
def roundsUp (rm : Rm) (s : Bool) (q r sh : Nat) : Bool :=
  match rm with
  | .rne => decide (2 ^ sh < 2 * r) || (2 * r = 2 ^ sh && q % 2 = 1)
  | .rna => decide (2 ^ sh ≤ 2 * r)
  | .rtz => false
  | .rdn => s && r ≠ 0
  | .rup => !s && r ≠ 0

/-- m × 2^e in units of 2^q, rounded, and whether it is inexact. -/
def quantise (rm : Rm) (s : Bool) (m : Nat) (e q : Int) : Nat × Bool :=
  if q ≤ e then (m * 2 ^ (e - q).toNat, false)
  else
    let sh := (q - e).toNat
    let k := m / 2 ^ sh
    let r := m % 2 ^ sh
    (if roundsUp rm s k r sh then k + 1 else k, r ≠ 0)

/-- The pattern of the largest finite magnitude. -/
def FpFmt.maxFinite (f : FpFmt) : Nat :=
  if f.inf then (2 ^ f.eb - 1) * 2 ^ f.fb - 1 else 2 ^ (f.eb + f.fb) - 2

/-- The pattern of a signed infinity; the canonical NaN where the format has none (R190). -/
def FpFmt.infinity (f : FpFmt) (s : Bool) : Nat :=
  if f.inf then (2 ^ f.eb - 1) * 2 ^ f.fb + (if s then f.signBit else 0) else f.nan

/-- What an overflow gives: an infinity, the largest finite value (SAT of R190), or what IEEE 754 gives for the
rounding mode. -/
inductive OvfRule where
  | infinite | saturate | ieee
deriving DecidableEq, Repr

def FpFmt.overflowed (f : FpFmt) (ov : OvfRule) (rm : Rm) (s : Bool) : Nat :=
  let top := f.maxFinite + (if s then f.signBit else 0)
  match ov with
  | .infinite => f.infinity s
  | .saturate => top
  | .ieee => if rm = .rtz || (rm = .rdn && !s) || (rm = .rup && s) then top else f.infinity s

/-- (-1)^s × m × 2^e rounded once to a format, with its flags: OF and NX on overflow, UF when tiny after rounding and
inexact, NX when inexact (R185, R186). A zero m gives a zero of the sign. -/
def FpFmt.round (f : FpFmt) (rm : Rm) (ov : OvfRule) (s : Bool) (m : Nat) (e : Int) : Nat × Flags :=
  let sg := if s then f.signBit else 0
  if m = 0 then (sg, 0)
  else
    let top : Int := (Nat.log2 m : Int) + e
    let emin : Int := 1 - (f.bias : Int)
    let q : Int := max top emin - (f.fb : Int)
    let (k, nx) := quantise rm s m e q
    let tiny : Bool := decide (top < emin) &&
      decide ((quantise rm s m e (top - (f.fb : Int))).1 < 2 ^ (f.fb + 1) ∨ top + 1 < emin)
    let pat : Nat :=
      if k < 2 ^ f.fb then k else ((q - f.qmin).toNat + 1) * 2 ^ f.fb + (k - 2 ^ f.fb)
    if f.maxFinite < pat then (f.overflowed ov rm s, Flags.ovf ||| Flags.nx)
    else (sg + pat, (if nx then Flags.nx else 0) ||| (if tiny && nx then Flags.unf else 0))

/-- Rounding of an arithmetic result (R185): nearest-even, overflow to infinity. -/
def FpFmt.roundA (f : FpFmt) (s : Bool) (m : Nat) (e : Int) : Nat × Flags := f.round .rne .ieee s m e

/-- The canonical NaN with NV. -/
def FpFmt.invalid (f : FpFmt) : Nat × Flags := (f.nan, Flags.nv)

/-- NV when a value is a signalling NaN. -/
def Fp.snan : Fp → Flags
  | .nan true => Flags.nv
  | _ => 0

/-- The sign of a value. -/
def Fp.sign : Fp → Bool
  | .nan _ => false
  | .inf s => s
  | .fin s _ _ => s

/-- Whether a value is a NaN. -/
def Fp.isNan : Fp → Bool
  | .nan _ => true
  | _ => false

/-- The value with its sign inverted. -/
def Fp.negate : Fp → Fp
  | .nan b => .nan b
  | .inf s => .inf (!s)
  | .fin s m e => .fin (!s) m e

/-- A finite value as an integer in units of 2^q, for q at most its exponent. -/
def finAt (s : Bool) (m : Nat) (e q : Int) : Int :=
  let k : Int := ((m * 2 ^ (e - q).toNat : Nat) : Int)
  if s then -k else k

/-- An exact sum of terms with one rounding: infinities and NaNs as R186; an exact zero sum is -0 only when every term
is -0. Terms are exact products or values. -/
def FpFmt.sumOf (f : FpFmt) (ts : List Fp) : Nat × Flags :=
  let nv := ts.foldl (fun a t => a ||| t.snan) 0
  if ts.any Fp.isNan then (f.nan, nv)
  else
    let pos := ts.any (fun t => t = .inf false)
    let neg := ts.any (fun t => t = .inf true)
    if pos && neg then f.invalid
    else if pos then (f.infinity false, 0)
    else if neg then (f.infinity true, 0)
    else
      let q : Int := ts.foldl (fun a t => match t with | .fin _ _ e => min a e | _ => a) 0
      let k : Int := ts.foldl (fun a t => match t with | .fin s m e => a + finAt s m e q | _ => a) 0
      if k = 0 then f.roundA (ts.all Fp.sign) 0 0 else f.roundA (decide (k < 0)) k.natAbs q

/-- An exact product; 0 × ∞ is reported beside it (R186). -/
def Fp.mul (a b : Fp) : Fp × Flags :=
  match a, b with
  | .nan _, .nan _ => (.nan false, a.snan ||| b.snan)
  | .nan _, _ => (.nan false, a.snan)
  | _, .nan _ => (.nan false, b.snan)
  | .inf s, .inf t => (.inf (s ≠ t), 0)
  | .inf s, .fin t m _ => if m = 0 then (.nan false, Flags.nv) else (.inf (s ≠ t), 0)
  | .fin s m _, .inf t => if m = 0 then (.nan false, Flags.nv) else (.inf (s ≠ t), 0)
  | .fin s m e, .fin t n g => (.fin (s ≠ t) (m * n) (e + g), 0)

/-- A value rounded to a format. -/
def FpFmt.ofFp (f : FpFmt) (rm : Rm) (ov : OvfRule) (x : Fp) : Nat × Flags :=
  match x with
  | .nan b => (f.nan, if b then Flags.nv else 0)
  | .inf s => (f.infinity s, 0)
  | .fin s m e => f.round rm ov s m e

def fpAdd (f : FpFmt) (a b : Nat) : Nat × Flags := f.sumOf [f.decode a, f.decode b]
def fpSub (f : FpFmt) (a b : Nat) : Nat × Flags := f.sumOf [f.decode a, (f.decode b).negate]

def fpMul (f : FpFmt) (a b : Nat) : Nat × Flags :=
  let p := (f.decode a).mul (f.decode b)
  let r := f.ofFp .rne .ieee p.1
  (r.1, r.2 ||| p.2)

/-- Division (R186): a quotient with a sticky last bit, rounded once. -/
def fpDiv (f : FpFmt) (a b : Nat) : Nat × Flags :=
  match f.decode a, f.decode b with
  | .nan x, .nan y => (f.nan, if x || y then Flags.nv else 0)
  | .nan x, _ => (f.nan, if x then Flags.nv else 0)
  | _, .nan y => (f.nan, if y then Flags.nv else 0)
  | .inf _, .inf _ => f.invalid
  | .inf s, .fin t _ _ => (f.infinity (s ≠ t), 0)
  | .fin s _ _, .inf t => (if s ≠ t then f.signBit else 0, 0)
  | .fin s m e, .fin t n g =>
    if n = 0 then if m = 0 then f.invalid else (f.infinity (s ≠ t), Flags.dz)
    else if m = 0 then (if s ≠ t then f.signBit else 0, 0)
    else
      let k := 2 * f.fb + 8
      let num := m * 2 ^ k
      let q := num / n
      let st := if num % n = 0 then 0 else 1
      f.roundA (s ≠ t) (2 * q + st) (e - g - (k : Int) - 1)

/-- Square root (R186). -/
def fpSqrt (f : FpFmt) (a : Nat) : Nat × Flags :=
  match f.decode a with
  | .nan x => (f.nan, if x then Flags.nv else 0)
  | .inf s => if s then f.invalid else (f.infinity false, 0)
  | .fin s m e =>
    if m = 0 then (if s then f.signBit else 0, 0)
    else if s then f.invalid
    else
      let odd := e % 2 ≠ 0
      let m1 := if odd then 2 * m else m
      let e1 : Int := if odd then e - 1 else e
      let k := f.fb + 8
      let n := m1 * 2 ^ (2 * k)
      let r := Nat.sqrt n
      let st := if r * r = n then 0 else 1
      f.roundA false (2 * r + st) (e1 / 2 - (k : Int) - 1)

/-- a below b for values that are no NaN; -0 is below +0 when ordered is set (MIN and MAX of R186). -/
def fpLt (zeros : Bool) (a b : Fp) : Bool :=
  match a, b with
  | .nan _, _ => false
  | _, .nan _ => false
  | .inf s, .inf t => s && !t
  | .inf s, .fin _ _ _ => s
  | .fin _ _ _, .inf t => !t
  | .fin s m e, .fin t n g =>
    let q := min e g
    let x := finAt s m e q
    let y := finAt t n g q
    decide (x < y) || (zeros && x = 0 && y = 0 && s && !t)

/-- minimumNumber or maximumNumber of IEEE 754-2019 (R176, R186). -/
def fpMinMax (f : FpFmt) (isMax : Bool) (a b : Nat) : Nat × Flags :=
  let x := f.decode a
  let y := f.decode b
  let nv := x.snan ||| y.snan
  if x.isNan && y.isNan then (f.nan, nv)
  else if x.isNan then (b, nv)
  else if y.isNan then (a, nv)
  else if isMax then (if fpLt true x y then b else a, nv) else (if fpLt true y x then b else a, nv)

/-- Round to integral in a rounding mode, NX never set (R176). -/
def fpRint (f : FpFmt) (rm : Rm) (a : Nat) : Nat × Flags :=
  match f.decode a with
  | .nan x => (f.nan, if x then Flags.nv else 0)
  | .inf s => (f.infinity s, 0)
  | .fin s m e => ((f.roundA s (quantise rm s m e 0).1 0).1, 0)

/-- Fused multiply-add (R181): ± a × b ± c, one rounding. -/
def fpFma (f : FpFmt) (negP negC : Bool) (a b c : Nat) : Nat × Flags :=
  let p := (f.decode a).mul (f.decode b)
  let c := f.decode c
  let r := f.sumOf [if negP then p.1.negate else p.1, if negC then c.negate else c]
  (r.1, r.2 ||| p.2)

/-- A float as an integer in [lo, hi] (R190): a NaN gives 0, a value out of range the nearest bound; both set NV. -/
def fpToInt (f : FpFmt) (rm : Rm) (lo hi : Int) (a : Nat) : Int × Flags :=
  match f.decode a with
  | .nan _ => (0, Flags.nv)
  | .inf s => (if s then lo else hi, Flags.nv)
  | .fin s m e =>
    let (k, nx) := quantise rm s m e 0
    let x : Int := if s then -(k : Int) else (k : Int)
    if x < lo then (lo, Flags.nv) else if hi < x then (hi, Flags.nv)
    else (x, if nx then Flags.nx else 0)

/-- An integer as a float (R190). -/
def fpOfInt (f : FpFmt) (rm : Rm) (x : Int) : Nat × Flags := f.round rm .ieee (decide (x < 0)) x.natAbs 0

/-- A float as another float (R190). With SAT, a finite overflow and, for a format without infinities, an infinite
input give the largest finite value of the sign. -/
def fpToFp (f t : FpFmt) (rm : Rm) (sat : Bool) (a : Nat) : Nat × Flags :=
  match f.decode a with
  | .nan b => (t.nan, if b then Flags.nv else 0)
  | .inf s => if sat && !t.inf then (t.overflowed .saturate rm s, 0) else (t.infinity s, 0)
  | .fin s m e => t.round rm (if sat then .saturate else .infinite) s m e

end Sys2Proof.Machine
end

