-- ==== Sys2Proof/Machine/Cbor.lean ====
section
/-!
DEFINITION. CBOR as the module reads it (09 R319, R320, R332; RFC 8949), and the record map.
-/
namespace Sys2Proof.Machine

/-- A data item: major type, depth (the arrays and maps around it), FLAGS (bit 0 indefinite, bit 1 tagged), length or count,
value, the bytes of a string, and whether a map holds a key twice. -/
structure CborItem where
  major : Nat
  depth : Nat
  flags : Nat
  count : Nat
  value : Nat
  str : List Byte
  dup : Bool
deriving DecidableEq, Repr

/-- The argument of a head at byte p with additional information ai (RFC 8949, 3), and the byte after it. -/
def cborArg (a : Array Byte) (p ai : Nat) : Option (Nat × Nat) :=
  if ai < 24 then some (ai, p + 1)
  else if 27 < ai then none
  else
    let n := 2 ^ (ai - 24)
    if a.size < p + 1 + n then none else some (ofBe (a.extract (p + 1) (p + 1 + n)).toList, p + 1 + n)

/-- The chunks of a string of indefinite length up to its break; fuel bounds them. -/
def cborChunks (a : Array Byte) (major : Nat) : Nat → Nat → List Byte → Option (List Byte × Nat)
  | 0, _, _ => none
  | f + 1, p, s =>
    let b := (a.getD p 0).toNat
    if a.size ≤ p then none
    else if b = 0xFF then some (s, p + 1)
    else if b / 32 ≠ major then none
    else
      match cborArg a p (b % 32) with
      | none => none
      | some (n, q) => if a.size < q + n then none else cborChunks a major f (q + n) (s ++ (a.extract q (q + n)).toList)

/-- Double precision, in which floats of every width are compared. -/
def fp64 : FpFmt := ⟨11, 52, 1023, true, 0x7FF8000000000000⟩

/-- What an item means, with the width of its encoding left out: two keys are the same when all their items are. -/
def CborItem.key (c : CborItem) : Nat × Nat × Nat × List Byte :=
  let v := if c.major ≠ 7 then c.value
    else if c.count = 2 then (fpToFp fp16 fp64 .rne false c.value).1 + 256
    else if c.count = 4 then (fpToFp fp32 fp64 .rne false c.value).1 + 256
    else if c.count = 8 then c.value + 256 else c.value
  (c.major, if c.major = 7 then 0 else c.count, v, c.str)

/-- Every second element, from the first on. -/
def evens {α : Type} : List α → List α
  | [] => []
  | [x] => [x]
  | x :: _ :: r => x :: evens r

/-- The nodes of a map hold a key twice. -/
def keyTwice (ns : List (List CborItem)) : Bool := !decide (((evens ns).map (fun k => k.map CborItem.key)).Nodup)

/-- Items from byte p on at a depth: so many, or up to a break. Each node is an item with everything inside it, in
encoding order. Fuel bounds the steps. -/
def cborNodes (a : Array Byte) : Nat → Nat → Nat → Option Nat → List CborItem → List (List CborItem) → Option (List (List CborItem) × Nat)
  | 0, _, _, _, _, _ => none
  | f + 1, p, depth, want, tags, done =>
    if want = some 0 then some (done, p)
    else if a.size ≤ p then none
    else
      let b := (a.getD p 0).toNat
      let major := b / 32
      let ai := b % 32
      let flag := if tags.isEmpty then 0 else 2
      let next (it : List CborItem) (q : Nat) : Option (List (List CborItem) × Nat) :=
        cborNodes a f q depth (want.map (fun n => n - 1)) [] (done ++ [tags ++ it])
      if b = 0xFF then (if want.isNone && tags.isEmpty then some (done, p + 1) else none)
      else if 32 < depth then none
      else if ai = 31 then
        if major = 2 || major = 3 then
          match cborChunks a major (a.size + 1) (p + 1) [] with
          | some (s, q) => next [⟨major, depth, flag + 1, s.length, 0, s, false⟩] q
          | none => none
        else if major = 4 || major = 5 then
          match cborNodes a f (p + 1) (depth + 1) none [] [] with
          | some (ns, q) =>
            let n := if major = 4 then ns.length else ns.length / 2
            if major = 5 && ns.length % 2 = 1 then none
            else next (⟨major, depth, flag + 1, n, 0, [], major = 5 && keyTwice ns⟩ :: ns.flatten) q
          | none => none
        else none
      else
        match cborArg a p ai with
        | none => none
        | some (n, q) =>
          match major with
          | 0 => next [⟨0, depth, flag, 0, n, [], false⟩] q
          | 1 => next [⟨1, depth, flag, 0, n, [], false⟩] q
          | 2 => if a.size < q + n then none else next [⟨2, depth, flag, n, 0, (a.extract q (q + n)).toList, false⟩] (q + n)
          | 3 => if a.size < q + n then none else next [⟨3, depth, flag, n, 0, (a.extract q (q + n)).toList, false⟩] (q + n)
          | 4 =>
            match cborNodes a f q (depth + 1) (some n) [] [] with
            | some (ns, q) => next (⟨4, depth, flag, n, 0, [], false⟩ :: ns.flatten) q
            | none => none
          | 5 =>
            match cborNodes a f q (depth + 1) (some (2 * n)) [] [] with
            | some (ns, q) => next (⟨5, depth, flag, n, 0, [], keyTwice ns⟩ :: ns.flatten) q
            | none => none
          | 6 => cborNodes a f q depth want (tags ++ [⟨6, depth, flag, 1, n, [], false⟩]) done
          | _ =>
            if ai = 24 && n < 32 then none
            else next [⟨7, depth, flag, if 25 ≤ ai then 2 ^ (ai - 24) else 0, n, [], false⟩] q

/-- One data item that takes up all the bytes, of at most 2^20 items (R319, R332). -/
def cborParse (l : List Byte) : Option (List CborItem) :=
  match cborNodes l.toArray (2 * l.length + 2) 0 0 (some 1) [] [] with
  | some ([n], q) => if q = l.length && n.length ≤ 2 ^ 20 then some n else none
  | _ => none

/-- The nodes inside the first item of a node: each with everything inside it. -/
def cborSplit (depth : Nat) : List CborItem → List (List CborItem)
  | [] => []
  | c :: r =>
    match cborSplit depth r with
    | [] => [[c]]
    | n :: ns =>
      -- an item one level below its container, that carries no tag already begun, starts a node
      if (n.headD c).depth = depth && (n.headD c).flags / 2 % 2 = 0 then [c] :: n :: ns else (c :: n) :: ns

/-! ### The record map (R319) -/

/-- The record of a plain body: content type, payload, and shape and element type of a TENSOR. -/
structure RecordMap where
  typ : Nat
  payload : List CborItem
  shape : List Nat
  elem : Nat
deriving DecidableEq, Repr

/-- The value of an untagged unsigned integer. -/
def cborNat : List CborItem → Option Nat
  | [c] => if c.major = 0 then some c.value else none
  | _ => none

/-- Keys and values of a map's nodes. -/
def cborPairs : List (List CborItem) → List (List CborItem × List CborItem)
  | k :: v :: r => (k, v) :: cborPairs r
  | _ => []

/-- The value under a key. -/
def cborValue (ps : List (Nat × List CborItem)) (k : Nat) : Option (List CborItem) := (ps.find? (fun p => p.1 = k)).map (fun p => p.2)

/-- The record map: keys, required entries and their types. -/
def recordMap (l : List Byte) : Option RecordMap := do
  let items ← cborParse l
  match items with
  | [] => none
  | top :: inner =>
    if top.major ≠ 5 || top.flags ≠ 0 || top.dup then none
    else
      let ps ← (cborPairs (cborSplit 1 inner)).mapM (fun p => (cborNat p.1).map (fun k => (k, p.2)))
      let nameOk := match cborValue ps 0 with
        | none => true
        | some [c] => (c.major = 2 || c.major = 3) && c.str.length ≤ 256
        | some _ => false
      let typ ← (cborValue ps 1).bind cborNat
      let payload ← cborValue ps 2
      let payloadOk := match typ, payload with
        | 5, _ => true
        | 4, [c] => c.major = 3
        | _, [c] => c.major = 2
        | _, _ => false
      let shape := match cborValue ps 4 with
        | some (c :: r) => if c.major = 4 && c.count = r.length then r.mapM (fun x => cborNat [x]) else none
        | _ => none
      let elem := (cborValue ps 5).bind cborNat
      if typ < 1 || 5 < typ || !nameOk || !payloadOk || ps.any (fun p => 6 ≤ p.1 && p.1 ≤ 15) then none
      else if typ = 3 then
        match shape, elem with
        | some sh, some e => if 1 ≤ sh.length && sh.length ≤ 4 then some ⟨typ, payload, sh, e⟩ else none
        | _, _ => none
      else some ⟨typ, payload, [], 0⟩

end Sys2Proof.Machine
end

