-- ==== Sys2Proof/Machine/CheckVals.lean ====
section
/-!
DEFINITION. The frame check values of the compression formats (10_compression_and_sealed_data.md R352): Adler-32, CRC-32,
XXH32 and XXH64 with seed 0.
-/
namespace Sys2Proof.Machine

/-- Adler-32 (RFC 1950): two sums modulo 65,521. -/
def adler32 (l : List Byte) : Nat :=
  let s := l.foldl (fun (s : Nat × Nat) b => let a := (s.1 + b.toNat) % 65521; (a, (s.2 + a) % 65521)) (1, 0)
  s.2 * 65536 + s.1

/-- One byte of CRC-32 (RFC 1952), least significant bit first. -/
def crc32Byte (c : U32) (b : Byte) : U32 :=
  (List.range 8).foldl (fun c _ => if c.getLsbD 0 then (c >>> 1) ^^^ 0xEDB88320#32 else c >>> 1) (c ^^^ b.setWidth 32)

/-- CRC-32 of RFC 1952 and of PNG chunks. -/
def crc32 (l : List Byte) : Nat := (~~~ (l.foldl crc32Byte 0xFFFFFFFF#32)).toNat

/-! ### XXH32 and XXH64 -/

def xxP32 : List U32 := [2654435761, 2246822519, 3266489917, 668265263, 374761393]
def xxP64 : List U64 := [11400714785074694791, 14029467366897019727, 1609587929392839161, 9650029242287828579, 2870177450012600261]
def xx32 (i : Nat) : U32 := xxP32.getD (i - 1) 0
def xx64 (i : Nat) : U64 := xxP64.getD (i - 1) 0

def xxh32Round (a w : U32) : U32 := (a + w * xx32 2).rotateLeft 13 * xx32 1

/-- The four accumulators over the whole 16-byte stripes; fuel counts them. -/
def xxh32Stripes : Nat → List Byte → List U32 → List U32
  | 0, _, as => as
  | n + 1, l, as => xxh32Stripes n (l.drop 16) (as.zipIdx.map (fun p => xxh32Round p.1 (BitVec.ofNat 32 (ofLe ((l.drop (4 * p.2)).take 4)))))

/-- The bytes after the last stripe: words of 4, then single bytes; fuel counts the bytes. -/
def xxh32Tail : Nat → List Byte → U32 → U32
  | 0, _, h => h
  | n + 1, l, h =>
    match l with
    | [] => h
    | b :: r =>
      if 4 ≤ l.length then xxh32Tail n (l.drop 4) ((h + BitVec.ofNat 32 (ofLe (l.take 4)) * xx32 3).rotateLeft 17 * xx32 4)
      else xxh32Tail n r ((h + b.setWidth 32 * xx32 5).rotateLeft 11 * xx32 1)

/-- XXH32 with seed 0. -/
def xxh32 (l : List Byte) : Nat :=
  let n := l.length / 16
  let as := xxh32Stripes n l [xx32 1 + xx32 2, xx32 2, 0, 0 - xx32 1]
  let rot : List Nat := [1, 7, 12, 18]
  let h := if n = 0 then xx32 5 else (as.zip rot).foldl (fun h p => h + p.1.rotateLeft p.2) 0
  let h := xxh32Tail l.length (l.drop (16 * n)) (h + BitVec.ofNat 32 l.length)
  let h := (h ^^^ (h >>> 15)) * xx32 2
  let h := (h ^^^ (h >>> 13)) * xx32 3
  (h ^^^ (h >>> 16)).toNat

def xxh64Round (a w : U64) : U64 := (a + w * xx64 2).rotateLeft 31 * xx64 1

def xxh64Stripes : Nat → List Byte → List U64 → List U64
  | 0, _, as => as
  | n + 1, l, as => xxh64Stripes n (l.drop 32) (as.zipIdx.map (fun p => xxh64Round p.1 (BitVec.ofNat 64 (ofLe ((l.drop (8 * p.2)).take 8)))))

def xxh64Tail : Nat → List Byte → U64 → U64
  | 0, _, h => h
  | n + 1, l, h =>
    match l with
    | [] => h
    | b :: r =>
      if 8 ≤ l.length then
        xxh64Tail n (l.drop 8) ((h ^^^ xxh64Round 0 (BitVec.ofNat 64 (ofLe (l.take 8)))).rotateLeft 27 * xx64 1 + xx64 4)
      else if 4 ≤ l.length then
        xxh64Tail n (l.drop 4) ((h ^^^ (BitVec.ofNat 64 (ofLe (l.take 4)) * xx64 1)).rotateLeft 23 * xx64 2 + xx64 3)
      else xxh64Tail n r ((h ^^^ (b.setWidth 64 * xx64 5)).rotateLeft 11 * xx64 1)

/-- XXH64 with seed 0. -/
def xxh64 (l : List Byte) : Nat :=
  let n := l.length / 32
  let as := xxh64Stripes n l [xx64 1 + xx64 2, xx64 2, 0, 0 - xx64 1]
  let rot : List Nat := [1, 7, 12, 18]
  let h := if n = 0 then xx64 5
    else as.foldl (fun h a => (h ^^^ xxh64Round 0 a) * xx64 1 + xx64 4) ((as.zip rot).foldl (fun h p => h + p.1.rotateLeft p.2) 0)
  let h := xxh64Tail l.length (l.drop (32 * n)) (h + BitVec.ofNat 64 l.length)
  let h := (h ^^^ (h >>> 33)) * xx64 2
  let h := (h ^^^ (h >>> 29)) * xx64 3
  (h ^^^ (h >>> 32)).toNat

end Sys2Proof.Machine
end

