-- ==== Sys2Proof/Machine/Inflate.lean ====
section
/-!
DEFINITION. The shipped decompressors of DEFLATE, zlib and gzip (10 R352, R353, R355; RFC 1951, RFC 1950, RFC 1952).
-/
namespace Sys2Proof.Machine

/-- A decompressed frame: its output, whether it carries a frame check value (R355), and the bytes that follow it. -/
structure FrameOut where
  out : List Byte
  checked : Bool
  rest : List Byte
deriving DecidableEq, Repr

/-- Bit p of some bytes, the least significant bit of the first byte being bit 0. -/
def bitLe (a : Array Byte) (p : Nat) : Nat := boolBit ((a.getD (p / 8) 0).getLsbD (p % 8))

/-- n bits from bit p on, least significant first; none past the end. -/
def bitsLe (a : Array Byte) (p n : Nat) : Option Nat :=
  if p + n ≤ 8 * a.size then some ((List.range n).foldl (fun s i => s + bitLe a (p + i) * 2 ^ i) 0) else none

/-! ### Prefix codes (RFC 1951, 3.2.2) -/

/-- A canonical prefix code: how many codes each length has, and the symbols in the order of their codes. -/
structure PrefixCode where
  counts : List Nat
  syms : List Nat
deriving DecidableEq, Repr

/-- The code that a list of code lengths gives; length 0 means no code. -/
def prefixCode (top : Nat) (lens : List Nat) : PrefixCode :=
  let at_ (n : Nat) : List Nat := (lens.zipIdx.filter (fun p => p.1 = n)).map (fun p => p.2)
  let ls := (List.range top).map (fun n => at_ (n + 1))
  ⟨ls.map List.length, ls.flatten⟩

/-- Codes left over after every length has taken its own; negative for an over-subscribed set. -/
def PrefixCode.left (c : PrefixCode) : Int := c.counts.foldl (fun (s : Int) n => 2 * s - (n : Int)) 1

/-- A set of lengths that DEFLATE allows: complete, or at most one code, of length 1. -/
def PrefixCode.ok (c : PrefixCode) : Bool := c.left = 0 || (0 < c.left && (c.syms.length = 0 || (c.syms.length = 1 && c.counts.headD 0 = 1)))

/-- Read a symbol bit by bit: code so far, first code and first index of this length. -/
def PrefixCode.read (bit : Nat → Option Nat) (syms : List Nat) : List Nat → Nat → Nat → Nat → Nat → Option (Nat × Nat)
  | [], _, _, _, _ => none
  | n :: ns, p, code, first, index =>
    match bit p with
    | none => none
    | some b =>
      let code := 2 * code + b
      if code < first + n then some (syms.getD (index + (code - first)) 0, p + 1)
      else PrefixCode.read bit syms ns (p + 1) code (2 * (first + n)) (index + n)

/-- The symbol whose code starts at bit p, and the bit after it. -/
def PrefixCode.symbol (c : PrefixCode) (a : Array Byte) (p : Nat) : Option (Nat × Nat) :=
  PrefixCode.read (fun p => bitsLe a p 1) c.syms c.counts p 0 0 0

/-! ### DEFLATE (RFC 1951) -/

def lenBase : List Nat := [3, 4, 5, 6, 7, 8, 9, 10, 11, 13, 15, 17, 19, 23, 27, 31, 35, 43, 51, 59, 67, 83, 99, 115, 131, 163, 195, 227, 258]
def lenExtra : List Nat := [0, 0, 0, 0, 0, 0, 0, 0, 1, 1, 1, 1, 2, 2, 2, 2, 3, 3, 3, 3, 4, 4, 4, 4, 5, 5, 5, 5, 0]
def distBase : List Nat := [1, 2, 3, 4, 5, 7, 9, 13, 17, 25, 33, 49, 65, 97, 129, 193, 257, 385, 513, 769, 1025, 1537, 2049, 3073, 4097,
  6145, 8193, 12289, 16385, 24577]
def distExtra : List Nat := [0, 0, 0, 0, 1, 1, 2, 2, 3, 3, 4, 4, 5, 5, 6, 6, 7, 7, 8, 8, 9, 9, 10, 10, 11, 11, 12, 12, 13, 13]
def lenOrder : List Nat := [16, 17, 18, 0, 8, 7, 9, 6, 10, 5, 11, 4, 12, 3, 13, 2, 14, 1, 15]

/-- n bytes copied from d bytes back; the copy may overlap what it writes. -/
def copyBack (d : Nat) : Nat → Array Byte → Array Byte
  | 0, o => o
  | n + 1, o => copyBack d n (o.push (o.getD (o.size - d) 0))

/-- The symbols of a block up to its end; fuel bounds them, base is the first output byte of the stream. -/
def inflateCodes (a : Array Byte) (lit dist : PrefixCode) (base lim : Nat) : Nat → Nat → Array Byte → Option (Nat × Array Byte)
  | 0, _, _ => none
  | f + 1, p, o => do
    let (s, p) ← lit.symbol a p
    if s < 256 then (if lim ≤ o.size then none else inflateCodes a lit dist base lim f p (o.push (BitVec.ofNat 8 s)))
    else if s = 256 then some (p, o)
    else if 285 < s then none
    else
      let e := lenExtra.getD (s - 257) 0
      let x ← bitsLe a p e
      let n := lenBase.getD (s - 257) 0 + x
      let (ds, p) ← dist.symbol a (p + e)
      if 29 < ds then none
      else
        let de := distExtra.getD ds 0
        let y ← bitsLe a p de
        let d := distBase.getD ds 0 + y
        if o.size - base < d || lim < o.size + n then none else inflateCodes a lit dist base lim f (p + de) (copyBack d n o)

/-- The code lengths of a dynamic block, run lengths expanded; fuel bounds the symbols. -/
def readLengths (a : Array Byte) (c : PrefixCode) (n : Nat) : Nat → Nat → List Nat → Option (Nat × List Nat)
  | 0, _, _ => none
  | f + 1, p, ls =>
    if ls.length = n then some (p, ls)
    else if n < ls.length then none
    else do
      let (s, p) ← c.symbol a p
      if s < 16 then readLengths a c n f p (ls ++ [s])
      else if s = 16 then
        let x ← bitsLe a p 2
        let last ← ls.getLast?
        readLengths a c n f (p + 2) (ls ++ List.replicate (3 + x) last)
      else if s = 17 then
        let x ← bitsLe a p 3
        readLengths a c n f (p + 3) (ls ++ List.replicate (3 + x) 0)
      else
        let x ← bitsLe a p 7
        readLengths a c n f (p + 7) (ls ++ List.replicate (11 + x) 0)

/-- The codes of a fixed block. -/
def fixedLit : PrefixCode :=
  prefixCode 15 (List.replicate 144 8 ++ List.replicate 112 9 ++ List.replicate 24 7 ++ List.replicate 8 8)
def fixedDist : PrefixCode := prefixCode 15 (List.replicate 30 5)

/-- The codes of a dynamic block, whose header starts at bit p. -/
def dynamicCodes (a : Array Byte) (p : Nat) : Option (Nat × PrefixCode × PrefixCode) := do
  let hlit ← bitsLe a p 5
  let hdist ← bitsLe a (p + 5) 5
  let hclen ← bitsLe a (p + 10) 4
  let raw ← (List.range (hclen + 4)).mapM (fun i => bitsLe a (p + 14 + 3 * i) 3)
  let c := prefixCode 7 ((List.range 19).map (fun s => raw.getD (lenOrder.idxOf s) 0))
  let nl := hlit + 257
  let nd := hdist + 1
  if 286 < nl || 30 < nd || c.left ≠ 0 then none
  else
    let (p, ls) ← readLengths a c (nl + nd) (nl + nd + 1) (p + 14 + 3 * (hclen + 4)) []
    let lit := prefixCode 15 (ls.take nl)
    let dist := prefixCode 15 (ls.drop nl)
    if ls.getD 256 0 = 0 || !lit.ok || !dist.ok then none else some (p, lit, dist)

/-- The blocks of a stream that starts at bit p; the bit after the last, and the output. -/
def inflateBlocks (a : Array Byte) (base lim : Nat) : Nat → Nat → Array Byte → Option (Nat × Array Byte)
  | 0, _, _ => none
  | f + 1, p, o => do
    let last ← bitsLe a p 1
    let kind ← bitsLe a (p + 1) 2
    let p := p + 3
    let (p, o) ← (match kind with
      | 0 => do
        let q := (p + 7) / 8
        let n ← bitsLe a (8 * q) 16
        let c ← bitsLe a (8 * q + 16) 16
        if n + c ≠ 65535 || a.size < q + 4 + n || lim < o.size + n then none
        else some (8 * (q + 4 + n), o ++ a.extract (q + 4) (q + 4 + n))
      | 1 => inflateCodes a fixedLit fixedDist base lim (8 * a.size + 1) p o
      | 2 => do
        let (p, lit, dist) ← dynamicCodes a p
        inflateCodes a lit dist base lim (8 * a.size + 1) p o
      | _ => none)
    if last = 1 then some (p, o) else inflateBlocks a base lim f p o

/-- A raw DEFLATE stream at the head of some bytes: its output, at most lim bytes, and the bytes after it. -/
def inflate (lim : Nat) (l : List Byte) : Option (List Byte × List Byte) :=
  let a := l.toArray
  match inflateBlocks a 0 lim (8 * a.size + 1) 0 #[] with
  | some (p, o) => some (o.toList, l.drop ((p + 7) / 8))
  | none => none

/-- A raw DEFLATE stream; it has no frame check value. -/
def deflateFrame (lim : Nat) (l : List Byte) : Option FrameOut :=
  (inflate lim l).map (fun r => ⟨r.1, false, r.2⟩)

/-- A zlib stream (RFC 1950): CM 8 with CINFO up to 7, FCHECK, no dictionary, Adler-32. -/
def zlibFrame (lim : Nat) (l : List Byte) : Option FrameOut := do
  let cmf := leAt l 0 1
  let flg := leAt l 1 1
  if l.length < 2 || cmf % 16 ≠ 8 || 7 < cmf / 16 || (cmf * 256 + flg) % 31 ≠ 0 || bitAt flg 5 then none
  else
    let (o, r) ← inflate lim (l.drop 2)
    if r.length < 4 || ofBe (r.take 4) ≠ adler32 o then none else some ⟨o, true, r.drop 4⟩

/-- A zero-terminated string skipped. -/
def skipZ (l : List Byte) : Option (List Byte) :=
  match l.dropWhile (fun b => b ≠ 0) with
  | [] => none
  | _ :: r => some r

/-- The header of a gzip member (RFC 1952): the bytes after it. -/
def gzipHeader (l : List Byte) : Option (List Byte) := do
  let flg := leAt l 3 1
  if l.length < 10 || leAt l 0 2 ≠ 0x8B1F || leAt l 2 1 ≠ 8 || 32 ≤ flg then none
  else
    let r := l.drop 10
    let r ← if bitAt flg 2 then (if r.length < 2 + leAt r 0 2 then none else some (r.drop (2 + leAt r 0 2))) else some r
    let r ← if bitAt flg 3 then skipZ r else some r
    let r ← if bitAt flg 4 then skipZ r else some r
    if bitAt flg 1 then
      (if r.length < 2 || leAt r 0 2 ≠ crc32 (l.take (l.length - r.length)) % 2 ^ 16 then none else some (r.drop 2))
    else some r

/-- A gzip member: CRC-32 and ISIZE of its output. -/
def gzipFrame (lim : Nat) (l : List Byte) : Option FrameOut := do
  let r ← gzipHeader l
  let (o, r) ← inflate lim r
  if r.length < 8 || leAt r 0 4 ≠ crc32 o || leAt r 4 4 ≠ o.length % 2 ^ 32 then none else some ⟨o, true, r.drop 8⟩

end Sys2Proof.Machine
end

