-- ==== Sys2Proof/Machine/Operands.lean ====
section
/-!
DEFINITION. Operand forms of the tile (05 R160, R166, R173, R174): the scalar, vector and predicate registers, lanes,
and the predicate that governs them.
-/
namespace Sys2Proof.Machine

/-! ### Registers -/

/-- A g register; g0 reads 0 (R160). -/
def Tile.gr (t : Tile) (r : GReg) : U64 := if r = 0 then 0 else t.g[r]

/-- The tile with a g register written; a write of g0 is discarded (R160). -/
def Tile.setG (t : Tile) (r : GReg) (x : U64) : Tile := if r = 0 then t else { t with g := t.g.set r x }

/-- A predicate register; p0 reads all ones (R160). -/
def Tile.pr (t : Tile) (r : PReg) : U64 := if r = 0 then BitVec.allOnes 64 else t.p[r]

/-- The tile with a predicate register written; a write of p0 is discarded (R160). -/
def Tile.setP (t : Tile) (r : PReg) (x : U64) : Tile := if r = 0 then t else { t with p := t.p.set r x }

/-- A vector register. -/
def Tile.vr (t : Tile) (r : VReg) : V512 := t.v[r]

/-- The tile with a vector register written. -/
def Tile.setV (t : Tile) (r : VReg) (x : V512) : Tile := { t with v := t.v.set r x }

/-- The tile with flags added to FSTAT (R163). -/
def Tile.addFlags (t : Tile) (f : Flags) : Tile := { t with fstat := (t.fstat ||| f) % 64 }

/-! ### Lanes -/

/-- Lane i of an element width, as a number (R160). -/
def laneOf (w : Nat) (v : V512) (i : Nat) : Nat := v.toNat / 2 ^ (w * i) % 2 ^ w

/-- The vector whose lane i is given by a function, for the lanes of a width. -/
def ofLanes (w : Nat) (f : Nat → Nat) : V512 :=
  BitVec.ofNat 512 (((List.range (512 / w)).map (fun i => f i % 2 ^ w * 2 ^ (w * i))).sum)

/-- Element width of a TYPE in bits (R173). -/
def typeWidth (ty : Fin 8) : Nat :=
  match ty.val with
  | 0 => 32 | 1 => 16 | 2 => 16 | 3 => 8 | 4 => 8 | 5 => 8 | 6 => 16
  | _ => 32

/-- The floating-point format of a TYPE, FP8 included (R173). -/
def typeFmt (ty : Fin 8) : Option FpFmt :=
  match ty.val with
  | 0 => some fp32 | 1 => some fp16 | 2 => some bf16 | 3 => some fpE4M3 | 4 => some fpE5M2
  | _ => none

/-- The format of a TYPE that arithmetic accepts (R185). -/
def arithFmt (ty : Fin 8) : Option FpFmt :=
  match ty.val with
  | 0 => some fp32 | 1 => some fp16 | 2 => some bf16
  | _ => none

/-- A TYPE is INT8, INT16 or INT32. -/
def isIntType (ty : Fin 8) : Bool := 5 ≤ ty.val

/-- A TYPE is FP8. -/
def isFp8 (ty : Fin 8) : Bool := ty.val = 3 || ty.val = 4

/-- Lane k is active (R174). -/
def laneOn (p : U64) (pn : Bool) (k : Nat) : Bool := p.getLsbD k ≠ pn

/-- The lanes of a width with the active ones replaced; inactive lanes keep their value (R174). -/
def mergeLanes (w : Nat) (p : U64) (pn : Bool) (old : V512) (f : Nat → Nat) : V512 :=
  ofLanes w (fun i => if laneOn p pn i then f i else laneOf w old i)

/-- The flags of the active lanes together. -/
def laneFlags (n : Nat) (p : U64) (pn : Bool) (f : Nat → Flags) : Flags :=
  (List.range n).foldl (fun a i => if laneOn p pn i then a ||| f i else a) 0

/-- The bytes of a vector register, byte 0 first (R160). -/
def vecBytes (v : V512) : List Byte := (List.range 64).map (fun i => BitVec.ofNat 8 (laneOf 8 v i))

/-- The vector of 64 bytes. -/
def vecOfBytes (l : List Byte) : V512 := BitVec.ofNat 512 (ofLe (sliceBytes l 0 64))

end Sys2Proof.Machine
end

