-- ==== Sys2Proof/Machine/VectorOps.lean ====
section
/-!
DEFINITION. The vector operations on registers alone (05 R176 to R198): what each does to the tile's vector and
predicate registers and to FSTAT.
-/
namespace Sys2Proof.Machine

/-! ### Lane functions -/

/-- A VFP operation on two lanes of a format (R176). -/
def fpLane (op : FpOp) (f : FpFmt) (a b : Nat) : Nat × Flags :=
  match op with
  | .add => fpAdd f a b
  | .sub => fpSub f a b
  | .mul => fpMul f a b
  | .div => fpDiv f a b
  | .sqrt => fpSqrt f a
  | .min => fpMinMax f false a b
  | .max => fpMinMax f true a b
  | .abs => (a % f.signBit, 0)
  | .neg => (if a < f.signBit then a + f.signBit else a - f.signBit, 0)
  | .floor => fpRint f .rdn a
  | .ceil => fpRint f .rup a
  | .trunc => fpRint f .rtz a
  | .rint => fpRint f .rne a

/-- An integer clamped to [lo, hi], with SAT when it was outside. -/
def clampInt (lo hi x : Int) : Int × Flags :=
  if x < lo then (lo, Flags.sat) else if hi < x then (hi, Flags.sat) else (x, 0)

/-- A VINT operation on lanes of w bits; d is the old lane of vd (R176). -/
def intLane (op : IntOp) (w d a b : Nat) : Nat × Flags :=
  let sa := signedOf w a
  let sb := signedOf w b
  let lo : Int := -(2 ^ (w - 1) : Int)
  let hi : Int := 2 ^ (w - 1) - 1
  let um : Int := 2 ^ w - 1
  let sat (l h x : Int) : Nat × Flags := ((unsignedOf w (clampInt l h x).1), (clampInt l h x).2)
  match op with
  | .add => ((a + b) % 2 ^ w, 0)
  | .sub => (unsignedOf w ((a : Int) - b), 0)
  | .adds => sat lo hi (sa + sb)
  | .addus => sat 0 um ((a : Int) + b)
  | .subs => sat lo hi (sa - sb)
  | .subus => sat 0 um ((a : Int) - b)
  | .mul => (a * b % 2 ^ w, 0)
  | .madd => ((d + a * b) % 2 ^ w, 0)
  | .min => (if sa ≤ sb then a else b, 0)
  | .max => (if sa ≤ sb then b else a, 0)
  | .minu => (min a b, 0)
  | .maxu => (max a b, 0)
  | .mulhs => (unsignedOf w ((sa * sb) / (2 ^ w : Int)), 0)
  | .mulhu => (a * b / 2 ^ w, 0)
  | .absdiffu => (if a ≤ b then b - a else a - b, 0)

/-- A VBIT operation on lanes of w bits; n is the value of the vs2 field (R176). -/
def bitLane (op : BitOp) (w n a b : Nat) : Nat :=
  match op with
  | .and => a &&& b
  | .or => a ||| b
  | .xor => a ^^^ b
  | .andn => a &&& (b ^^^ (2 ^ w - 1))
  | .shl => a * 2 ^ (b % w) % 2 ^ w
  | .shr => a / 2 ^ (b % w)
  | .sar => unsignedOf w (signedOf w a / (2 ^ (b % w) : Int))
  | .shli => a * 2 ^ (n % w) % 2 ^ w
  | .shri => a / 2 ^ (n % w)
  | .sari => unsignedOf w (signedOf w a / (2 ^ (n % w) : Int))
  | .abs => unsignedOf w (if signedOf w a < 0 then -(signedOf w a) else signedOf w a)
  | .avgu => (a + b + 1) / 2

/-- A VCMP operation on lanes of a TYPE (R177). -/
def cmpLane (op : CmpOp) (ty : Fin 8) (a b : Nat) : Bool × Flags :=
  let w := typeWidth ty
  match arithFmt ty with
  | some f =>
    let x := f.decode a
    let y := f.decode b
    let nv := x.snan ||| y.snan
    let un := x.isNan || y.isNan
    let lt := fpLt false x y
    let gt := fpLt false y x
    match op with
    | .eq => (!un && !lt && !gt, nv)
    | .ne => (un || lt || gt, nv)
    | .lt => (lt, nv)
    | .le => (!un && !gt, nv)
    | .unord => (un, nv)
    | .ltu => (false, nv)
    | .leu => (false, nv)
  | none =>
    match op with
    | .eq => (a = b, 0)
    | .ne => (a ≠ b, 0)
    | .lt => (decide (signedOf w a < signedOf w b), 0)
    | .le => (decide (signedOf w a ≤ signedOf w b), 0)
    | .ltu => (decide (a < b), 0)
    | .leu => (decide (a ≤ b), 0)
    | .unord => (false, 0)

/-! ### Permutes and tables -/

/-- Lane i of a VPERM result (R178); COMPRESS and SEL are apart. -/
def permLane (op : PermOp) (w : Nat) (a b : V512) (i : Nat) : Nat :=
  let n := 512 / w
  let sq (k : Nat) : Nat := if k < n then laneOf w a k else laneOf w b (k - n)
  let zip (base : Nat) : Nat := if i % 2 = 0 then laneOf w a (base + i / 2) else laneOf w b (base + i / 2)
  match op with
  | .rev => laneOf w a (n - 1 - i)
  | .ziplo => zip 0
  | .ziphi => zip (n / 2)
  | .unzipe => sq (2 * i)
  | .unzipo => sq (2 * i + 1)
  | .dup => laneOf w a 0
  | .compress => 0
  | .sel => laneOf w a i

/-- A VPERM operation (R178): COMPRESS and SEL write every lane. -/
def vperm (op : PermOp) (w : Nat) (p : U64) (pn : Bool) (old a b : V512) : V512 :=
  match op with
  | .compress =>
    let l := ((List.range (512 / w)).filter (laneOn p pn)).map (laneOf w a)
    ofLanes w (fun i => l.getD i 0)
  | .sel => ofLanes w (fun i => if laneOn p pn i then laneOf w a i else laneOf w b i)
  | _ => mergeLanes w p pn old (permLane op w a b)

/-! ### Reductions -/

/-- One pass of the fixed order of R191: neighbours combined, flags collected. -/
def redPass (op : Nat → Nat → Nat × Flags) : List Nat → List Nat × Flags
  | a :: b :: r =>
    let x := op a b
    let y := redPass op r
    (x.1 :: y.1, x.2 ||| y.2)
  | l => (l, 0)

/-- The passes of R191 until one lane is left; fuel counts passes. -/
def redTree (op : Nat → Nat → Nat × Flags) : Nat → List Nat × Flags → Nat × Flags
  | 0, l => (l.1.headD 0, l.2)
  | k + 1, l => let r := redPass op l.1; redTree op k (r.1, l.2 ||| r.2)

/-- A fixed-order reduction of lanes. -/
def redLanes (op : Nat → Nat → Nat × Flags) (l : List Nat) : Nat × Flags :=
  redTree op (Nat.log2 l.length) (l, 0)

/-- Result, its width, and flags of a VRED (R191). -/
def vred (op : RedOp) (ty : Fin 8) (p : U64) (pn : Bool) (a : V512) : Nat × Flags :=
  let w := typeWidth ty
  let n := 512 / w
  let ls (ident : Nat) (widen : Nat → Nat) : List Nat :=
    (List.range n).map (fun i => if laneOn p pn i then widen (laneOf w a i) else ident)
  match typeFmt ty with
  | some f =>
    match op with
    | .sum => redLanes (fpAdd f) (ls 0 id)
    | .min => redLanes (fpMinMax f false) (ls (f.infinity false) id)
    | .max => redLanes (fpMinMax f true) (ls (f.infinity true) id)
    | .sumw => redLanes (fpAdd fp32) (ls 0 (fun x => (fpToFp f fp32 .rne false x).1))
  | none =>
    match op with
    | .sum => redLanes (intLane .add w 0) (ls 0 id)
    | .min => redLanes (intLane .min w 0) (ls (2 ^ (w - 1) - 1) id)
    | .max => redLanes (intLane .max w 0) (ls (2 ^ (w - 1)) id)
    | .sumw => redLanes (intLane .add 32 0) (ls 0 (fun x => unsignedOf 32 (signedOf w x)))

/-- Flags of widening the active signalling NaN lanes of SUMW. -/
def redWidenFlags (op : RedOp) (ty : Fin 8) (p : U64) (pn : Bool) (a : V512) : Flags :=
  match op, typeFmt ty with
  | .sumw, some f =>
    laneFlags (512 / typeWidth ty) p pn (fun i => (fpToFp f fp32 .rne false (laneOf (typeWidth ty) a i)).2)
  | _, _ => 0

/-! ### Dot products and the colour matrix -/

/-- A VDOT lane (R182): the products of the narrow lanes added to the 32-bit lane d. -/
def dotLane (uns : Bool) (ty : Fin 8) (d : Nat) (xs ys : List Nat) : Nat × Flags :=
  match typeFmt ty with
  | some f =>
    let ps := (xs.zip ys).map (fun p => (f.decode p.1).mul (f.decode p.2))
    let r := fp32.sumOf (fp32.decode d :: ps.map (fun p => p.1))
    (r.1, ps.foldl (fun a p => a ||| p.2) r.2)
  | none =>
    let s := (xs.zip ys).foldl
      (fun (acc : Int) p => acc + (if uns then (p.1 : Int) * p.2 else signedOf 8 p.1 * signedOf 8 p.2)) 0
    (unsignedOf 32 ((d : Int) + s), 0)

/-- One output of the colour matrix (R183): exact sum of three products and a constant, one rounding. -/
def cmxLane (f : FpFmt) (c : List Nat) (i : Nat) (x : List Nat) : Nat × Flags :=
  let cf (k : Nat) : Fp := fp32.decode (c.getD k 0)
  let ps := (List.range 3).map (fun k => (cf (4 * i + k)).mul (f.decode (x.getD k 0)))
  let r := f.sumOf (cf (4 * i + 3) :: ps.map (fun p => p.1))
  (r.1, ps.foldl (fun a p => a ||| p.2) r.2)

/-! ### Conversions -/

/-- Width in bits of a VCVT type code (R188). -/
def cvtWidth (c : Nat) : Nat :=
  match c with
  | 0x0 => 32 | 0x1 => 16 | 0x2 => 16 | 0x3 => 8 | 0x4 => 8 | 0x5 => 8 | 0x6 => 16 | 0x7 => 32 | 0x8 => 8 | 0x9 => 16
  | _ => 32

/-- The format of a VCVT type code. -/
def cvtFmt (c : Nat) : Option FpFmt :=
  match c with
  | 0x0 => some fp32 | 0x1 => some fp16 | 0x2 => some bf16 | 0x3 => some fpE4M3 | 0x4 => some fpE5M2
  | _ => none

/-- An integer VCVT type code is signed. -/
def cvtSigned (c : Nat) : Bool := 5 ≤ c && c ≤ 7

/-- The range of an integer VCVT type code. -/
def cvtRange (c : Nat) : Int × Int :=
  let w := cvtWidth c
  if cvtSigned c then (-(2 ^ (w - 1) : Int), 2 ^ (w - 1) - 1) else (0, 2 ^ w - 1)

/-- RM of VCVT (R188). -/
def cvtRm (r : Fin 8) : Option Rm :=
  match r.val with
  | 0 => some .rne | 1 => some .rtz | 2 => some .rdn | 3 => some .rup | 4 => some .rna
  | _ => none

/-- A VCVT of one lane (R190). -/
def cvtLane (src dst : Nat) (rm : Rm) (sat : Bool) (x : Nat) : Nat × Flags :=
  if src = 0xB then fp32.round .rne .ieee false (x / 256) (-24)
  else
    match cvtFmt src, cvtFmt dst with
    | some f, some t => fpToFp f t rm sat x
    | some f, none =>
      let r := fpToInt f rm (cvtRange dst).1 (cvtRange dst).2 x
      (unsignedOf (cvtWidth dst) r.1, r.2)
    | none, some t => fpOfInt t rm (if cvtSigned src then signedOf (cvtWidth src) x else (x : Int))
    | none, none =>
      let v : Int := if cvtSigned src then signedOf (cvtWidth src) x else (x : Int)
      if sat then
        let r := clampInt (cvtRange dst).1 (cvtRange dst).2 v
        (unsignedOf (cvtWidth dst) r.1, r.2)
      else (unsignedOf (cvtWidth dst) v, 0)

/-- VCVT of a register (R189): narrow lanes PART × n/f and up, wide lane k governed by predicate bit k. -/
def vcvt (a : CvtArgs) (rm : Rm) (p : U64) (old x : V512) : V512 × Flags :=
  let ws := cvtWidth a.fromTy.val
  let wd := cvtWidth a.toTy.val
  let wide := max ws wd
  let m := 512 / wide
  let cv (k : Nat) : Nat × Flags :=
    cvtLane a.fromTy.val a.toTy.val rm a.sat
      (if ws < wd then laneOf ws x (a.part.val * m + k) else laneOf ws x k)
  let fl := laneFlags m p a.pn (fun k => (cv k).2)
  if wd < ws then
    (ofLanes wd (fun i =>
      if a.part.val * m ≤ i ∧ i < a.part.val * m + m then
        (if laneOn p a.pn (i - a.part.val * m) then (cv (i - a.part.val * m)).1 else laneOf wd old i)
      else laneOf wd old i), fl)
  else (mergeLanes wd p a.pn old (fun k => (cv k).1), fl)

/-! ### The generator -/

/-- One round of Philox 4×32 (R195). -/
def philoxRound (k0 k1 : U32) (c : U32 × U32 × U32 × U32) : U32 × U32 × U32 × U32 :=
  let p0 := 0xD2511F53 * c.1.toNat
  let p1 := 0xCD9E8D57 * c.2.2.1.toNat
  (BitVec.ofNat 32 (p1 / 2 ^ 32) ^^^ c.2.1 ^^^ k0, BitVec.ofNat 32 p1,
    BitVec.ofNat 32 (p0 / 2 ^ 32) ^^^ c.2.2.2 ^^^ k1, BitVec.ofNat 32 p0)

/-- The rounds of Philox, the key advanced after each (R195). -/
def philoxLoop : Nat → U32 → U32 → U32 × U32 × U32 × U32 → U32 × U32 × U32 × U32
  | 0, _, _, c => c
  | n + 1, k0, k1, c => philoxLoop n (k0 + 0x9E3779B9#32) (k1 + 0xBB67AE85#32) (philoxRound k0 k1 c)

/-- Philox 4×32 with ten rounds (R195). -/
def philox (k0 k1 : U32) (c : U32 × U32 × U32 × U32) : U32 × U32 × U32 × U32 := philoxLoop 10 k0 k1 c

/-- Word i of a group of four. -/
def quad (c : U32 × U32 × U32 × U32) (i : Nat) : Nat :=
  match i with
  | 0 => c.1.toNat | 1 => c.2.1.toNat | 2 => c.2.2.1.toNat
  | _ => c.2.2.2.toNat

/-- RNGCTR of the four counter groups of a register (R195). -/
def rngLane (key : U64) (x : V512) (k : Nat) : Nat :=
  let j := k / 4 * 4
  let w (i : Nat) : U32 := BitVec.ofNat 32 (laneOf 32 x (j + i))
  quad (philox (key.setWidth 32) (BitVec.ofNat 32 (key.toNat / 2 ^ 32)) (w 0, w 1, w 2, w 3)) (k % 4)

/-! ### Register operations of the vector queue -/

/-- Element width of the size field of MOV (R197). -/
def sizeWidth (s : Fin 4) : Nat := 8 * 2 ^ s.val

/-- A predicate made of bits below n. -/
def predOf (n : Nat) (f : Nat → Bool) : U64 := BitVec.ofNat 64 (bitMask ((List.range n).filter f))

/-- A PRED operation on predicates (R198). -/
def predOp (op : PredOp) (a b : U64) : U64 :=
  match op with
  | .and => a &&& b
  | .or => a ||| b
  | .xor => a ^^^ b
  | .andn => a &&& ~~~b
  | .not => ~~~a

/-- A vector operation that touches registers and FSTAT alone. -/
def vecReg (t : Tile) (op : VOp) : Tile :=
  match op with
  | .fp o a =>
    match arithFmt a.ty with
    | some f =>
      let w := typeWidth a.ty
      let r (i : Nat) : Nat × Flags := fpLane o f (laneOf w (t.vr a.vs1) i) (laneOf w (t.vr a.vs2) i)
      let p := t.pr a.pg
      (t.setV a.vd (mergeLanes w p a.pn (t.vr a.vd) (fun i => (r i).1))).addFlags
        (laneFlags (512 / w) p a.pn (fun i => (r i).2))
    | none => t
  | .int o a =>
    let w := typeWidth a.ty
    let r (i : Nat) : Nat × Flags :=
      intLane o w (laneOf w (t.vr a.vd) i) (laneOf w (t.vr a.vs1) i) (laneOf w (t.vr a.vs2) i)
    let p := t.pr a.pg
    (t.setV a.vd (mergeLanes w p a.pn (t.vr a.vd) (fun i => (r i).1))).addFlags
      (laneFlags (512 / w) p a.pn (fun i => (r i).2))
  | .bit o a =>
    let w := typeWidth a.ty
    t.setV a.vd (mergeLanes w (t.pr a.pg) a.pn (t.vr a.vd)
      (fun i => bitLane o w a.vs2.val (laneOf w (t.vr a.vs1) i) (laneOf w (t.vr a.vs2) i)))
  | .cmp o a =>
    let w := typeWidth a.ty
    let n := 512 / w
    let p := t.pr a.pg
    let r (i : Nat) : Bool × Flags := cmpLane o a.ty (laneOf w (t.vr a.vs1) i) (laneOf w (t.vr a.vs2) i)
    (t.setP (Fin.ofNat 8 a.vd.val) (predOf n (fun i => laneOn p a.pn i && (r i).1))).addFlags
      (laneFlags n p a.pn (fun i => (r i).2))
  | .perm o a =>
    t.setV a.vd (vperm o (typeWidth a.ty) (t.pr a.pg) a.pn (t.vr a.vd) (t.vr a.vs1) (t.vr a.vs2))
  | .tbl a vi =>
    t.setV a.vd (mergeLanes 8 (t.pr a.pg) a.pn (t.vr a.vd) (fun k =>
      let m := laneOf 8 (t.vr vi) k
      if m < 64 then laneOf 8 (t.vr a.vs1) m else if m < 128 then laneOf 8 (t.vr a.vs2) (m - 64) else 0))
  | .fma o a vs3 =>
    match arithFmt a.ty with
    | some f =>
      let w := typeWidth a.ty
      let np := o = .fnma || o = .fnms
      let nc := o = .fms || o = .fnms
      let r (i : Nat) : Nat × Flags :=
        fpFma f np nc (laneOf w (t.vr a.vs1) i) (laneOf w (t.vr a.vs2) i) (laneOf w (t.vr vs3) i)
      let p := t.pr a.pg
      (t.setV a.vd (mergeLanes w p a.pn (t.vr a.vd) (fun i => (r i).1))).addFlags
        (laneFlags (512 / w) p a.pn (fun i => (r i).2))
    | none => t
  | .dot u a =>
    let w := typeWidth a.ty
    let n := 32 / w
    let p := t.pr a.pg
    let r (k : Nat) : Nat × Flags := dotLane u a.ty (laneOf 32 (t.vr a.vd) k)
      ((List.range n).map (fun j => laneOf w (t.vr a.vs1) (n * k + j)))
      ((List.range n).map (fun j => laneOf w (t.vr a.vs2) (n * k + j)))
    (t.setV a.vd (mergeLanes 32 p a.pn (t.vr a.vd) (fun i => (r i).1))).addFlags
      (laneFlags 16 p a.pn (fun i => (r i).2))
  | .cvt a =>
    match cvtRm a.rm with
    | some rm =>
      let r := vcvt a rm (t.pr a.pg) (t.vr a.vd) (t.vr a.vs1)
      (t.setV a.vd r.1).addFlags r.2
    | none => t
  | .red o a =>
    let r := vred o a.ty (t.pr a.pg) a.pn (t.vr a.vs1)
    (t.setV a.vd (BitVec.ofNat 512 r.1)).addFlags (r.2 ||| redWidenFlags o a.ty (t.pr a.pg) a.pn (t.vr a.vs1))
  | .pred o pd pa pb => t.setP pd (predOp o (t.pr pa) (t.pr pb))
  | .predSet pd x => t.setP pd x
  | .gtov vd s ln x =>
    let w := sizeWidth s
    t.setV vd (ofLanes w (fun i => if i = ln.toNat % (512 / w) then x.toNat else laneOf w (t.vr vd) i))
  | .bcast vd s x => t.setV vd (ofLanes (sizeWidth s) (fun _ => x.toNat))
  | .vmov vd vs => t.setV vd (t.vr vs)
  | .vhash o a =>
    t.setV a.vd (mergeLanes 64 (t.pr a.pg) a.pn (t.vr a.vd) (fun k =>
      (hashOp o (BitVec.ofNat 64 (laneOf 64 (t.vr a.vs1) k)) (BitVec.ofNat 64 (laneOf 64 (t.vr a.vs2) k))).toNat))
  | .rng a key => t.setV a.vd (mergeLanes 32 (t.pr a.pg) a.pn (t.vr a.vd) (rngLane key (t.vr a.vs1)))
  | _ => t

end Sys2Proof.Machine
end

