-- ==== Sys2Proof/Machine/Pixels.lean ====
section
/-!
DEFINITION. Decoded images: samples, depth, channels, orientation (09 R322, R324, R329), and FP32 arithmetic one operation
at a time (05 R185, R187).
-/
namespace Sys2Proof.Machine

/-! ### FP32, one rounding per operation -/

def fAdd (a b : Nat) : Nat := (fpAdd fp32 a b).1
def fSub (a b : Nat) : Nat := (fpSub fp32 a b).1
def fMul (a b : Nat) : Nat := (fpMul fp32 a b).1
def fDiv (a b : Nat) : Nat := (fpDiv fp32 a b).1
def fSqrt (a : Nat) : Nat := (fpSqrt fp32 a).1
def fMin (a b : Nat) : Nat := (fpMinMax fp32 false a b).1
def fMax (a b : Nat) : Nat := (fpMinMax fp32 true a b).1
def fOfInt (i : Int) : Nat := (fpOfInt fp32 .rne i).1
/-- To the nearest integer, ties to even, clamped. -/
def fToInt (lo hi : Int) (a : Nat) : Int := (fpToInt fp32 .rne lo hi a).1
/-- The integer below or at a value. -/
def fFloor (a : Nat) : Int := (fpToInt fp32 .rdn (-(2 ^ 31)) (2 ^ 31 - 1) a).1
def fLess (a b : Nat) : Bool := fpLt false (fp32.decode a) (fp32.decode b)
def fOne : Nat := 0x3F800000
def fHalf : Nat := 0x3F000000
def fTwo : Nat := 0x40000000

/-! ### Images -/

/-- An image: rows, columns, channels, 16-bit samples, and the samples row by row, channel by channel. -/
structure Image where
  h : Nat
  w : Nat
  c : Nat
  wide : Bool
  px : Array Nat
deriving DecidableEq, Repr

def Image.at_ (i : Image) (y x k : Nat) : Nat := i.px.getD ((y * i.w + x) * i.c + k) 0
/-- The largest sample value. -/
def Image.top (i : Image) : Nat := if i.wide then 65535 else 255

/-- An image from a function of row, column and channel. -/
def mkImage (h w c : Nat) (wide : Bool) (f : Nat → Nat → Nat → Nat) : Image :=
  ⟨h, w, c, wide, ((List.range (h * w * c)).map (fun n => f (n / c / w) (n / c % w) (n % c))).toArray⟩

/-- OUT_DEPTH (R329). -/
def Image.toDepth (i : Image) (d : Nat) : Image :=
  if d = 8 && i.wide then { i with wide := false, px := i.px.map (fun v => (v * 255 + 32895) / 65536) }
  else if d = 16 && !i.wide then { i with wide := true, px := i.px.map (fun v => v * 257) }
  else i

/-- OUT_CHANNELS (R321, R329): 0 native, 1 GRAY, 2 RGB, 3 RGBA, 4 BGR. -/
def Image.toChannels (i : Image) (oc : Nat) : Image :=
  let colour := 3 ≤ i.c
  let alpha := i.c % 2 = 0
  let rgb (y x k : Nat) : Nat := i.at_ y x (if colour then k else 0)
  let gray (y x : Nat) : Nat :=
    if colour then (77 * i.at_ y x 0 + 150 * i.at_ y x 1 + 29 * i.at_ y x 2 + 128) / 256 else i.at_ y x 0
  match oc with
  | 1 => mkImage i.h i.w 1 i.wide (fun y x _ => gray y x)
  | 2 => mkImage i.h i.w 3 i.wide rgb
  | 3 => mkImage i.h i.w 4 i.wide (fun y x k => if k < 3 then rgb y x k else if alpha then i.at_ y x (i.c - 1) else i.top)
  | 4 => mkImage i.h i.w 3 i.wide (fun y x k => rgb y x (2 - k))
  | _ => i

/-- An image turned and mirrored: a new size, and the place each new sample comes from. -/
def Image.remap (i : Image) (h w : Nat) (f : Nat → Nat → Nat × Nat) : Image :=
  mkImage h w i.c i.wide (fun y x k => i.at_ (f y x).1 (f y x).2 k)

def Image.flipH (i : Image) : Image := i.remap i.h i.w (fun y x => (y, i.w - 1 - x))
def Image.flipV (i : Image) : Image := i.remap i.h i.w (fun y x => (i.h - 1 - y, x))
/-- A quarter turn clockwise. -/
def Image.turn (i : Image) : Image := i.remap i.w i.h (fun y x => (i.h - 1 - x, y))

/-- The Exif orientations 2 to 8 (R324); any other value leaves the image. -/
def Image.orient (i : Image) (o : Nat) : Image :=
  match o with
  | 2 => i.flipH
  | 3 => i.flipH.flipV
  | 4 => i.flipV
  | 5 => i.turn.flipH
  | 6 => i.turn
  | 7 => i.turn.flipV
  | 8 => i.turn.flipH.flipV
  | _ => i

end Sys2Proof.Machine
end

