-- ==== Sys2Proof/Machine/Jpeg.lean ====
section
/-!
DEFINITION. The JPEG kernel (09 R324 to R327; ITU-T T.81): markers, Huffman-coded scans, inverse DCT, upsampling, colour.
-/
namespace Sys2Proof.Machine

/-- Natural position of each zigzag index (T.81, figure A.6). -/
def zigzag : List Nat := [0, 1, 8, 16, 9, 2, 3, 10, 17, 24, 32, 25, 18, 11, 4, 5, 12, 19, 26, 33, 40, 48, 41, 34, 27, 20, 13, 6, 7, 14, 21, 28,
  35, 42, 49, 56, 57, 50, 43, 36, 29, 22, 15, 23, 30, 37, 44, 51, 58, 59, 52, 45, 38, 31, 39, 46, 53, 60, 61, 54, 47, 55, 62, 63]

/-- A component: identifier, sampling factors, quantisation table (number, and values in zigzag order once a scan has named
the component), blocks per row and rows of blocks as stored, and the coefficients of each block in zigzag order. -/
structure JComp where
  id : Nat
  hs : Nat
  vs : Nat
  tq : Nat
  quant : Option (List Nat)
  bw : Nat
  bh : Nat
  blocks : Array (Array Int)
deriving DecidableEq, Repr

/-- A frame: progressive or sequential, its size and components. -/
structure JFrame where
  prog : Bool
  w : Nat
  h : Nat
  comps : List JComp
deriving DecidableEq, Repr

/-- What the markers have set so far. -/
structure JState where
  quants : List (Option (List Nat))
  dcs : List (Option PrefixCode)
  acs : List (Option PrefixCode)
  restart : Nat
  frame : Option JFrame
  rgb : Bool
  orient : Option Nat
  scans : Nat
deriving DecidableEq, Repr

def JFrame.hmax (f : JFrame) : Nat := (f.comps.map (fun c => c.hs)).foldl max 1
def JFrame.vmax (f : JFrame) : Nat := (f.comps.map (fun c => c.vs)).foldl max 1
/-- MCUs across and down of an interleaved scan. -/
def JFrame.mcuW (f : JFrame) : Nat := (f.w + 8 * f.hmax - 1) / (8 * f.hmax)
def JFrame.mcuH (f : JFrame) : Nat := (f.h + 8 * f.vmax - 1) / (8 * f.vmax)
/-- Samples of a component across and down. -/
def JFrame.compW (f : JFrame) (c : JComp) : Nat := (f.w * c.hs + f.hmax - 1) / f.hmax
def JFrame.compH (f : JFrame) (c : JComp) : Nat := (f.h * c.vs + f.vmax - 1) / f.vmax

/-! ### Marker segments -/

def byteAt (a : Array Byte) (p : Nat) : Nat := (a.getD p 0).toNat
def beAt (a : Array Byte) (p n : Nat) : Nat := ofBe (a.extract p (p + n)).toList

/-- Tables of a DQT segment in bytes p to e; fuel bounds them. -/
def jQuants (a : Array Byte) (e : Nat) : Nat → Nat → List (Option (List Nat)) → Option (List (Option (List Nat)))
  | 0, _, _ => none
  | f + 1, p, qs =>
    if p = e then some qs
    else
      let pq := byteAt a p / 16
      let tq := byteAt a p % 16
      let n := if pq = 0 then 1 else 2
      if 1 < pq || 3 < tq || e < p + 1 + 64 * n then none
      else
        let q := (List.range 64).map (fun i => beAt a (p + 1 + n * i) n)
        if q.any (fun x => x = 0) then none else jQuants a e f (p + 1 + 64 * n) (qs.set tq (some q))

/-- Tables of a DHT segment. -/
def jHuffs (a : Array Byte) (e : Nat) : Nat → Nat → List (Option PrefixCode) → List (Option PrefixCode) →
    Option (List (Option PrefixCode) × List (Option PrefixCode))
  | 0, _, _, _ => none
  | f + 1, p, dcs, acs =>
    if p = e then some (dcs, acs)
    else
      let tc := byteAt a p / 16
      let th := byteAt a p % 16
      let counts := (List.range 16).map (fun i => byteAt a (p + 1 + i))
      let n := counts.sum
      let c : PrefixCode := ⟨counts, (List.range n).map (fun i => byteAt a (p + 17 + i))⟩
      if 1 < tc || 3 < th || e < p + 17 + n || 256 < n || c.left < 0 then none
      else if tc = 0 then jHuffs a e f (p + 17 + n) (dcs.set th (some c)) acs
      else jHuffs a e f (p + 17 + n) dcs (acs.set th (some c))

/-- A frame header in bytes p to e: 8-bit precision, 1 or 3 components, factors of 1 or 2 (R324). -/
def jFrame (a : Array Byte) (p e : Nat) (prog : Bool) (maxPixels maxSide : Nat) : Option JFrame :=
  let h := beAt a (p + 1) 2
  let w := beAt a (p + 3) 2
  let n := byteAt a (p + 5)
  if byteAt a p ≠ 8 || h = 0 || w = 0 || (n ≠ 1 && n ≠ 3) || e ≠ p + 6 + 3 * n || maxPixels < w * h || maxSide < w || maxSide < h then none
  else
    let cs := (List.range n).map (fun i =>
      let q := p + 6 + 3 * i
      let f := if n = 1 then 0x11 else byteAt a (q + 1)
      (⟨byteAt a q, f / 16, f % 16, byteAt a (q + 2), none, 0, 0, #[]⟩ : JComp))
    let bad (c : JComp) : Bool := c.hs < 1 || 2 < c.hs || c.vs < 1 || 2 < c.vs || 3 < c.tq
    if cs.any bad || (n = 1 && (let f := byteAt a (p + 7); f / 16 < 1 || 2 < f / 16 || f % 16 < 1 || 2 < f % 16)) ||
        !decide ((cs.map (fun c => c.id)).Nodup) then none
    else
      let f : JFrame := ⟨prog, w, h, cs⟩
      some { f with comps := cs.map (fun c =>
        { c with bw := f.mcuW * c.hs, bh := f.mcuH * c.vs,
                 blocks := Array.replicate (f.mcuW * c.hs * (f.mcuH * c.vs)) (Array.replicate 64 0) }) }

/-- A number of a TIFF header, in its byte order. -/
def tiffAt (l : List Byte) (big : Bool) (o n : Nat) : Nat := if big then ofBe (sliceBytes l o n) else leAt l o n

/-- The orientation of an Exif segment (R324): the value of tag 0x0112 in the first directory. -/
def exifOrient (l : List Byte) : Option Nat :=
  if l.take 6 ≠ [0x45, 0x78, 0x69, 0x66, 0, 0] then none
  else
    let t := l.drop 6
    let big := t.take 2 = [0x4D, 0x4D]
    if (!big && t.take 2 ≠ [0x49, 0x49]) || tiffAt t big 2 2 ≠ 42 then none
    else
      let d := tiffAt t big 4 4
      let n := tiffAt t big d 2
      ((List.range n).find? (fun i => tiffAt t big (d + 2 + 12 * i) 2 = 0x112 && tiffAt t big (d + 4 + 12 * i) 2 = 3)).map
        (fun i => tiffAt t big (d + 10 + 12 * i) 2)

/-! ### Entropy-coded segments (T.81, B.1.1.5, F.2.2.5) -/

/-- Entropy-coded bytes from p on up to a marker that is no restart: the restart intervals with stuffing removed, their
markers in order, and the place of that marker. Fuel bounds the bytes. -/
def jSegments (a : Array Byte) : Nat → Nat → Array Byte → List (Array Byte) → Option (List (Array Byte) × Nat)
  | 0, _, _, _ => none
  | f + 1, p, cur, done =>
    if a.size ≤ p then none
    else if byteAt a p ≠ 0xFF then jSegments a f (p + 1) (cur.push (a.getD p 0)) done
    else
      let b := byteAt a (p + 1)
      if a.size ≤ p + 1 then none
      else if b = 0 then jSegments a f (p + 2) (cur.push 0xFF) done
      else if b = 0xFF then jSegments a f (p + 1) cur done
      else if 0xD0 ≤ b && b ≤ 0xD7 then
        (if b - 0xD0 = done.length % 8 then jSegments a f (p + 2) #[] (done ++ [cur]) else none)
      else some (done ++ [cur], p)

/-- Bit p of an interval, the most significant bit of the first byte being bit 0; none past the end. -/
def bitBe (a : Array Byte) (p : Nat) : Option Nat :=
  if p < 8 * a.size then some (boolBit ((a.getD (p / 8) 0).getLsbD (7 - p % 8))) else none

/-- n bits from bit p on, most significant first. -/
def bitsBe (a : Array Byte) (p : Nat) : Nat → Option Nat
  | 0 => some 0
  | n + 1 => do
    let v ← bitsBe a p n
    let b ← bitBe a (p + n)
    some (2 * v + b)

/-- The symbol whose code starts at bit p. -/
def jSymbol (c : PrefixCode) (a : Array Byte) (p : Nat) : Option (Nat × Nat) := PrefixCode.read (bitBe a) c.syms c.counts p 0 0 0

/-- A value of s bits with its sign (T.81, F.2.2.1). -/
def jExtend (v s : Nat) : Int := if s = 0 then 0 else if v < 2 ^ (s - 1) then (v : Int) - 2 ^ s + 1 else v

/-- What a block's decoding carries on: bit position, predictors of the scan's components, and the run of ended bands. -/
structure JRun where
  p : Nat
  preds : List Int
  eob : Nat
deriving DecidableEq, Repr

/-- AC coefficients of a sequential block from index k on; fuel bounds the symbols. -/
def jAcSeq (c : PrefixCode) (a : Array Byte) : Nat → Nat → Nat → Array Int → Option (Nat × Array Int)
  | 0, _, _, _ => none
  | f + 1, p, k, b =>
    if 64 ≤ k then (if k = 64 then some (p, b) else none)
    else do
      let (rs, p) ← jSymbol c a p
      let r := rs / 16
      let s := rs % 16
      if s = 0 then (if r = 15 then jAcSeq c a f p (k + 16) b else if r = 0 then some (p, b) else none)
      else
        let v ← bitsBe a p s
        if 63 < k + r then none else jAcSeq c a f (p + s) (k + r + 1) (b.setIfInBounds (k + r) (jExtend v s))

/-- A progressive first scan of a band: coefficients from k to se, scaled by 2^al. -/
def jAcFirst (c : PrefixCode) (a : Array Byte) (se al : Nat) : Nat → Nat → Nat → Array Int → Option (Nat × Nat × Array Int)
  | 0, _, _, _ => none
  | f + 1, p, k, b =>
    if se < k then (if k = se + 1 then some (p, 0, b) else none)
    else do
      let (rs, p) ← jSymbol c a p
      let r := rs / 16
      let s := rs % 16
      if s = 0 then
        if r = 15 then jAcFirst c a se al f p (k + 16) b
        else do
          let v ← bitsBe a p r
          some (p + r, 2 ^ r + v - 1, b)
      else
        let v ← bitsBe a p s
        if se < k + r then none else jAcFirst c a se al f (p + s) (k + r + 1) (b.setIfInBounds (k + r) (jExtend v s * 2 ^ al))

/-- Correction bits of coefficients that are already there, from k on, until run zero ones have been passed: the index of
the next zero one. -/
def jCorrect (a : Array Byte) (se al : Nat) : Nat → Nat → Nat → Nat → Array Int → Option (Nat × Nat × Array Int)
  | 0, _, _, _, _ => none
  | f + 1, p, k, run, b =>
    if se < k then some (p, k, b)
    else
      let x := b.getD k 0
      if x = 0 then (if run = 0 then some (p, k, b) else jCorrect a se al f p (k + 1) (run - 1) b)
      else do
        let c ← bitBe a p
        jCorrect a se al f (p + 1) (k + 1) run (if c = 1 then b.setIfInBounds k (if x < 0 then x - 2 ^ al else x + 2 ^ al) else b)

/-- A progressive refinement of a band. -/
def jAcRefine (c : PrefixCode) (a : Array Byte) (se al : Nat) : Nat → Nat → Nat → Array Int → Option (Nat × Nat × Array Int)
  | 0, _, _, _ => none
  | f + 1, p, k, b =>
    if se < k then some (p, 0, b)
    else do
      let (rs, p) ← jSymbol c a p
      let r := rs / 16
      let s := rs % 16
      if s = 0 && r < 15 then
        let v ← bitsBe a p r
        let (p, _, b) ← jCorrect a se al 65 (p + r) k 64 b
        some (p, 2 ^ r + v - 1, b)
      else if 1 < s then none
      else
        let v ← bitsBe a p s
        let (p, k, b) ← jCorrect a se al 65 (p + s) k r b
        if s = 1 then
          (if se < k then none else jAcRefine c a se al f p (k + 1) (b.setIfInBounds k (if v = 1 then 2 ^ al else -(2 ^ al))))
        else if se < k then none
        else jAcRefine c a se al f p (k + 1) b

/-- A scan: its components with their tables, band and approximation. -/
structure JScan where
  comps : List (Nat × Option PrefixCode × Option PrefixCode)
  ss : Nat
  se : Nat
  ah : Nat
  al : Nat
deriving DecidableEq, Repr

/-- One block of a scan's component n. -/
def jBlock (prog : Bool) (s : JScan) (a : Array Byte) (n : Nat) (dc ac : Option PrefixCode) (r : JRun) (b : Array Int) :
    Option (JRun × Array Int) := do
  if s.ss = 0 && s.ah ≠ 0 then
    let v ← bitBe a r.p
    some ({ r with p := r.p + 1 }, if v = 1 then b.setIfInBounds 0 (b.getD 0 0 + 2 ^ s.al) else b)
  else
    let (r, b) ← (if s.ss ≠ 0 then some (r, b)
      else do
        let c ← dc
        let (t, p) ← jSymbol c a r.p
        let v ← bitsBe a p t
        let d := r.preds.getD n 0 + jExtend v t
        if 15 < t then none else some ({ r with p := p + t, preds := r.preds.set n d }, b.setIfInBounds 0 (d * 2 ^ s.al)))
    if s.se = 0 then some (r, b)
    else do
      let c ← ac
      if !prog then
        let (p, b) ← jAcSeq c a 65 r.p 1 b
        some ({ r with p := p }, b)
      else if s.ah = 0 then
        if 0 < r.eob then some ({ r with eob := r.eob - 1 }, b)
        else
          let (p, e, b) ← jAcFirst c a s.se s.al 65 r.p s.ss b
          some ({ r with p := p, eob := e }, b)
      else if 0 < r.eob then
        let (p, _, b) ← jCorrect a s.se s.al 65 r.p s.ss 64 b
        some ({ r with p := p, eob := r.eob - 1 }, b)
      else
        let (p, e, b) ← jAcRefine c a s.se s.al 65 r.p s.ss b
        some ({ r with p := p, eob := e }, b)

/-- The blocks of MCU n of a scan: scan component, block row and block column. -/
def jMcu (f : JFrame) (s : JScan) (n : Nat) : List (Nat × Nat × Nat) :=
  match s.comps with
  | [c] =>
    match f.comps[c.1]? with
    | some k => let w := (f.compW k + 7) / 8; [(0, n / w, n % w)]
    | none => []
  | cs => cs.zipIdx.flatMap (fun c => match f.comps[c.1.1]? with
      | some k => (List.range (k.hs * k.vs)).map (fun i => (c.2, n / f.mcuW * k.vs + i / k.hs, n % f.mcuW * k.hs + i % k.hs))
      | none => [])

/-- MCUs of a scan. -/
def jMcus (f : JFrame) (s : JScan) : Nat :=
  match s.comps with
  | [c] => match f.comps[c.1]? with | some k => (f.compW k + 7) / 8 * ((f.compH k + 7) / 8) | none => 0
  | _ => f.mcuW * f.mcuH

/-- One block decoded in its place. -/
def jPut (s : JScan) (a : Array Byte) (st : JFrame × JRun) (x : Nat × Nat × Nat) : Option (JFrame × JRun) := do
  let c ← s.comps[x.1]?
  let k ← st.1.comps[c.1]?
  let i := x.2.1 * k.bw + x.2.2
  let (r, b) ← jBlock st.1.prog s a x.1 c.2.1 c.2.2 st.2 (k.blocks.getD i #[])
  some ({ st.1 with comps := st.1.comps.set c.1 { k with blocks := k.blocks.setIfInBounds i b } }, r)

/-- A scan decoded: each restart interval starts afresh (T.81, F.2.1.3.1, G.2). -/
def jScanRun (f : JFrame) (s : JScan) (restart : Nat) (segs : List (Array Byte)) : Option JFrame :=
  let total := jMcus f s
  let per := if restart = 0 then total else restart
  if per = 0 || segs.length ≠ (total + per - 1) / per then none
  else segs.zipIdx.foldlM (fun f x =>
    (((List.range (min per (total - x.2 * per))).flatMap (fun i => jMcu f s (x.2 * per + i))).foldlM (jPut s x.1)
      (f, (⟨0, s.comps.map (fun _ => 0), 0⟩ : JRun))).map (fun r => r.1)) f

/-- A scan header in bytes p to e, checked against the frame. -/
def jScan (st : JState) (f : JFrame) (a : Array Byte) (p e : Nat) : Option JScan :=
  let n := byteAt a p
  let cs := (List.range n).map (fun i =>
    (f.comps.findIdx (fun c => c.id = byteAt a (p + 1 + 2 * i)), byteAt a (p + 2 + 2 * i)))
  let q := p + 1 + 2 * n
  let s : JScan := ⟨cs.map (fun c => (c.1, (st.dcs.getD (c.2 / 16) none), (st.acs.getD (c.2 % 16) none))),
    byteAt a q, byteAt a (q + 1), byteAt a (q + 2) / 16, byteAt a (q + 2) % 16⟩
  let order := decide ((cs.map (fun c => c.1)).Pairwise (fun (x y : Nat) => x < y))
  if e ≠ q + 3 || n = 0 || 3 < n || cs.any (fun c => f.comps.length ≤ c.1) || !order then none
  else if !f.prog then (if s.ss = 0 && s.se = 63 && s.ah = 0 && s.al = 0 then some s else none)
  else if 13 < s.al || (s.ah ≠ 0 && s.ah ≠ s.al + 1) || 63 < s.se then none
  else if s.ss = 0 then (if s.se = 0 then some s else none)
  else if n = 1 && s.ss ≤ s.se then some s
  else none

/-- Components named by a scan take the quantisation tables in force. -/
def JFrame.latch (f : JFrame) (st : JState) (s : JScan) : JFrame :=
  { f with comps := f.comps.zipIdx.map (fun c =>
    if s.comps.any (fun x => x.1 = c.2) && c.1.quant.isNone then { c.1 with quant := st.quants.getD c.1.tq none } else c.1) }

/-- Markers from p on up to EOI; fuel bounds them. -/
def jMarkers (maxPixels maxSide : Nat) (a : Array Byte) : Nat → Nat → JState → Option JState
  | 0, _, _ => none
  | f + 1, p, st =>
    if a.size < p + 2 || byteAt a p ≠ 0xFF then none
    else
      let k := byteAt a (p + 1)
      if k = 0xFF then jMarkers maxPixels maxSide a f (p + 1) st
      else if k = 0xD9 then some st
      else
        let n := beAt a (p + 2) 2
        let s := p + 4
        let e := p + 2 + n
        if n < 2 || a.size < e then none
        else if k = 0xDB then (jQuants a e 5 s st.quants).bind (fun q => jMarkers maxPixels maxSide a f e { st with quants := q })
        else if k = 0xC4 then
          (jHuffs a e 9 s st.dcs st.acs).bind (fun h => jMarkers maxPixels maxSide a f e { st with dcs := h.1, acs := h.2 })
        else if k = 0xDD then (if n = 4 then jMarkers maxPixels maxSide a f e { st with restart := beAt a s 2 } else none)
        else if k ≤ 0xC2 && 0xC0 ≤ k then
          (if st.frame.isSome then none
            else (jFrame a s e (k = 0xC2) maxPixels maxSide).bind (fun fr => jMarkers maxPixels maxSide a f e { st with frame := some fr }))
        else if k = 0xDA then
          match st.frame with
          | none => none
          | some fr => do
            let sc ← jScan st fr a s e
            let (segs, q) ← jSegments a (a.size + 1) e #[] []
            let fr ← jScanRun (fr.latch st sc) sc st.restart segs
            if 64 < st.scans + 1 then none else jMarkers maxPixels maxSide a f q { st with frame := some fr, scans := st.scans + 1 }
        else if k = 0xEE then
          let l := (a.extract s e).toList
          jMarkers maxPixels maxSide a f e { st with rgb := st.rgb || (12 ≤ l.length && l.getLast? = some 0) }
        else if k = 0xE1 then
          jMarkers maxPixels maxSide a f e { st with orient := st.orient.or (exifOrient (a.extract s e).toList) }
        else if (0xE0 ≤ k && k ≤ 0xEF) || k = 0xFE then jMarkers maxPixels maxSide a f e st
        else none

/-! ### Samples (R325 to R327) -/

/-- C[x][u] of R325. -/
def idctC : List (List Nat) := [
  [0x3EB504F3, 0x3EFB14BE, 0x3EEC835E, 0x3ED4DB31, 0x3EB504F3, 0x3E8E39DA, 0x3E43EF15, 0x3DC7C5C2],
  [0x3EB504F3, 0x3ED4DB31, 0x3E43EF15, 0xBDC7C5C2, 0xBEB504F3, 0xBEFB14BE, 0xBEEC835E, 0xBE8E39DA],
  [0x3EB504F3, 0x3E8E39DA, 0xBE43EF15, 0xBEFB14BE, 0xBEB504F3, 0x3DC7C5C2, 0x3EEC835E, 0x3ED4DB31],
  [0x3EB504F3, 0x3DC7C5C2, 0xBEEC835E, 0xBE8E39DA, 0x3EB504F3, 0x3ED4DB31, 0xBE43EF15, 0xBEFB14BE],
  [0x3EB504F3, 0xBDC7C5C2, 0xBEEC835E, 0x3E8E39DA, 0x3EB504F3, 0xBED4DB31, 0xBE43EF15, 0x3EFB14BE],
  [0x3EB504F3, 0xBE8E39DA, 0xBE43EF15, 0x3EFB14BE, 0xBEB504F3, 0xBDC7C5C2, 0x3EEC835E, 0xBED4DB31],
  [0x3EB504F3, 0xBED4DB31, 0x3E43EF15, 0x3DC7C5C2, 0xBEB504F3, 0x3EFB14BE, 0xBEEC835E, 0x3E8E39DA],
  [0x3EB504F3, 0xBEFB14BE, 0x3EEC835E, 0xBED4DB31, 0x3EB504F3, 0xBE8E39DA, 0x3E43EF15, 0xBDC7C5C2]]

/-- Eight inputs through the inverse DCT of one direction. -/
def idct8 (fs : List Nat) : List Nat :=
  idctC.map (fun c =>
    match List.zipWith fMul c fs with
    | [] => 0
    | t :: ts => ts.foldl fAdd t)

/-- A list of rows turned into a list of columns. -/
def transpose8 (l : List (List Nat)) : List (List Nat) := (List.range 8).map (fun i => l.map (fun r => r.getD i 0))

/-- The samples of a block: rows first, then columns, plus 128, rounded and clamped. -/
def idctBlock (q : List Nat) (b : Array Int) : List (List Nat) :=
  let co (n : Nat) : Nat := let z := zigzag.idxOf n; fOfInt (b.getD z 0 * (q.getD z 0 : Int))
  let rows := (List.range 8).map (fun v => idct8 ((List.range 8).map (fun u => co (8 * v + u))))
  let cols := transpose8 ((transpose8 rows).map idct8)
  cols.map (fun r => r.map (fun x => (fToInt 0 255 (fAdd x 0x43000000)).toNat))

/-- A plane of samples: rows, columns and values. -/
structure Plane where
  h : Nat
  w : Nat
  px : Array Nat
deriving DecidableEq, Repr

/-- A sample, its place clamped to the plane's edge. -/
def Plane.at_ (p : Plane) (y x : Int) : Nat :=
  p.px.getD ((max 0 (min y ((p.h : Int) - 1))).toNat * p.w + (max 0 (min x ((p.w : Int) - 1))).toNat) 0

def mkPlane (h w : Nat) (f : Nat → Nat → Nat) : Plane := ⟨h, w, ((List.range (h * w)).map (fun n => f (n / w) (n % w))).toArray⟩

/-- A component's plane. -/
def JFrame.plane (f : JFrame) (c : JComp) : Option Plane :=
  c.quant.map (fun q =>
    let bs := c.blocks.map (idctBlock q)
    mkPlane (f.compH c) (f.compW c) (fun y x => ((bs.getD (y / 8 * c.bw + x / 8) []).getD (y % 8) []).getD (x % 8) 0))

/-- The CENTRED rule between a sample and its neighbour (R326). -/
def centred (near far : Nat) : Nat := (3 * near + far + 2) / 4

/-- A plane doubled downwards, then across, where it is subsampled (R326). -/
def Plane.up (p : Plane) (centre dv dh : Bool) : Plane :=
  let side (i : Nat) : Int := (i / 2 : Int) + (if i % 2 = 0 then -1 else 1)
  let v := if !dv then p else
    mkPlane (2 * p.h) p.w (fun y x =>
      let a := p.at_ (y / 2 : Nat) x
      if centre then centred a (p.at_ (side y) x) else a)
  if !dh then v else
    mkPlane v.h (2 * v.w) (fun y x =>
      let a := v.at_ y (x / 2 : Nat)
      if centre then centred a (v.at_ y (side x)) else a)

/-- The shipped colour matrices (R327): rows for R, G and B, columns for Y, Cb, Cr and the offset. -/
def colourMatrix : Nat → List (List Nat)
  | 0 => [[0x3F800000, 0x00000000, 0x3FB374BC, 0xC33374BC], [0x3F800000, 0xBEB032A2, 0xBF36D1A3, 0x43077574], [0x3F800000, 0x3FE2D0E5, 0x00000000, 0xC362D0E5]]
  | 1 => [[0x3F950A89, 0x00000000, 0x3FCC4A9D, 0xC35EEBEE], [0x3F950A89, 0xBEC8950E, 0xBF501EA8, 0x43079347], [0x3F950A89, 0x40011A54, 0x00000000, 0xC38A6AFF]]
  | 2 => [[0x3F800000, 0x00000000, 0x3FC9930C, 0xC349930C], [0x3F800000, 0xBE3FD1EA, 0xBEEFADFD, 0x42A7CB79], [0x3F800000, 0x3FED844D, 0x00000000, 0xC36D844D]]
  | _ => [[0x3F950A89, 0x00000000, 0x3FE57889, 0xC37819DB], [0x3F950A89, 0xBE5A5DD7, 0xBF086CBD, 0x4299C191], [0x3F950A89, 0x40073198, 0x00000000, 0xC3908241]]

/-- One output of VCMX in FP32 (05 R183), rounded and clamped to 8 bits. -/
def vcmxPixel (row : List Nat) (y cb cr : Nat) : Nat :=
  let xs := [fOfInt y, fOfInt cb, fOfInt cr]
  let ts := (List.zipWith (fun c x => ((fp32.decode c).mul (fp32.decode x)).1) row xs) ++ [fp32.decode (row.getD 3 0)]
  (fToInt 0 255 (fp32.sumOf ts).1).toNat

/-- The JPEG kernel (R324 to R327): an image of 1 or 3 channels of 8 bits. -/
def jpegKernel (maxPixels maxSide matrix : Nat) (centre orient : Bool) (l : List Byte) : Option Image := do
  let a := l.toArray
  if l.take 2 ≠ [0xFF, 0xD8] then none
  else
    let st ← jMarkers maxPixels maxSide a (a.size + 1) 2 ⟨List.replicate 4 none, List.replicate 4 none, List.replicate 4 none, 0, none, false, none, 0⟩
    let f ← st.frame
    let ps ← f.comps.mapM (fun c => (f.plane c).map (fun p => p.up centre (c.vs < f.vmax) (c.hs < f.hmax)))
    let s (k y x : Nat) : Nat := (ps.getD k ⟨0, 0, #[]⟩).at_ y x
    let img := match f.comps.length with
      | 1 => mkImage f.h f.w 1 false (fun y x _ => s 0 y x)
      | _ => mkImage f.h f.w 3 false (fun y x k =>
          if st.rgb then s k y x else vcmxPixel ((colourMatrix matrix).getD k []) (s 0 y x) (s 1 y x) (s 2 y x))
    some (if orient then img.orient (st.orient.getD 1) else img)

end Sys2Proof.Machine
end

