-- ==== Sys2Proof/Machine/Png.lean ====
section
/-!
DEFINITION. The PNG kernel (09 R328, R329; W3C PNG).
-/
namespace Sys2Proof.Machine

namespace Config
/-- Whether tRNS makes a palette entry with an alpha strictly between 0 and 255 opaque: R329 gives 0 or the maximum and does
not say which. -/
opaque paletteOpaque : Nat → Bool
end Config

/-- A chunk: its type and its data. -/
structure PngChunk where
  typ : List Byte
  data : List Byte
deriving DecidableEq, Repr

/-- The chunks up to IEND, each with its CRC; fuel bounds them. -/
def pngChunks : Nat → List Byte → Option (List PngChunk)
  | 0, _ => none
  | f + 1, l =>
    let n := ofBe (l.take 4)
    let body := (l.drop 4).take (4 + n)
    if l.length < 12 + n || ofBe ((l.drop (8 + n)).take 4) ≠ crc32 body then none
    else
      let c : PngChunk := ⟨body.take 4, body.drop 4⟩
      if c.typ = [0x49, 0x45, 0x4E, 0x44] then (if n = 0 then some [c] else none)
      else (pngChunks f (l.drop (12 + n))).map (fun r => c :: r)

/-- IHDR: width, height, bit depth, colour type, interlace. -/
structure PngHead where
  w : Nat
  h : Nat
  depth : Nat
  colour : Nat
  adam : Bool
deriving DecidableEq, Repr

/-- Bit depths of a colour type. -/
def pngDepths (colour : Nat) : List Nat :=
  match colour with
  | 0 => [1, 2, 4, 8, 16]
  | 3 => [1, 2, 4, 8]
  | 2 => [8, 16]
  | 4 => [8, 16]
  | 6 => [8, 16]
  | _ => []

def pngHead (d : List Byte) : Option PngHead :=
  let w := ofBe (d.take 4)
  let h := ofBe ((d.drop 4).take 4)
  let b (i : Nat) : Nat := (d.getD i 0).toNat
  if d.length ≠ 13 || w = 0 || h = 0 || 2 ^ 31 ≤ w || 2 ^ 31 ≤ h || !(pngDepths (b 9)).contains (b 8) || b 10 ≠ 0 || b 11 ≠ 0 || 1 < b 12 then none
  else some ⟨w, h, b 8, b 9, b 12 = 1⟩

/-- Channels of a colour type as stored. -/
def PngHead.chans (p : PngHead) : Nat :=
  match p.colour with
  | 2 => 3
  | 4 => 2
  | 6 => 4
  | _ => 1

/-- Passes: first column, first row, column step and row step. -/
def PngHead.passes (p : PngHead) : List (Nat × Nat × Nat × Nat) :=
  if p.adam then [(0, 0, 8, 8), (4, 0, 8, 8), (0, 4, 4, 8), (2, 0, 4, 4), (0, 2, 2, 4), (1, 0, 2, 2), (0, 1, 1, 2)] else [(0, 0, 1, 1)]

/-- Columns and rows of a pass. -/
def PngHead.passSize (p : PngHead) (q : Nat × Nat × Nat × Nat) : Nat × Nat :=
  ((p.w + q.2.2.1 - 1 - q.1) / q.2.2.1, (p.h + q.2.2.2 - 1 - q.2.1) / q.2.2.2)

/-- Bytes of a row of n pixels. -/
def PngHead.rowBytes (p : PngHead) (n : Nat) : Nat := (n * p.chans * p.depth + 7) / 8

/-- Bytes of all passes with their filter bytes. -/
def PngHead.total (p : PngHead) : Nat :=
  (p.passes.map (fun q => let s := p.passSize q; if s.1 = 0 then 0 else s.2 * (1 + p.rowBytes s.1))).sum

/-- The predictor of Paeth. -/
def paeth (a b c : Nat) : Nat :=
  let p : Int := (a : Int) + b - c
  let pa := (p - a).natAbs
  let pb := (p - b).natAbs
  let pc := (p - c).natAbs
  if pa ≤ pb && pa ≤ pc then a else if pb ≤ pc then b else c

/-- A row with its filter undone: the filter type, bytes per pixel, and the row above. -/
def unfilter (ft bpp : Nat) (above : Array Nat) (row : List Byte) : Array Nat :=
  row.foldl (fun (o : Array Nat) b =>
    let i := o.size
    let l := if bpp ≤ i then o.getD (i - bpp) 0 else 0
    let u := above.getD i 0
    let c := if bpp ≤ i then above.getD (i - bpp) 0 else 0
    let p := match ft with
      | 1 => l
      | 2 => u
      | 3 => (l + u) / 2
      | 4 => paeth l u c
      | _ => 0
    o.push ((b.toNat + p) % 256)) #[]

/-- The rows of a pass, and the bytes after it. -/
def pngRows (bpp n : Nat) : Nat → Array Nat → List Byte → Option (List (Array Nat) × List Byte)
  | 0, _, l => some ([], l)
  | k + 1, above, l =>
    match l with
    | [] => none
    | ft :: r =>
      if 4 < ft.toNat then none
      else
        let row := unfilter ft.toNat bpp above (r.take n)
        (pngRows bpp n k row (r.drop n)).map (fun x => (row :: x.1, x.2))

/-- Sample i of a row. -/
def pngSample (depth : Nat) (row : Array Nat) (i : Nat) : Nat :=
  if depth = 16 then row.getD (2 * i) 0 * 256 + row.getD (2 * i + 1) 0
  else row.getD (i * depth / 8) 0 / 2 ^ (8 - depth - i * depth % 8) % 2 ^ depth

/-- The passes one after the other: every sample as stored. -/
def pngPasses (p : PngHead) : List (Nat × Nat × Nat × Nat) → List Byte → Array Nat → Option (Array Nat)
  | [], l, a => if l = [] then some a else none
  | q :: qs, l, a =>
    let (w, h) := p.passSize q
    if w = 0 || h = 0 then pngPasses p qs l a
    else
      match pngRows (max 1 (p.chans * p.depth / 8)) (p.rowBytes w) h #[] l with
      | none => none
      | some (rows, r) =>
        let a := rows.zipIdx.foldl (fun (a : Array Nat) (rw : Array Nat × Nat) =>
          (List.range (w * p.chans)).foldl (fun a i =>
            let x := q.1 + i / p.chans * q.2.2.1
            let y := q.2.1 + rw.2 * q.2.2.2
            a.setIfInBounds ((y * p.w + x) * p.chans + i % p.chans) (pngSample p.depth rw.1 i)) a) a
        pngPasses p qs r a

/-- The image of the stored samples (R329): samples below 8 bits expanded, indices through PLTE, alpha from tRNS. -/
def pngImage (p : PngHead) (plte trns : Option (List Byte)) (raw : Array Nat) : Option Image :=
  let s (y x k : Nat) : Nat := raw.getD ((y * p.w + x) * p.chans + k) 0
  let wide := p.depth = 16
  let top := if wide then 65535 else 255
  let up (v : Nat) : Nat := if p.depth < 8 then v * 255 / (2 ^ p.depth - 1) else v
  match p.colour with
  | 3 =>
    match plte with
    | none => none
    | some pl =>
      let ent (i k : Nat) : Nat := (pl.getD (3 * i + k) 0).toNat
      if raw.any (fun i => pl.length ≤ 3 * i) then none
      else
        match trns with
        | none => some (mkImage p.h p.w 3 false (fun y x k => ent (s y x 0) k))
        | some t =>
          let al (i : Nat) : Nat :=
            let a := (t.getD i 255).toNat
            if a = 0 then 0 else if a = 255 || Config.paletteOpaque a then 255 else 0
          some (mkImage p.h p.w 4 false (fun y x k => if k < 3 then ent (s y x 0) k else al (s y x 0)))
  | 0 =>
    match trns with
    | none => some (mkImage p.h p.w 1 wide (fun y x _ => up (s y x 0)))
    | some t => some (mkImage p.h p.w 2 wide (fun y x k => if k = 0 then up (s y x 0) else if s y x 0 = ofBe (t.take 2) then 0 else top))
  | 2 =>
    match trns with
    | none => some (mkImage p.h p.w 3 wide s)
    | some t => some (mkImage p.h p.w 4 wide (fun y x k =>
        if k < 3 then s y x k
        else if (List.range 3).all (fun j => s y x j = ofBe ((t.drop (2 * j)).take 2)) then 0 else top))
  | _ => some (mkImage p.h p.w p.chans wide s)

def pngSignature : List Byte := [0x89, 0x50, 0x4E, 0x47, 0x0D, 0x0A, 0x1A, 0x0A]
def ihdr : List Byte := [0x49, 0x48, 0x44, 0x52]
def plteType : List Byte := [0x50, 0x4C, 0x54, 0x45]
def idat : List Byte := [0x49, 0x44, 0x41, 0x54]
def trnsType : List Byte := [0x74, 0x52, 0x4E, 0x53]
def iend : List Byte := [0x49, 0x45, 0x4E, 0x44]

/-- Order and number of the chunks of a PNG image: one IHDR in front, IDAT chunks in one run, at most one PLTE and one tRNS in
front of them, no other critical chunk. -/
def pngOrderOk (p : PngHead) (cs : List PngChunk) : Bool :=
  let at_ (t : List Byte) : List Nat := (cs.zipIdx.filter (fun x => x.1.typ = t)).map (fun x => x.2)
  let data := at_ idat
  let first := data.headD 0
  let len (t : List Byte) : Nat := ((cs.find? (fun c => c.typ = t)).map (fun c => c.data.length)).getD 0
  let np := (at_ plteType).length
  let nt := (at_ trnsType).length
  (at_ ihdr).length = 1 && data ≠ [] && data = (List.range data.length).map (fun i => first + i) && np ≤ 1 && nt ≤ 1 &&
    (at_ plteType).all (fun i => i < first) && (at_ trnsType).all (fun i => i < first && (at_ plteType).all (fun k => k < i)) &&
    cs.all (fun c => bitAt (c.typ.headD 0).toNat 5 || [ihdr, plteType, idat, iend].contains c.typ) &&
    (np = 0 || (len plteType % 3 = 0 && 1 ≤ len plteType / 3 && len plteType / 3 ≤ (if p.colour = 3 then 2 ^ p.depth else 256) &&
      p.colour ≠ 0 && p.colour ≠ 4)) &&
    (p.colour ≠ 3 || np = 1) &&
    (nt = 0 || (match p.colour with
      | 0 => len trnsType = 2
      | 2 => len trnsType = 6
      | 3 => len trnsType ≤ len plteType / 3
      | _ => false))

/-- The PNG kernel (R328): limits on pixels and sides, and whether tRNS makes an alpha channel. -/
def pngKernel (maxPixels maxSide : Nat) (trnsAlpha : Bool) (l : List Byte) : Option Image := do
  if l.take 8 ≠ pngSignature then none
  else
    let cs ← pngChunks (l.length + 1) (l.drop 8)
    match cs with
    | [] => none
    | c0 :: _ =>
      if c0.typ ≠ ihdr then none
      else
        let p ← pngHead c0.data
        if maxPixels < p.w * p.h || maxSide < p.w || maxSide < p.h || !pngOrderOk p cs then none
        else
          let z := (cs.filter (fun c => c.typ = idat)).flatMap (fun c => c.data)
          let r ← zlibFrame p.total z
          if r.rest ≠ [] || r.out.length ≠ p.total then none
          else
            let raw ← pngPasses p p.passes r.out (Array.replicate (p.w * p.h * p.chans) 0)
            let get (t : List Byte) : Option (List Byte) := (cs.find? (fun c => c.typ = t)).map (fun c => c.data)
            pngImage p (get plteType) (if trnsAlpha then get trnsType else none) raw

end Sys2Proof.Machine
end

