-- ==== Sys2Proof/Machine/Lz4.lean ====
section
/-!
DEFINITION. The shipped decompressor of the LZ4 frame format (10 R352, R353, R355).
-/
namespace Sys2Proof.Machine

/-- A length continued in bytes of 255; fuel bounds them. -/
def lz4Len (a : Array Byte) (stop : Nat) : Nat → Nat → Nat → Option (Nat × Nat)
  | 0, _, _ => none
  | f + 1, p, n =>
    if stop ≤ p then none
    else
      let b := (a.getD p 0).toNat
      if b = 255 then lz4Len a stop f (p + 1) (n + 255) else some (n + b, p + 1)

/-- The sequences of a block that ends at byte stop; base is the first output byte that a match may reach. -/
def lz4Block (a : Array Byte) (stop base lim : Nat) : Nat → Nat → Array Byte → Option (Array Byte)
  | 0, _, _ => none
  | f + 1, p, o => do
    if stop ≤ p then none
    else
      let t := (a.getD p 0).toNat
      let (n, p) ← if t / 16 = 15 then lz4Len a stop (stop + 1) (p + 1) 15 else some (t / 16, p + 1)
      if stop < p + n || lim < o.size + n then none
      else
        let o := o ++ a.extract p (p + n)
        let p := p + n
        if p = stop then some o
        else if stop < p + 2 then none
        else
          let d := (a.getD p 0).toNat + 256 * (a.getD (p + 1) 0).toNat
          let (k, p) ← if t % 16 = 15 then lz4Len a stop (stop + 1) (p + 2) 15 else some (t % 16, p + 2)
          if d = 0 || o.size - base < d || lim < o.size + k + 4 then none
          else lz4Block a stop base lim f p (copyBack d (k + 4) o)

/-- The blocks of a frame from byte p on: the byte after the end mark, and the output. -/
def lz4Blocks (a : Array Byte) (indep sums : Bool) (max lim : Nat) : Nat → Nat → Array Byte → Option (Nat × Array Byte)
  | 0, _, _ => none
  | f + 1, p, o => do
    let w := ofLe (a.extract p (p + 4)).toList
    if a.size < p + 4 then none
    else if w = 0 then some (p + 4, o)
    else
      let n := w % 2 ^ 31
      let q := p + 4
      let e := q + n
      if a.size < e + (if sums then 4 else 0) || max < n then none
      else if sums && ofLe (a.extract e (e + 4)).toList ≠ xxh32 (a.extract q e).toList then none
      else
        let top := min lim (o.size + max)
        let o' ← if w / 2 ^ 31 = 1 then (if lim < o.size + n then none else some (o ++ a.extract q e))
          else lz4Block a e (if indep then o.size else o.size - 65535) top (n + 1) q o
        lz4Blocks a indep sums max lim f (if sums then e + 4 else e) o'

/-- An LZ4 frame: descriptor with its checksum byte, blocks, content size and content checksum. -/
def lz4Frame (lim : Nat) (l : List Byte) : Option FrameOut := do
  let flg := leAt l 4 1
  let bd := leAt l 5 1
  let size := bitAt flg 3
  let n := if size then 14 else 6
  if l.length < n + 1 || leAt l 0 4 ≠ 0x184D2204 || flg / 64 ≠ 1 || bitAt flg 1 || bitAt flg 0 || bd % 16 ≠ 0 || bitAt bd 7 ||
      bd / 16 < 4 || leAt l n 1 ≠ xxh32 ((l.take n).drop 4) / 256 % 256 then none
  else
    let a := l.toArray
    let (p, o) ← lz4Blocks a (bitAt flg 5) (bitAt flg 4) (2 ^ (8 + 2 * (bd / 16))) lim (a.size + 1) (n + 1) #[]
    let out := o.toList
    if size && leAt l 6 8 ≠ out.length then none
    else if bitAt flg 2 then
      (if l.length < p + 4 || leAt l p 4 ≠ xxh32 out then none else some ⟨out, true, l.drop (p + 4)⟩)
    else some ⟨out, false, l.drop p⟩

end Sys2Proof.Machine
end

