-- ==== Sys2Proof/Machine/Zstd.lean ====
section
/-!
DEFINITION. The shipped decompressor of Zstandard (10 R352 to R355; RFC 8878): frames, blocks, literals, sequences and
dictionaries.
-/
namespace Sys2Proof.Machine

/-! ### Bits read backwards -/

/-- A bit stream that is read from its end: its bytes from s on, and how many bits are left. -/
structure BackBits where
  src : Array Byte
  start : Nat
  left : Nat
deriving DecidableEq, Repr

/-- The stream in bytes s to e; its last byte holds the end mark, its highest set bit. -/
def backBits (a : Array Byte) (s e : Nat) : Option BackBits :=
  let b := (a.getD (e - 1) 0).toNat
  if e ≤ s || b = 0 || a.size < e then none else some ⟨a, s, 8 * (e - 1 - s) + Nat.log2 b⟩

/-- The next n bits, without taking them; bits past the start of the stream are 0. -/
def BackBits.peek (r : BackBits) (n : Nat) : Nat :=
  let k := min n r.left
  (List.range k).foldl (fun v i => v + bitLe r.src (8 * r.start + r.left - k + i) * 2 ^ i) 0 * 2 ^ (n - k)

/-- The next n bits taken; none where fewer are left. -/
def BackBits.take (r : BackBits) (n : Nat) : Option (Nat × BackBits) :=
  if n ≤ r.left then some (r.peek n, { r with left := r.left - n }) else none

/-! ### FSE tables (RFC 8878, 4.1) -/

/-- A cell of an FSE table: symbol, bits to read, and base of the next state. -/
structure FseCell where
  sym : Nat
  bits : Nat
  base : Nat
deriving DecidableEq, Repr

structure FseTable where
  log : Nat
  cells : Array FseCell
deriving DecidableEq, Repr

def FseTable.cell (t : FseTable) (s : Nat) : FseCell := t.cells.getD s ⟨0, 0, 0⟩

/-- The next free position of the spread; fuel bounds the steps. -/
def spreadNext (size high : Nat) : Nat → Nat → Nat
  | 0, p => p
  | f + 1, p =>
    let q := (p + size / 2 + size / 8 + 3) % size
    if q < high then q else spreadNext size high f q

/-- The table of a distribution: −1 stands for a symbol of less than one cell. -/
def fseTable (log : Nat) (probs : List Int) : FseTable :=
  let size := 2 ^ log
  let low := (probs.zipIdx.filter (fun p => p.1 < 0)).map (fun p => p.2)
  let high := size - low.length
  let top := low.zipIdx.foldl (fun (t : Array Nat) p => t.setIfInBounds (size - 1 - p.2) p.1) (Array.replicate size 0)
  let order := probs.zipIdx.flatMap (fun p => List.replicate p.1.toNat p.2)
  let spread := (order.foldl (fun (s : Array Nat × Nat) x => (s.1.setIfInBounds s.2 x, spreadNext size high size s.2)) (top, 0)).1
  let first := (probs.map (fun p => if p < 0 then 1 else p.toNat)).toArray
  let r := spread.foldl (fun (s : Array FseCell × Array Nat) x =>
    let next := s.2.getD x 1
    let nb := log - Nat.log2 next
    (s.1.push ⟨x, nb, next * 2 ^ nb - size⟩, s.2.setIfInBounds x (next + 1))) (#[], first)
  ⟨log, r.1⟩

/-- Zero probabilities in runs of up to 3; fuel bounds the runs. -/
def fseZeros (a : Array Byte) : Nat → Nat → List Int → Option (Nat × List Int)
  | 0, _, _ => none
  | f + 1, p, ps => do
    let n ← bitsLe a p 2
    let ps := ps ++ List.replicate n 0
    if n = 3 then fseZeros a f (p + 2) ps else some (p + 2, ps)

/-- The probabilities of a description, until they sum to the table's size; fuel bounds the symbols. -/
def fseProbs (a : Array Byte) (most : Nat) : Nat → Nat → Nat → List Int → Option (Nat × List Int)
  | 0, _, _, _ => none
  | f + 1, p, remain, ps =>
    if most < ps.length then none
    else if remain = 0 then some (p, ps)
    else do
      let bits := Nat.log2 (remain + 1) + 1
      let thr := 2 ^ bits - 1 - (remain + 1)
      let low ← bitsLe a p (bits - 1)
      let (val, p) ← (if low < thr then some (low, p + bits - 1)
        else do
          let b ← bitsLe a (p + bits - 1) 1
          some (if b = 1 then low + 2 ^ (bits - 1) - thr else low, p + bits))
      let prob : Int := (val : Int) - 1
      if remain < prob.natAbs then none
      else
        let ps := ps ++ [prob]
        let (p, ps) ← if prob = 0 then fseZeros a (most + 1) p ps else some (p, ps)
        fseProbs a most f p (remain - prob.natAbs) ps

/-- A table description from byte p on, of at most so many symbols: the table and the byte after it. -/
def fseRead (a : Array Byte) (p maxLog most : Nat) : Option (Nat × FseTable) := do
  let l ← bitsLe a (8 * p) 4
  if maxLog < l + 5 then none
  else
    let (q, ps) ← fseProbs a most (most + 2) (8 * p + 4) (2 ^ (l + 5)) []
    some ((q + 7) / 8, fseTable (l + 5) ps)

/-! ### Huffman codes of literals (RFC 8878, 4.2) -/

/-- A Huffman decoding table: symbol and length by the next log bits. -/
structure HufTable where
  log : Nat
  cells : Array (Nat × Nat)
deriving DecidableEq, Repr

/-- The table of the weights of all symbols but the last that has a code. -/
def hufTable (ws : List Nat) : Option HufTable :=
  let sum := (ws.map (fun w => if w = 0 then 0 else 2 ^ (w - 1))).sum
  let log := Nat.log2 sum + 1
  let rest := 2 ^ log - sum
  if sum = 0 || 11 < log || ws.any (fun w => 11 < w) || 2 ^ Nat.log2 rest ≠ rest then none
  else
    let all := ws ++ [Nat.log2 rest + 1]
    let of_ (w : Nat) : List (Nat × Nat) :=
      (all.zipIdx.filter (fun p => p.1 = w)).flatMap (fun p => List.replicate (2 ^ (w - 1)) (p.2, log + 1 - w))
    some ⟨log, ((List.range log).flatMap (fun w => of_ (w + 1))).toArray⟩

/-- Weights decoded from two FSE states in turn; fuel bounds them. -/
def hufWeights (t : FseTable) : Nat → BackBits → Nat → Nat → List Nat → Option (List Nat)
  | 0, _, _, _, _ => none
  | f + 1, r, s1, s2, ws =>
    let c := t.cell s1
    let ws := ws ++ [c.sym]
    match r.take c.bits with
    | none => some (ws ++ [(t.cell s2).sym])
    | some (x, r) => hufWeights t f r s2 (c.base + x) ws

/-- A tree description from byte p on: the table and the byte after it. -/
def hufRead (a : Array Byte) (p : Nat) : Option (Nat × HufTable) := do
  let h := (a.getD p 0).toNat
  if a.size ≤ p then none
  else if h < 128 then
    let e := p + 1 + h
    let (q, t) ← fseRead (a.extract 0 e) (p + 1) 6 13
    let r ← backBits a q e
    let (s1, r) ← r.take t.log
    let (s2, r) ← r.take t.log
    let ws ← hufWeights t 256 r s1 s2 []
    let ht ← hufTable ws
    if 255 < ws.length then none else some (e, ht)
  else
    let n := h - 127
    let e := p + 1 + (n + 1) / 2
    let ws := (List.range n).map (fun i => let b := (a.getD (p + 1 + i / 2) 0).toNat; if i % 2 = 0 then b / 16 else b % 16)
    let ht ← hufTable ws
    if a.size < e then none else some (e, ht)

/-- n literals of a stream, which they use up exactly. -/
def hufStream (t : HufTable) : Nat → BackBits → Array Byte → Option (Array Byte)
  | 0, r, o => if r.left = 0 then some o else none
  | n + 1, r, o =>
    let c := t.cells.getD (r.peek t.log) (0, 0)
    match r.take c.2 with
    | some (_, r) => hufStream t n r (o.push (BitVec.ofNat 8 c.1))
    | none => none

/-- Literals in one stream, or in four behind a jump table. -/
def hufLiterals (t : HufTable) (a : Array Byte) (s e n : Nat) (four : Bool) : Option (Array Byte) := do
  if !four then
    let r ← backBits a s e
    hufStream t n r #[]
  else
    let sz (i : Nat) : Nat := ofLe (a.extract (s + 2 * i) (s + 2 * i + 2)).toList
    let k := (n + 3) / 4
    let p1 := s + 6
    let p2 := p1 + sz 0
    let p3 := p2 + sz 1
    let p4 := p3 + sz 2
    if e < s + 10 || e ≤ p4 || n < 3 * k then none
    else
      let r1 ← backBits a p1 p2
      let o ← hufStream t k r1 #[]
      let r2 ← backBits a p2 p3
      let o ← hufStream t k r2 o
      let r3 ← backBits a p3 p4
      let o ← hufStream t k r3 o
      let r4 ← backBits a p4 e
      hufStream t (n - 3 * k) r4 o

/-! ### Blocks (RFC 8878, 3.1.1.2 and 3.1.1.3) -/

/-- What one block of a frame leaves to the next. -/
structure ZState where
  huf : Option HufTable
  ll : Option FseTable
  off : Option FseTable
  ml : Option FseTable
  reps : List Nat
deriving DecidableEq, Repr

/-- A dictionary: its tables, offsets and content (R354). -/
structure ZDict where
  st : ZState
  content : List Byte
deriving DecidableEq, Repr

def ZState.start : ZState := ⟨none, none, none, none, [1, 4, 8]⟩

def zLlBase : List Nat := List.range 16 ++ [16, 18, 20, 22, 24, 28, 32, 40, 48, 64, 128, 256, 512, 1024, 2048, 4096, 8192, 16384, 32768, 65536]
def zLlBits : List Nat := List.replicate 16 0 ++ [1, 1, 1, 1, 2, 2, 3, 3, 4, 6, 7, 8, 9, 10, 11, 12, 13, 14, 15, 16]
def zMlBase : List Nat := (List.range 32).map (fun i => i + 3) ++
  [35, 37, 39, 41, 43, 47, 51, 59, 67, 83, 99, 131, 259, 515, 1027, 2051, 4099, 8195, 16387, 32771, 65539]
def zMlBits : List Nat := List.replicate 32 0 ++ [1, 1, 1, 1, 2, 2, 3, 3, 4, 4, 5, 7, 8, 9, 10, 11, 12, 13, 14, 15, 16]
def zLlDefault : List Int := [4, 3] ++ List.replicate 11 2 ++ [1, 1, 1] ++ List.replicate 9 2 ++ [3, 2, 1, 1, 1, 1, 1, -1, -1, -1, -1]
def zMlDefault : List Int := [1, 4, 3, 2, 2, 2, 2, 2, 2] ++ List.replicate 37 1 ++ List.replicate 7 (-1)
def zOffDefault : List Int := [1, 1, 1, 1, 1, 1, 2, 2, 2] ++ List.replicate 15 1 ++ List.replicate 5 (-1)

/-- The literals section of a block in bytes p to e: literals, the byte after the section, and the Huffman table kept. -/
def zLiterals (a : Array Byte) (p e : Nat) (h : Option HufTable) : Option (Array Byte × Nat × Option HufTable) := do
  let w := ofLe (a.extract p (min e (p + 5))).toList
  let kind := w % 4
  let sf := w / 4 % 4
  if e ≤ p then none
  else if kind < 2 then
    let (n, hd) := if sf % 2 = 0 then (w / 8 % 32, 1) else if sf = 1 then (w / 16 % 2 ^ 12, 2) else (w / 16 % 2 ^ 20, 3)
    let q := p + hd
    if 2 ^ 17 < n || e < q + (if kind = 0 then n else 1) then none
    else if kind = 0 then some (a.extract q (q + n), q + n, h)
    else some (Array.replicate n (a.getD q 0), q + 1, h)
  else
    let k := if sf < 2 then 10 else if sf = 2 then 14 else 18
    let hd := if sf < 2 then 3 else if sf = 2 then 4 else 5
    let n := w / 16 % 2 ^ k
    let c := w / 2 ^ (4 + k) % 2 ^ k
    let q := p + hd
    if e < q + c || 2 ^ 17 < n then none
    else
      let (s, t) ← if kind = 2 then hufRead (a.extract 0 (q + c)) q else h.map (fun t => (q, t))
      let o ← hufLiterals t a s (q + c) n (sf ≠ 0)
      some (o, q + c, some t)

/-- The table that a mode of the sequences section gives, and the byte after its description. -/
def zTable (a : Array Byte) (p e mode maxLog most defLog : Nat) (dflt : List Int) (old : Option FseTable) : Option (Nat × FseTable) :=
  match mode with
  | 0 => some (p, fseTable defLog dflt)
  | 1 => if e ≤ p || most ≤ (a.getD p 0).toNat then none else some (p + 1, ⟨0, #[⟨(a.getD p 0).toNat, 0, 0⟩]⟩)
  | 2 => fseRead (a.extract 0 e) p maxLog most
  | _ => old.map (fun t => (p, t))

/-- The offset of a sequence, and the three recent offsets after it. -/
def zOffset (reps : List Nat) (v lits : Nat) : Nat × List Nat :=
  let r (i : Nat) : Nat := reps.getD i 0
  if 3 < v then (v - 3, [v - 3, r 0, r 1])
  else
    match v - 1 + (if lits = 0 then 1 else 0) with
    | 0 => (r 0, reps)
    | 1 => (r 1, [r 1, r 0, r 2])
    | 2 => (r 2, [r 2, r 0, r 1])
    | _ => (r 0 - 1, [r 0 - 1, r 0, r 1])

/-- Sequences run one by one: literals, then a match that may reach back over the window or into the dictionary. The
output holds the dictionary's content in front. -/
def zSequences (ll off ml : FseTable) (lits : Array Byte) (pre window lim : Nat) :
    Nat → BackBits → Nat → Nat → Nat → List Nat → Nat → Array Byte → Option (List Nat × Nat × Array Byte)
  | 0, r, _, _, _, reps, lp, o => if r.left = 0 then some (reps, lp, o) else none
  | n + 1, r, sl, so, sm, reps, lp, o => do
    let oc := (off.cell so).sym
    let lc := (ll.cell sl).sym
    let mc := (ml.cell sm).sym
    let (x, r) ← r.take oc
    let (y, r) ← r.take (zMlBits.getD mc 0)
    let (z, r) ← r.take (zLlBits.getD lc 0)
    let len := zMlBase.getD mc 0 + y
    let k := zLlBase.getD lc 0 + z
    let (d, reps) := zOffset reps (2 ^ oc + x) k
    let o := o ++ lits.extract lp (lp + k)
    let made := o.size - pre
    let reach := if made ≤ window then o.size else window
    if lits.size < lp + k || d = 0 || reach < d || lim < o.size + len then none
    else
      let o := copyBack d len o
      if n = 0 then zSequences ll off ml lits pre window lim n r sl so sm reps (lp + k) o
      else
        let (u, r) ← r.take (ll.cell sl).bits
        let (w, r) ← r.take (ml.cell sm).bits
        let (t, r) ← r.take (off.cell so).bits
        zSequences ll off ml lits pre window lim n r ((ll.cell sl).base + u) ((off.cell so).base + t) ((ml.cell sm).base + w) reps (lp + k) o

/-- A compressed block in bytes p to e. -/
def zBlock (a : Array Byte) (p e pre window top : Nat) (st : ZState) (o : Array Byte) : Option (ZState × Array Byte) := do
  let (lits, p, huf) ← zLiterals a p e st.huf
  let b0 := (a.getD p 0).toNat
  let b1 := (a.getD (p + 1) 0).toNat
  let b2 := (a.getD (p + 2) 0).toNat
  if e ≤ p then none
  else if b0 = 0 then
    (if e ≠ p + 1 || top < o.size + lits.size then none else some ({ st with huf := huf }, o ++ lits))
  else
    let (n, q) := if b0 < 128 then (b0, p + 1) else if b0 < 255 then ((b0 - 128) * 256 + b1, p + 2) else (b1 + 256 * b2 + 0x7F00, p + 3)
    let md := (a.getD q 0).toNat
    if e ≤ q || md % 4 ≠ 0 then none
    else
      let (q, ll) ← zTable a (q + 1) e (md / 64) 9 36 6 zLlDefault st.ll
      let (q, off) ← zTable a q e (md / 16 % 4) 8 32 5 zOffDefault st.off
      let (q, ml) ← zTable a q e (md / 4 % 4) 9 53 6 zMlDefault st.ml
      let r ← backBits a q e
      let (sl, r) ← r.take ll.log
      let (so, r) ← r.take off.log
      let (sm, r) ← r.take ml.log
      let (reps, lp, o) ← zSequences ll off ml lits pre window top n r sl so sm st.reps 0 o
      let o := o ++ lits.extract lp lits.size
      if top < o.size then none else some (⟨huf, some ll, some off, some ml, reps⟩, o)

/-- The blocks of a frame from byte p on: the byte after the last, and the output behind its first pre bytes. -/
def zBlocks (a : Array Byte) (pre window lim : Nat) : Nat → Nat → ZState → Array Byte → Option (Nat × Array Byte)
  | 0, _, _, _ => none
  | f + 1, p, st, o => do
    let h := ofLe (a.extract p (p + 3)).toList
    let n := h / 8
    let q := p + 3
    let most := min window (2 ^ 17)
    let top := min (pre + lim) (o.size + most)
    if a.size < q then none
    else
      let (e, st, o) ← (match h / 2 % 4 with
        | 0 => if a.size < q + n || top < o.size + n then none else some (q + n, st, o ++ a.extract q (q + n))
        | 1 => if a.size < q + 1 || top < o.size + n then none else some (q + 1, st, o ++ Array.replicate n (a.getD q 0))
        | 2 => if a.size < q + n || most < n then none
            else (zBlock a q (q + n) pre window top st o).map (fun r => (q + n, r.1, r.2))
        | _ => none)
      if h % 2 = 1 then some (e, o) else zBlocks a pre window lim f e st o

/-! ### Frames (RFC 8878, 3.1.1, 5) -/

/-- A dictionary with header: its ID, entropy tables, recent offsets and content. -/
def zDictOf (t : List Byte) : Option ZDict := do
  let a := t.toArray
  let (p, huf) ← hufRead a 8
  let (p, off) ← fseRead a p 8 32
  let (p, ml) ← fseRead a p 9 53
  let (p, ll) ← fseRead a p 9 36
  let reps := [leAt t p 4, leAt t (p + 4) 4, leAt t (p + 8) 4]
  let content := t.drop (p + 12)
  if t.length < p + 12 || reps.any (fun r => r = 0 || content.length < r) then none
  else some ⟨⟨some huf, some ll, some off, some ml, reps⟩, content⟩

/-- The dictionary that an ID names among some tables. -/
def zDictFind (ts : List (List Byte)) (id : Nat) : Option ZDict :=
  (ts.find? (fun t => leAt t 0 4 = 0xEC30A437 && leAt t 4 4 = id)).bind zDictOf

/-- A Zstandard frame: window up to 128 MiB, dictionary among the tables given, content size and content checksum. -/
def zstdFrame (ts : List (List Byte)) (lim : Nat) (l : List Byte) : Option FrameOut := do
  let d := leAt l 4 1
  let single := bitAt d 5
  let idLen := [0, 1, 2, 4].getD (d % 4) 0
  let szLen := if d / 64 = 0 then (if single then 1 else 0) else 2 ^ (d / 64)
  let p := if single then 5 else 6
  let id := leAt l p idLen
  let size := leAt l (p + idLen) szLen + (if szLen = 2 then 256 else 0)
  let w := leAt l 5 1
  let window := if single then size else 2 ^ (10 + w / 8) / 8 * (8 + w % 8)
  let hd := p + idLen + szLen
  if l.length < hd || leAt l 0 4 ≠ 0xFD2FB528 || bitAt d 3 || 2 ^ 27 < window then none
  else
    let dict ← if id = 0 then some (⟨ZState.start, []⟩ : ZDict) else zDictFind ts id
    let a := l.toArray
    let pre := dict.content.length
    let (q, o) ← zBlocks a pre window lim (a.size + 1) hd dict.st dict.content.toArray
    let out := (o.extract pre o.size).toList
    if szLen ≠ 0 && size ≠ out.length then none
    else if bitAt d 2 then
      (if l.length < q + 4 || leAt l q 4 ≠ xxh64 out % 2 ^ 32 then none else some ⟨out, true, l.drop (q + 4)⟩)
    else some ⟨out, false, l.drop q⟩

end Sys2Proof.Machine
end

