-- ==== Sys2Proof/Machine/Unpack.lean ====
section
/-!
DEFINITION. Bodies of several frames and the check-absent policy (10 R353, R356, R357), the Abhar frame (09 R317, R320),
and the frames that the compressors make (10 R358, R359).
-/
namespace Sys2Proof.Machine

namespace Config
/-- What the shipped compressor of a format and level makes of an input, between the bytes of the frame that R358 fixes: it
depends on nothing else (10 R359), and the spec does not state it. -/
opaque compressed : Nat → Nat → List Byte → List Byte
end Config

/-- FLEVEL of a zlib header (R358). -/
def zlibLevel (level : Nat) : Nat := if level ≤ 1 then 0 else if level ≤ 5 then 1 else if level = 6 then 2 else 3

/-- The frame that the shipped compressors make of an item: its fixed header fields, and its check value (R358). -/
def compressFrame (format level : Nat) (l : List Byte) : List Byte :=
  let body := Config.compressed format level l
  match format with
  | 1 => leBytes 4 0xFD2FB528 ++ body ++ leBytes 4 (xxh64 l)
  | 3 =>
    let flg := zlibLevel level * 64
    beBytes 1 0x78 ++ beBytes 1 (flg + (31 - (0x7800 + flg) % 31) % 31) ++ body ++ beBytes 4 (adler32 l)
  | 4 => [0x1F, 0x8B, 8, 0, 0, 0, 0, 0, 0, 0xFF] ++ body ++ leBytes 4 (crc32 l) ++ leBytes 4 l.length
  | 5 =>
    let desc := [0x6C, 0x70] ++ leBytes 8 l.length
    leBytes 4 0x184D2204 ++ desc ++ leBytes 1 (xxh32 desc / 256) ++ body ++ leBytes 4 0 ++ leBytes 4 (xxh32 l)
  | _ => body

/-- Largest input of an item and of a body, and the largest output (09 R317, R321, 10 R362, R363). -/
def itemMax : Nat := 2 ^ 26
def codecOutMax : Nat := 2 ^ 28

/-- A skippable frame of Zstandard and LZ4: the bytes after it (10 R353). -/
def skippable (l : List Byte) : Option (List Byte) :=
  let n := leAt l 4 4
  if leAt l 0 4 / 16 = 0x184D2A5 && 8 + n ≤ l.length then some (l.drop (8 + n)) else none

/-- The first frame of a format (COMP code) in some bytes. -/
def firstFrame (dicts : List (List Byte)) (comp lim : Nat) (l : List Byte) : Option FrameOut :=
  match comp with
  | 1 => zstdFrame dicts lim l
  | 2 => deflateFrame lim l
  | 3 => zlibFrame lim l
  | 4 => gzipFrame lim l
  | 5 => lz4Frame lim l
  | _ => none

/-- The frames of a body one after the other, their outputs joined (R353), and whether each had a check value; a frame that
fails decides (R357). Fuel counts the frames. -/
def unpackFrames (dicts : List (List Byte)) (comp : Nat) : Nat → Nat → List Byte → List Byte → Bool → Option (List Byte × Bool)
  | 0, _, _, _, _ => none
  | f + 1, lim, l, done, all =>
    match l with
    | [] => some (done, all)
    | _ :: _ =>
      match (if comp = 1 || comp = 5 then skippable l else none) with
      | some r => unpackFrames dicts comp f lim r done all
      | none =>
        match firstFrame dicts comp lim l with
        | none => none
        | some r => unpackFrames dicts comp f (lim - r.out.length) r.rest (done ++ r.out) (all && r.checked)

/-- A body decompressed to at most lim bytes; COMP 0 is a body as it stands. A failure goes before a check value that is
missing under REQUIRE (R356, 01 R20). -/
def unpack (dicts : List (List Byte)) (comp : Nat) (accept : Bool) (lim : Nat) (l : List Byte) : CodecOut :=
  if comp = 0 then (if l.length ≤ lim then .out l else .checkFail)
  else if l = [] then .checkFail
  else
    match unpackFrames dicts comp (l.length + 1) lim l [] true with
    | none => .checkFail
    | some (out, all) => if all || accept then .out out else .checkAbsent

/-- What step 1 of R320 finds in a frame: CODING, TYPE and the stored body. -/
structure Frame where
  comp : Nat
  enc : Bool
  typ : Nat
  body : List Byte
deriving DecidableEq, Repr

/-- Step 1 of R320: SYNC, lengths, VERSION, reserved bits, padding and CRC. -/
def frameParts (f : List Byte) : Option Frame :=
  let n := leAt f 4 4
  let coding := leAt f 9 1
  let stop := 12 + n
  if f.length < 16 || leAt f 0 4 ≠ 0x52484241 || leAt f 8 1 ≠ 1 || 32 ≤ coding || 6 ≤ coding % 8 || 2 ≤ coding / 8 || n = 0 ||
      itemMax < n || f.length ≠ (stop + 4 + 15) / 16 * 16 || leAt f stop 4 ≠ (crc32c (f.take stop)).toNat ||
      (f.drop (stop + 4)).any (fun b => b ≠ 0) || 5 < leAt f 0x0A 2 then none
  else some ⟨coding % 8, decide (coding / 8 = 1), leAt f 0x0A 2, sliceBytes f 12 n⟩

end Sys2Proof.Machine
end

