-- ==== Sys2Proof/Machine/Utf8.lean ====
section
/-!
DEFINITION. UTF-8 as RFC 3629 defines it, and the TEXT kernel (09 R331).
-/
namespace Sys2Proof.Machine

/-- Continuation bytes after a lead byte, and the range of the first of them; none for a byte that leads nothing. -/
def utf8Lead (b : Nat) : Option (Nat × Nat × Nat) :=
  if b < 0xC2 then none
  else if b < 0xE0 then some (1, 0x80, 0xBF)
  else if b = 0xE0 then some (2, 0xA0, 0xBF)
  else if b = 0xED then some (2, 0x80, 0x9F)
  else if b < 0xF0 then some (2, 0x80, 0xBF)
  else if b = 0xF0 then some (3, 0x90, 0xBF)
  else if b < 0xF4 then some (3, 0x80, 0xBF)
  else if b = 0xF4 then some (3, 0x80, 0x8F)
  else none

/-- How many of some bytes continue a sequence: n at most, the first in a range, the others 0x80 to 0xBF. -/
def utf8Tail : Nat → Nat → Nat → List Byte → Nat
  | 0, _, _, _ => 0
  | _, _, _, [] => 0
  | n + 1, lo, hi, b :: r => if lo ≤ b.toNat && b.toNat ≤ hi then 1 + utf8Tail n 0x80 0xBF r else 0

/-- The first unit of some bytes: whether it is a well-formed sequence, and its length; otherwise the length of its
maximal subpart. -/
def utf8Unit (l : List Byte) : Bool × Nat :=
  match l with
  | [] => (false, 0)
  | b :: r =>
    if b.toNat < 0x80 then (true, 1)
    else
      match utf8Lead b.toNat with
      | none => (false, 1)
      | some (n, lo, hi) => let k := utf8Tail n lo hi r; (k = n, 1 + k)

/-- Bytes cut into units; fuel bounds them. -/
def utf8Units : Nat → List Byte → List (Bool × List Byte)
  | 0, _ => []
  | _, [] => []
  | f + 1, b :: r =>
    let u := utf8Unit (b :: r)
    (u.1, (b :: r).take u.2) :: utf8Units f ((b :: r).drop u.2)

/-- The code point of a well-formed sequence. -/
def codePoint (l : List Byte) : Nat :=
  match l with
  | [a] => a.toNat
  | [a, b] => a.toNat % 32 * 64 + b.toNat % 64
  | [a, b, c] => a.toNat % 16 * 4096 + b.toNat % 64 * 64 + c.toNat % 64
  | [a, b, c, d] => a.toNat % 8 * 262144 + b.toNat % 64 * 4096 + c.toNat % 64 * 64 + d.toNat % 64
  | _ => 0

/-- The TEXT kernel (R331): validated bytes, an invalid sequence refused or each maximal subpart replaced by U+FFFD, one
leading U+FEFF removed. -/
def textKernel (stripBom replace : Bool) (l : List Byte) : Option (List Byte) :=
  let us := utf8Units (l.length + 1) l
  if !replace && us.any (fun u => !u.1) then none
  else
    let out := us.flatMap (fun u => if u.1 then u.2 else [0xEF, 0xBF, 0xBD])
    some (if stripBom && out.take 3 = [0xEF, 0xBB, 0xBF] then out.drop 3 else out)

end Sys2Proof.Machine
end

