-- ==== Sys2Proof/Machine/Decoded.lean ====
section
/-!
DEFINITION. The shipped decode kernels from a stored frame to a decoded sample (09 R317 to R332; 10 R352 to R357).
-/
namespace Sys2Proof.Machine

/-- A decoded sample (R322): an image, a tensor with its element type and shape, text, or a CBOR table. -/
inductive Decoded where
  | image (i : Image)
  | tensor (elem : Nat) (shape : List Nat) (data : List Byte)
  | text (bytes : List Byte)
  | cbor (table : List Byte)
deriving DecidableEq, Repr

namespace Config
/-- What the payload offsets of a CBOR table count from, by the number of its entries: the spec does not say (R332). -/
opaque cborBase : Nat → Nat
/-- A decoded sample read back from the bytes that a decoded cache keeps: the layout of the decoded header is not stated
(R322). A tokenised one is a sequence of tokens. -/
opaque cachedSample : List Byte → Option Decoded
opaque cachedTokens : List Byte → List Nat
end Config

/-- A limit of an options block; 0 means the largest. -/
def optLimit (n most : Nat) : Nat := if n = 0 then most else n

/-- MAX_PIXELS, MAX_OUT and MAX_SIDE of an options block (R321). -/
def optPixels (o : List Byte) : Nat := optLimit (leAt o 0x08 4) (2 ^ 26)
def optOut (o : List Byte) : Nat := optLimit (leAt o 0x0C 4) (2 ^ 28)
def optSide (o : List Byte) : Nat := optLimit (leAt o 0x10 4) 16384

/-- An image after OUT_DEPTH and OUT_CHANNELS, if it keeps MAX_OUT (R321, R329). -/
def imageOut (o : List Byte) (i : Image) : Option Decoded :=
  let j := (i.toDepth (leAt o 3 1)).toChannels (leAt o 2 1)
  if optOut o < j.h * j.w * j.c * (if j.wide then 2 else 1) then none else some (.image j)

/-- The TENSOR kernel (R330). -/
def tensorKernel (shape : List Nat) (elem : Nat) (l : List Byte) : Option Decoded :=
  let n := shape.foldl (fun a d => a * d) 1
  if 0xA < elem || shape.contains 0 || 2 ^ 28 < n || l.length ≠ n * (cvtWidth elem / 8) then none else some (.tensor elem shape l)

/-- A table entry of a data item, with the offset of its payload (R332). -/
def cborEntry (c : CborItem) (off : Nat) : List Byte :=
  leBytes 1 c.major ++ leBytes 1 (c.depth - 1) ++ leBytes 2 c.flags ++ leBytes 4 c.count ++
    leBytes 8 (if c.major = 2 || c.major = 3 then off else c.value)

/-- Entries in encoding order, the payload offset carried along. -/
def cborEntries : Nat → List CborItem → List Byte
  | _, [] => []
  | off, c :: r => cborEntry c off ++ cborEntries (off + c.str.length) r

/-- The CBOR kernel's table, followed by the payload bytes of the strings (R332). -/
def cborTable (l : List CborItem) : List Byte := cborEntries (Config.cborBase l.length) l ++ l.flatMap (fun c => c.str)

/-- The bytes of a record's payload, a single string. -/
def RecordMap.bytes (r : RecordMap) : List Byte := match r.payload with | [c] => c.str | _ => []

/-- Step 5 of R320: the kernel of the content type under an options block (R321). -/
def decodeRecord (o : List Byte) (r : RecordMap) : Option Decoded :=
  let kid := leAt o 0 2
  let flag (n : Nat) : Bool := bitAt (leAt o 6 1) n
  let fits (d : Decoded) (n : Nat) : Option Decoded := if optOut o < n then none else some d
  if kid ≠ 0x100 && kid ≠ 0x100 + r.typ then none
  else
    match r.typ with
    | 1 => (jpegKernel (optPixels o) (optSide o) (leAt o 4 1) (leAt o 5 1 = 1) (flag 0) r.bytes).bind (imageOut o)
    | 2 => (pngKernel (optPixels o) (optSide o) (flag 1) r.bytes).bind (imageOut o)
    | 3 => (tensorKernel r.shape r.elem r.bytes).bind (fun d => fits d r.bytes.length)
    | 4 => (textKernel (flag 2) (flag 3) r.bytes).bind (fun b => fits (.text b) b.length)
    | _ => if r.payload.any (fun c => c.dup) then none else let b := cborTable r.payload; fits (.cbor b) b.length

/-- What becomes of a frame (R320): a decoded sample; content-corrupt, by a check of the frame or by what it holds; or a
check value missing under REQUIRE. -/
inductive RecordRes where
  | decoded (d : Decoded)
  | corrupt (check : Bool)
  | absent
deriving DecidableEq, Repr

/-- A record as a tile meets it: the frame, FRAME_CRC of its index entry, the options block, whether the shard has
ENCRYPTED with its key, the check-absent policy, and the dictionaries of the job's table set. -/
structure RecordIn where
  frame : List Byte
  crc : Nat
  opts : List Byte
  enc : Bool
  key : List Byte
  accept : Bool
  tables : List (List Byte)
deriving DecidableEq, Repr

/-- Step 2 of R320: the body of a frame, opened with the shard's key where it is encrypted (R318). -/
def openBody (r : RecordIn) (f : Frame) : Option (List Byte) :=
  if f.enc then
    let n := f.body.length
    if n < 28 then none else gcmOpen r.key (f.body.take 12) (r.frame.take 12) (sliceBytes f.body 12 (n - 28)) (f.body.drop (n - 16))
  else some f.body

/-- A frame processed step by step (R320). -/
def processRecord (r : RecordIn) : RecordRes :=
  match frameParts r.frame with
  | none => .corrupt true
  | some f =>
    if leAt r.frame (12 + leAt r.frame 4 4) 4 ≠ r.crc then .corrupt true
    else if f.enc ≠ r.enc then .corrupt false
    else
      match openBody r f with
      | none => .corrupt true
      | some body =>
        match unpack r.tables f.comp r.accept (optOut r.opts) body with
        | .checkFail => .corrupt true
        | .checkAbsent => .absent
        | .out plain =>
          match recordMap plain with
          | none => .corrupt false
          | some k =>
            if f.typ ≠ 0 && f.typ ≠ k.typ then .corrupt false
            else match decodeRecord r.opts k with
              | some d => .decoded d
              | none => .corrupt false

end Sys2Proof.Machine
end

