-- ==== Sys2Proof/Machine/Shuffle.lean ====
section
/-!
DEFINITION. Positions, lanes and the keyed permutation (08 R283 to R288).
-/
namespace Sys2Proof.Machine

/-- The round function (R285): word c0 of RNGCTR. -/
def roundFn (seed epoch tag blk r half : Nat) : Nat :=
  let w (n : Nat) : U32 := BitVec.ofNat 32 n
  let c0 := w (r * 2 ^ 28 + tag * 2 ^ 24 + half % 2 ^ 24)
  (philox (w (bitsOf seed 31 0)) (w (bitsOf seed 63 32))
    (c0, w epoch, w (bitsOf seed 95 64) ^^^ w (bitsOf blk 31 0), w (bitsOf seed 127 96) ^^^ w (bitsOf blk 47 32))).1.toNat

/-- Four rounds of the Feistel network on h-bit halves (R286). -/
def feistelRounds (f : Nat → Nat → Nat) (h : Nat) : List Nat → Nat × Nat → Nat × Nat
  | [], p => p
  | r :: rs, (left, right) => feistelRounds f h rs (right, left ^^^ (f r right % 2 ^ h))

/-- The Feistel network on w bits, w even (R286). -/
def feistel (seed epoch tag blk w x : Nat) : Nat :=
  let h := w / 2
  let p := feistelRounds (roundFn seed epoch tag blk) h [0, 1, 2, 3] (x / 2 ^ h, x % 2 ^ h)
  p.1 * 2 ^ h + p.2

/-- Cycle-walking until the value lies below n; fuel bounds the walk. -/
def walkBelow (g : Nat → Nat) (n : Nat) : Nat → Nat → Nat
  | 0, y => y
  | k + 1, y => if y < n then y else walkBelow g n k (g y)

/-- The smallest even width, at least 2, of a domain that holds n values. -/
def evenWidth (n : Nat) : Nat := ((List.range 33).map (fun i => 2 * i + 2)).find? (fun w => n ≤ 2 ^ w) |>.getD 66

/-- perm(x, n, tag, blk) of an epoch (R286). -/
def permute (seed epoch x n tag blk : Nat) : Nat :=
  if n = 1 then 0
  else
    let w := evenWidth n
    let g := feistel seed epoch tag blk w
    walkBelow g n (2 ^ w) (g x)

/-- The sample at position p of an epoch (R287). -/
def sampleAt (i : JobImage) (epoch p : Nat) : Nat :=
  match i.shuffle with
  | 0 => permute i.seed epoch p i.n 0 0
  | 1 =>
    let b := 2 ^ i.blockLog
    let f := i.n / b
    if p < f * b then
      let k := permute i.seed epoch (p / b) f 1 0
      k * b + permute i.seed epoch (p % b) b 2 k
    else f * b + permute i.seed epoch (p - f * b) (i.n - f * b) 2 f
  | _ => p

/-- The sample of reserve index j (R288). -/
def reserveAt (i : JobImage) (epoch j : Nat) : Nat := permute i.seed epoch (j % i.n) i.n 3 0

/-- The position of place t of a lane of module m (R283). -/
def lanePos (modules m l lane t : Nat) : Nat := m + modules * (lane + l * t)

/-- Positions of a lane in an epoch. -/
def laneCount (n modules m l lane : Nat) : Nat :=
  let first := lanePos modules m l lane 0
  if first < n then (n - first - 1) / (modules * l) + 1 else 0

/-- The lane of a position that module m serves. -/
def laneOf' (modules l p : Nat) : Nat := p / modules % l

/-- The shard of a sample, with its number in the list (R282). -/
def shardOf (i : JobImage) (s : Nat) : Option (Nat × ShardSpec) :=
  (i.shards.zipIdx.find? (fun x => x.1.first ≤ s && s < x.1.first + x.1.records)).map (fun x => (x.2, x.1))

/-- The sample of a position or of a reserve position. -/
def posSample (i : JobImage) (epoch p : Nat) : Nat := if p < i.n then sampleAt i epoch p else reserveAt i epoch (p - i.n)

/-- The module that serves a position or a reserve position. -/
def posModule (i : JobImage) (modules p : Nat) : Nat := (if p < i.n then p else p - i.n) % modules

/-! ### Lanes of a job -/

def Job.image? (x : Job) : Option JobImage := match x.kind with | .image i => some i | _ => none

def Job.lane (x : Job) (n : Nat) : Lane := mapGet (fun _ => Lane.start) x.lanes n

/-- What is known of a position of an epoch. -/
def Job.result (x : Job) (epoch p : Nat) : Option SampleRes := (x.results.find? (fun r => r.1 = (epoch, p))).map (fun r => r.2)

/-- Positions of a lane in an epoch. -/
def Job.count (x : Job) (i : JobImage) (n : Nat) : Nat := laneCount i.n x.modules x.m x.l n

/-- The lane with nothing left in its epoch moves to the next one that has positions. -/
def Job.laneEpoch (x : Job) (i : JobImage) (n : Nat) (s : Lane) : Lane :=
  if s.e < i.epochs && x.count i n ≤ s.t then { s with e := s.e + 1, t := 0, q := 0, media := false } else s

end Sys2Proof.Machine
end

