-- ==== Sys2Proof/Machine/Augment.lean ====
section
/-!
DEFINITION. The shipped augmentation kernel: parameter records, drawn or given, and the eight steps from a decoded image to
the elements of a row (09 R334 to R343).
-/
namespace Sys2Proof.Machine

/-! ### Parameter records (R335, R339) -/

/-- A parameter record (R335). -/
structure AugRec where
  x : Nat
  y : Nat
  w : Nat
  h : Nat
  geom : Nat
  colour : Nat
  bright : Nat
  contrast : Nat
  satur : Nat
  ex : Nat
  ey : Nat
  ew : Nat
  eh : Nat
deriving DecidableEq, Repr

/-- A record read from its 32 bytes; none where it holds a reserved value. -/
def augRec (b : List Byte) : Option AugRec :=
  let g := leAt b 8 1
  let c := leAt b 9 1
  if 32 ≤ g || 8 ≤ c || leAt b 0xA 2 ≠ 0 then none
  else some ⟨leAt b 0 2, leAt b 2 2, leAt b 4 2, leAt b 6 2, g, c, leAt b 0xC 4, leAt b 0x10 4, leAt b 0x14 4,
    leAt b 0x18 2, leAt b 0x1A 2, leAt b 0x1C 2, leAt b 0x1E 2⟩

/-- UNIF of word n of a draw of RNGCTR under a tag (R339, 05 R190, R195). -/
def augDraw (seed epoch p tag n : Nat) : Nat :=
  let w (k : Nat) : U32 := BitVec.ofNat 32 k
  let c := philox (w (bitsOf seed 31 0)) (w (bitsOf seed 63 32))
    (w (tag * 2 ^ 24), w epoch, w (bitsOf seed 95 64) ^^^ w (bitsOf p 31 0), w (bitsOf seed 127 96) ^^^ w (bitsOf p 47 32))
  (cvtLane 0xB 0 .rne false (quad c n)).1

/-- To the nearest integer, ties to even. -/
def fRint (a : Nat) : Nat := (fToInt 0 (2 ^ 31) a).toNat

/-- The record drawn for a position of an epoch and an oriented image of hs rows and ws columns (R339). -/
def drawnRec (a : AugSpec) (seed epoch p hs ws : Nat) : AugRec :=
  let d (n : Nat) : Nat := a.draw.getD n 0
  let u (tag n : Nat) : Nat := augDraw seed epoch p tag n
  let area := fMul (fOfInt ws) (fOfInt hs)
  let s := fAdd (d 0) (fMul (u 8 0) (fSub (d 1) (d 0)))
  let r := fAdd (d 2) (fMul (u 8 1) (fSub (d 3) (d 2)))
  let wc := min ws (max 1 (fRint (fSqrt (fMul (fMul area s) r))))
  let hc := min hs (max 1 (fRint (fSqrt (fDiv (fMul area s) r))))
  let jit (n k : Nat) : Nat := fAdd fOne (fMul (fSub (fMul fTwo (u 0xA n)) fOne) (d k))
  let on (k : Nat) : Bool := d k % 2 ^ 31 ≠ 0
  { x := min (ws - wc) (fFloor (fMul (u 8 2) (fOfInt (ws - wc + 1)))).toNat
    y := min (hs - hc) (fFloor (fMul (u 8 3) (fOfInt (hs - hc + 1)))).toNat
    w := wc, h := hc, geom := 0x10 + 4 * boolBit (fLess (u 9 0) (d 4)),
    colour := boolBit (on 5) + 2 * boolBit (on 6) + 4 * boolBit (on 7),
    bright := jit 0 5, contrast := jit 1 6, satur := jit 2 7, ex := 0, ey := 0, ew := 0, eh := 0 }

/-! ### The steps (R340 to R343) -/

/-- Step 2: the crop intersected with the image; an empty one takes the full image (R335). -/
def Image.crop (i : Image) (r : AugRec) : Image :=
  let w := min i.w (r.x + r.w) - r.x
  let h := min i.h (r.y + r.h) - r.y
  if r.w = 0 || w = 0 || h = 0 then i else i.remap h w (fun y x => (r.y + y, r.x + x))

/-- Step 3: rotation, then HFLIP, then VFLIP. -/
def Image.geometry (i : Image) (g : Nat) : Image :=
  let a := match g % 4 with | 0 => i | 1 => i.turn | 2 => i.turn.turn | _ => i.turn.turn.turn
  let b := if bitAt g 2 then a.flipH else a
  if bitAt g 3 then b.flipV else b

/-- A source coordinate of BILINEAR: the two samples, and the weight of the second (R341). -/
def bilinearAt (o n src : Nat) : Nat × Nat × Nat :=
  let rw := fDiv (fOfInt src) (fOfInt n)
  let s := fMin (fMax (fSub (fMul (fAdd (fOfInt o) fHalf) rw) fHalf) 0) (fOfInt (src - 1))
  let x0 := (fFloor s).toNat
  (x0, min (x0 + 1) (src - 1), fSub s (fOfInt x0))

/-- Step 4: an output value as FP32, at row y and column x of h by w outputs (R341). -/
def Image.resized (i : Image) (bilinear : Bool) (h w y x k : Nat) : Nat :=
  let v (r c : Nat) : Nat := fOfInt (i.at_ r c k)
  if bilinear then
    let cx := bilinearAt x w i.w
    let cy := bilinearAt y h i.h
    let mix (a b f : Nat) : Nat := fAdd a (fMul f (fSub b a))
    mix (mix (v cy.1 cx.1) (v cy.1 cx.2.1) cx.2.2) (mix (v cy.2.1 cx.1) (v cy.2.1 cx.2.1) cx.2.2) cy.2.2
  else v ((2 * y + 1) * i.h / (2 * h)) ((2 * x + 1) * i.w / (2 * w))

/-- FP32 values nearest 0.299, 0.587 and 0.114 (R342). -/
def lumaR : Nat := 0x3E991687
def lumaG : Nat := 0x3F1645A2
def lumaB : Nat := 0x3DE978D5

/-- Step 5 for the channels of a pixel; red is channel 2 under BGR (R342). -/
def colourSteps (r : AugRec) (top : Nat) (bgr : Bool) (px : List Nat) : List Nat :=
  let m := fDiv (fOfInt top) fTwo
  let a := if bitAt r.colour 0 then px.map (fun v => fMul v r.bright) else px
  let b := if bitAt r.colour 1 then a.map (fun v => fAdd (fMul (fSub v m) r.contrast) m) else a
  match b with
  | [p, q, s] =>
    if bitAt r.colour 2 then
      let red := if bgr then s else p
      let blue := if bgr then p else s
      let gray := fAdd (fAdd (fMul red lumaR) (fMul q lumaG)) (fMul blue lumaB)
      b.map (fun v => fAdd gray (fMul (fSub v gray) r.satur))
    else b
  | _ => b

/-- Step 8: MEAN, SCALE and the conversion to an element type (R343). -/
def normalise (a : AugSpec) (elem c v : Nat) : Nat :=
  (cvtLane 0 elem .rne true (fMul (fSub v (a.mean.getD c 0)) (a.scale.getD c 0))).1

/-- Output elements in the order of LAYOUT: HWC, or CHW. -/
def layoutOrder (chw : Bool) (h w c : Nat) (f : Nat → Nat → Nat → List Byte) : List Byte :=
  (List.range (h * w * c)).flatMap (fun n =>
    if chw then f (n / w % h) (n % w) (n / w / h) else f (n / c / w) (n / c % w) (n % c))

/-- Steps 2 to 8 on an image of 1 or 3 channels, for a row of h by w pixels. -/
def augmentImage (a : AugSpec) (elem h w : Nat) (bgr : Bool) (r : AugRec) (i : Image) : List Byte :=
  let j := (i.crop r).geometry r.geom
  let pixel (y x : Nat) : List Nat :=
    let px := (List.range j.c).map (fun k => j.resized (bitAt r.geom 4) h w y x k)
    let px := (colourSteps r j.top bgr px).map (fun v => fMin (fMax v 0) (fOfInt j.top))
    if r.ex ≤ x && x < r.ex + r.ew && r.ey ≤ y && y < r.ey + r.eh then (List.range j.c).map (fun k => a.mean.getD k 0) else px
  layoutOrder (a.layout = 1) h w j.c (fun y x k => leBytes (cvtWidth elem / 8) (normalise a elem k ((pixel y x).getD k 0)))

/-- SOURCE NONE: normalisation only. -/
def normaliseImage (a : AugSpec) (elem : Nat) (i : Image) : List Byte :=
  layoutOrder (a.layout = 1) i.h i.w i.c (fun y x k => leBytes (cvtWidth elem / 8) (normalise a elem k (fOfInt (i.at_ y x k))))

/-- A tensor skips steps 1 to 7: each element to FP32, then normalised with MEAN[0] and SCALE[0] (R343). -/
def normaliseTensor (a : AugSpec) (elem src : Nat) (data : List Byte) : List Byte :=
  let n := cvtWidth src / 8
  (List.range (data.length / n)).flatMap (fun k =>
    leBytes (cvtWidth elem / 8) (normalise a elem 0 (cvtLane src 0 .rne false (leAt data (n * k) n)).1))

/-- The section that an image without one stands for: SOURCE NONE, MEAN 0, SCALE 1 (R334). -/
def AugSpec.none : AugSpec := ⟨2, 0, 0, 0, 0, [0, 0, 0], [fOne, fOne, fOne], []⟩

/-- The height, width and channels of a row's shape (R334). -/
def AugSpec.shape (a : AugSpec) (dims : List Nat) : Nat × Nat × Nat :=
  let d (n : Nat) : Nat := dims.getD n 0
  if a.layout = 1 then (d 1, d 2, d 0) else (d 0, d 1, d 2)

/-- A decoded sample made into the elements of a SAMPLE row: the bytes, or the status that fails the unit (R295, R335,
R340, R343). The record is that of HOST; DRAW draws its own for the image. None for samples that the kernel does not take. -/
def augment (a : AugSpec) (b : BatchSpec) (seed epoch p : Nat) (bgr : Bool) (record : List Byte) (d : Decoded) :
    Option (Nat × List Byte) :=
  let sized (l : List Byte) : Option (Nat × List Byte) :=
    if l.length = b.elems * (cvtWidth b.elem / 8) then some (St.ok, l) else some (St.invalidField, [])
  match d with
  | .tensor elem _ data =>
    if data.length / (cvtWidth elem / 8) = b.elems then sized (normaliseTensor a b.elem elem data) else some (St.invalidField, [])
  | .image i =>
    if i.c ≠ 1 && i.c ≠ 3 then some (St.invalidField, [])
    else if a.source = 2 then
      if i.h * i.w * i.c = b.elems then sized (normaliseImage a b.elem i) else some (St.invalidField, [])
    else
      match (if a.source = 1 then some (drawnRec a seed epoch p i.h i.w) else augRec record) with
      | Option.none => some (St.invalidField, [])
      | some r =>
        let (h, w, c) := a.shape b.dims
        if c = i.c && h * w * c = b.elems then sized (augmentImage a b.elem h w bgr r i) else some (St.invalidField, [])
  | _ => Option.none

end Sys2Proof.Machine
end

