-- ==== Sys2Proof/Machine/TokTables.lean ====
section
/-!
DEFINITION. The tables of a table set, and those of the tokeniser with the rules that acceptance checks them by; the options
blocks (11 R380 to R388, 09 R321). The form of a TABLES section is Efisy's; the spec does not give it.
-/
namespace Sys2Proof.Machine

namespace Config
/-- The tables of a TABLES section in index order, and the bytes of its hot tables for one cluster (04 R142). -/
opaque tableSet : List Byte → List (List Byte)
opaque hotBytes : List Byte → Nat
/-- The options blocks that a PLAN section carries (08 R280): the decode and the tokenise options of each work unit. -/
opaque planDecode : List Byte → List (List Byte)
opaque planTokenise : List Byte → List (List Byte)
end Config

/-- n bytes at offset o are zero. -/
def zeroAt (t : List Byte) (o n : Nat) : Bool := (sliceBytes t o n).all (fun b => b = 0)

/-- Table i of a set, empty where there is none. -/
def tableAt (ts : List (List Byte)) (i : Nat) : List Byte := ts.getD i []

/-- MAGIC and VERSION 1. -/
def tableIs (t : List Byte) (magic : Nat) : Bool := leAt t 0 4 = magic && leAt t 4 2 = 1

def magicVocab : Nat := 0x42434F56
def magicMerge : Nat := 0x5347524D
def magicSplit : Nat := 0x54535250
def magicSpecials : Nat := 0x4C435053
def magicNfc : Nat := 0x43464E4E
def magicAuto : Nat := 0x4D545541
def magicGrammar : Nat := 0x4D524147

/-! ### Vocabulary and merges (R381, R382) -/

def vocabTokens (t : List Byte) : Nat := leAt t 0x08 4
/-- A token record. -/
def tokenRec (t : List Byte) (id : Nat) : Nat := leAt t (0x440 + 8 * id) 8
def tokenSpecial (t : List Byte) (id : Nat) : Bool := bitAt (tokenRec t id) 40
/-- The bytes of a token. -/
def tokenBytes (t : List Byte) (id : Nat) : List Byte :=
  sliceBytes t (0x440 + 8 * vocabTokens t + bitsOf (tokenRec t id) 31 0) (bitsOf (tokenRec t id) 39 32)
/-- The token of a single byte. -/
def byteToken (t : List Byte) (b : Byte) : Nat := leAt t (0x40 + 4 * b.toNat) 4

/-- The used entries of a merge table. -/
def mergeEntries (t : List Byte) : List Nat :=
  ((List.range (4 * 2 ^ leAt t 6 1)).map (fun i => leAt t (0x40 + 8 * i) 8)).filter (fun e => bitAt e 63)
def mergedToken (t : List Byte) (r : Nat) : Nat := leAt t (leAt t 0x10 8 + 4 * r) 4

/-- A merge table keeps R382, its tokens below v. -/
def mergeOk (t : List Byte) (v : Nat) : Bool :=
  let bl := leAt t 6 1
  let n := leAt t 0x0C 4
  let es := mergeEntries t
  tableIs t magicMerge && 4 ≤ bl && bl ≤ 22 && 1 ≤ leAt t 7 1 && leAt t 7 1 ≤ 16 && leAt t 8 1 = 36 && leAt t 9 1 = 20 &&
    zeroAt t 0x0A 2 && n ≤ 1048576 && zeroAt t 0x18 40 && 0x40 + 32 * 2 ^ bl ≤ t.length &&
    leAt t 0x10 8 + 4 * n ≤ t.length &&
    es.all (fun e => bitsOf e 61 56 = 0 && bitsOf e 17 0 < v && bitsOf e 35 18 < v && bitsOf e 55 36 < n) &&
    decide ((es.map (fun e => bitsOf e 35 0)).Nodup) && decide ((es.map (fun e => bitsOf e 55 36)).Nodup) &&
    es.length = n && (List.range n).all (fun r => mergedToken t r < v)

/-- A vocabulary table keeps R381. -/
def vocabOk (ts : List (List Byte)) (t : List Byte) : Bool :=
  let v := vocabTokens t
  let pool := leAt t 0x0C 4
  tableIs t magicVocab && 256 ≤ v && v ≤ 262144 && zeroAt t 0x10 48 && 0x440 + 8 * v + pool ≤ t.length &&
    mergeOk (tableAt ts (leAt t 6 2)) v &&
    (List.range v).all (fun i =>
      let r := tokenRec t i
      r / 2 ^ 41 = 0 && 1 ≤ bitsOf r 39 32 && bitsOf r 31 0 + bitsOf r 39 32 ≤ pool) &&
    (List.range 256).all (fun b =>
      let id := byteToken t (BitVec.ofNat 8 b)
      id < v && tokenBytes t id = [BitVec.ofNat 8 b])

/-! ### Pre-split, specials and NFC (R384, R386, R387) -/

def splitOk (t : List Byte) : Bool :=
  let pages := (t.length - 0x2240) / 128
  tableIs t magicSplit && leAt t 6 1 ≤ 15 && zeroAt t 7 1 && 4 ≤ leAt t 8 2 && zeroAt t 0x0A 6 && 0x2240 ≤ t.length &&
    (List.range 4352).all (fun i => leAt t (0x40 + 2 * i) 2 < pages)

def specialCount (t : List Byte) : Nat := leAt t 6 2
def specialToken (t : List Byte) (i : Nat) : Nat := leAt t (16 + 72 * i) 4
def specialBytes (t : List Byte) (i : Nat) : List Byte := sliceBytes t (16 + 72 * i + 8) (leAt t (16 + 72 * i + 4) 1)

def specialsOk (t : List Byte) : Bool :=
  let n := specialCount t
  tableIs t magicSpecials && 1 ≤ n && n ≤ 256 && zeroAt t 8 8 && 16 + 72 * n ≤ t.length &&
    (List.range n).all (fun i =>
      let o := 16 + 72 * i
      let k := leAt t (o + 4) 1
      1 ≤ k && k ≤ 64 && zeroAt t (o + 5) 3 && zeroAt t (o + 8 + k) (64 - k)) &&
    decide (((List.range n).map (specialBytes t)).Nodup)

def nfcOk (t : List Byte) : Bool := tableIs t magicNfc && 64 ≤ t.length && zeroAt t 9 55

/-! ### Options blocks (09 R321, 11 R388) -/

/-- A decode options block holds defined values. -/
def decodeOptsOk (b : List Byte) : Bool :=
  0x100 ≤ leAt b 0 2 && leAt b 0 2 ≤ 0x105 && leAt b 2 1 ≤ 4 && [0, 8, 16].contains (leAt b 3 1) && leAt b 4 1 ≤ 3 &&
    leAt b 5 1 ≤ 1 && leAt b 6 1 < 16 && zeroAt b 7 1 && leAt b 8 4 ≤ 2 ^ 26 && leAt b 0x0C 4 ≤ 2 ^ 28 &&
    leAt b 0x10 4 ≤ 16384 && zeroAt b 0x14 44

/-- A tokenise options block names tables that are there, and holds defined values. -/
def tokeniseOptsOk (ts : List (List Byte)) (b : List Byte) : Bool :=
  let voc := tableAt ts (leAt b 0 2)
  let bos := leAt b 8 4
  let sp := leAt b 4 2
  let spt := tableAt ts sp
  vocabOk ts voc && splitOk (tableAt ts (leAt b 2 2)) &&
    (sp = 0xFFFF || (specialsOk spt && (List.range (specialCount spt)).all (fun i =>
      specialToken spt i < vocabTokens voc && tokenSpecial voc (specialToken spt i)))) &&
    (leAt b 6 2 = 0xFFFF || nfcOk (tableAt ts (leAt b 6 2))) && (bos = 0xFFFFFFFF || bos < vocabTokens voc) &&
    leAt b 0x0C 4 ≤ 2 ^ 26 && zeroAt b 0x10 48

end Sys2Proof.Machine
end

