-- ==== Sys2Proof/Machine/Tokenise.lean ====
section
/-!
DEFINITION. The shipped tokeniser: specials, NFC, pre-split and merges (11 R383 to R390).
-/
namespace Sys2Proof.Machine

namespace Config
/-- Well-formed UTF-8 in Normalization Form C by an NFC table, whose data the spec does not give (R387). -/
opaque nfc : List Byte → List Byte → List Byte
end Config

/-! ### Specials and NFC (R386, R387) -/

/-- The longest special whose bytes start some text: its place in the table. -/
def specialHere (t : List Byte) (l : List Byte) : Option Nat :=
  (List.range (specialCount t)).foldl (fun best i =>
    let s := specialBytes t i
    if s ≠ [] && s.isPrefixOf l && (match best with | none => true | some j => (specialBytes t j).length < s.length) then some i
    else best) none

/-- A segment of a text: a special's token, or text. -/
inductive Segment where
  | special (token : Nat)
  | text (l : List Byte)
deriving DecidableEq, Repr

/-- A segment of text, if it has any. -/
def textSegment (l : List Byte) : List Segment := if l.isEmpty then [] else [.text l]

/-- A text scanned from its first byte; fuel bounds the bytes. The text since the last special comes along reversed. -/
def splitSpecials (t : List Byte) : Nat → List Byte → List Byte → List Segment
  | 0, acc, _ => textSegment acc.reverse
  | _, acc, [] => textSegment acc.reverse
  | f + 1, acc, b :: r =>
    match specialHere t (b :: r) with
    | some i => textSegment acc.reverse ++ .special (specialToken t i) :: splitSpecials t f [] ((b :: r).drop (specialBytes t i).length)
    | none => splitSpecials t f (b :: acc) r

/-- Normalisation of runs of well-formed sequences; other bytes pass unchanged and break composition. The run before the
next unit comes along. A segment grows to three times its input at most. -/
def nfcUnits (t : List Byte) : List Byte → List (Bool × List Byte) → List Byte
  | run, [] => (Config.nfc t run).take (3 * run.length)
  | run, (true, u) :: r => nfcUnits t (run ++ u) r
  | run, (false, u) :: r => (Config.nfc t run).take (3 * run.length) ++ u ++ nfcUnits t [] r

/-! ### Pre-split (R384, R385) -/

/-- Units of a segment: each well-formed sequence, and each other byte by itself. -/
def splitUnits (l : List Byte) : List (Bool × List Byte) :=
  (utf8Units (l.length + 1) l).flatMap (fun u => if u.1 then [u] else u.2.map (fun b => (false, [b])))

/-- The class of a unit: by INDEX and PAGES, or INVALID_CLASS. -/
def unitClass (t : List Byte) (u : Bool × List Byte) : Nat :=
  if u.1 then
    let c := codePoint u.2
    leAt t (0x2240 + 128 * leAt t (0x40 + 2 * (c / 256)) 2 + c % 256 / 2) 1 / 16 ^ (c % 2) % 16
  else leAt t 6 1

/-- MATRIX breaks between two classes; the longest run of a class; the largest piece. -/
def splitBreaks (t : List Byte) (a b : Nat) : Bool := bitAt (leAt t (0x10 + 2 * a) 2) b
def splitRun (t : List Byte) (k : Nat) : Nat := leAt t (0x30 + k) 1
def splitPiece (t : List Byte) : Nat := leAt t 8 2

/-- Pieces of the units that follow: the current piece, the class of its last unit and how long that run is. -/
def presplitFrom (t : List Byte) : List Byte → Nat → Nat → List (Bool × List Byte) → List (List Byte)
  | cur, _, _, [] => if cur.isEmpty then [] else [cur]
  | cur, k, run, u :: r =>
    let c := unitClass t u
    if cur.isEmpty then presplitFrom t u.2 c 1 r
    else if splitBreaks t k c || (k = c && splitRun t k ≠ 0 && splitRun t k ≤ run) || splitPiece t < cur.length + u.2.length then
      cur :: presplitFrom t u.2 c 1 r
    else presplitFrom t (cur ++ u.2) c (if k = c then run + 1 else 1) r

/-- The pieces of a segment. -/
def presplit (t : List Byte) (l : List Byte) : List (List Byte) := presplitFrom t [] 0 0 (splitUnits l)

/-! ### Merges (R382, R383, R389) -/

/-- The entries of a bucket of a merge table. -/
def mergeBucket (t : List Byte) (b : Nat) : List Nat := (List.range 4).map (fun i => leAt t (0x40 + 32 * b + 8 * i) 8)

/-- The rank of a pair of tokens by LOOKUP; LIMIT counts as a miss. -/
def mergeRank (t : List Byte) (left right : Nat) : Option Nat :=
  let key := left + right * 2 ^ 18
  let n := 2 ^ leAt t 6 1
  (probeBuckets (mergeBucket t) n 36 20 key (leAt t 7 1) ((gh64 0 (leBytes 8 key)).toNat % n)).bind id

/-- The lowest rank of neighbouring tokens, with the place of its leftmost occurrence. -/
def bestPair (t : List Byte) : Nat → List Nat → Option (Nat × Nat)
  | i, a :: b :: r =>
    let rest := bestPair t (i + 1) (b :: r)
    match mergeRank t a b, rest with
    | some x, some y => if x ≤ y.1 then some (x, i) else some y
    | some x, none => some (x, i)
    | none, y => y
  | _, _ => none

/-- The merges of a piece, pass by pass; fuel bounds them. -/
def mergeLoop (t : List Byte) : Nat → List Nat → List Nat
  | 0, l => l
  | f + 1, l =>
    match bestPair t 0 l with
    | none => l
    | some (r, i) => mergeLoop t f (l.take i ++ mergedToken t r :: l.drop (i + 2))

/-- The tokens of a piece. -/
def bpe (voc mrg pc : List Byte) : List Nat := mergeLoop mrg pc.length (pc.map (byteToken voc))

/-! ### A sample (R388 to R390) -/

/-- The tables that an options block names: vocabulary, merges, pre-split, specials and NFC. -/
def tokVocab (ts : List (List Byte)) (o : List Byte) : List Byte := tableAt ts (leAt o 0 2)
def tokMerges (ts : List (List Byte)) (o : List Byte) : List Byte := tableAt ts (leAt (tokVocab ts o) 6 2)

/-- The token sequence of a text (R389). -/
def tokenise (ts : List (List Byte)) (o text : List Byte) : List Nat :=
  let bos := leAt o 8 4
  let sp := leAt o 4 2
  let segs := if sp = 0xFFFF then textSegment text else splitSpecials (tableAt ts sp) (text.length + 1) [] text
  (if bos = 0xFFFFFFFF then [] else [bos]) ++ segs.flatMap (fun g =>
    match g with
    | .special k => [k]
    | .text l =>
      let l := if leAt o 6 2 = 0xFFFF then l else nfcUnits (tableAt ts (leAt o 6 2)) [] (splitUnits l)
      (presplit (tableAt ts (leAt o 2 2)) l).flatMap (bpe (tokVocab ts o) (tokMerges ts o)))

/-- MAX_TOKENS of an options block. -/
def tokLimit (o : List Byte) : Nat := let n := leAt o 0x0C 4; if n = 0 then 2 ^ 24 else n

/-- A token ID too large for UINT16, SEP_TOKEN among them (R390). -/
def tokWide (elem sep : Nat) (l : List Nat) : Bool := elem = 9 && (l.any (fun t => 65536 ≤ t) || (65536 ≤ sep && sep ≠ 0xFFFFFFFF))

/-- A sequence that R390 makes content-corrupt: too long, or with an ID too large for UINT16. -/
def tokOver (o : List Byte) (elem sep : Nat) (l : List Nat) : Bool := tokLimit o < l.length || tokWide elem sep l

end Sys2Proof.Machine
end

