-- ==== Sys2Proof/Machine/DevMem.lean ====
section
/-!
DEFINITION. The device physical address map and what job code may reach in it (01 R44 to R49, 04 R140, R141, 06 R226,
R227), with writes of Caliper's second runs kept aside (17 R593).
-/
namespace Sys2Proof.Machine

/-- A place in the device physical address space (01 R44). -/
inductive Loc where
  | gddr (a : Nat)
  | cluster (c off : Nat)
  | tile (t off : Nat)
  | regs (off : Nat)
  | unbacked
deriving DecidableEq, Repr

/-- The place of a device address as the engines of a tile, or no tile, see it (R44, R45). -/
def locOf (v : Variant) (self : Option Nat) (a : Nat) : Loc :=
  if a < gddrTop v then .gddr a
  else if 0x400000000000 ≤ a ∧ a < 0x400000000000 + clusterCount v * 0x800000 then
    .cluster ((a - 0x400000000000) / 0x800000) ((a - 0x400000000000) % 0x800000)
  else if 0x500000000000 ≤ a ∧ a < 0x500000000000 + 128 * dieCount v * 0x80000 then
    .tile ((a - 0x500000000000) / 0x80000) ((a - 0x500000000000) % 0x80000)
  else if 0x7F0000000000 ≤ a ∧ a < 0x7F0002000000 then .regs (a - 0x7F0000000000)
  else
    match self with
    | some t =>
      if 0x4FFFFF800000 ≤ a ∧ a < 0x500000000000 then .cluster (t / 16) (a - 0x4FFFFF800000)
      else if 0x5FFFFFF80000 ≤ a ∧ a < 0x600000000000 then .tile t (a - 0x5FFFFFF80000)
      else .unbacked
    | none => .unbacked

/-- The device address of a place, by its window. -/
def Loc.addr : Loc → Nat
  | .gddr a => a
  | .cluster c off => 0x400000000000 + c * 0x800000 + off
  | .tile t off => 0x500000000000 + t * 0x80000 + off
  | .regs off => 0x7F0000000000 + off
  | .unbacked => 0

/-- The byte at a place. The queue-state area of a cluster has contents that the spec does not give (06 R226). -/
def Mach.locByte (m : Mach) (l : Loc) : Byte :=
  match l with
  | .gddr a => memByte m.mem.gddr a
  | .cluster c off =>
    if 0x40000 ≤ off ∧ off < 0x50000 then Config.freeByte 0x600 m.draws (c * 0x800000 + off)
    else memByte (m.clus c).sram off
  | .tile t off => memByte (m.tile t).sram off
  | _ => 0

/-- The machine with a byte written at a place. -/
def Mach.putLoc (m : Mach) (l : Loc) (b : Byte) : Mach :=
  match l with
  | .gddr a => { m with mem := { m.mem with gddr := memPut m.mem.gddr a b } }
  | .cluster c off => m.setClus c { m.clus c with sram := memPut (m.clus c).sram off b }
  | .tile t off => m.setTile t { m.tile t with sram := memPut (m.tile t).sram off b }
  | _ => m

/-! ### Access by the module's own units -/

/-- n bytes from a device address, as the control complex and the I/O die see it. -/
def Mach.devRead (v : Variant) (m : Mach) (a n : Nat) : List Byte :=
  (List.range n).map (fun i => m.locByte (locOf v none (a + i)))

/-- Bytes written from a device address up, by the control complex or the I/O die. -/
def Mach.devWrite (v : Variant) (m : Mach) (a : Nat) (bs : List Byte) : Mach :=
  match bs with
  | [] => m
  | b :: r => Mach.devWrite v (m.putLoc (locOf v none a) b) (a + 1) r

/-- The little-endian number in n bytes at a device address. -/
def Mach.devNat (v : Variant) (m : Mach) (a n : Nat) : Nat := ofLe (m.devRead v a n)

/-- Every byte of a range lies in backed GDDR7. -/
def inGddr (v : Variant) (a n : Nat) : Bool := a + n ≤ gddrTop v

/-! ### Access by job code -/

/-- A field of the entry that a tile runs (06 R229). -/
def Tile.entryNat (t : Tile) (off n : Nat) : Nat :=
  match t.unit with
  | some u => leAt u.entry off n
  | none => 0

/-- The run's writes go aside (17 R593). -/
def Tile.keepsAside (t : Tile) : Bool :=
  match t.unit with
  | some u => u.part = .twin || u.part = .third
  | none => false

/-- Job code on tile t may reach a place at all: no absent or retired tile (01 R47). -/
def Mach.reaches (m : Mach) (self : Nat) (l : Loc) : Bool :=
  match l with
  | .unbacked => false
  | .tile t _ => t = self || ((m.tile t).role ≠ .retired)
  | _ => true

/-- Whether a place of a system area is a byte of the running job's mailbox range (R226, R227). -/
def Tile.ownMailbox (t : Tile) (c off : Nat) : Bool :=
  let i := (off - 0x50000) / 64
  0x50000 ≤ off && off < 0x70000 && c = t.entryNat 0x06 1 && t.entryNat 0x30 2 ≤ i &&
    i < t.entryNat 0x30 2 + t.entryNat 0x32 2

/-- Whether a place is a completion counter of the running job's range (R226, R227). -/
def Tile.ownCounter (t : Tile) (c off : Nat) : Bool :=
  let i := (off - 0x70000) / 4
  0x70000 ≤ off && off < 0x74000 && c = t.entryNat 0x06 1 && t.entryNat 0x34 2 ≤ i &&
    i < t.entryNat 0x34 2 + t.entryNat 0x36 2

/-- Job code may write a place: not the table area, of the system area only its mailboxes, and no register. -/
def Tile.mayWrite (t : Tile) (l : Loc) : Bool :=
  match l with
  | .cluster c off => t.ownMailbox c off
  | .regs _ => false
  | _ => true

/-- The byte that job code on a tile reads at a place: counters outside the job's range, the reserved part and the
control-complex scratch of a system area read 0 (R226, R227). -/
def Mach.jobByte (m : Mach) (self : Nat) (l : Loc) : Byte :=
  let t := m.tile self
  let hidden : Bool :=
    match l with
    | .cluster c off =>
      (0x70000 ≤ off && off < 0x74000 && !t.ownCounter c off) || (0x74000 ≤ off && off < 0x100000)
    | _ => false
  if hidden then 0
  else
    match mapFind t.aside l.addr with
    | some b => b
    | none => m.locByte l

/-- n bytes from a device address, as job code on a tile reads them. -/
def Mach.jobRead (v : Variant) (m : Mach) (self a n : Nat) : List Byte :=
  (List.range n).map (fun i => m.jobByte self (locOf v (some self) (a + i)))

/-- The status of a range for reading by an engine: ST_BOUNDS for an unbacked byte, ST_RIGHTS for a register
(01 R47, R49); ST_INVALID_FIELD where bits [63:48] of the address are set (R48). -/
def Mach.readStatus (v : Variant) (m : Mach) (self a n : Nat) : Nat :=
  if 2 ^ 48 ≤ a then St.invalidField
  else (List.range n).foldl (fun st i =>
    let l := locOf v (some self) (a + i)
    let c := match l with
      | .regs _ => St.rights
      | l => if m.reaches self l then St.ok else St.bounds
    St.first st c) St.ok

/-- The status of a range for writing by an engine (R141, R227). -/
def Mach.writeStatus (v : Variant) (m : Mach) (self a n : Nat) : Nat :=
  if 2 ^ 48 ≤ a then St.invalidField
  else (List.range n).foldl (fun st i =>
    let l := locOf v (some self) (a + i)
    let c := if !m.reaches self l then St.bounds else if (m.tile self).mayWrite l then St.ok else St.rights
    St.first st c) St.ok

/-- Bytes written by job code on a tile. Outside its own SRAM a second run's bytes go aside. -/
def Mach.jobWrite (v : Variant) (m : Mach) (self a : Nat) (bs : List Byte) : Mach :=
  match bs with
  | [] => m
  | b :: r =>
    let l := locOf v (some self) a
    let t := m.tile self
    let own : Bool := match l with | .tile k _ => k = self | _ => false
    let m := if t.keepsAside && !own then m.setTile self { t with aside := mapSet t.aside l.addr b } else m.putLoc l b
    Mach.jobWrite v m self (a + 1) r

/-- Every byte of a range lies in the tile's own SRAM. -/
def inOwnTile (v : Variant) (self a n : Nat) : Bool :=
  (List.range n).all (fun i => match locOf v (some self) (a + i) with | .tile k _ => k = self | _ => false)

/-- Every byte of a range lies in the tile's own SRAM or its own cluster's SRAM (01 R46). -/
def inOwnReach (v : Variant) (self a n : Nat) : Bool :=
  (List.range n).all (fun i => match locOf v (some self) (a + i) with
    | .tile k _ => k = self
    | .cluster c _ => c = self / 16
    | _ => false)

end Sys2Proof.Machine
end

