-- ==== Sys2Proof/Machine/JobBase.lean ====
section
/-!
DEFINITION. The end of a job as other units cause it (08 R312): a failed job keeps its slot until it is released.
-/
namespace Sys2Proof.Machine

/-- The job in a slot. -/
def Mach.job? (m : Mach) (j : Nat) : Option Job := mapFind m.jobs.slots j

/-- The machine with a job slot's contents replaced. -/
def Mach.setJob (m : Mach) (j : Nat) (x : Job) : Mach :=
  { m with jobs := { m.jobs with slots := mapSet m.jobs.slots j x } }

/-- A job that has been accepted and has not ended. -/
def Job.live (x : Job) : Bool := 1 ≤ x.state && x.state ≤ 4

/-- A job ends in a final state (5 done, 6 failed, 7 cancelled) with a status, and a JOB_END record is written. -/
def Mach.jobEnd (m : Mach) (j final code : Nat) : Mach :=
  match m.job? j with
  | some x =>
    if x.live then
      let st := St.first x.status code
      (m.setJob j { x with state := final, status := st }).record 0x0072 (sourceOf 9 j) st
        (payloadOf [(1, final), (3, 0), (4, x.planSeq)])
    else m
  | none => m

/-- A job fails with a status code. -/
def Mach.jobFail (m : Mach) (j code : Nat) : Mach := m.jobEnd j 6 code

/-- The sticky mark of R22: the job's bits are no longer covered by the reproducibility promise. -/
def Mach.jobNonrepro (m : Mach) (j : Nat) : Mach :=
  match m.job? j with
  | some x => m.setJob j { x with nonrepro := true }
  | none => m

/-! ### Sections of the job image -/

/-- The section table of an image: TYPE, INSTANCE, OFFSET, LENGTH (08 R278). -/
def imageSections (v : Variant) (m : Mach) (addr : Nat) : List (Nat × Nat × Nat × Nat) :=
  (List.range (m.devNat v (addr + 0x36) 2)).map (fun n =>
    let b := m.devRead v (addr + 0x40 + n * 32) 32
    (leAt b 0 2, leAt b 2 2, leAt b 8 8, leAt b 0x10 8))

/-- Device address and length of a section, if the image has it. -/
def imageSection (v : Variant) (m : Mach) (addr typ inst : Nat) : Option (Nat × Nat) :=
  match (imageSections v m addr).find? (fun s => s.1 = typ && s.2.1 = inst) with
  | some s => some (addr + s.2.2.1, s.2.2.2)
  | none => none

/-- The bytes of a section, empty where the image has none. -/
def sectionBytes (v : Variant) (m : Mach) (addr typ : Nat) : List Byte :=
  match imageSection v m addr typ 0 with
  | some (a, n) => m.devRead v a n
  | none => []

end Sys2Proof.Machine
end

