-- ==== Sys2Proof/Machine/UnitOps.lean ====
section
/-!
DEFINITION. Work units: their entries in the queues, how a run ends, when a unit is run again, and Caliper's comparison
(06 R229 to R239, 05 R210 to R212, 06 R224, 17 R592 to R598).
-/
namespace Sys2Proof.Machine

/-! ### Entries -/

/-- JOB and UNIT_SEQ of an entry (06 R229). -/
def entryJob (b : List Byte) : Nat := leAt b 0 4
def entrySeq (b : List Byte) : Nat := leAt b 0x38 8
def entryHome (b : List Byte) : Nat := leAt b 0x06 1
def entryDepEn (b : List Byte) : Bool := leAt b 0x07 1 % 2 = 1
def entryPos (b : List Byte) : Nat := leAt b 0x08 8 % 2 ^ 48
def entryEpoch (b : List Byte) : Nat := leAt b 0x10 4
def entryLane (b : List Byte) : Nat := leAt b 0x14 4
def entrySlot (b : List Byte) : Nat := leAt b 0x18 8
def entryDepCnt (b : List Byte) : Nat := leAt b 0x28 2
def entryDepVal (b : List Byte) : Nat := leAt b 0x2C 4

/-- The entry at a place. -/
def Mach.entryAt (m : Mach) (l : QLoc) : Option QEntry :=
  match l with
  | .cluster c k => mapFind (m.clus c).ring k
  | .die d k => mapFind (m.dieQueue d) k

/-- The machine with the entry at a place replaced, or removed (made FREE). -/
def Mach.putEntry (m : Mach) (l : QLoc) (e : Option QEntry) : Mach :=
  match l with
  | .cluster c k =>
    let x := m.clus c
    m.setClus c { x with ring := match e with | some e => mapSet x.ring k e | none => mapErase x.ring k }
  | .die d k =>
    let q := m.dieQueue d
    m.setDieQueue d (match e with | some e => mapSet q k e | none => mapErase q k)

/-- Every entry with its place. -/
def Mach.allEntries (m : Mach) : List (QLoc × QEntry) :=
  m.tl.clusters.flatMap (fun p => p.2.ring.map (fun q => (QLoc.cluster p.1 q.1, q.2))) ++
    m.tl.dieQ.flatMap (fun p => p.2.map (fun q => (QLoc.die p.1 q.1, q.2)))

/-- Entries of a queue in a state. -/
def countState (q : SMap QEntry) (s : EntState) : Nat := (q.filter (fun p => p.2.state = s)).length

/-- The first key from next on whose ring position is FREE (R230). -/
def freeKey (q : SMap QEntry) (next size : Nat) : Option Nat :=
  if q.length < size then
    ((List.range size).map (fun i => next + i)).find? (fun k => !q.any (fun p => p.1 % size = k % size))
  else none

/-- An entry placed in a cluster queue, its bytes written into the ring (R226, R230). None where the ring is full. -/
def Mach.placeCluster (m : Mach) (c : Nat) (e : QEntry) : Option Mach :=
  let x := m.clus c
  match freeKey x.ring x.ringNext 4096 with
  | some k =>
    some (m.setClus c { x with
      ring := mapSet x.ring k e, ringNext := k + 1, sram := memWrite x.sram (k % 4096 * 64) e.bytes })
  | none => none

/-- An entry placed in a die queue (R238). -/
def Mach.placeDie (m : Mach) (d : Nat) (e : QEntry) : Option Mach :=
  let q := m.dieQueue d
  match freeKey q (mapGet (fun _ => 0) m.tl.dieNext d) 8192 with
  | some k =>
    let m := m.setDieQueue d (mapSet q k e)
    some { m with tl := { m.tl with dieNext := mapSet m.tl.dieNext d (k + 1) } }
  | none => none

/-! ### Armed injections (17 R604) -/

/-- An armed injection of a type. -/
def Mach.armed (m : Mach) (typ : Nat) : Option Injection :=
  match m.ras.inj with
  | some i => if i.typ = typ then some i else none
  | none => none

/-- One operation injected: counted, and the injection disarms after its last. -/
def Mach.injected (m : Mach) : Mach :=
  match m.ras.inj with
  | some i =>
    let m := m.addFld Reg.rasInjDone 31 0 1
    if i.persist && (i.typ = 3 || i.typ = 4) then m
    else if i.left ≤ 1 then ({ m with ras := { m.ras with inj := none } }).setBit Reg.rasInjCtl 31 false
    else { m with ras := { m.ras with inj := some { i with left := i.left - 1 } } }
  | none => m

/-! ### Charges -/

/-- A run number, tile and the like that a record's field has no value for. -/
def noTile (m : Mach) : Nat := m.drawn 0x170 % 2 ^ 16

/-- A CALIPER_MISMATCH record (17 R618): tiles of the three runs; the coding of the outcome is not stated. -/
def Mach.mismatchRecord (m : Mach) (t job seq : Nat) (tiles : List Nat) (status outcome : Nat) : Mach :=
  let f (i : Nat) : Nat := tiles.getD i (noTile m)
  m.recordAs (m.ras.injTiles.contains t) 0x0010 (sourceOf 1 t) status
    (payloadOf [(4, job), (8, seq), (2, f 0), (2, f 1), (2, f 2), (2, Config.freeNat 0x171 outcome % 2 ^ 16)])

/-- An unselected unit that a suspect tile holds is treated as selected: its twin is placed (17 R598). -/
def Mach.selectHeld (m : Mach) (t : Nat) : Mach :=
  let x := m.tile t
  match x.unit with
  | some u =>
    if x.running && u.part = .plain then
      match m.entryAt u.loc with
      | some e =>
        let m := m.putEntry u.loc (some { e with part := .first })
        let m := m.setTile t { x with unit := some { u with part := .first } }
        let tw : QEntry := { e with part := .twin, state := .ready, runs := [], takenBy := none }
        match u.loc with
        | .cluster c _ => (m.placeCluster c tw).getD m
        | .die d _ => (m.placeDie d tw).getD m
      | none => m
    else m
  | none => m

/-- A tile becomes suspect (17 R597, R598). -/
def Mach.makeSuspect (m : Mach) (t : Nat) : Mach := (m.setTile t { m.tile t with suspect := true }).selectHeld t

/-- A charge (17 R595). -/
def Mach.charge (m : Mach) (t job seq : Nat) (tiles : List Nat) : Mach :=
  let m := m.satFld (Reg.tileCaliper t) 27 16 1
  let m := m.addFld Reg.rasCalMismatch 63 0 1
  (m.mismatchRecord t job seq tiles St.ok 0).makeSuspect t

/-! ### The end of a run -/

/-- The tile after the end of a work unit: nothing of the program is left; started descriptors remain where they may
run to completion (05 R210). -/
def Tile.endUnit (t : Tile) (keepStarted : Bool) : Tile :=
  let cut (e : EngineQ) : EngineQ := if keepStarted && e.started then ⟨e.q.take 1, true⟩ else .empty
  { t with
    vq := [], waits := [], stalled := none, heldAdds := [], running := false, unfenced := false,
    sync := Vector.replicate 16 0, gq := cut t.gq, aq := cut t.aq, dq := cut t.dq }

/-- The job status of an exception (05 R211). -/
def causeStatus (cause : Nat) : Nat :=
  match cause with
  | 1 => St.invalidOpcode
  | 2 => St.bounds | 4 => St.bounds | 5 => St.bounds
  | 3 => St.rights
  | _ => St.internal

/-- The job status of a run's end. -/
def RunEnd.status : RunEnd → Nat
  | .exception c _ _ => causeStatus c
  | _ => St.internal

/-- Two runs ended in the same way (05 R211, R212): the same CAUSE at the same address, or both in a deadlock. -/
def RunEnd.same : RunEnd → RunEnd → Bool
  | .exception c p _, .exception c' p' _ => c = c' && p = p'
  | .deadlock _ _, .deadlock _ _ => true
  | _, _ => false

/-- A run that counts under R211, R224 and R212. -/
def RunEnd.counts : RunEnd → Bool
  | .exception _ _ _ => true
  | .deadlock _ _ => true
  | _ => false

/-- The records that name the runs of a unit that fails its job (05 R211, R212, 06 R224), one for each run. -/
def Mach.runRecords (m : Mach) (job seq : Nat) (runs : List RunRec) (n : Nat) : Mach :=
  match runs with
  | [] => m
  | r :: rest =>
    let m := match r.how with
      | .exception c pc code =>
        m.record 0x0015 (sourceOf 1 r.tile) (causeStatus c)
          (payloadOf [(4, job), (8, seq), (8, pc), (1, c), (1, n), (2, code)])
      | .deadlock b w =>
        m.record 0x0016 (sourceOf 1 r.tile) St.internal (payloadOf [(4, job), (8, seq), (4, b), (4, w)])
      | _ => m
    Mach.runRecords m job seq rest (n + 1)

/-- What follows when a run of an entry ends without DONE: the entry becomes READY again, or the job fails
(05 R211, R212, 06 R224, R230). -/
def Mach.afterRun (m : Mach) (l : QLoc) (e : QEntry) (r : RunRec) : Mach :=
  let runs := e.runs ++ [r]
  let earlier := (e.runs.filter (fun x => x.how.counts))
  let m := m.putEntry l (some { e with state := .ready, runs := runs, takenBy := none })
  if !r.how.counts then m
  else
    let job := entryJob e.bytes
    let fails : Option Nat :=
      if earlier.any (fun x => x.how.same r.how) then some r.how.status
      else if 2 ≤ earlier.length then some St.internal else none
    match fails with
    | some code => (m.runRecords job (entrySeq e.bytes) (earlier ++ [r]) 1).jobFail job code
    | none => m

/-- A tile's run ends without DONE: held adds dropped, entry back in its queue (06 R230, R232). -/
def Mach.unitDrop (m : Mach) (t : Nat) (how : RunEnd) (keepStarted : Bool) : Mach :=
  let x := m.tile t
  let m := m.setTile t (x.endUnit keepStarted)
  match x.unit with
  | some u =>
    if x.running then
      match m.entryAt u.loc with
      | some e => m.afterRun u.loc e ⟨t, how⟩
      | none => m
    else m
  | none => m

/-- An exception of engine 0 or 1 (05 R209, R210): TILE_EXC written, the unit ended. -/
def Mach.tileExc (m : Mach) (t eng cause pc code : Nat) : Mach :=
  let m := m.setReg (Reg.tileExc t) (BitVec.ofNat 64 (pc % 2 ^ 32 * 2 ^ 32 + eng * 256 + cause))
  m.unitDrop t (.exception cause pc code) true

/-! ### DONE -/

/-- Adds applied to completion counters, each modulo 2^32 (05 R203, 06 R232). -/
def Mach.applyAdds (v : Variant) (m : Mach) (adds : SMap Nat) : Mach :=
  match adds with
  | [] => m
  | (a, n) :: r => Mach.applyAdds v (m.devWrite v a (leBytes 4 (m.devNat v a 4 + n))) r

/-- The bytes that a run has left in its slot: the first run's lie in memory, a second run's may lie aside. -/
def slotBytes (v : Variant) (m : Mach) (t : Nat) (u : WorkUnit) : List Byte :=
  m.jobRead v t (entrySlot u.entry) u.slotLen

/-- Two runs of a selected unit agree (17 R594). -/
def CalRun.agrees (a b : CalRun) : Bool :=
  a.status = b.status && a.slot = b.slot && a.adds = b.adds && !a.forced && !b.forced

/-- Every tile whose earlier run ended without DONE is charged (05 R211, R212, 06 R224). -/
def Mach.chargeRuns (m : Mach) (job seq : Nat) (runs : List RunRec) : Mach :=
  (runs.filter (fun r => r.how.counts)).foldl (fun m r => m.charge r.tile job seq (runs.map (fun x => x.tile))) m

/-- An entry becomes DONE with a status and the adds applied; its earlier runs are charged (06 R230). -/
def Mach.entryDone (m : Mach) (l : QLoc) (status : Nat) (adds : SMap Nat) : Mach :=
  match m.entryAt l with
  | some e =>
    (m.putEntry l (some { e with state := .done, status := status, adds := adds })).chargeRuns (entryJob e.bytes)
      (entrySeq e.bytes) e.runs
  | none => m

/-- TILE_CALIPER after a comparison on a tile: RUNS advances, LAST_RESULT is 1 pass or 2 mismatch. -/
def Mach.compared (m : Mach) (t res : Nat) : Mach :=
  (m.addFld (Reg.tileCaliper t) 15 0 1).setFld (Reg.tileCaliper t) 31 30 res

/-- The place of the first run's entry of a selected unit. -/
def Mach.firstEntry (m : Mach) (job seq : Nat) : Option (QLoc × QEntry) :=
  m.allEntries.find? (fun p => p.2.part = .first && entryJob p.2.bytes = job && entrySeq p.2.bytes = seq)

/-- The deciding run's adds applied, its slot copied where it is not the first run's, the entry DONE (17 R594). -/
def Mach.calSettle (v : Variant) (m : Mach) (job seq : Nat) (r : CalRun) : Mach :=
  let m := { m with tl := { m.tl with cal := m.tl.cal.filter (fun u => !(u.job = job && u.seq = seq)) } }
  match m.firstEntry job seq with
  | some (l, e) =>
    let m := if r.part = .first then m
      else
        let m := m.devWrite v (entrySlot e.bytes) r.slot
        r.aside.foldl (fun m p => m.devWrite v p.1 [p.2]) m
    (m.applyAdds v r.adds).entryDone l r.status r.adds
  | none => m

/-- The comparison of the runs of a selected unit that have reached DONE (17 R594). -/
def Mach.calJudge (v : Variant) (m : Mach) (job seq : Nat) : Mach :=
  match m.tl.cal.find? (fun u => u.job = job && u.seq = seq) with
  | some u =>
    let get (p : CalPart) : Option CalRun := u.runs.find? (fun r => r.part = p)
    match get .first, get .twin, get .third with
    | some a, some b, none =>
      let m := m.addFld Reg.rasCalRuns 63 0 1
      if a.agrees b then ((m.compared a.tile 1).compared b.tile 1).calSettle v job seq a
      else
        let m := (m.compared a.tile 2).compared b.tile 2
        match m.firstEntry job seq with
        | some (.cluster c _, e) =>
          (m.placeCluster c { e with part := .third, state := .ready, runs := [], takenBy := none }).getD m
        | some (.die d _, e) =>
          (m.placeDie d { e with part := .third, state := .ready, runs := [], takenBy := none }).getD m
        | none => m
    | some a, some b, some c =>
      let m := (m.addFld Reg.rasCalRuns 63 0 1).compared c.tile (if c.agrees a || c.agrees b then 1 else 2)
      let ts := [a.tile, b.tile, c.tile]
      if c.agrees a then (m.calSettle v job seq a).charge b.tile job seq ts
      else if c.agrees b then (m.calSettle v job seq b).charge a.tile job seq ts
      else (m.mismatchRecord c.tile job seq ts St.internal 1).jobFail job St.internal
    | _, _, _ => m
  | none => m

/-- A run of a selected unit reaches DONE: it is kept for the comparison. -/
def Mach.calDone (v : Variant) (m : Mach) (job seq : Nat) (r : CalRun) : Mach :=
  let f : Bool := match m.armed 4 with | some i => i.target % 512 = r.tile | none => false
  let m := if f then { m.injected with ras := { m.injected.ras with injTiles := r.tile :: m.ras.injTiles } } else m
  let r := { r with forced := f }
  let old := (m.tl.cal.find? (fun u => u.job = job && u.seq = seq)).getD ⟨job, seq, []⟩
  let rest := m.tl.cal.filter (fun u => !(u.job = job && u.seq = seq))
  let m := { m with tl := { m.tl with cal := rest ++ [{ old with runs := old.runs ++ [r] }] } }
  m.calJudge v job seq

/-- DONE completes on a tile whose engines are idle (05 R201, 06 R230, R232). -/
def Mach.unitDone (v : Variant) (m : Mach) (t status : Nat) : Mach :=
  let x := m.tile t
  match x.unit with
  | some u =>
    let run : CalRun := ⟨u.part, t, status, slotBytes v m t u, x.aside, x.heldAdds, false⟩
    let job := entryJob u.entry
    let seq := entrySeq u.entry
    let m := m.setTile t { x.endUnit false with unit := none, aside := [] }
    match u.part with
    | .plain => (m.applyAdds v run.adds).entryDone u.loc status run.adds
    | .first => m.calDone v job seq run
    | _ =>
      let m := match m.entryAt u.loc with
        | some e => (m.chargeRuns job seq e.runs).putEntry u.loc none
        | none => m
      m.calDone v job seq run
  | none => m

end Sys2Proof.Machine
end

