-- ==== Sys2Proof/Machine/KernelOps.lean ====
section
/-!
DEFINITION. A work unit that runs the shipped kernels: its inputs, the stages from the frame to the output slot, and its
DONE (09 R314, R318, R320, R336, R340; 11 R389, R390).
-/
namespace Sys2Proof.Machine

/-- ARGS of an entry (06 R229). -/
def entryArgs (b : List Byte) : Nat := leAt b 0x20 8

/-- The bytes of a sample in buffers of its job, a chain of at most 4 MiB each (09 R322). -/
def Mach.chainBytes (v : Variant) (m : Mach) (f : Fetched) : List Byte :=
  f.bufs.zipIdx.flatMap (fun p => m.devRead v (m.bufAddr p.1) (min (2 ^ 22) (f.len - p.2 * 2 ^ 22)))

/-- The lane that a position, or a reserve position, belongs to, as it stands. -/
def Job.laneFor (x : Job) (i : JobImage) (p : Nat) : Nat × Lane :=
  let n := laneOf' x.modules x.l (if p < i.n then p else p - i.n)
  (n, x.laneEpoch i n (x.lane n))

/-- A reserve position is the one that its lane waits for at a place whose own sample cannot be used (08 R290, R292). -/
def Job.waitsFor (x : Job) (i : JobImage) (epoch p : Nat) : Bool :=
  let (n, s) := x.laneFor i p
  epoch = i.first + s.e && p = i.n + x.m + x.modules * (n + x.l * s.q) &&
    (match x.result epoch (lanePos x.modules x.m x.l n s.t) with
      | some .corrupt => true
      | some .media => true
      | _ => false)

/-- The position whose record and draws a unit uses: a substitute takes those of the position it fills (09 R336, R339). -/
def Job.filledPos (x : Job) (i : JobImage) (p : Nat) : Nat :=
  if p < i.n then p else let (n, s) := x.laneFor i p; lanePos x.modules x.m x.l n s.t

/-- The unit's record is settled: that of a reserve position is, once its lane waits for it. -/
def Job.recordSettled (x : Job) (i : JobImage) (epoch p : Nat) : Bool :=
  p < i.n || x.waitsFor i epoch p || (match i.aug with | some a => a.source = 2 | none => true)

/-- The record of a unit of a job of an image is settled. -/
def Job.settled (x : Job) (epoch p : Nat) : Bool :=
  match x.image? with
  | some i => x.recordSettled i epoch p
  | none => true

/-- The parameter record that the host has written for a position (09 R336). -/
def Mach.hostRecord (v : Variant) (m : Mach) (i : JobImage) (a : AugSpec) (modules epoch p : Nat) : List Byte :=
  m.devRead v (a.ringAddr + (epoch - i.first) % a.ringEpochs * a.slotBytes + p / modules * 32) 32

/-- An outcome without an output. -/
def kernelFails (st : Nat) (check : Bool) : KernelOut := ⟨st, none, 0, 0, false, check⟩

/-- Tokens as the unit's output: UINT32 values (11 R390). -/
def tokensOut (o : List Byte) (elem sep text : Nat) (l : List Nat) : KernelOut :=
  if tokOver o elem sep l then ⟨St.checkFail, none, 0, text, true, false⟩
  else ⟨St.ok, some (l.flatMap (leBytes 4)), l.length, text, false, false⟩

/-- A decoded sample made into what the job's rows take: tokens for PACKED rows, elements for SAMPLE rows. What the shipped
kernels do not make is left to the job's own code. -/
def Mach.finishSample (v : Variant) (m : Mach) (x : Job) (i : JobImage) (ts : List (List Byte)) (b opts : List Byte) (d : Decoded) :
    KernelOut :=
  match i.batch with
  | none => ⟨St.ok, none, 0, 0, false, false⟩
  | some s =>
    if s.packed then
      match d with
      | .text l =>
        let o := m.devRead v (entryArgs b + 0x40) 64
        tokensOut o s.elem s.sep l.length (tokenise ts o l)
      | _ => ⟨St.ok, none, 0, 0, false, false⟩
    else
      let a := i.aug.getD AugSpec.none
      let p := x.filledPos i (entryPos b)
      match augment a s i.seed (entryEpoch b) p (leAt opts 2 1 = 4) (m.hostRecord v i a x.modules (entryEpoch b) p) d with
      | some (st, l) => if st = St.ok then ⟨St.ok, some l, 0, 0, false, false⟩ else kernelFails st false
      | none => ⟨St.ok, none, 0, 0, false, false⟩

/-- What the shipped kernels make of the sample of an entry (R314): none where its sample is not there, or where ARGS holds
no options block that acceptance lets through (R321). -/
def Mach.runKernel (v : Variant) (m : Mach) (b : List Byte) : Option KernelOut :=
  match m.job? (entryJob b) with
  | none => none
  | some x =>
    match x.image? with
    | none => none
    | some i =>
      let opts := m.devRead v (entryArgs b) 64
      let at_ := (entryEpoch b, entryPos b)
      match decodeOptsOk opts, x.fetched.find? (fun f => f.1 = at_), shardOf i (posSample i at_.1 at_.2) with
      | true, some f, some s =>
        let bytes := m.chainBytes v f.2
        let ts := Config.tableSet (sectionBytes v m x.imageAddr 3)
        match f.2.crc with
        | some crc =>
          if s.2.enc && m.keyStatus s.2.key ≠ St.ok then some (kernelFails St.keyDenied false)
          else
            let key := match m.key? s.2.key with | some k => k.material | none => []
            match processRecord ⟨bytes, crc, opts, s.2.enc, key, i.policy.checkAccept, ts⟩ with
            | .corrupt c => some (kernelFails St.checkFail c)
            | .absent => some (kernelFails St.checkAbsent false)
            | .decoded d => some (m.finishSample v x i ts b opts d)
        | none =>
          let tokenised : Bool := match i.cache with | some c => c.point = 1 | none => false
          if tokenised then
            let l := Config.cachedTokens bytes
            some ⟨St.ok, some (l.flatMap (leBytes 4)), 0, 0, false, false⟩
          else (Config.cachedSample bytes).map (m.finishSample v x i ts b opts)
      | _, _, _ => none

/-- DONE of the unit that a tile holds. One that runs the shipped kernels ends as they do: their output lies in its slot, as
far as that reaches, and the entry keeps what the control complex will collect. -/
def Mach.finishUnit (v : Variant) (m : Mach) (t status : Nat) : Mach :=
  match (m.tile t).unit with
  | none => m.unitDone v t status
  | some u =>
    match m.entryAt u.loc with
    | none => m.unitDone v t status
    | some e =>
      match (if e.kind = .kernel then m.runKernel v e.bytes else none) with
      | none => m.unitDone v t status
      | some k =>
        let m := m.jobWrite v t (entrySlot e.bytes) ((k.out.getD []).take u.slotLen)
        (m.putEntry u.loc (some { e with held := some k })).unitDone v t k.status

end Sys2Proof.Machine
end

