-- ==== Sys2Proof/Machine/MemErr.lean ====
section
/-!
DEFINITION. Corrected and uncorrectable errors of protected words (07 R246, R249 to R252).
-/
namespace Sys2Proof.Machine

/-- The GDDR7 channel of a device address (R246). -/
def chanOf (v : Variant) (a : Nat) : Nat :=
  let h := bitsOf a 13 8 ^^^ bitsOf a 19 14 ^^^ bitsOf a 25 20 ^^^ bitsOf a 31 26
  match v with
  | .ylm2560L => h % 32
  | _ => h % 64

/-- The byte offset within its channel of a device address (R246). -/
def chanOffset (v : Variant) (a : Nat) : Nat :=
  let h := bitsOf a 13 8 ^^^ bitsOf a 19 14 ^^^ bitsOf a 25 20 ^^^ bitsOf a 31 26
  match v with
  | .ylm2560L => a / 2 ^ 14 * 512 + bitsOf h 5 5 * 256 + a % 256
  | _ => a / 2 ^ 14 * 256 + a % 256

/-- STRUCT of MEM_ECC_LAST and the SOURCE of a word's records. -/
def wordStruct (v : Variant) (a : Nat) : Nat × Nat :=
  match locOf v none a with
  | .tile t _ => (1, sourceOf 1 t)
  | .cluster c _ => (2, sourceOf 2 c)
  | _ => (0, sourceOf 5 (chanOf v a))

/-- A corrected error of a word has been recorded within the hour (R251). -/
def Mach.ceRecent (m : Mach) (a : Nat) : Bool :=
  match mapFind m.mem.ceSeen a with
  | some t => decide (m.spn.count < t + 3600000000000)
  | none => false

/-- A corrected error of a word (R251): counted, shown in MEM_ECC_LAST, recorded once per word and hour. -/
def Mach.eccCe (v : Variant) (m : Mach) (inj : Bool) (a : Nat) : Mach :=
  let s := wordStruct v a
  let m := m.addFld Reg.memEccCe 31 0 1
  let m := if s.1 = 0 then m.satFld (Reg.memChErr (chanOf v a)) 15 0 1 else m
  let m := m.setReg Reg.memEccLast (BitVec.ofNat 64 (s.1 * 2 ^ 60 + a))
  let m := { m with mem := { m.mem with ceWords := m.mem.ceWords.filter (fun w => w ≠ a) } }
  if m.ceRecent a then m
  else
    let m := { m with mem := { m.mem with ceSeen := mapSet m.mem.ceSeen a m.spn.count } }
    (m.recordAs (inj || m.ras.injWords.contains a) 0x0020 s.2 St.ok (payloadOf [(1, s.1), (1, m.drawn 0x200 % 64), (2, 0), (8, a)])).draw

/-- An uncorrectable error of a word counted and recorded (R252); outcome numbers are not stated by the spec. -/
def Mach.eccUe (v : Variant) (m : Mach) (inj : Bool) (a status outcome : Nat) : Mach :=
  let s := wordStruct v a
  let m := m.addFld Reg.memEccUe 31 0 1
  let m := m.setReg Reg.memEccLast (BitVec.ofNat 64 (s.1 * 2 ^ 60 + 2 ^ 56 + a))
  m.recordAs (inj || m.ras.injWords.contains a) 0x0021 s.2 status
    (payloadOf [(1, s.1), (3, 0), (8, a), (4, Config.freeNat 0x21 outcome % 2 ^ 32)])

/-- A word no longer holds an error: written, reloaded or rebuilt. -/
def Mach.wordGood (m : Mach) (a : Nat) : Mach :=
  { m with mem := { m.mem with badWords := m.mem.badWords.filter (fun w => w ≠ a),
                               ceWords := m.mem.ceWords.filter (fun w => w ≠ a) } }

/-- Every word that a write of n bytes covers whole or in part no longer holds an error. -/
def Mach.written (m : Mach) (a n : Nat) : Mach :=
  let keep (w : Nat) : Bool := w + 8 ≤ a || a + n ≤ w
  { m with mem := { m.mem with badWords := m.mem.badWords.filter keep, ceWords := m.mem.ceWords.filter keep } }

/-- A place by its window address, 0 where it has none. -/
def normAddr (v : Variant) (self a : Nat) : Nat := (locOf v (some self) a).addr

/-- The words with a corrected error that a read of n bytes meets. -/
def Mach.ceHits (m : Mach) (a n : Nat) : List Nat := m.mem.ceWords.filter (fun w => w < a + n && a < w + 8)

/-- The first word with an uncorrectable error that a read of n bytes meets; every word of a channel out of service is
one (R256). -/
def Mach.ueHit (v : Variant) (m : Mach) (a n : Nat) : Option Nat :=
  match m.mem.badWords.find? (fun w => w < a + n && a < w + 8) with
  | some w => some w
  | none =>
    if m.mem.chansOut.isEmpty then none
    else (((List.range (n / 8 + 2)).map (fun i => (a / 8 + i) * 8)).find? (fun w =>
      decide (w < a + n) && decide (w < gddrTop v) && m.mem.chansOut.contains (chanOf v w)))

/-- Corrected errors met by a read are delivered, counted and written back (R251). -/
def Mach.meetCe (v : Variant) (m : Mach) (a n : Nat) : Mach :=
  (m.ceHits a n).foldl (fun m w => m.eccCe v false w) m

/-- The jobs that an uncorrectable error of a cluster's queue, counters or queue state fails (R252). -/
def jobsOfWord (m : Mach) (c off : Nat) : List Nat :=
  let own (e : QEntry) : Bool := entryHome e.bytes = c
  let es := m.allEntries.filter (fun p =>
    if off < 0x40000 then (match p.1 with | .cluster c' k => c' = c && k % 4096 = off / 64 | _ => false)
    else if 0x70000 ≤ off ∧ off < 0x74000 then
      own p.2 && leAt p.2.bytes 0x34 2 ≤ (off - 0x70000) / 4 &&
        (off - 0x70000) / 4 < leAt p.2.bytes 0x34 2 + leAt p.2.bytes 0x36 2
    else own p.2)
  (es.map (fun p => entryJob p.2.bytes)).dedup

/-- Whether the inputs of the work that met a lost word are intact (R252): for data in GDDR7 and mailboxes this follows
from the job's plan, whose graph the spec does not give. -/
def Mach.intact (m : Mach) : Bool := m.drawn 0x252 % 2 = 1

/-- A unit on a tile reads a word with an uncorrectable error (R252). -/
def Mach.unitUe (v : Variant) (m : Mach) (t w : Nat) : Mach :=
  let job := (m.tile t).entryNat 0 4
  match locOf v none w with
  | .cluster c off =>
    if 0x100000 ≤ off then ((m.eccUe v false w St.ok 1).wordGood w).unitDrop t .memory false
    else if 0x50000 ≤ off ∧ off < 0x70000 then
      let ok := m.intact
      let m := (m.eccUe v false w (if ok then St.ok else St.internal) (if ok then 2 else 3)).draw
      if ok then (m.wordGood w).unitDrop t .memory false
      else (m.unitDrop t .memory false).jobFail job St.internal
    else
      let m := m.eccUe v false w St.internal 3
      (jobsOfWord m c off).foldl (fun m j => m.jobFail j St.internal) (m.unitDrop t .memory false)
  | .tile _ _ => ((m.eccUe v false w St.ok 2).wordGood w).unitDrop t .memory false
  | _ =>
    let ok := m.intact
    let m := (m.eccUe v false w (if ok then St.ok else St.internal) (if ok then 2 else 3)).draw
    if ok then (m.wordGood w).unitDrop t .memory false
    else (m.unitDrop t .memory false).jobFail job St.internal

end Sys2Proof.Machine
end

