-- ==== Sys2Proof/Machine/TileOps.lean ====
section
/-!
DEFINITION. The scalar core, the vector queue and the sync objects of a tile (05 R164 to R213, 06 R214 to R222): issuing
an instruction, waiting and being released, and the exceptions.
-/
namespace Sys2Proof.Machine

/-! ### Sync objects -/

/-- The count of a sync object. -/
def Tile.count (t : Tile) (k : SyncId) : Nat := t.sync[k]

def Tile.setCount (t : Tile) (k : SyncId) (n : Nat) : Tile := { t with sync := t.sync.set k n }

/-- The first unserved waiter of an object is marked served. -/
def serveFirst (k : SyncId) : List WaitRec → List WaitRec
  | [] => []
  | w :: r => if w.obj = k && !w.served then { w with served := true } :: r else w :: serveFirst k r

/-- Waits served from the count, in the order in which they began (06 R214 to R216). -/
def Tile.serve (t : Tile) (k : SyncId) : Tile :=
  if t.count k ≠ 0 && t.waits.any (fun w => w.obj = k && !w.served) then
    { t.setCount k (t.count k - 1) with waits := serveFirst k t.waits }
  else t

/-- A signal (06 R214, R217): at 0xFFFF the count stays and OVF is set. -/
def Mach.signalObj (m : Mach) (t : Nat) (k : SyncId) : Mach :=
  let x := m.tile t
  if x.count k = 0xFFFF then m.setBit (Reg.tileSync t k.val) 16 true
  else m.setTile t ((x.setCount k (x.count k + 1)).serve k)

/-- The descriptor queue of an engine number. -/
def Tile.engQ (t : Tile) (e : EngId) : EngineQ :=
  match e with | .gouge => t.gq | .aes => t.aq | .dma => t.dq

def Tile.setEngQ (t : Tile) (e : EngId) (q : EngineQ) : Tile :=
  match e with
  | .gouge => { t with gq := q }
  | .aes => { t with aq := q }
  | .dma => { t with dq := q }

def EngId.no : EngId → EngNo
  | .gouge => 2
  | .aes => 3
  | .dma => 4

/-- Queue depth of an engine (04 R121). -/
def EngId.depth : EngId → Nat
  | .dma => 16
  | _ => 8

/-- An engine waits on a sync object and has not been released. -/
def Tile.waiting (t : Tile) (e : EngNo) : Bool := t.waits.any (fun w => w.eng = e)

/-- An engine is blocked on a wait: its count has not come. -/
def Tile.blocked (t : Tile) (e : EngNo) : Bool := t.waits.any (fun w => w.eng = e && !w.served)

/-- An engine begins to wait on an object, or takes its count at once and goes on (06 R214). -/
def Tile.beginWait (t : Tile) (e : EngNo) (k : SyncId) : Tile × Bool :=
  if t.count k ≠ 0 && !t.waits.any (fun w => w.obj = k && !w.served) then (t.setCount k (t.count k - 1), true)
  else ({ t with waits := t.waits ++ [⟨e, k, false⟩] }, false)

/-! ### Descriptor headers -/

/-- Header fields of a descriptor (04 R125). -/
def descWaitObj (d : List Byte) : SyncId := Fin.ofNat 16 (leAt d 0 8)
def descWaitEn (d : List Byte) : Bool := bitAt (leAt d 0 8) 4
def descSignalObj (d : List Byte) : SyncId := Fin.ofNat 16 (bitsOf (leAt d 0 8) 11 8)
def descSignalEn (d : List Byte) : Bool := bitAt (leAt d 0 8) 12
def descFence (d : List Byte) : Bool := bitAt (leAt d 0 8) 13
def descOp (d : List Byte) : Nat := bitsOf (leAt d 0 8) 23 16
def descFlags (d : List Byte) : Nat := bitsOf (leAt d 0 8) 31 24
def descStatusOff (d : List Byte) : Nat := bitsOf (leAt d 0 8) 50 32
def descStatusEn (d : List Byte) : Bool := bitAt (leAt d 0 8) 51

/-- A reserved header value (04 R125, R127). -/
def descBadHeader (d : List Byte) : Bool :=
  let h := leAt d 0 8
  bitsOf h 7 5 ≠ 0 || bitsOf h 15 14 ≠ 0 || bitsOf h 63 52 ≠ 0 || descStatusOff d % 8 ≠ 0

/-- The operation is one of the engine's (04 R133, 05 R202). -/
def descKnownOp (e : EngId) (d : List Byte) : Bool :=
  let o := descOp d
  match e with
  | .gouge => 1 ≤ o && o ≤ 6
  | .aes => 1 ≤ o && o ≤ 2
  | .dma => 1 ≤ o && o ≤ 4

/-! ### Fence audit -/

/-- A flagged signal (06 R221): counted, and recorded when it is the unit's first. Detail is the instruction address,
or the engine and OP of the descriptor. -/
def Mach.flagSignal (m : Mach) (t detail : Nat) : Mach :=
  let x := m.tile t
  let m := (m.setBit (Reg.tileAudit t) 31 true).satFld (Reg.tileAudit t) 15 0 1
  if x.flagged then m
  else
    (m.setTile t { x with flagged := true }).record 0x0018 (sourceOf 1 t) St.ok
      (payloadOf [(4, x.entryNat 0 4), (8, x.entryNat 0x38 8), (8, detail)])

/-- A SIGNAL of the program stream: flagged in audit mode while writes are unfenced (06 R220). -/
def Mach.programSignal (m : Mach) (t : Nat) (k : SyncId) (pc : Nat) : Mach :=
  let m := if m.bit (Reg.tileAudit t) 16 && (m.tile t).unfenced then m.flagSignal t pc else m
  m.signalObj t k

/-- A store of the program stream sets the unfenced flag (06 R220). -/
def Mach.unfence (m : Mach) (t : Nat) : Mach := m.setTile t { m.tile t with unfenced := true }

/-- A FENCE with W set clears it. -/
def Mach.fenced (m : Mach) (t : Nat) (w : Bool) : Mach :=
  if w then m.setTile t { m.tile t with unfenced := false } else m

/-! ### Loads and stores of the program stream -/

/-- The exception of an access, if any (05 R172): ALIGN 4, ACCESS 2, PROTECT 3 for a store that R141 or R227 forbids. -/
def accessCause (v : Variant) (m : Mach) (t a n align : Nat) (store : Bool) : Option Nat :=
  if a % align ≠ 0 then some 4
  else if !inOwnReach v t a n then some 2
  else if store && !(List.range n).all (fun i => (m.tile t).mayWrite (locOf v (some t) (a + i))) then some 3
  else none

/-- A store of the program stream. -/
def Mach.progStore (v : Variant) (m : Mach) (t a : Nat) (bs : List Byte) : Mach :=
  ((m.jobWrite v t a bs).written (normAddr v t a) bs.length).unfence t

/-! ### The vector unit -/

/-- Bytes of an element of a VLD MODE (05 R175). -/
def vldSize (mode : Fin 8) : Nat := match mode.val with | 0 => 64 | 1 => 1 | 2 => 2 | 3 => 4 | _ => 8

/-- Bytes of an element of a gather (05 R180). -/
def gatherSize (sz : Fin 8) : Nat := match sz.val with | 0 => 1 | 1 => 2 | _ => 4

/-- The address of element k of a gather or scatter (05 R180). -/
def gatherAddr (x : Tile) (a : GatherArgs) (base : U64) (k : Nat) : Nat :=
  (base.toNat + laneOf 32 (x.vr a.vi) k * 2 ^ a.scale.val) % 2 ^ 64

/-- Active lanes of a gather or scatter. -/
def gatherLanes (x : Tile) (a : GatherArgs) : List Nat :=
  (List.range 16).filter (laneOn (x.pr a.pg) a.pn)

/-- The first exception of the elements of a gather or scatter. -/
def gatherCause (v : Variant) (m : Mach) (t : Nat) (a : GatherArgs) (base : U64) (store : Bool) : Option Nat :=
  let x := m.tile t
  (gatherLanes x a).findSome? (fun k =>
    accessCause v m t (gatherAddr x a base k) (gatherSize a.sz) (gatherSize a.sz) store)

/-- The memory ranges that a vector operation reads. -/
def vecReads (x : Tile) (op : VOp) : List (Nat × Nat) :=
  match op with
  | .vld _ _ mode a => [(a.toNat, vldSize mode)]
  | .gather a base => (gatherLanes x a).map (fun k => (gatherAddr x a base k, gatherSize a.sz))
  | .cmx _ a => [(a.toNat, 64)]
  | _ => []

/-- The exception of a vector operation, if any (05 R172, R175, R180, R183, R209). -/
def vecCause (v : Variant) (m : Mach) (t : Nat) (op : VOp) : Option Nat :=
  match op with
  | .vld _ _ mode a => accessCause v m t a.toNat (vldSize mode) (vldSize mode) false
  | .vst _ _ a => accessCause v m t a.toNat 64 64 true
  | .gather a base => gatherCause v m t a base false
  | .scatter a base => gatherCause v m t a base true
  | .cmx _ a => if a.toNat % 64 ≠ 0 then some 4 else if inOwnTile v t a.toNat 64 then none else some 2
  | _ => none

/-- The three outputs of VCMX (05 R183), all sources read first. -/
def vcmx (x : Tile) (a : VArgs) (c : List Nat) : Tile :=
  match arithFmt a.ty with
  | some f =>
    let w := typeWidth a.ty
    let p := x.pr a.pg
    let src (j k : Nat) : Nat := laneOf w (x.vr (Fin.ofNat 32 (a.vs1.val + j))) k
    let r (i k : Nat) : Nat × Flags := cmxLane f c i [src 0 k, src 1 k, src 2 k]
    let out (i : Nat) : V512 := mergeLanes w p a.pn (x.vr (Fin.ofNat 32 (a.vd.val + i))) (fun k => (r i k).1)
    let fl := (List.range 3).foldl (fun s i => s ||| laneFlags (512 / w) p a.pn (fun k => (r i k).2)) 0
    (((x.setV a.vd (out 0)).setV (Fin.ofNat 32 (a.vd.val + 1)) (out 1)).setV (Fin.ofNat 32 (a.vd.val + 2))
      (out 2)).addFlags fl
  | none => x

/-- A vector operation other than WAIT, once no exception stands against it. -/
def Mach.vecRun (v : Variant) (m : Mach) (t : Nat) (e : VqEntry) : Mach :=
  let x := m.tile t
  match e.op with
  | .vld vd pg mode a =>
    let bs := m.jobRead v t a.toNat (vldSize mode)
    let p := x.pr pg
    let y := if mode = 0 then mergeLanes 8 p false (x.vr vd) (fun k => (bs.getD k 0).toNat)
      else mergeLanes (8 * vldSize mode) p false (x.vr vd) (fun _ => ofLe bs)
    m.setTile t (x.setV vd y)
  | .vst vd pg a =>
    let p := x.pr pg
    let bs := vecBytes (x.vr vd)
    ((List.range 64).foldl (fun m k =>
      if laneOn p false k then (m.jobWrite v t (a.toNat + k) [bs.getD k 0]).written (normAddr v t (a.toNat + k)) 1
      else m) m).unfence t
  | .gather a base =>
    m.setTile t (x.setV a.vd (mergeLanes 32 (x.pr a.pg) a.pn (x.vr a.vd)
      (fun k => ofLe (m.jobRead v t (gatherAddr x a base k) (gatherSize a.sz)))))
  | .scatter a base =>
    ((gatherLanes x a).foldl (fun m k =>
      (m.jobWrite v t (gatherAddr x a base k) (leBytes (gatherSize a.sz) (laneOf 32 (x.vr a.vd) k))).written
        (normAddr v t (gatherAddr x a base k)) (gatherSize a.sz)) m).unfence t
  | .cmx a addr =>
    let bs := m.jobRead v t addr.toNat 64
    m.setTile t (vcmx x a ((List.range 12).map (fun i => leAt bs (4 * i) 4)))
  | .signal k => m.programSignal t k e.pc
  | .fence w _ => m.fenced t w
  | op => m.setTile t (vecReg x op)

/-- The entries of the vector queue executed in order until the queue is empty or the unit blocks (04 R124); fuel counts
entries. -/
def Mach.vecDrain (v : Variant) : Nat → Mach → Nat → Mach
  | 0, m, _ => m
  | n + 1, m, t =>
    let x := m.tile t
    if x.waiting 1 then m
    else
      match x.vq with
      | [] => m
      | e :: r =>
        match e.op with
        | .wait k =>
          let y := { x with vq := r }.beginWait 1 k
          Mach.vecDrain v n (m.setTile t (if y.2 then y.1 else { y.1 with vq := x.vq })) t
        | _ =>
          match vecCause v m t e.op with
          | some c => m.tileExc t 1 c e.pc 0
          | none =>
            match (vecReads x e.op).findSome? (fun p => m.ueHit v (normAddr v t p.1) p.2) with
            | some w => m.unitUe v t w
            | none =>
              let m := (vecReads x e.op).foldl (fun m p => m.meetCe v (normAddr v t p.1) p.2) m
              Mach.vecDrain v n ((m.setTile t { m.tile t with vq := r }).vecRun v t e) t

/-! ### Descriptors -/

/-- A descriptor that has reached the head of its queue begins: its wait is served or begins (04 R125). -/
def Tile.startHead (t : Tile) (e : EngId) : Tile :=
  let q := t.engQ e
  match q.q with
  | d :: _ =>
    if q.started || t.waiting e.no then t
    else if descWaitEn d then
      let y := t.beginWait e.no (descWaitObj d)
      if y.2 then y.1.setEngQ e ⟨q.q, true⟩ else y.1
    else t.setEngQ e ⟨q.q, true⟩
  | [] => t

/-- What a descriptor came to: the machine, status code, result field, and whether it wrote a byte. -/
structure DescOut where
  m : Mach
  status : Nat
  result : Nat
  wrote : Bool

/-- The head descriptor of an engine completes (04 R126, R127): status word, then the signal; the next one starts. -/
def Mach.completeDesc (v : Variant) (o : DescOut) (t : Nat) (e : EngId) (d : List Byte) : Mach :=
  let m := o.m
  let x := m.tile t
  let m := m.setTile t (x.setEngQ e ⟨(x.engQ e).q.drop 1, false⟩)
  let m := if descStatusEn d && !descBadHeader d then
      (m.jobWrite v t (0x5FFFFFF80000 + descStatusOff d) (leBytes 4 o.status ++ leBytes 4 o.result)).written
        (normAddr v t (0x5FFFFFF80000 + descStatusOff d)) 8
    else m
  let wrote := o.wrote || descStatusEn d
  let m := if m.bit (Reg.tileAudit t) 16 && descSignalEn d && !descFence d && wrote then
      m.flagSignal t (e.no.val + descOp d * 2 ^ 32) else m
  let m := if e = .gouge then m.addFld (Reg.tilePerfGouge t) 63 0 1 else m
  if descSignalEn d then m.signalObj t (descSignalObj d) else m

/-- The head of an engine's queue starts if its wait is over; a descriptor with a reserved operation completes at once
with ST_INVALID_FIELD (04 R127), and the next one starts; fuel counts descriptors. -/
def Mach.settle (v : Variant) : Nat → Mach → Nat → EngId → Mach
  | 0, m, _, _ => m
  | n + 1, m, t, e =>
    let x := (m.tile t).startHead e
    let m := m.setTile t x
    match (x.engQ e).q with
    | d :: _ =>
      if (x.engQ e).started && !descKnownOp e d then
        Mach.settle v n (Mach.completeDesc v ⟨m, St.invalidField, 0, false⟩ t e d) t e
      else m
    | [] => m

/-! ### Issue -/

/-- Words of an instruction (05 R164): LI, VFMA, VCVT, VGATHER, VSCATTER and VTBL are long forms. -/
def TInstr.size : TInstr → Nat
  | .li _ _ _ => 8
  | .vec (.fma _ _ _) => 8
  | .vec (.cvt _) => 8
  | .vec (.gather _ _) => 8
  | .vec (.scatter _ _) => 8
  | .vec (.tbl _ _) => 8
  | _ => 4

/-- The vector register a queued operation writes. -/
def VOp.writesV (op : VOp) (r : VReg) : Bool :=
  match op with
  | .fp _ a => a.vd = r
  | .int _ a => a.vd = r
  | .bit _ a => a.vd = r
  | .perm _ a => a.vd = r
  | .tbl a _ => a.vd = r
  | .gather a _ => a.vd = r
  | .fma _ a _ => a.vd = r
  | .dot _ a => a.vd = r
  | .cmx a _ => a.vd.val ≤ r.val && r.val ≤ a.vd.val + 2
  | .cvt a => a.vd = r
  | .red _ a => a.vd = r
  | .gtov vd _ _ _ => vd = r
  | .bcast vd _ _ => vd = r
  | .vmov vd _ => vd = r
  | .vld vd _ _ _ => vd = r
  | .vhash _ a => a.vd = r
  | .rng a _ => a.vd = r
  | _ => false

/-- A queued operation that loads, or that stores (05 R204). -/
def VOp.loads : VOp → Bool
  | .vld _ _ _ _ => true
  | .gather _ _ => true
  | _ => false

def VOp.stores : VOp → Bool
  | .vst _ _ _ => true
  | .scatter _ _ => true
  | _ => false

/-- Why an instruction cannot issue now (R123, R163, R200, R204, R199, R201): a full queue or an interlock. -/
def Tile.mustStall (t : Tile) (i : TInstr) : Bool :=
  match i with
  | .vec _ => 16 ≤ t.vq.length
  | .enq e vs => e.depth ≤ (t.engQ e).q.length || t.vq.any (fun q => q.op.writesV vs)
  | .load _ _ _ _ => t.vq.any (fun q => q.op.loads || q.op.stores)
  | .store _ _ _ _ => t.vq.any (fun q => q.op.loads || q.op.stores)
  | .vtog _ _ _ _ => !t.vq.isEmpty
  | .predToG _ _ => !t.vq.isEmpty
  | .predPopc _ _ => !t.vq.isEmpty
  | .csrr _ n => n = 0 && !t.vq.isEmpty
  | .csrw n _ => n = 0 && !t.vq.isEmpty
  | .fence w r => (w && t.vq.any (fun q => q.op.stores)) || (r && t.vq.any (fun q => q.op.loads))
  | .done _ => !t.vq.isEmpty || !t.gq.q.isEmpty || !t.aq.q.isEmpty || !t.dq.q.isEmpty
  | _ => false

/-- A SALU operation (05 R169, R170). -/
def salu (op : SOp) (a b : U64) : U64 :=
  let sh := b.toNat % 64
  let one (c : Bool) : U64 := if c then 1 else 0
  match op with
  | .add => a + b
  | .sub => a - b
  | .and => a &&& b
  | .or => a ||| b
  | .xor => a ^^^ b
  | .shl => a <<< sh
  | .shr => a >>> sh
  | .sar => a.sshiftRight sh
  | .ror => a.rotateRight sh
  | .slt => one (a.slt b)
  | .sltu => one (a.ult b)
  | .min => if a.slt b then a else b
  | .max => if a.slt b then b else a
  | .minu => if a.ult b then a else b
  | .maxu => if a.ult b then b else a
  | .mul => a * b
  | .mulh => BitVec.ofInt 64 (a.toInt * b.toInt / 2 ^ 64)
  | .mulhu => BitVec.ofNat 64 (a.toNat * b.toNat / 2 ^ 64)
  | .div => if b = 0 then BitVec.allOnes 64 else BitVec.ofInt 64 (a.toInt.tdiv b.toInt)
  | .divu => if b = 0 then BitVec.allOnes 64 else BitVec.ofNat 64 (a.toNat / b.toNat)
  | .rem => if b = 0 then a else BitVec.ofInt 64 (a.toInt.tmod b.toInt)
  | .remu => if b = 0 then a else BitVec.ofNat 64 (a.toNat % b.toNat)
  | .clz => BitVec.ofNat 64 (if a = 0 then 64 else 63 - Nat.log2 a.toNat)
  | .ctz => BitVec.ofNat 64 (((List.range 64).find? (fun i => a.getLsbD i)).getD 64)
  | .popc => BitVec.ofNat 64 ((List.range 64).filter (fun i => a.getLsbD i)).length
  | .bswap => BitVec.ofNat 64 (ofBe (leBytes 8 a.toNat))

/-- A branch condition (05 R171). -/
def brTaken (op : BrOp) (a b : U64) : Bool :=
  match op with
  | .eq => a = b
  | .ne => a ≠ b
  | .lt => a.slt b
  | .ge => !a.slt b
  | .ltu => a.ult b
  | .geu => !a.ult b

/-- A signed offset in words added to an address. -/
def addOff (pc : Nat) (off : Int) : Nat := unsignedOf 64 ((pc : Int) + off)

/-- Bytes, and sign extension, of a LOAD width (05 R172). -/
def loadWidth (w : Fin 8) : Nat × Bool :=
  match w.val with
  | 0 => (1, false) | 1 => (2, false) | 2 => (4, false) | 3 => (8, false) | 4 => (1, true) | 5 => (2, true)
  | _ => (4, true)

/-- The tile with pc moved past an instruction. -/
def Tile.advance (t : Tile) (n : Nat) : Tile := { t with pc := t.pc + n }

/-- An address lies in the code object of the tile's unit and is a multiple of 4 (05 R171). -/
def Tile.goodPc (t : Tile) (a n : Nat) : Bool :=
  match t.unit with
  | some u => a % 4 = 0 && u.codeBase ≤ a && a + n ≤ u.codeBase + u.codeLen
  | none => false

/-- A jump with an optional link; a bad target raises TARGET at the jump (05 R171). -/
def Mach.jump (m : Mach) (t target : Nat) (link : Option GReg) : Mach :=
  let x := m.tile t
  if x.goodPc target 4 then
    let y := match link with | some rd => x.setG rd (BitVec.ofNat 64 (x.pc + 4)) | none => x
    m.setTile t { y with pc := target }
  else m.tileExc t 0 5 x.pc 0

/-- An instruction takes effect on a tile whose scalar core runs; none of its interlocks holds. -/
def Mach.issueNow (v : Variant) (m : Mach) (t : Nat) (i : TInstr) : Mach :=
  let x := m.tile t
  let next (y : Tile) : Mach := m.setTile t (y.advance i.size)
  match i with
  | .salu op rd rs1 rs2 => next (x.setG rd (salu op (x.gr rs1) (x.gr rs2)))
  | .saluImm op rd rs1 imm => next (x.setG rd (salu op (x.gr rs1) imm))
  | .li rd high imm =>
    next (x.setG rd (if high then (imm.setWidth 64 <<< 32) ||| ((x.gr rd).setWidth 32).setWidth 64
      else imm.signExtend 64))
  | .br op rs1 rs2 off =>
    if brTaken op (x.gr rs1) (x.gr rs2) then m.jump t (addOff x.pc (off.toInt * 4)) none else next x
  | .jal rd off => m.jump t (addOff x.pc (off.toInt * 4)) (some rd)
  | .jalr rd rs1 imm => m.jump t ((x.gr rs1) + imm.signExtend 64).toNat (some rd)
  | .load rd rs1 w off =>
    let a := ((x.gr rs1) + off.signExtend 64).toNat
    let n := (loadWidth w).1
    match accessCause v m t a n n false with
    | some c => m.tileExc t 0 c x.pc 0
    | none =>
      match m.ueHit v (normAddr v t a) n with
      | some wd => m.unitUe v t wd
      | none =>
        let m := m.meetCe v (normAddr v t a) n
        let r := ofLe (m.jobRead v t a n)
        let r := if (loadWidth w).2 then unsignedOf 64 (signedOf (8 * n) r) else r
        m.setTile t (((m.tile t).setG rd (BitVec.ofNat 64 r)).advance i.size)
  | .store rd rs1 w off =>
    let a := ((x.gr rs1) + off.signExtend 64).toNat
    let n := (loadWidth w).1
    match accessCause v m t a n n true with
    | some c => m.tileExc t 0 c x.pc 0
    | none => (next x).progStore v t a (leBytes n (x.gr rd).toNat)
  | .hash op rd rs1 rs2 => next (x.setG rd (hashOp op (x.gr rs1) (x.gr rs2)))
  | .vec op => (next { x with vq := x.vq ++ [⟨op, x.pc⟩] }).vecDrain v 17 t
  | .vtog rd rs1 rs2 size =>
    let w := sizeWidth size
    next (x.setG rd (BitVec.ofNat 64 (laneOf w (x.vr rs1) ((x.gr rs2).toNat % (512 / w)))))
  | .predToG rs pa => next (x.setG rs (x.pr pa))
  | .predPopc rs pa => next (x.setG rs (salu .popc (x.pr pa) 0))
  | .csrr rd n =>
    if n = 0 then next (x.setG rd (BitVec.ofNat 64 x.fstat))
    else if n = 1 then next (x.setG rd (m.reg (Reg.tilePerfCycles t)))
    else if n = 2 then next (x.setG rd 0x5FFFFFFFFFC0#64)
    else m.tileExc t 0 1 x.pc 0
  | .csrw n rs1 =>
    if n = 0 then next { x with fstat := (x.gr rs1).toNat % 64 } else m.tileExc t 0 1 x.pc 0
  | .wait k =>
    let y := x.beginWait 0 k
    m.setTile t (if y.2 then y.1.advance 4 else y.1)
  | .signal k => (next x).programSignal t k x.pc
  | .trywait k rd =>
    let y := x.beginWait 0 k
    if y.2 then next (y.1.setG rd 1) else next (x.setG rd 0)
  | .fence w _ => (next x).fenced t w
  | .enq e vs =>
    let q := x.engQ e
    (next (x.setEngQ e ⟨q.q ++ [vecBytes (x.vr vs)], q.started⟩)).settle v 17 t e
  | .nop => next x
  | .done rs =>
    let st := (x.gr rs).toNat % 2 ^ 16
    if st = St.ok || st = St.checkFail || st = St.checkAbsent then m.finishUnit v t st else m.tileExc t 0 1 x.pc 0
  | .trap code => m.tileExc t 0 6 x.pc code.toNat
  | .illegal => m.tileExc t 0 1 x.pc 0

/-- The scalar core of a tile runs: a unit executes, no wait holds it and no instruction is stalled. -/
def Tile.scalarFree (t : Tile) : Bool := t.running && !t.waiting 0 && t.stalled.isNone

/-- The scalar core issues an instruction, or holds it (R123); execution past the code object raises TARGET (R171). -/
def Mach.issue (v : Variant) (m : Mach) (t : Nat) (i : TInstr) : Mach :=
  let x := m.tile t
  if !x.goodPc x.pc i.size then m.tileExc t 0 5 x.pc 0
  else if x.mustStall i then m.setTile t { x with stalled := some i }
  else m.issueNow v t i

/-- The held instruction issues if nothing holds it any more. -/
def Mach.unstall (v : Variant) (m : Mach) (t : Nat) : Mach :=
  let x := m.tile t
  match x.stalled with
  | some i => if x.mustStall i then m else (m.setTile t { x with stalled := none }).issueNow v t i
  | none => m

/-- An instruction command of a tile: nothing happens where the tile's scalar core does not run. -/
def Mach.tileInstr (v : Variant) (m : Mach) (t : Nat) (i : Tile → TInstr) : Mach :=
  if (m.tile t).scalarFree then m.issue v t (i (m.tile t)) else m

/-- WAIT_RELEASE (06 R215): a served waiter goes on. -/
def Mach.release (v : Variant) (m : Mach) (t : Nat) (e : EngNo) : Mach :=
  let x := m.tile t
  if x.waits.any (fun w => w.eng = e && w.served) then
    let x := { x with waits := x.waits.filter (fun w => w.eng ≠ e) }
    match e.val with
    | 0 => m.setTile t (x.advance 4)
    | 1 => ((m.setTile t { x with vq := x.vq.drop 1 }).vecDrain v 17 t).unstall v t
    | 2 => ((m.setTile t (x.setEngQ .gouge ⟨x.gq.q, true⟩)).settle v 17 t .gouge).unstall v t
    | 3 => ((m.setTile t (x.setEngQ .aes ⟨x.aq.q, true⟩)).settle v 17 t .aes).unstall v t
    | _ => ((m.setTile t (x.setEngQ .dma ⟨x.dq.q, true⟩)).settle v 17 t .dma).unstall v t
  else m

end Sys2Proof.Machine
end

