-- ==== Sys2Proof/Machine/GougeOps.lean ====
section
/-!
DEFINITION. What the Gouge operations compute (04 R133 to R137, 05 R202, R203, 11 R393, R394).
-/
namespace Sys2Proof.Machine

/-! ### Checks -/

/-- Bytes 8 to 63 of a descriptor that no field names are 0 (05 R202). -/
def descReserved0 (d : List Byte) (fields : List (Nat × Nat)) : Bool :=
  (List.range 64).all (fun i => i < 8 || fields.any (fun f => f.1 ≤ i && i < f.1 + f.2) || d.getD i 0 = 0)

/-- FLAGS of a descriptor are within a mask. -/
def descFlagsIn (d : List Byte) (mask : Nat) : Bool := descFlags d &&& (255 - mask) = 0

/-- Status of a range that must lie in the tile's own SRAM. -/
def ownStatus (v : Variant) (t a n : Nat) : Nat :=
  if 2 ^ 48 ≤ a then St.invalidField else if inOwnTile v t a n then St.ok else St.bounds

/-- The first of several status codes that is reported (R20). -/
def worst (l : List Nat) : Nat := l.foldl St.first St.ok

/-- Bytes written by a descriptor of a tile. -/
def Mach.descWrite (v : Variant) (m : Mach) (t a : Nat) (bs : List Byte) : Mach :=
  (m.jobWrite v t a bs).written (normAddr v t a) bs.length

/-- A descriptor that fails before any access. -/
def failWith (m : Mach) (st : Nat) : DescOut := ⟨m, st, 0, false⟩

/-! ### HASH -/

/-- Gouge HASH (R202): CRC-32C continued from a standard-form value, or GH64. -/
def gougeHash (v : Variant) (m : Mach) (t : Nat) (d : List Byte) : DescOut :=
  let src := leAt d 0x08 8
  let len := leAt d 0x10 4
  let seed := leAt d 0x18 8
  let dst := leAt d 0x20 8
  if !descFlagsIn d 1 || !descReserved0 d [(0x08, 8), (0x10, 4), (0x18, 8), (0x20, 8)] || dst % 8 ≠ 0 then
    failWith m St.invalidField
  else
    let st := worst [m.readStatus v t src len, ownStatus v t dst 8]
    if st ≠ St.ok then failWith m st
    else
      let bs := m.jobRead v t src len
      let h : Nat :=
        if bitAt (descFlags d) 0 then (gh64 (BitVec.ofNat 64 seed) bs).toNat
        else (~~~ crcState (~~~ BitVec.ofNat 32 seed) bs).toNat
      ⟨m.descWrite v t dst (leBytes 8 h), St.ok, h % 2 ^ 32, true⟩

/-! ### LOOKUP -/

/-- Bits [i·w, i·w+w) of packed bytes, as a number. -/
def packedAt (bs : List Byte) (w i : Nat) : Nat := ofLe bs / 2 ^ (w * i) % 2 ^ w

/-- Results of a list of keys: value, hit, LIMIT. -/
def lookupKeys (bucket : Nat → List Nat) (n kb vb limit : Nat) (keys : List Nat) : List (Nat × Bool × Bool) :=
  keys.map (fun k =>
    match probeBuckets bucket n kb vb k limit ((gh64 0 (leBytes 8 k)).toNat % n) with
    | some (some x) => (x, true, false)
    | some none => (0, false, false)
    | none => (0, false, true))

/-- Packed values with the hits replaced. -/
def packValues (old vb : Nat) (rs : List (Nat × Bool × Bool)) : Nat :=
  ((List.range rs.length).zip rs).foldl
    (fun acc p => if p.2.2.1 then putBits acc (vb * p.1 + vb - 1) (vb * p.1) p.2.1 else acc) old

/-- Gouge LOOKUP (R137, R202). -/
def gougeLookup (v : Variant) (m : Mach) (t : Nat) (d : List Byte) : DescOut :=
  let table := leAt d 0x08 8
  let keys := leAt d 0x10 8
  let values := leAt d 0x18 8
  let hitmap := leAt d 0x20 8
  let count := leAt d 0x28 2
  if !descFlagsIn d 0 || !descReserved0 d [(0x08, 8), (0x10, 8), (0x18, 8), (0x20, 8), (0x28, 2)] ||
      count = 0 || 64 < count then failWith m St.invalidField
  else
    let st := m.readStatus v t table 64
    if st ≠ St.ok then failWith m st
    else
      let h := m.jobRead v t table 64
      let bl := leAt h 6 1
      let limit := leAt h 7 1
      let kb := leAt h 8 1
      let vb := leAt h 9 1
      if bl < 4 || 22 < bl || limit = 0 || 16 < limit || kb = 0 || vb = 0 || 62 < kb + vb then
        failWith m St.invalidField
      else
        let kn := (kb * count + 7) / 8
        let vn := (vb * count + 7) / 8
        let st := worst [m.readStatus v t (table + 64) (2 ^ bl * 32), ownStatus v t keys kn, ownStatus v t values vn,
          ownStatus v t hitmap count]
        if st ≠ St.ok then failWith m st
        else
          let bucket (b : Nat) : List Nat :=
            let bs := m.jobRead v t (table + 64 + b * 32) 32
            (List.range 4).map (fun i => leAt bs (8 * i) 8)
          let kbs := m.jobRead v t keys kn
          let rs := lookupKeys bucket (2 ^ bl) kb vb limit ((List.range count).map (packedAt kbs kb))
          let out := packValues (ofLe (m.jobRead v t values vn)) vb rs
          let m := m.descWrite v t values (leBytes vn out)
          let m := m.descWrite v t hitmap
            (rs.map (fun r => BitVec.ofNat 8 (boolBit r.2.1 + 2 * boolBit r.2.2)))
          ⟨m, St.ok, (rs.filter (fun r => r.2.1)).length, true⟩

/-! ### LZEXEC -/

/-- A match copied byte by byte from an offset back in the output (R134). -/
def lzMatch : Nat → Nat → List Byte → List Byte
  | 0, _, out => out
  | n + 1, off, out => lzMatch n off (out ++ [out.getD (out.length - off) 0])

/-- What LZ sequences make: the window so far (WIN_START up to the last byte written), literals left, and success. -/
def lzSeqs (limit : Nat) : List (Nat × Nat × Nat) → List Byte → List Byte → List Byte × Bool
  | [], win, _ => (win, true)
  | (ll, ml, off) :: r, win, lit =>
    let w1 := win ++ sliceBytes lit 0 ll
    if limit < w1.length then (win, false)
    else if ml = 0 then lzSeqs limit r w1 (lit.drop ll)
    else if off = 0 || w1.length < off || limit < w1.length + ml then (w1, false)
    else lzSeqs limit r (lzMatch ml off w1) (lit.drop ll)

/-- Gouge LZEXEC (R134, R202). -/
def gougeLzexec (v : Variant) (m : Mach) (t : Nat) (d : List Byte) : DescOut :=
  let sq := leAt d 0x08 8
  let n := leAt d 0x10 4
  let limit := leAt d 0x14 4
  let lit := leAt d 0x18 8
  let out := leAt d 0x20 8
  let start := leAt d 0x28 8
  if !descFlagsIn d 0 || !descReserved0 d [(0x08, 8), (0x10, 4), (0x14, 4), (0x18, 8), (0x20, 8), (0x28, 8)] ||
      out < start then failWith m St.invalidField
  else
    let st := worst [m.readStatus v t sq (12 * n), m.readStatus v t start (out - start), m.writeStatus v t out limit]
    if st ≠ St.ok then failWith m st
    else
      let bs := m.jobRead v t sq (12 * n)
      let seqs := (List.range n).map (fun i => (leAt bs (12 * i) 4, leAt bs (12 * i + 4) 4, leAt bs (12 * i + 8) 4))
      let lits := (seqs.map (fun s => s.1)).sum
      let st := m.readStatus v t lit lits
      if st ≠ St.ok then failWith m st
      else
        let r := lzSeqs (out - start + limit) seqs (m.jobRead v t start (out - start)) (m.jobRead v t lit lits)
        let made := r.1.drop (out - start)
        ⟨m.descWrite v t out made, if r.2 then St.ok else St.checkFail, made.length, made.length ≠ 0⟩

/-! ### HUFF -/

/-- The bits of a source with their positions: LSB-first or MSB-first in each byte; with stuffing removal, a 0x00 byte
that follows 0xFF carries none (R133). -/
def huffBits (bs : List Byte) (msb unstuff : Bool) (start stop : Nat) : List (Nat × Bool) :=
  let l := (List.range bs.length).flatMap (fun i =>
    let b := bs.getD i 0
    if unstuff && b = 0 && i ≠ 0 && bs.getD (i - 1) 0 = 0xFF then []
    else (List.range 8).map (fun j => (8 * i + j, if msb then b.getLsbD (7 - j) else b.getLsbD j)))
  l.filter (fun p => start ≤ p.1 && p.1 < stop)

/-- One canonical code read from bits: its symbol and the bits left (R133, R202). -/
def huffCode (counts : List Nat) (syms : Nat → Nat) : Nat → Nat → Nat → Nat → List (Nat × Bool) →
    Option (Nat × List (Nat × Bool))
  | 0, _, _, _, _ => none
  | _ + 1, _, _, _, [] => none
  | k + 1, code, first, index, (_, b) :: r =>
    let len := 16 - k
    let c := 2 * code + boolBit b
    let n := counts.getD (len - 1) 0
    if c < first + n then if first ≤ c then some (syms (index + (c - first)), r) else none
    else huffCode counts syms k c ((first + n) * 2) (index + n) r

/-- n further bits as a number: in the order of the stream's bit order (RFC 1951, or most significant first). -/
def huffExtra (msb : Bool) (n : Nat) (bits : List (Nat × Bool)) : Option (Nat × List (Nat × Bool)) :=
  if bits.length < n then none
  else
    let l := (bits.take n).map (fun p => p.2)
    let x := if msb then l.foldl (fun a b => 2 * a + boolBit b) 0 else l.foldr (fun b a => boolBit b + 2 * a) 0
    some (x, bits.drop n)

/-- Symbols decoded, with EXTRA words, up to a count; false when a code or the input fails. -/
def huffSyms (counts : List Nat) (syms : Nat → Nat) (msb extra : Bool) : Nat → List (Nat × Bool) →
    List Nat × List (Nat × Bool) × Bool
  | 0, bits => ([], bits, true)
  | n + 1, bits =>
    match huffCode counts syms 16 0 0 0 bits with
    | none => ([], bits, false)
    | some (s, r) =>
      match huffExtra msb (if extra then s % 16 else 0) r with
      | none => ([], r, false)
      | some (x, r) =>
        let y := huffSyms counts syms msb extra n r
        ((s + x * 2 ^ 16) :: y.1, y.2.1, y.2.2)

/-- Gouge HUFF (R202, R203). -/
def gougeHuff (v : Variant) (m : Mach) (t : Nat) (d : List Byte) : DescOut :=
  let src := leAt d 0x08 8
  let sbits := leAt d 0x10 4
  let start := leAt d 0x14 4
  let table := leAt d 0x18 8
  let dst := leAt d 0x20 8
  let count := leAt d 0x28 4
  let fin := leAt d 0x30 8
  let msb := bitAt (descFlags d) 0
  let extra := bitAt (descFlags d) 2
  let w := if extra then 4 else 2
  if !descFlagsIn d 7 || fin % 8 ≠ 0 ||
      !descReserved0 d [(0x08, 8), (0x10, 4), (0x14, 4), (0x18, 8), (0x20, 8), (0x28, 4), (0x30, 8)] then
    failWith m St.invalidField
  else
    let st := worst [m.readStatus v t src ((sbits + 7) / 8), m.readStatus v t table 16, m.writeStatus v t dst (w * count),
      ownStatus v t fin 8]
    if st ≠ St.ok then failWith m st
    else
      let counts := (m.jobRead v t table 16).map (fun b => b.toNat)
      if 4096 < counts.sum then failWith m St.invalidField
      else
        let st := m.readStatus v t (table + 16) (2 * counts.sum)
        if st ≠ St.ok then failWith m st
        else
          let sb := m.jobRead v t (table + 16) (2 * counts.sum)
          let bits := huffBits (m.jobRead v t src ((sbits + 7) / 8)) msb (bitAt (descFlags d) 1) start sbits
          let r := huffSyms counts (fun i => leAt sb (2 * i) 2) msb extra count bits
          let pos := match r.2.1 with
            | p :: _ => p.1
            | [] => max start sbits
          let m := m.descWrite v t dst (r.1.flatMap (fun s => leBytes w s))
          let m := m.descWrite v t fin (leBytes 8 pos)
          ⟨m, if r.2.2 then St.ok else St.checkFail, (pos - start) % 2 ^ 32, true⟩

/-! ### TANS -/

/-- A bitstream position: bits left, read upwards from `pos`, or downwards to 0 (RFC 8878). -/
structure BitPos where
  data : Nat
  pos : Nat
  stop : Nat
  back : Bool

/-- n bits read. -/
def BitPos.take (b : BitPos) (n : Nat) : Option (Nat × BitPos) :=
  if b.back then
    if b.pos < n then none else some (b.data / 2 ^ (b.pos - n) % 2 ^ n, { b with pos := b.pos - n })
  else if b.stop < b.pos + n then none
  else some (b.data / 2 ^ b.pos % 2 ^ n, { b with pos := b.pos + n })

/-- Symbols decoded from interleaved states (R202): symbol i from state i mod STATES, which then advances; a state whose
last symbol is out need not find its bits. -/
def tansSyms (entry : Nat → Nat) (log n count : Nat) : Nat → Nat → List Nat → BitPos → List Nat × List Nat × Bool
  | 0, _, sts, _ => ([], sts, true)
  | k + 1, i, sts, b =>
    let j := i % n
    let s := sts.getD j 0
    if 2 ^ log ≤ s then ([], sts, false)
    else
      let e := entry s
      match b.take (bitsOf e 15 8) with
      | some (x, b) =>
        let y := tansSyms entry log n count k (i + 1) (sts.set j (bitsOf e 31 16 + x)) b
        (e % 256 :: y.1, y.2.1, y.2.2)
      | none =>
        if i + n < count then ([e % 256], sts, false)
        else
          let y := tansSyms entry log n count k (i + 1) sts b
          (e % 256 :: y.1, y.2.1, y.2.2)

/-- Gouge TANS (R202, R203). -/
def gougeTans (v : Variant) (m : Mach) (t : Nat) (d : List Byte) : DescOut :=
  let src := leAt d 0x08 8
  let len := leAt d 0x10 4
  let n := leAt d 0x14 1
  let log := leAt d 0x15 1
  let table := leAt d 0x18 8
  let dst := leAt d 0x20 8
  let count := leAt d 0x28 4
  let io := leAt d 0x30 8
  let back := bitAt (descFlags d) 0
  if !descFlagsIn d 1 || n = 0 || 4 < n || log = 0 || 12 < log ||
      !descReserved0 d [(0x08, 8), (0x10, 4), (0x14, 1), (0x15, 1), (0x18, 8), (0x20, 8), (0x28, 4), (0x30, 8)] then
    failWith m St.invalidField
  else
    let st := worst [m.readStatus v t src len, m.readStatus v t table (4 * 2 ^ log), m.writeStatus v t dst count,
      ownStatus v t io 8]
    if st ≠ St.ok then failWith m st
    else
      let data := ofLe (m.jobRead v t src len)
      let tb := m.jobRead v t table (4 * 2 ^ log)
      let ib := m.jobRead v t io 8
      let last := data / 2 ^ (8 * (len - 1))
      if back && last = 0 then failWith m St.checkFail
      else
        let b : BitPos := ⟨data, if back then 8 * (len - 1) + Nat.log2 last else 0, 8 * len, back⟩
        let r := tansSyms (fun s => leAt tb (4 * s) 4) log n count count 0
          ((List.range 4).map (fun i => leAt ib (2 * i) 2)) b
        let m := m.descWrite v t dst (r.1.map (fun s => BitVec.ofNat 8 s))
        let m := m.descWrite v t io (r.2.1.flatMap (leBytes 2))
        ⟨m, if r.2.2 then St.ok else St.checkFail, r.1.length, true⟩

/-! ### STEP -/

/-- An automaton table read through a byte-range function (11 R393). -/
structure Automaton where
  pushdown : Bool
  classes : Nat
  classMap : Nat → Nat
  trans : Nat → Nat → Nat
  ret : Nat → Nat

/-- What a byte does to a state and a stack, newest first (11 R394). -/
inductive StepOut where
  | go (state : Nat) (stack : List Nat)
  | dead (stack : List Nat)
  | overflow
  | bad
deriving DecidableEq, Repr

/-- A byte of class k processed, with at most 64 pops (11 R394). -/
def stepByte (a : Automaton) (k : Nat) : Nat → Nat → List Nat → StepOut
  | 0, _, st => .dead st
  | n + 1, s, st =>
    let e := a.trans s k
    let nx := e % 2 ^ 24
    match bitsOf e 25 24 with
    | 0 => if nx = 0 then .dead st else .go nx st
    | 1 =>
      if !a.pushdown then .bad
      else if 64 ≤ st.length then .overflow
      else if nx = 0 then .dead (bitsOf e 47 32 :: st) else .go nx (bitsOf e 47 32 :: st)
    | 2 =>
      if !a.pushdown then .bad
      else
        match st with
        | [] => .dead []
        | x :: r => let s' := a.ret x % 2 ^ 24; if s' = 0 then .dead r else stepByte a k n s' r
    | _ => .bad

/-- A stream stepped over bytes: final state and stack, STOP and STATUS (R135). -/
def stepBytes (a : Automaton) : List Byte → Nat → Nat → List Nat → Nat × List Nat × Nat × Nat
  | [], i, s, st => (s, st, i, St.ok)
  | b :: r, i, s, st =>
    match stepByte a (a.classMap b.toNat) 66 s st with
    | .go s' st' => stepBytes a r (i + 1) s' st'
    | .dead st' => (0, st', i, St.ok)
    | .overflow => (s, st, i, St.bounds)
    | .bad => (s, st, i, St.invalidField)

/-- The automaton at a device address, through a reader of n bytes at an address (11 R393). -/
def automatonAt (rd : Nat → Nat → List Byte) (base : Nat) (pushdown : Bool) : Automaton :=
  let h := rd base 64
  let cl := leAt h 7 1 + 1
  let tr := leAt h 0x18 8
  let rt := leAt h 0x20 8
  { pushdown := pushdown, classes := cl, classMap := fun b => leAt (rd (base + 0x40 + b) 1) 0 1,
    trans := fun s k => leAt (rd (base + tr + (s * cl + k) * 8) 8) 0 8,
    ret := fun x => leAt (rd (base + rt + x * 4) 4) 0 4 }

/-- The stack of a 136-byte state block, newest first: depth byte and 64 entries of 2 bytes, oldest first. -/
def blockStack (bs : List Byte) : List Nat :=
  ((List.range (min 64 (leAt bs 4 1))).map (fun i => leAt bs (8 + 2 * i) 2)).reverse

/-- A state block with a state and a stack; entries above the depth keep their bytes. -/
def blockOf (old : List Byte) (s : Nat) (st : List Nat) : List Byte :=
  putAt (putAt (putAt old 0 (leBytes 4 s)) 4 (leBytes 1 st.length)) 8 (st.reverse.flatMap (leBytes 2))

/-- One stream record of STEP (R202, R203): stepped, with STOP, STATUS and the state block written. -/
def stepStream (v : Variant) (m : Mach) (t : Nat) (a : Automaton) (rec : Nat) : Mach × Nat × Nat :=
  let r := m.jobRead v t rec 32
  let src := leAt r 0 8
  let len := leAt r 8 4
  let blk := leAt r 16 8
  let st := worst [m.readStatus v t src len, m.writeStatus v t blk 136]
  let st := if leAt r 26 6 ≠ 0 then St.invalidField else st
  if st ≠ St.ok then ((m.descWrite v t (rec + 12) (leBytes 4 0)).descWrite v t (rec + 24) (leBytes 2 st), 0, st)
  else
    let b := m.jobRead v t blk 136
    let o := stepBytes a (m.jobRead v t src len) 0 (leAt b 0 4) (blockStack b)
    let m := m.descWrite v t blk (blockOf b o.1 o.2.1)
    ((m.descWrite v t (rec + 12) (leBytes 4 o.2.2.1)).descWrite v t (rec + 24) (leBytes 2 o.2.2.2), o.2.2.1, o.2.2.2)

/-- The streams of a STEP descriptor in order: the machine, the STOPs and the statuses. -/
def stepStreams (v : Variant) (t : Nat) (a : Automaton) : List Nat → Mach → Mach × List (Nat × Nat)
  | [], m => (m, [])
  | rec :: r, m =>
    let o := stepStream v m t a rec
    let y := stepStreams v t a r o.1
    (y.1, (o.2.1, o.2.2) :: y.2)

/-- Gouge STEP (R135, R202, R203). -/
def gougeStep (v : Variant) (m : Mach) (t : Nat) (d : List Byte) : DescOut :=
  let base := leAt d 0x08 8
  let streams := leAt d 0x10 8
  let count := leAt d 0x18 1
  if !descFlagsIn d 1 || count = 0 || 8 < count || !descReserved0 d [(0x08, 8), (0x10, 8), (0x18, 1)] then
    failWith m St.invalidField
  else
    let st := worst [m.readStatus v t base 320, ownStatus v t streams (32 * count)]
    if st ≠ St.ok then failWith m st
    else
      let a := automatonAt (fun x n => m.jobRead v t x n) base (bitAt (descFlags d) 0)
      let o := stepStreams v t a ((List.range count).map (fun i => streams + 32 * i)) m
      let stops := o.2.map (fun p => p.1)
      let sts := o.2.map (fun p => p.2)
      ⟨o.1, if sts.contains St.bounds then St.bounds else worst sts, stops.headD 0, true⟩

end Sys2Proof.Machine
end

