-- ==== Sys2Proof/Machine/DmaOps.lean ====
section
/-!
DEFINITION. What the DMA operations do, with the completion-counter add (05 R202, R203, 06 R227, R232).
-/
namespace Sys2Proof.Machine

/-- CNT_EN of a DMA descriptor. -/
def dmaCntEn (d : List Byte) : Bool := bitAt (descFlags d) 0

/-- Status of a counter add: a multiple of 4, backed, the job's own counter where it is one, and room among the 64
addresses held (06 R227, R232). -/
def cntStatus (v : Variant) (m : Mach) (t : Nat) (d : List Byte) : Nat :=
  let a := leAt d 0x20 8
  let x := m.tile t
  if !dmaCntEn d then St.ok
  else if a % 4 ≠ 0 || 2 ^ 48 ≤ a then St.invalidField
  else
    let l := locOf v (some t) a
    if !m.reaches t l then St.bounds
    else
      match l with
      | .cluster c off => if !(x.ownCounter c off || x.ownMailbox c off) then St.rights
          else if (mapFind x.heldAdds l.addr).isNone && 64 ≤ x.heldAdds.length then St.invalidField else St.ok
      | .regs _ => St.rights
      | .tile k _ => if k = t then St.ok
          else if (mapFind x.heldAdds l.addr).isNone && 64 ≤ x.heldAdds.length then St.invalidField else St.ok
      | _ => if (mapFind x.heldAdds l.addr).isNone && 64 ≤ x.heldAdds.length then St.invalidField else St.ok

/-- The add of CNT_EN: at once in the tile's own SRAM, otherwise held until DONE (06 R232). -/
def Mach.cntAdd (v : Variant) (m : Mach) (t : Nat) (d : List Byte) : Mach :=
  if !dmaCntEn d then m
  else
    let a := leAt d 0x20 8
    let l := locOf v (some t) a
    let x := m.tile t
    let own : Bool := match l with | .tile k _ => k = t | _ => false
    if own then m.descWrite v t a (leBytes 4 (ofLe (m.jobRead v t a 4) + 1))
    else if x.running then
      m.setTile t { x with heldAdds := mapSet x.heldAdds l.addr (mapGet (fun _ => 0) x.heldAdds l.addr + 1) }
    else m

/-- A DMA write of a restricted job reaches only its own buffers, areas and cache tier, and the SRAM of the clusters
that serve it (10 R377). -/
def Mach.dmaMayWrite (v : Variant) (m : Mach) (t a n : Nat) : Bool :=
  let job := (m.tile t).entryNat 0 4
  !m.jobRestricted job || (List.range n).all (fun i =>
    match locOf v (some t) (a + i) with
    | .gddr x => m.inBufOf (0x10 + job) x || m.inAreaOf job x
    | .cluster c _ => (m.clus c).serves.contains job
    | .tile k _ => (m.clus (k / 16)).serves.contains job
    | _ => false)

/-- The status of a range that DMA writes (04 R141, 06 R227, 10 R377). -/
def Mach.dmaWriteStatus (v : Variant) (m : Mach) (t a n : Nat) : Nat :=
  St.first (m.writeStatus v t a n) (if m.dmaMayWrite v t a n then St.ok else St.rights)

/-- A DMA descriptor: reserved values first, then the counter's conditions, then the transfer; the add happens whether
the transfer succeeded or failed (R203). The transfer gives a status, and the bytes to write with their addresses. -/
def dmaRun (v : Variant) (m : Mach) (t : Nat) (d : List Byte) (fields : List (Nat × Nat)) (bad : Bool)
    (f : Nat × List (Nat × List Byte)) : DescOut :=
  if !descFlagsIn d 1 || !descReserved0 d fields || bad then failWith m St.invalidField
  else
    let cs := cntStatus v m t d
    if cs ≠ St.ok then failWith m cs
    else if f.1 ≠ St.ok then failWith (m.cntAdd v t d) f.1
    else
      let n := (f.2.map (fun p => p.2.length)).sum
      let m := f.2.foldl (fun m p => m.descWrite v t p.1 p.2) m
      let m := m.addFld (Reg.tilePerfDmaBytes t) 63 0 n
      ⟨m.cntAdd v t d, St.ok, n % 2 ^ 32, n ≠ 0⟩

def dmaFields : List (Nat × Nat) := [(0x08, 8), (0x10, 8), (0x18, 4), (0x20, 8)]
def dmaFields2d : List (Nat × Nat) := dmaFields ++ [(0x28, 4), (0x30, 4), (0x34, 4)]

/-- DMA COPY (R203): as though the whole source had been read before the first write. -/
def dmaCopy (v : Variant) (m : Mach) (t : Nat) (d : List Byte) : DescOut :=
  let src := leAt d 0x08 8
  let dst := leAt d 0x10 8
  let len := leAt d 0x18 4
  let st := worst [m.readStatus v t src len, m.dmaWriteStatus v t dst len]
  dmaRun v m t d dmaFields (st = St.invalidField) (st, [(dst, m.jobRead v t src len)])

/-- DMA FILL (R202): an 8-byte pattern repeated from DST. -/
def dmaFill (v : Variant) (m : Mach) (t : Nat) (d : List Byte) : DescOut :=
  let dst := leAt d 0x10 8
  let len := leAt d 0x18 4
  let st := m.dmaWriteStatus v t dst len
  dmaRun v m t d dmaFields (st = St.invalidField)
    (st, [(dst, (List.range len).map (fun i => (sliceBytes d 0x08 8).getD (i % 8) 0))])

/-- Two ranges overlap. -/
def overlap (a n b k : Nat) : Bool := a < b + k && b < a + n

/-- DMA COPY2D (R202, R203). -/
def dmaCopy2d (v : Variant) (m : Mach) (t : Nat) (d : List Byte) : DescOut :=
  let src := leAt d 0x08 8
  let dst := leAt d 0x10 8
  let len := leAt d 0x18 4
  let rows := leAt d 0x28 4
  let ss := leAt d 0x30 4
  let ds := leAt d 0x34 4
  let rl := List.range rows
  let st := rl.foldl (fun s r =>
    St.first s (worst [m.readStatus v t (src + r * ss) len, m.dmaWriteStatus v t (dst + r * ds) len])) St.ok
  let bad := rows ≠ 0 && len ≠ 0 && overlap src ((rows - 1) * ss + len) dst ((rows - 1) * ds + len)
  dmaRun v m t d dmaFields2d (bad || st = St.invalidField)
    (st, rl.map (fun r => (dst + r * ds, m.jobRead v t (src + r * ss) len)))

/-- DMA COUNT (R203): only the add; CNT_EN 0 is a reserved value. -/
def dmaCount (v : Variant) (m : Mach) (t : Nat) (d : List Byte) : DescOut :=
  dmaRun v m t d dmaFields (!dmaCntEn d) (St.ok, [])

/-- The ranges that a descriptor reads, for uncorrectable errors: its source, and the rows of a COPY2D. -/
def descReads (e : EngId) (d : List Byte) : List (Nat × Nat) :=
  match e, descOp d with
  | .dma, 1 => [(leAt d 0x08 8, leAt d 0x18 4)]
  | .dma, 3 => (List.range (leAt d 0x28 4)).map (fun r => (leAt d 0x08 8 + r * leAt d 0x30 4, leAt d 0x18 4))
  | .gouge, 1 => [(leAt d 0x08 8, leAt d 0x10 4)]
  | .gouge, 2 => [(leAt d 0x08 8, 64), (leAt d 0x10 8, 512)]
  | .gouge, 3 => [(leAt d 0x08 8, 12 * leAt d 0x10 4)]
  | .gouge, 4 => [(leAt d 0x08 8, (leAt d 0x10 4 + 7) / 8)]
  | .gouge, 5 => [(leAt d 0x08 8, leAt d 0x10 4)]
  | .gouge, _ => [(leAt d 0x10 8, 32 * leAt d 0x18 1)]
  | .aes, 1 => [(leAt d 0x28 8, leAt d 0x38 4 + 16)]
  | .aes, _ => [(leAt d 0x28 8, leAt d 0x38 4)]
  | _, _ => []

/-- A descriptor row of an engine: the head descriptor, if it has started and is of the row's operation, is executed
and completes; a reserved header value stops it before any access (04 R124 to R127). -/
def Mach.runDesc (v : Variant) (m : Mach) (t : Nat) (e : EngId) (op : Nat)
    (f : Variant → Mach → Nat → List Byte → DescOut) : Mach :=
  let q := (m.tile t).engQ e
  match q.q with
  | d :: _ =>
    if q.started && descOp d = op then
      if descBadHeader d then
        ((Mach.completeDesc v (failWith m St.invalidField) t e d).settle v 17 t e).unstall v t
      else
        match (descReads e d).findSome? (fun p => m.ueHit v (normAddr v t p.1) p.2) with
        | some w => m.unitUe v t w
        | none =>
          let m := (descReads e d).foldl (fun m p => m.meetCe v (normAddr v t p.1) p.2) m
          ((Mach.completeDesc v (f v m t d) t e d).settle v 17 t e).unstall v t
    else m
  | [] => m

end Sys2Proof.Machine
end

