-- ==== Sys2Proof/Machine/QueueOps.lean ====
section
/-!
DEFINITION. The work queues as the control complex and idle tiles use them (06 R228 to R242, 17 R592, R593), the move
of a failed die's entries (R237), and the cluster clocks (04 R147 to R150).
-/
namespace Sys2Proof.Machine

/-! ### Clocks -/

/-- The machine with limit `kind` (24 thermal, 25 the 950 W limit, 26 flow loss, 27 derating, 28 tolerance, as in
CLK_CL_STATUS.LIMIT_SRC) of some clusters set or lifted (04 R147). -/
def Mach.setLimit (m : Mach) (kind : Nat) (cs : List Nat) (mhz : Option Nat) : Mach :=
  cs.foldl (fun m c => let x := m.clus c; m.setClus c { x with lim := x.lim.set (kind - 24) mhz }) m

/-- TARGET_MHZ of a cluster. -/
def Mach.clockTarget (m : Mach) (c : Nat) : Nat := m.fld (Reg.clkClTarget c) 10 0

/-- The lowest current limit of a cluster; 1,800 where none stands. -/
def Cluster.limitMhz (x : Cluster) : Nat := x.lim.foldl (fun a l => match l with | some f => min a f | none => a) 1800

/-- The effective frequency (R147). -/
def Mach.clockEffective (m : Mach) (c : Nat) : Nat := min (m.clockTarget c) (m.clus c).limitMhz

/-- A clock runs: its die and region are powered and it is not stopped in PS1. -/
def Mach.clockRuns (m : Mach) (c : Nat) : Bool :=
  !(m.clus c).gated && !m.ps.regionsOff.contains (c / 4) && !m.tl.diesOut.contains (c / 8) && m.power.pwrOk

/-- One glitch-free step of a cluster clock towards its effective frequency (R147). -/
def Mach.clockStep (m : Mach) (c : Nat) : Mach :=
  let x := m.clus c
  let e := m.clockEffective c
  if m.clockRuns c then
    if x.current < e then m.setClus c { x with current := min e (x.current + 25) }
    else m.setClus c { x with current := max e (x.current - 25) }
  else m

/-! ### Placing entries -/

/-- A counter has reached a value (R231). -/
def reached (c val : Nat) : Bool := (c + 2 ^ 32 - val) % 2 ^ 32 < 2 ^ 31

/-- The value of completion counter i of a cluster. -/
def Mach.counter (m : Mach) (c i : Nat) : Nat := memNat (m.clus c).sram (0x70000 + 4 * i) 4

/-- An entry's dependency is met: DEP_EN is 0 or its counter has reached DEP_VALUE. -/
def Mach.depMet (m : Mach) (b : List Byte) : Bool :=
  !entryDepEn b || reached (m.counter (entryHome b) (entryDepCnt b)) (entryDepVal b)

/-- A unit is selected for Caliper (17 R592): the low FRAC_LOG2 bits of GH64 over JOB · UNIT_SEQ are zero. -/
def Mach.selected (m : Mach) (b : List Byte) : Bool :=
  let k := m.fld Reg.rasCaliperCfg 4 0
  k ≠ 0 && (gh64 (BitVec.ofNat 64 m.tl.calSeed) (leBytes 8 (entrySeq b) ++ leBytes 4 (entryJob b))).toNat % 2 ^ k = 0

/-- An entry put into a cluster queue or a die queue. -/
def Mach.placeAt (m : Mach) (toDie : Bool) (n : Nat) (e : QEntry) : Option Mach :=
  if toDie then m.placeDie n e else m.placeCluster n e

/-- A work-unit entry as the control complex writes it (R230, 17 R592, R593); a selected unit gets its twin. -/
def Mach.placeUnit (m : Mach) (toDie : Bool) (n : Nat) (e : QEntry) : Mach :=
  if m.selected e.bytes then
    match m.placeAt toDie n { e with part := .first } with
    | some m' => (m'.placeAt toDie n { e with part := .twin }).getD m
    | none => m
  else (m.placeAt toDie n e).getD m

/-! ### Taking entries -/

/-- Clusters in which another run of the same unit is or was (17 R593, R594). -/
def Mach.runClusters (m : Mach) (job seq : Nat) (self : QLoc) : List Nat :=
  ((m.allEntries.filter (fun p => p.1 ≠ self && entryJob p.2.bytes = job && entrySeq p.2.bytes = seq)).filterMap
      (fun p => p.2.takenBy.map (fun t => t / 16))) ++
    (m.tl.cal.filter (fun u => u.job = job && u.seq = seq)).flatMap (fun u => u.runs.map (fun r => r.tile / 16))

/-- A tile of a cluster may take an entry (R235, R144, R145, 05 R211, R212, 17 R593, R594). -/
def Mach.mayTake (m : Mach) (c : Nat) (l : QLoc) (e : QEntry) : Bool :=
  let x := m.clus c
  let j := entryJob e.bytes
  e.state = .ready && x.serves.contains j && x.loaded.contains j &&
    !(e.runs.filter (fun r => r.how.counts)).any (fun r => r.tile / 16 = c) &&
    (e.part = .plain || !(m.runClusters j (entrySeq e.bytes) l).contains c)

/-- The oldest entry of a cluster queue that a tile of cluster c may take. -/
def Mach.oldestCluster (m : Mach) (c q : Nat) : Option QLoc :=
  ((m.clus q).ring.find? (fun p => m.mayTake c (.cluster q p.1) p.2)).map (fun p => .cluster q p.1)

/-- The oldest entry of a die queue that a tile of cluster c may take. -/
def Mach.oldestDie (m : Mach) (c d : Nat) : Option QLoc :=
  ((m.dieQueue d).find? (fun p => m.mayTake c (.die d p.1) p.2)).map (fun p => .die d p.1)

/-- The queue with most READY entries among some clusters that hold one to take; ties to the lowest number (R235). -/
def Mach.fullest (m : Mach) (c : Nat) (qs : List Nat) : Option Nat :=
  (qs.filter (fun q => (m.oldestCluster c q).isSome)).foldl (fun best q =>
    match best with
    | none => some q
    | some b => if countState (m.clus b).ring .ready < countState (m.clus q).ring .ready then some q else some b) none

/-- The entry that an idle tile of cluster c takes next (R235). -/
def Mach.nextEntry (m : Mach) (c : Nat) : Option QLoc :=
  match m.oldestCluster c c with
  | some l => some l
  | none =>
    match m.fullest c (((List.range 4).map (fun i => c / 4 * 4 + i)).filter (fun q => q ≠ c)) with
    | some q => m.oldestCluster c q
    | none => m.oldestDie c (c / 8)

/-- A tile carries a duty (R155). -/
def Tile.carriesDuty (t : Tile) : Bool := (t.role = .active || t.role = .onDuty) && t.dutyOf.isSome && !t.handoverDue

/-- No work unit and no descriptor of an earlier one. -/
def Tile.idle (t : Tile) : Bool := !t.running && t.gq.q.isEmpty && t.aq.q.isEmpty && t.dq.q.isEmpty

/-- A tile may take a work unit (R235, 17 R598, R602). -/
def Mach.tileReady (v : Variant) (m : Mach) (t : Nat) : Bool :=
  let x := m.tile t
  tilePresent v t && m.tilePowered t && m.power.pwrOk && !(m.clus (t / 16)).gated && x.carriesDuty && x.idle && !x.suspect

/-- PIPE_TILECFG applied to a tile (R242): the set values are pairs of bits, 01 sets and 10 clears. -/
def Mach.applyTilecfg (m : Mach) (t cfg : Nat) : Mach :=
  let a := bitsOf cfg 13 12
  let d := bitsOf cfg 11 10
  let m := if a = 1 then m.setBit (Reg.tileAudit t) 16 true else if a = 2 then m.setBit (Reg.tileAudit t) 16 false else m
  let m := if d = 1 then m.setBit (Reg.tileDlkCfg t) 5 true else if d = 2 then m.setBit (Reg.tileDlkCfg t) 5 false else m
  if bitAt cfg 9 then m.setFld (Reg.tileDlkCfg t) 4 0 (bitsOf cfg 4 0) else m

/-- A unit's code object in the job's image (08 R279); its entry point is its first word. -/
def Mach.codeOf (v : Variant) (m : Mach) (b : List Byte) : Nat × Nat :=
  match m.job? (entryJob b) with
  | some j => (imageSection v m j.imageAddr 2 (leAt b 4 2)).getD (0, 0)
  | none => (0, 0)

/-- The tile at the start of a unit (05 R161, 06 R218): registers, flags and counts 0; the lane's key cache is kept only
for units of the same job (04 R131). -/
def Tile.startUnit (t : Tile) (u : WorkUnit) : Tile :=
  let job := entryJob u.entry
  { t with
    g := Vector.replicate 32 0, v := Vector.replicate 32 0, p := Vector.replicate 8 0, pc := u.codeBase, fstat := 0,
    sync := Vector.replicate 16 0, waits := [], vq := [], stalled := none, unit := some u, running := true,
    heldAdds := [], aside := [], unfenced := false, flagged := false,
    keyCache := if t.keyJob = some job then t.keyCache else [], keyJob := some job,
    sram := memWrite t.sram 0x7FFC0 u.entry }

/-- A tile takes the entry at a place (R229, R235): counts of steals, the entry TAKEN, the unit started. -/
def Mach.takeEntry (v : Variant) (m : Mach) (t : Nat) (l : QLoc) : Mach :=
  match m.entryAt l with
  | some e =>
    let c := t / 16
    let m := m.putEntry l (some { e with state := .taken, takenBy := some t })
    let m := match l with
      | .cluster q _ => if q = c then m else
          (m.addFld (Reg.pipeClqSteals q) 31 16 1).addFld (Reg.pipeClqSteals c) 15 0 1
      | .die _ _ => m.addFld (Reg.pipeClqSteals c) 15 0 1
    let m := match (m.tile t).cfgPend with
      | some cfg => m.applyTilecfg t cfg
      | none => m
    let code := m.codeOf v e.bytes
    let m := m.setFld (Reg.tileCaliper t) 29 28 0
    m.setTile t (({ m.tile t with cfgPend := none }).startUnit ⟨e.bytes, l, e.part, code.1, code.2, e.slotLen⟩)
  | none => m

/-! ### Grants and the loss of a die -/

/-- A range of n items that no grant of a cluster covers, the lowest that fits below the limit. -/
def freeRange (used : List (Nat × Nat)) (n limit : Nat) : Option Nat :=
  let starts := 0 :: used.map (fun p => p.1 + p.2)
  (starts.filter (fun b => b + n ≤ limit && used.all (fun p => p.1 + p.2 ≤ b || b + n ≤ p.1))).min?

/-- Ranges of a job's needs in a cluster, if they can be granted (R228). -/
def Mach.grantFor (m : Mach) (job c mb cn : Nat) : Option Grant :=
  let gs := m.tl.grants.filter (fun g => g.cluster = c)
  match freeRange (gs.map (fun g => (g.mboxBase, g.mboxCount))) mb 2048,
      freeRange (gs.map (fun g => (g.cntBase, g.cntCount))) cn 4096 with
  | some a, some b => some ⟨job, c, a, mb, b, cn⟩
  | _, _ => none

/-- A grant made: its counters set to given values, its mailboxes kept as they are. -/
def Mach.putGrant (m : Mach) (g : Grant) (val : Nat → Nat) : Mach :=
  let x := m.clus g.cluster
  let sram := (List.range g.cntCount).foldl
    (fun s i => memPutNat s (0x70000 + 4 * (g.cntBase + i)) 4 (val i % 2 ^ 32)) x.sram
  let m := m.setClus g.cluster { x with sram := sram }
  { m with tl := { m.tl with grants := m.tl.grants ++ [g] } }

/-- The cluster joins those that serve a job, if it serves fewer than four others (R144). -/
def Mach.serve (m : Mach) (c job : Nat) (loaded : Bool) : Mach :=
  let x := m.clus c
  m.setClus c { x with
    serves := if x.serves.contains job then x.serves else x.serves ++ [job],
    loaded := if loaded && !x.loaded.contains job then x.loaded ++ [job] else x.loaded }

/-- A cluster can take over a grant: present, in service, at most four jobs, room for the ranges (R144, R237). -/
def Mach.canServe (v : Variant) (m : Mach) (c : Nat) (g : Grant) : Bool :=
  let x := m.clus c
  decide (c < clusterCount v) && !m.tl.diesOut.contains (c / 8) && !m.ps.regionsOff.contains (c / 4) &&
    (x.serves.contains g.job || decide (x.serves.length < 4)) && (m.grantFor g.job c g.mboxCount g.cntCount).isSome

/-- An entry's fields rewritten for a moved range (R237). -/
def moveEntry (b : List Byte) (g h : Grant) : List Byte :=
  let b := putAt b 0x06 (leBytes 1 h.cluster)
  let b := putAt b 0x28 (leBytes 2 (entryDepCnt b - g.cntBase + h.cntBase))
  let b := putAt b 0x30 (leBytes 2 h.mboxBase)
  putAt b 0x34 (leBytes 2 h.cntBase)

/-- Whether an entry belongs to a grant. -/
def entryOf (g : Grant) (b : List Byte) : Bool :=
  entryJob b = g.job && entryHome b = g.cluster && leAt b 0x30 2 = g.mboxBase && leAt b 0x34 2 = g.cntBase

/-- Device address of completion counter i of a cluster. -/
def counterAddr (c i : Nat) : Nat := 0x400000000000 + c * 0x800000 + 0x70000 + 4 * i

/-- One grant of a failed die re-created in a surviving cluster: counters at their plan's values plus the collected
adds, held adds redirected, its uncollected entries placed again (R237). Where no cluster can take it the job fails. -/
def Mach.moveGrant (v : Variant) (m : Mach) (g : Grant) (es : List QEntry) : Mach :=
  let m := { m with tl := { m.tl with grants := m.tl.grants.filter (fun x => x ≠ g) } }
  match (List.range 32).find? (fun c => m.canServe v c g) with
  | none => m.jobFail g.job St.internal
  | some c =>
    match m.grantFor g.job c g.mboxCount g.cntCount with
    | none => m.jobFail g.job St.internal
    | some h =>
      let plan := match m.job? g.job with
        | some j => sectionBytes v m j.imageAddr 0x0A
        | none => []
      let m := m.putGrant h (fun i =>
        Config.planCounter plan i + mapGet (fun _ => 0) m.tl.collected (counterAddr g.cluster (g.cntBase + i)))
      let m := m.serve c g.job true
      let redirect (a : Nat) : Nat :=
        if counterAddr g.cluster g.cntBase ≤ a ∧ a < counterAddr g.cluster (g.cntBase + g.cntCount) then
          a - counterAddr g.cluster g.cntBase + counterAddr h.cluster h.cntBase else a
      let m := { m with tl := { m.tl with tiles := m.tl.tiles.map (fun p =>
        (p.1, { p.2 with heldAdds := p.2.heldAdds.foldl (fun s q => mapSet s (redirect q.1) q.2) [] })) } }
      (es.filter (fun e => entryOf g e.bytes)).foldl (fun m e =>
        let b := moveEntry e.bytes g h
        let st : EntState := if m.depMet b then .ready else .waiting
        (m.placeCluster c { e with bytes := b, state := st, takenBy := none }).getD m) m

/-- The loss of a compute die (01 R31, 06 R237): its runs end, its entries and ranges move, the fault is recorded and
the manager told. -/
def Mach.dieFault (v : Variant) (m : Mach) (d cause : Nat) : Mach :=
  let m := ((List.range 128).map (fun i => d * 128 + i)).foldl (fun m t => m.unitDrop t .tileFault false) m
  let lost := (m.allEntries.filter (fun p => match p.1 with | .cluster c _ => c / 8 = d | .die k _ => k = d)).map
    (fun p => p.2)
  let lost := lost.filter (fun e => e.part = .plain || e.part = .first)
  let m := { m with tl := { m.tl with
    diesOut := if m.tl.diesOut.contains d then m.tl.diesOut else m.tl.diesOut ++ [d],
    clusters := m.tl.clusters.map (fun (p : Nat × Cluster) =>
      if p.1 / 8 = d then (p.1, { p.2 with ring := [], serves := [], loaded := [] }) else p),
    dieQ := mapErase m.tl.dieQ d } }
  let lost := lost.map (fun e => { e with part := .plain, state := .ready })
  let m := (m.tl.grants.filter (fun g => g.cluster / 8 = d)).foldl (fun m g => m.moveGrant v g lost) m
  let rest := lost.filter (fun e => entryHome e.bytes / 8 ≠ d)
  let m := rest.foldl (fun m e => (m.placeCluster (entryHome e.bytes) e).getD m) m
  (m.record 0x0019 (sourceOf 4 d) St.internal (payloadOf [(4, cause)])).notifyLast

end Sys2Proof.Machine
end

