-- ==== Sys2Proof/Machine/MemOps.lean ====
section
/-!
DEFINITION. GDDR7 channels, carve-outs, the buffer pools and the context table (07 R245 to R277, R626 to R628).
-/
namespace Sys2Proof.Machine

/-! ### Channels -/

/-- STATE of a GDDR7 channel: 0 normal, 1 retraining, 2 degraded, 3 out of service. -/
def Mach.chanState (m : Mach) (c : Nat) : Nat := m.fld (Reg.memChStatus c) 31 30

/-- RATE of a GDDR7 channel, Gb/s. -/
def Mach.chanRate (m : Mach) (c : Nat) : Nat := m.fld (Reg.memChStatus c) 23 16

/-- The trigger is in force (R254): 0 link CRC, 1 temperature, 2 period, 3 a request bit. -/
def Mach.triggerOn (m : Mach) (c trig : Nat) : Bool :=
  match trig with
  | 0 => m.fld Reg.memRetrainCfg 31 24 ≠ 0
  | 1 => m.fld Reg.memRetrainCfg 23 16 ≠ 0
  | 2 => m.fld Reg.memRetrainCfg 15 0 ≠ 0
  | _ => m.bit Reg.memRetrainReq c

/-- One more channel may retrain (R254): none of its device retrains and fewer than four of the module. -/
def Mach.retrainRoom (m : Mach) (c : Nat) : Bool :=
  decide (m.mem.retraining.length < 4) && !m.mem.retraining.any (fun p => p.1 / 4 = c / 4)

/-- A channel begins to retrain (R255). -/
def Mach.retrainBegin (m : Mach) (c trig : Nat) : Mach :=
  let m := { m with mem := { m.mem with
    retraining := mapSet m.mem.retraining c trig, retrainWait := mapErase m.mem.retrainWait c,
    trainFails := mapErase m.mem.trainFails c } }
  (m.setFld (Reg.memChStatus c) 31 30 1).setBit Reg.memRetrainReq c false

/-- A trigger of a channel (R254): the retraining starts, or waits its turn. -/
def Mach.retrainStart (v : Variant) (m : Mach) (c trig : Nat) : Mach :=
  if decide (c < gddrChannels v) && m.mem.trained && m.triggerOn c trig && m.chanState c ≠ 1 && m.chanState c ≠ 3 then
    if m.retrainRoom c then m.retrainBegin c trig
    else { m with mem := { m.mem with retrainWait := mapSet m.mem.retrainWait c trig } }
  else m

/-- Triggers that wait begin in channel order as room allows. -/
def Mach.retrainNext (m : Mach) : Mach :=
  m.mem.retrainWait.foldl (fun m p => if m.retrainRoom p.1 then m.retrainBegin p.1 p.2 else m) m

/-- Rates at which a retraining is tried in turn (R256): the present one twice, then 28 and 24 Gb/s. -/
def retrainRates (r : Nat) : List Nat := [r, r] ++ [28, 24].filter (fun x => x < r)

/-- A GDDR7_RETRAIN record: trigger and result are numbers that the spec does not state (17 R618). -/
def Mach.retrainRecord (m : Mach) (c trig result rate status : Nat) : Mach :=
  m.record 0x0022 (sourceOf 5 c) status
    (payloadOf [(1, kindCode 0x22 trig), (1, kindCode 0x122 result), (1, rate), (1, 0)])

/-- An attempt of a channel's retraining ends (R255, R256). -/
def Mach.retrainEnd (m : Mach) (c : Nat) (pass : Bool) : Mach :=
  match mapFind m.mem.retraining c with
  | none => m
  | some trig =>
    let n := mapGet (fun _ => 0) m.mem.trainFails c
    let r := m.chanRate c
    let rates := retrainRates r
    let rate := rates.getD n 24
    let fin (m : Mach) : Mach :=
      ({ m with mem := { m.mem with retraining := mapErase m.mem.retraining c,
                                    trainFails := mapErase m.mem.trainFails c } }).retrainNext
    if pass then
      let m := (m.setFld (Reg.memChStatus c) 23 16 rate).setFld (Reg.memChStatus c) 31 30 (if rate < 32 then 2 else 0)
      let m := m.addFld (Reg.memChStatus c) 15 0 1
      fin (if rate < r then m.retrainRecord c trig 1 rate St.ok else m)
    else if n + 1 < rates.length then
      { m with mem := { m.mem with trainFails := mapSet m.mem.trainFails c (n + 1) } }
    else
      let m := m.setFld (Reg.memChStatus c) 31 30 3
      let m := { m with mem := { m.mem with chansOut := m.mem.chansOut ++ [c] } }
      let m := (m.retrainRecord c trig 2 rate St.internal).notifyLast
      fin ((m.jobs.slots.filter (fun p => p.2.live)).foldl (fun m p => m.jobFail p.1 St.internal) m)

/-- A write of MEM_RETRAIN_REQ (R254, R257): bits of absent channels are discarded silently (R5), bits of channels out
of service with a record. -/
def Mach.retrainReq (v : Variant) (m : Mach) (w : Writer) (bits : Nat) : Mach :=
  let present := (List.range (gddrChannels v)).filter (fun c => bitAt bits c)
  let dead := present.filter (fun c => m.chanState c = 3)
  let m := (present.filter (fun c => m.chanState c ≠ 3)).foldl (fun m c => m.setBit Reg.memRetrainReq c true) m
  if dead.isEmpty then m else m.rejected (writerSource w) Reg.memRetrainReq bits 4

/-! ### Carve-outs -/

/-- GiB as bytes. -/
def gib (n : Nat) : Nat := n * 2 ^ 30

/-- Sizes of carve-outs 0 to 3 (01 R44, 07 R626). -/
def carveSizes (m : Mach) : List Nat :=
  [2 ^ 26, 2 ^ 29, 2 ^ 28, gib (bitsOf m.ftl.storedCfg 15 8)]

/-- Base of carve-out i, contiguously downward from the top of backed GDDR7 (R626). -/
def carveBase (v : Variant) (m : Mach) (i : Nat) : Nat := gddrTop v - ((carveSizes m).take (i + 1)).sum

/-- The reset value of MEM_HOST_LIMIT.LIMIT. -/
def hostLimitReset (v : Variant) : Nat := match v with | .ylm2560L => 0x200000000 | _ => 0x400000000

/-- Buffers of pool k that firmware enables at boot. -/
def bootCount (v : Variant) (m : Mach) (k : Nat) : Nat :=
  Config.bootPoolCount (dieCount v) (bitsOf m.ftl.storedCfg 15 8) k % (2 ^ 24 + 1)

/-- Base of pool k at boot: upward from MEM_HOST_LIMIT in pool order (R626). -/
def bootBase (v : Variant) (m : Mach) (k : Nat) : Nat :=
  hostLimitReset v + ((List.range k).map (fun i => bootCount v m i * bufSize i)).sum

/-- Ring of pool k at boot, in carve-out 1. -/
def bootRing (v : Variant) (m : Mach) (k : Nat) : Nat := carveBase v m 1 + k * 2 ^ 26

/-! ### Pools -/

def Mach.pool (m : Mach) (k : Nat) : Pool := mapGet (fun _ => Pool.reset) m.mem.pools k

def Mach.setPool (m : Mach) (k : Nat) (p : Pool) : Mach := { m with mem := { m.mem with pools := mapSet m.mem.pools k p } }

/-- The state entry of a buffer. -/
def Pool.buf (p : Pool) (i : Nat) : BufState := mapGet (fun _ => BufState.fresh) p.bufs i

/-- Handles left in the ring. -/
def Pool.ringLeft (p : Pool) : Nat := (p.count - p.fresh) + p.ring.length

/-- n handles read from the head of the ring. -/
def Pool.ringRead (p : Pool) (k n : Nat) : List Nat × Pool :=
  let a := min n (p.count - p.fresh)
  let l := (List.range a).map (fun i => handleOf k (p.fresh + i) 1)
  (l ++ p.ring.take (n - a), { p with fresh := p.fresh + a, ring := p.ring.drop (n - a) })

/-- A ring read of 128 handles starts when the Chuck falls below 64, at most two in flight (R260). -/
def Pool.refill (p : Pool) (k : Nat) : Pool :=
  if p.chuck.length < 64 && p.inFlight.length < 2 && p.ringLeft ≠ 0 then
    let r := p.ringRead k 128
    { r.2 with inFlight := p.inFlight ++ [r.1] }
  else p

/-- A buffer taken from the Chuck for an owner. -/
def Mach.takeBuf (m : Mach) (k owner tag : Nat) : Mach :=
  let p := m.pool k
  match p.chuck with
  | h :: r =>
    let b := p.buf (handleIndex h)
    let p := ({ p with chuck := r, bufs := mapSet p.bufs (handleIndex h) { b with owner := owner, alloc := true } }).refill k
    ((m.setPool k p).addFld (Reg.bpmPoolAllocs k) 63 0 1).send (.buffer tag St.ok h)
  | [] => m

/-- Waiting requests served from the Chuck in order of arrival (R266); fuel counts requests. -/
def Mach.serveBufs : Nat → Mach → Nat → Mach
  | 0, m, _ => m
  | n + 1, m, k =>
    let p := m.pool k
    match p.waiting, p.chuck with
    | w :: r, _ :: _ => Mach.serveBufs n ((m.setPool k { p with waiting := r }).takeBuf k w.owner w.tag) k
    | _, _ => m

/-- The pool of a size (R258). -/
def poolFor (size : Nat) : Option Nat :=
  if size = 0 then none else (List.range 8).find? (fun k => size ≤ bufSize k)

/-- A unit may act on behalf of an owner (R261). -/
def Mach.mayActFor (m : Mach) (u : Requester) (owner : Nat) : Bool :=
  match u with
  | .port p => owner = 2 + p.val
  | _ => owner ≤ 1 || (decide (0x10 ≤ owner) && (m.job? (owner - 0x10)).isSome)

/-- A buffer request (R258, R265, R266). -/
def Mach.alloc (m : Mach) (u : Requester) (owner size : Nat) : Mach :=
  let tag := m.mem.reqTag
  let m := { m with mem := { m.mem with reqTag := tag + 1 } }
  match poolFor size with
  | none => m.send (.buffer tag St.invalidField 0)
  | some k =>
    if !m.mayActFor u owner then m.send (.buffer tag St.notOwner 0)
    else
      let p := m.pool k
      if !p.chuck.isEmpty && p.ready then m.takeBuf k owner tag
      else
        let m := m.addFld (Reg.bpmPoolMisses k) 63 0 1
        let more := p.ready && (p.ringLeft ≠ 0 || !p.inFlight.isEmpty)
        if more then m.setPool k (({ p with waiting := p.waiting ++ [⟨owner, tag⟩] } : Pool).refill k)
        else
          let m := m.setBit (Reg.bpmPoolChuck k) 31 true
          match u with
          | .port _ => m.send (.buffer tag St.poolEmpty 0)
          | _ => m.setPool k { p with waiting := p.waiting ++ [⟨owner, tag⟩] }

/-- The status of a free (R262). -/
def Mach.freeStatus (m : Mach) (u : Requester) (owner h : Nat) : Nat :=
  let p := m.pool (handlePool h)
  if !p.enabled || p.count ≤ handleIndex h then St.invalidField
  else
    let b := p.buf (handleIndex h)
    St.first (if b.owner ≠ owner || !m.mayActFor u owner then St.notOwner else St.ok)
      (if b.gen ≠ handleGen h || !b.alloc || b.lost then St.badHandle else St.ok)

/-- GEN after a free: 31 is followed by 1 (R259). -/
def nextGen (g : Nat) : Nat := if g = 31 then 1 else g + 1

/-- A handle returned: into the Chuck, or into the ring when it is full; above 224 the Chuck writes 64 back (R260). -/
def Pool.giveBack (p : Pool) (h : Nat) : Pool :=
  if 256 ≤ p.chuck.length then { p with ring := p.ring ++ [h] }
  else
    let c := p.chuck ++ [h]
    if 224 < c.length then { p with chuck := c.drop 64, ring := p.ring ++ c.take 64 } else { p with chuck := c }

/-- A free that succeeds: the buffer is free under its next GEN, and waiting requests are served. -/
def Mach.freeOk (m : Mach) (h : Nat) : Mach :=
  let k := handlePool h
  let i := handleIndex h
  let p := m.pool k
  let b := p.buf i
  let g := nextGen b.gen
  let p := { p with bufs := mapSet p.bufs i { b with alloc := false, gen := g } }
  (m.setPool k (p.giveBack (handleOf k i g))).serveBufs 1 k

/-- A buffer free (R262); a failed one sets BAD_FREE and is recorded. -/
def Mach.freeBuf (m : Mach) (u : Requester) (owner h : Nat) : Mach :=
  let st := m.freeStatus u owner h
  if st = St.ok then (m.freeOk h).send (.freed h St.ok)
  else
    let m := m.setBit (Reg.bpmPoolChuck (handlePool h)) 30 true
    (m.record 0x0030 (sourceOf 9 (owner - 0x10)) st (payloadOf [(4, h), (2, owner), (2, 0)])).send (.freed h st)

/-- A ring read lands in the Chuck (R260). -/
def Mach.chuckRefill (m : Mach) (k : Nat) : Mach :=
  let p := m.pool k
  match p.inFlight with
  | l :: r => (m.setPool k { p with chuck := p.chuck ++ l, inFlight := r }).serveBufs p.waiting.length k
  | [] => m

/-- No buffer of any pool is allocated and no request waits: the BPM block is IDLE (R269). -/
def Mach.bpmIdle (m : Mach) : Bool :=
  m.mem.pools.all (fun p => p.2.waiting.isEmpty && p.2.bufs.all (fun b => !b.2.alloc))

/-- The area check of an enable (R269, R626): pool k with a count at its BASE and RING_BASE. -/
def Mach.poolFits (m : Mach) (k count : Nat) : Bool :=
  let base := m.fld (Reg.bpmPoolBuf k) 47 0
  let ring := m.fld (Reg.bpmPoolRing k) 47 0
  let lim := m.fld Reg.memHostLimit 47 0
  let others := ((List.range 8).filter (fun j => j ≠ k && (m.pool j).enabled)).flatMap (fun j =>
    [(m.fld (Reg.bpmPoolBuf j) 47 0, (m.pool j).count * bufSize j), (m.fld (Reg.bpmPoolRing j) 47 0, 4 * (m.pool j).count)])
  let mine := [(base, count * bufSize k), (ring, 4 * count)]
  let apart := mine.all (fun a => others.all (fun b => !overlap a.1 a.2 b.1 b.2))
  let self := !overlap base (count * bufSize k) ring (4 * count)
  let host := base + count * bufSize k ≤ lim && ring + 4 * count ≤ lim
  let boot := mapFind m.mem.bootPools k = some (base, ring, count)
  base % min (bufSize k) 65536 = 0 && ring % 4096 = 0 && apart && self && (host || boot)

/-- A pool enabled: every handle in index order in the ring with GEN 1, the Chuck filled, READY set, LOST cleared. -/
def Mach.poolFill (m : Mach) (k count : Nat) : Mach :=
  let p : Pool := { Pool.reset with enabled := true, ready := true, count := count }
  let r := p.ringRead k 256
  let m := (m.setFld (Reg.bpmPoolCfg k) 24 0 count).setBit (Reg.bpmPoolCfg k) 31 true
  (m.setPool k { r.2 with chuck := r.1 }).setFld (Reg.bpmPoolLost k) 24 0 0

/-- A write of BPM_POOLk_CFG with ENABLE 1 to a disabled pool (R269). -/
def Mach.poolEnable (m : Mach) (w : Writer) (k count : Nat) : Mach :=
  if !m.bpmIdle then m.cfgBusy 0x60000
  else if (m.pool k).enabled then m
  else if count = 0 || 2 ^ 24 < count then m.rejected (writerSource w) (Reg.bpmPoolCfg k) (2 ^ 31 + count) 1
  else if m.poolFits k count then m.poolFill k count
  else (m.setFld (Reg.bpmPoolCfg k) 24 0 count).rejected (writerSource w) (Reg.bpmPoolCfg k) (2 ^ 31 + count) 5

/-- A write of BPM_POOLk_CFG with ENABLE 0 (R269): READY clears and the ring is discarded. -/
def Mach.poolDisable (m : Mach) (w : Writer) (k count : Nat) : Mach :=
  if !m.bpmIdle then m.cfgBusy 0x60000
  else
    let m := (m.setPool k Pool.reset).setBit (Reg.bpmPoolCfg k) 31 false
    if count = 0 || 2 ^ 24 < count then m.rejected (writerSource w) (Reg.bpmPoolCfg k) count 1
    else m.setFld (Reg.bpmPoolCfg k) 24 0 count

/-! ### The end of GDDR7 training -/

/-- Carve-outs and pools made at boot (R626, R627). -/
def Mach.carve (v : Variant) (m : Mach) : Mach :=
  let m := { m with mem := { MemState.reset with trained := true, reqTag := m.mem.reqTag } }
  let m := (List.range 4).foldl (fun m i =>
    (m.setReg (Reg.memCarveBase i) (BitVec.ofNat 64 (carveBase v m i))).setReg (Reg.memCarveSize i)
      (BitVec.ofNat 64 ((carveSizes m).getD i 0))) m
  let m := m.setFld Reg.memHostLimit 47 0 (hostLimitReset v)
  (List.range 8).foldl (fun m k =>
    let n := bootCount v m k
    if n = 0 then m
    else
      let b := bootBase v m k
      let r := bootRing v m k
      let m := { m with mem := { m.mem with bootPools := mapSet m.mem.bootPools k (b, r, n) } }
      ((m.setFld (Reg.bpmPoolBuf k) 47 0 b).setFld (Reg.bpmPoolRing k) 47 0 r).poolFill k n) m

/-- GDDR7 is trained, zero-filled and carved (R627, 03 R103); under Tool rest STAGE moves only with TOOL_REST_READY. -/
def Mach.gddrReady (v : Variant) (m : Mach) : Mach :=
  let st := m.fld Reg.glbBootStatus 7 0
  if m.power.pwrOk && (st = 3 || st = 4) then
    let m := m.carve v
    if m.fld Reg.glbBootStatus 11 8 = 2 then m else m.setFld Reg.glbBootStatus 7 0 5
  else m

/-- A write of MEM_HOST_LIMIT (R628): only while no job slot is held. -/
def Mach.hostLimit (m : Mach) (w : Writer) (val : Nat) : Mach :=
  let x := val % 2 ^ 48
  let bad := x % 2 ^ 30 ≠ 0 || x < 2 ^ 30 || m.fld (Reg.memCarveBase 3) 47 0 < x ||
    m.mem.bootPools.any (fun p => p.2.1 < x)
  if !m.jobs.slots.isEmpty then m.cfgBusy 0x80000
  else if bad then m.rejected (writerSource w) Reg.memHostLimit val 1
  else m.setFld Reg.memHostLimit 47 0 x

/-- An area of the module area that no enabled pool, carve-out or other area covers, the lowest that fits (R626). -/
def Mach.freeArea (m : Mach) (n : Nat) : Option Nat :=
  let lim := m.fld Reg.memHostLimit 47 0
  let used := ((List.range 8).filter (fun k => (m.pool k).enabled)).map (fun k =>
      (m.fld (Reg.bpmPoolBuf k) 47 0, (m.pool k).count * bufSize k)) ++ m.mem.areas.map (fun a => (a.base, a.len))
  let top := m.fld (Reg.memCarveBase 3) 47 0
  let up (a : Nat) : Nat := (a + 4095) / 4096 * 4096
  let starts := (lim :: used.map (fun p => p.1 + p.2)).map up
  (starts.filter (fun b => lim ≤ b && b + n ≤ top && used.all (fun p => !overlap b n p.1 p.2))).min?

/-- An area carved for a job. -/
def Mach.carveArea (m : Mach) (job n : Nat) : Option (Nat × Mach) :=
  match m.freeArea n with
  | some b => some (b, { m with mem := { m.mem with areas := m.mem.areas ++ [⟨b, n, job⟩] } })
  | none => none

/-! ### The context table -/

def Mach.slot (m : Mach) (s : Nat) : CtxSlot := mapGet (fun _ => CtxSlot.free) m.mem.ctx s

def Mach.setSlot (m : Mach) (s : Nat) (x : CtxSlot) : Mach := { m with mem := { m.mem with ctx := mapSet m.mem.ctx s x } }

/-- A context reference (R270). -/
def ctxRef (s gen : Nat) : Nat := gen * 2 ^ 18 + s
def refSlot (r : Nat) : Nat := r % 2 ^ 18
def refGen (r : Nat) : Nat := bitsOf r 31 18

/-- The 256 bytes of a slot (R272). -/
def CtxSlot.bytes (x : CtxSlot) : List Byte :=
  leBytes 1 x.kind ++ leBytes 1 x.flags ++ leBytes 2 x.gen ++ leBytes 2 x.owner ++ List.replicate 10 0 ++
    sliceBytes x.body 0 240

/-- A slot written to its place in GDDR7 (R270). -/
def Mach.writeBack (v : Variant) (m : Mach) (s : Nat) : Mach :=
  let m := m.devWrite v (m.fld (Reg.memCarveBase 0) 47 0 + s * 256) (m.slot s).bytes
  { m with mem := { m.mem with ways := m.mem.ways.map (fun w => if w.slot = s then { w with dirty := false } else w) } }

/-- Slots in use. -/
def Mach.ctxInUse (m : Mach) : Nat := (m.mem.ctx.filter (fun p => p.2.kind ≠ 0)).length

/-- The lowest free slot. -/
def Mach.freeSlot (m : Mach) : Option Nat :=
  if 262144 ≤ m.ctxInUse then none
  else (List.range (m.mem.ctx.length + 1)).find? (fun s => (m.slot s).kind = 0)

/-- A slot created (R271): its reference, or none when no slot is free. -/
def Mach.ctxCreate (v : Variant) (m : Mach) (kind owner : Nat) (body : List Byte) : Option (Nat × Mach) :=
  match m.freeSlot with
  | some s =>
    let x := m.slot s
    some (ctxRef s x.gen, (m.setSlot s ⟨kind, 0, x.gen, owner, sliceBytes body 0 240⟩).writeBack v s)
  | none => none

/-- GEN of a slot after a free: 16,383 is followed by 1 (R270). -/
def nextCtxGen (g : Nat) : Nat := if g = 16383 then 1 else g + 1

/-- A slot freed; its status is ST_BAD_HANDLE where GEN differs (R270). -/
def Mach.ctxRelease (v : Variant) (m : Mach) (ref : Nat) : Nat × Mach :=
  let s := refSlot ref
  let x := m.slot s
  if x.gen ≠ refGen ref || x.kind = 0 then (St.badHandle, m)
  else
    let m := { m with mem := { m.mem with ways := m.mem.ways.filter (fun w => w.slot ≠ s) } }
    (St.ok, (m.setSlot s { CtxSlot.free with gen := nextCtxGen x.gen }).writeBack v s)

/-- Ways of a slot's set (R274). -/
def Mach.setWays (m : Mach) (s : Nat) : List CtxWay := m.mem.ways.filter (fun w => w.slot % 1024 = s % 1024)

/-- A slot checked out to a unit (R274, R275): a hit, a miss that evicts the least recently checked-in way, or a wait. -/
def Mach.ctxOut (v : Variant) (m : Mach) (unit s : Nat) (pin : Bool) : Mach :=
  let set := m.setWays s
  let wait := { m with mem := { m.mem with ctxWait := m.mem.ctxWait ++ [(s, unit)] } }
  if pin && 12 ≤ (set.filter (fun w => w.pinned)).length then wait
  else
    match set.find? (fun w => w.slot = s) with
    | some w =>
      if w.out.isSome then wait
      else
        let m := m.addFld Reg.ctxHits 63 0 1
        { m with mem := { m.mem with ways := m.mem.ways.map (fun (x : CtxWay) =>
          if x.slot = s then { x with out := some unit, pinned := x.pinned || pin } else x) } }
    | none =>
      let fresh : CtxWay := ⟨s, false, pin, some unit, true⟩
      if set.length < 16 then
        let m := m.addFld Reg.ctxMisses 63 0 1
        { m with mem := { m.mem with ways := m.mem.ways ++ [fresh] } }
      else
        match set.find? (fun w => !w.pinned && w.out.isNone) with
        | some w =>
          let m := if w.dirty then m.writeBack v w.slot else m
          let m := m.addFld Reg.ctxMisses 63 0 1
          { m with mem := { m.mem with ways := m.mem.ways.filter (fun (x : CtxWay) => x.slot ≠ w.slot) ++ [fresh] } }
        | none => wait

/-- Check-outs that wait are tried again in arrival order. -/
def Mach.ctxServe (v : Variant) (m : Mach) : Mach :=
  let l := m.mem.ctxWait
  l.foldl (fun m p => m.ctxOut v p.2 p.1 false) { m with mem := { m.mem with ctxWait := [] } }

/-- A slot checked in with new contents, or none; it is the most recent way of its set (R274, R275, R277). -/
def Mach.ctxIn (v : Variant) (m : Mach) (unit s : Nat) (body : Option (List Byte)) (unpin : Bool) : Mach :=
  match m.mem.ways.find? (fun w => w.slot = s && w.out = some unit) with
  | some w =>
    let m := match body with
      | some b => m.setSlot s { m.slot s with body := sliceBytes b 0 240 }
      | none => m
    let w := { w with out := none, dirty := w.dirty || body.isSome, pinned := w.pinned && !unpin }
    let m := { m with mem := { m.mem with ways := m.mem.ways.filter (fun (x : CtxWay) => x.slot ≠ s) ++ [w] } }
    let m := if m.mem.flushLater.contains s then
        let m := m.writeBack v s
        { m with mem := { m.mem with flushLater := m.mem.flushLater.filter (fun x => x ≠ s) } }
      else m
    m.ctxServe v
  | none => m

/-- FLUSH written (R277): every dirty slot is written back, those checked out when they are checked in. -/
def Mach.ctxFlush (v : Variant) (m : Mach) (w : Writer) : Mach :=
  if m.mem.ctxFlushing then m.rejected (writerSource w) Reg.ctxFlush 1 4
  else
    let dirty := m.mem.ways.filter (fun x => x.dirty || x.out.isSome)
    let m := (dirty.filter (fun x => x.out.isNone)).foldl (fun m x => m.writeBack v x.slot) m
    { m with mem := { m.mem with ctxFlushing := true,
                                 flushLater := (dirty.filter (fun x => x.out.isSome)).map (fun x => x.slot) } }

/-- A create asked for, and its answer (R271). -/
def Mach.ctxMake (v : Variant) (m : Mach) (kind owner : Nat) (body : List Byte) : Mach :=
  match m.ctxCreate v kind owner body with
  | some (r, m) => m.send (.ctx St.ok r)
  | none => m.send (.ctx St.poolEmpty 0)

/-- A free asked for, and its answer (R270, R271). -/
def Mach.ctxDrop (v : Variant) (m : Mach) (ref : Nat) : Mach :=
  let r := m.ctxRelease v ref
  r.2.send (.ctx r.1 ref)

/-- A check-out asked for by reference (R270, R274). -/
def Mach.ctxAsk (v : Variant) (m : Mach) (unit ref : Nat) (pin : Bool) : Mach :=
  let x := m.slot (refSlot ref)
  if x.gen ≠ refGen ref || x.kind = 0 then m.send (.ctx St.badHandle ref)
  else m.ctxOut v unit (refSlot ref) pin

/-- A missed slot's read completes (R274). -/
def Mach.ctxFill (m : Mach) (s : Nat) : Mach :=
  { m with mem := { m.mem with ways := m.mem.ways.map (fun (x : CtxWay) =>
    if x.slot = s then { x with filling := false } else x) } }

/-- The flush's last slot has been written back (R277). -/
def Mach.ctxFlushEnd (m : Mach) : Mach :=
  if m.mem.flushLater.isEmpty then { m with mem := { m.mem with ctxFlushing := false } } else m

end Sys2Proof.Machine
end

