-- ==== Sys2Proof/Machine/FtlOps.lean ====
section
/-!
DEFINITION. The flash translation layer: placement, the journal, folding, collection, the mount and the carriers
(15_flash_translation.md R529 to R568, 03 R116, R117).
-/
namespace Sys2Proof.Machine

/-! ### Geometry and placement -/

/-- The geometry of the first carrier mounted (R529). -/
def Mach.geom (m : Mach) : Option CarrierInfo := (m.ftl.carriers.find? (fun p => p.2.mounted)).map (fun p => p.2.info)

/-- Data slots of a superblock: seven eighths of its slots (R530); in SLC mode one page of each cell. -/
def sbCap (g : CarrierInfo) (k : SbKind) : Nat :=
  match k with
  | .native => g.pages * 7 * g.planes
  | _ => g.pages / g.cellBits * 7 * g.planes

/-- The slot number of the i-th data slot of a superblock in stripe order (R530, R532). -/
def slotNumber (planes i : Nat) : Nat :=
  let page := i / (7 * planes)
  let c := i % (7 * planes) / planes
  let chan := if c < page % 8 then c else c + 1
  page * 8 * planes + chan * planes + i % planes

/-- Bytes and slots of an indirection unit (R532). -/
def iuBytes (iu : Nat) : Nat := if iu = 0 then 16384 else 2 ^ 20
def iuSlots (iu : Nat) : Nat := if iu = 0 then 1 else 64

def Mach.ns? (m : Mach) (nsid : Nat) : Option Ns := mapFind m.ftl.nss nsid
def Mach.setNs (m : Mach) (nsid : Nat) (x : Ns) : Mach := { m with ftl := { m.ftl with nss := mapSet m.ftl.nss nsid x } }
def Mach.setSb (m : Mach) (i : Nat) (b : SBlk) : Mach := { m with ftl := { m.ftl with sbs := mapSet m.ftl.sbs i b } }

/-- Valid slots of a superblock. -/
def Mach.sbValid (m : Mach) (i : Nat) : Nat :=
  (m.ftl.nss.map (fun p => iuSlots p.2.iu * (p.2.units.filter (fun u => u.2.sb = i && !u.2.lost)).length)).sum

/-- A superblock's carrier is mounted and present. -/
def Mach.sbUp (m : Mach) (b : SBlk) : Bool :=
  match mapFind m.ftl.carriers b.carrier with
  | some c => c.mounted && c.pg
  | none => false

/-- A superblock holds a failed die (R562). -/
def Mach.sbDead (m : Mach) (b : SBlk) : Nat :=
  (m.ftl.deadDies.filter (fun p => p.1 / 8 = b.carrier && p.2 = b.die)).length

/-- n consecutive data slots in the open superblock of a kind, or in a free one that is opened; a full one closes. -/
def Mach.placeSlots (m : Mach) (k : SbKind) (n wbin : Nat) : Option (Nat × Nat × Mach) :=
  match m.geom with
  | none => none
  | some g =>
    let cap := sbCap g k
    let put (m : Mach) (i : Nat) (b : SBlk) : Nat × Nat × Mach :=
      let full := cap < b.used + 2 * n
      (i, slotNumber g.planes b.used, m.setSb i { b with
        used := b.used + n, state := if full then .closed else .opened,
        wbin := if b.used = 0 then wbin else b.wbin,
        closeTime := if full then (m.reg Reg.flmMediaTime).toNat else b.closeTime })
    match m.ftl.sbs.find? (fun p => p.2.kind = k && p.2.state = .opened && m.sbUp p.2 && p.2.used + n ≤ cap) with
    | some (i, b) => some (put m i b)
    | none =>
      match m.ftl.sbs.find? (fun p => p.2.kind = k && p.2.state = .free && m.sbUp p.2 && m.sbDead p.2 = 0) with
      | some (i, b) => if n ≤ cap then some (put m i b) else none
      | none => none

/-! ### Collection regime (R550) -/

/-- F, the free NATIVE superblocks. -/
def Mach.freeNative (m : Mach) : Nat := (m.ftl.sbs.filter (fun p => p.2.kind = .native && p.2.state = .free)).length

def Mach.gcFloor (m : Mach) : Nat := m.fld Reg.flmGcCfg 15 8
def Mach.gcReserve (m : Mach) : Nat := m.fld Reg.flmGcCfg 7 0

/-- REGIME: 0 none, 1 background, 2 foreground, 3 stopped. -/
def Mach.regime (m : Mach) : Nat :=
  let f := m.freeNative
  if f ≤ m.gcReserve then 3 else if f < m.gcFloor then 2 else if f < 4 * m.gcFloor then 1 else 0

/-- A score as a fraction: numerator and positive denominator. -/
abbrev Score := Int × Nat

def Score.lt (a b : Score) : Bool := a.1 * (b.2 : Int) < b.1 * (a.2 : Int)

/-- The score of a closed superblock (R549): tot slots of which val are valid. -/
def gcScore (fore : Bool) (tot val age ageW wearW pe peSum peN rated : Nat) : Score :=
  let base : Score := (((tot - val : Nat) : Int), tot + val)
  if fore then base
  else
    let a : Score := (base.1 * ((16 * 86400 + ageW * min age 86400 : Nat) : Int), base.2 * (16 * 86400))
    let w : Score := ((wearW : Int) * ((peSum : Int) - (pe : Int) * (peN : Int)), 16 * peN * rated)
    (a.1 * (w.2 : Int) + w.1 * (a.2 : Int), a.2 * w.2)

/-- The score of superblock i. -/
def Mach.sbScore (m : Mach) (g : CarrierInfo) (fore : Bool) (i : Nat) (b : SBlk) : Score :=
  let nat := m.ftl.sbs.filter (fun p => p.2.kind = .native)
  gcScore fore (sbCap g .native) (m.sbValid i) ((m.reg Reg.flmMediaTime).toNat - b.closeTime)
    (m.fld Reg.flmGcCfg 23 16) (m.fld Reg.flmGcCfg 31 24) b.pe ((nat.map (fun p => p.2.pe)).sum) (max 1 nat.length)
    (max 1 g.ratedPe)

/-- The victim (R549): a queued superblock first, else the highest score, ties to the lowest number. -/
def Mach.gcVictim (m : Mach) : Option Nat :=
  match m.geom with
  | none => none
  | some g =>
    match m.ftl.queued with
    | i :: _ => some i
    | [] =>
      if m.regime = 0 then none
      else
        let fore := m.regime ≠ 1
        let cand := m.ftl.sbs.filter (fun p => p.2.kind = .native && p.2.state = .closed)
        (cand.foldl (fun (best : Option (Nat × Score)) p =>
          let s := m.sbScore g fore p.1 p.2
          match best with
          | none => some (p.1, s)
          | some (j, t) => if t.lt s then some (p.1, s) else some (j, t)) none).map (fun p => p.1)

/-- HOST_SHARE in units of 1/128 (R550). -/
def Mach.hostShare (m : Mach) : Nat :=
  match m.regime, m.geom with
  | 2, some g =>
    let t := 128 * (m.gcFloor - m.freeNative) / m.gcFloor
    let v := match m.gcVictim with
      | some i => 128 * m.sbValid i / max 1 (sbCap g .native)
      | none => 0
    128 - min 128 (max t v)
  | 3, _ => 0
  | _, _ => 128

/-! ### Records -/

/-- Kinds of FLASH_FAULT: 1 program, 2 erase, 3 verify, 4 recalibration, 5 carrier, in the order of the table; their
numbers are not stated (17 R618). -/
def Mach.flashFault (m : Mach) (inj : Bool) (chan kind block status : Nat) : Mach :=
  m.recordAs inj 0x0040 (sourceOf 6 chan) status (payloadOf [(1, kindCode 0x40 kind), (3, 0), (8, block)])

/-- A MEDIA_UNRECOVERABLE record. -/
def Mach.mediaRecord (m : Mach) (chan nsid unit : Nat) : Mach :=
  m.record 0x0041 (sourceOf 6 chan) St.mediaUnrecoverable (payloadOf [(4, nsid), (8, unit)])

/-- The channel of a unit's first slot. -/
def Mach.unitChan (m : Mach) (u : UnitRec) : Nat :=
  match m.geom, mapFind m.ftl.sbs u.sb with
  | some g, some b => b.carrier * 8 + u.slot % (8 * g.planes) / max 1 g.planes
  | _, _ => 0

/-! ### The journal (R537, R542, R554, R555) -/

/-- Journal records that a change takes. -/
def MapChange.records (c : MapChange) : Nat :=
  match c with
  | .write _ _ _ us => us.length
  | .erase _ => 2
  | _ => 1

/-- A change takes effect in the map. -/
def Mach.applyChange (m : Mach) (c : MapChange) : Mach :=
  match c with
  | .write nsid off bytes us =>
    match m.ns? nsid with
    | some x => m.setNs nsid { x with
        data := memWrite x.data off bytes, units := us.foldl (fun s u => mapSet s u.1 u.2) x.units }
    | none => m
  | .unmap nsid first count =>
    match m.ns? nsid with
    | some x => m.setNs nsid { x with
        data := memZero x.data (first * iuBytes x.iu) (count * iuBytes x.iu),
        units := x.units.filter (fun u => u.1 < first || first + count ≤ u.1) }
    | none => m
  | .move nsid unit sb slot dst =>
    match m.ns? nsid with
    | some x =>
      match mapFind x.units unit with
      | some u => if u.sb = sb && u.slot = slot then m.setNs nsid { x with units := mapSet x.units unit dst } else m
      | none => m
    | none => m
  | .lost nsid unit =>
    match m.ns? nsid with
    | some x =>
      match mapFind x.units unit with
      | some u => m.setNs nsid { x with units := mapSet x.units unit { u with lost := true } }
      | none => m
    | none => m
  | .erase i =>
    match mapFind m.ftl.sbs i with
    | some b =>
      if m.sbValid i = 0 then m.setSb i { b with state := .free, used := 0, pe := b.pe + 1, bias := 0, verifyFails := 0 }
      else m
    | none => m

/-- A change put into the open journal page, with who waits for it. -/
def Mach.journal (m : Mach) (c : MapChange) (d : FlashDone) : Mach :=
  { m with ftl := { m.ftl with pendJ := m.ftl.pendJ ++ [(c, d)] } }

def Mach.flashDone (m : Mach) (d : FlashDone) : Mach :=
  match d with
  | .nvme n => m.nvmeDone n St.ok []
  | .inner => m

/-- A write taken (R537): its units are programmed into SLC superblocks, sealed and journaled. None where no slot is
free or collection has stopped writes (R541, R550). -/
def Mach.tryWrite (m : Mach) (w : WaitWrite) : Option Mach :=
  match m.ns? w.nsid with
  | none => some m
  | some x =>
    if m.regime = 3 then none
    else
      let ub := iuBytes x.iu
      let first := w.off / ub
      let count := (w.off + w.bytes.length + ub - 1) / ub - first
      let seq := m.ftl.seq + 1
      let step (acc : Option (List (Nat × UnitRec) × Mach)) (i : Nat) : Option (List (Nat × UnitRec) × Mach) :=
        match acc with
        | none => none
        | some (us, m) =>
          match m.placeSlots .slc (iuSlots x.iu) 0 with
          | some (sb, slot, m) =>
            let m := match m.key? x.key with
              | some k => m.countSeal k
              | none => m
            some (us ++ [(first + i, ⟨sb, slot, false, seq, x.key⟩)], m)
          | none => none
      match (List.range count).foldl step (some ([], { m with ftl := { m.ftl with seq := seq } })) with
      | some (us, m) =>
        let m := m.addFld Reg.flmHostSlots 63 0 (count * iuSlots x.iu)
        some (m.journal (.write w.nsid w.off w.bytes us) w.done)
      | none => none

/-- A write that cannot be placed waits behind the others. -/
def Mach.flashWrite (m : Mach) (w : WaitWrite) : Mach :=
  if m.ftl.waiting.isEmpty then
    match m.tryWrite w with
    | some m => m
    | none => { m with ftl := { m.ftl with waiting := [w] } }
  else { m with ftl := { m.ftl with waiting := m.ftl.waiting ++ [w] } }

/-- Waiting writes placed in order while they fit; fuel counts them. -/
def Mach.serveWrites : Nat → Mach → Mach
  | 0, m => m
  | n + 1, m =>
    match m.ftl.waiting with
    | w :: r =>
      match m.tryWrite w with
      | some m' => Mach.serveWrites n { m' with ftl := { m'.ftl with waiting := r } }
      | none => m
    | [] => m

/-- The open journal page programmed on the mirrors: its changes apply in order and their commands complete. -/
def Mach.journalPage (m : Mach) : Mach :=
  let l := m.ftl.pendJ
  let m := { m with ftl := { m.ftl with
    pendJ := [], sinceCkpt := m.ftl.sinceCkpt + (l.map (fun (p : MapChange × FlashDone) => p.1.records)).sum } }
  let m := l.foldl (fun m p => (m.applyChange p.1).flashDone p.2) m
  m.serveWrites m.ftl.waiting.length

/-- A checkpoint (R556): the journal before it is no longer needed; the media time is saved (R544). -/
def Mach.checkpoint (m : Mach) : Mach :=
  let m := m.journalPage
  let seq := m.ftl.seq + 1
  let m := { m with ftl := { m.ftl with sinceCkpt := 0, lastCkpt := m.spn.count, seq := seq, savedTime := (m.reg Reg.flmMediaTime).toNat } }
  m.setReg Reg.flmCkpt (BitVec.ofNat 64 seq)

/-! ### Retirement (R564 to R566) -/

/-- A block of a superblock retired: a spare replaces it, or the superblock is dissolved. -/
def Mach.retireBlock (m : Mach) (i : Nat) : Mach :=
  let f := m.ftl
  if f.spares = 0 then
    let m := { m with ftl := { f with retired := f.retired + 1, queued := f.queued.filter (fun x => x ≠ i) } }
    match mapFind m.ftl.sbs i with
    | some b => if m.sbValid i = 0 then { m with ftl := { m.ftl with sbs := mapErase m.ftl.sbs i } }
        else m.setSb i { b with state := .closed }
    | none => m
  else { m with ftl := { f with retired := f.retired + 1, spares := f.spares - 1 } }

/-- A superblock queued ahead of the score order, once. -/
def Mach.queueSb (m : Mach) (i : Nat) : Mach :=
  if m.ftl.queued.contains i then m else { m with ftl := { m.ftl with queued := m.ftl.queued ++ [i] } }

/-- User capacity U (R565). -/
def Mach.userBytes (m : Mach) : Nat :=
  match m.geom with
  | some g => (m.ftl.sbs.filter (fun p => p.2.kind = .native)).length * sbCap g .native * 16384 * 93 / 100
  | none => 0

/-- Bytes of the namespaces together. -/
def Mach.nsBytes (m : Mach) : Nat := (m.ftl.nss.map (fun p => p.2.nsze * p.2.lba)).sum

/-- READ_ONLY of FLM_STATUS (R565). -/
def Mach.readOnly (m : Mach) : Bool := m.ftl.mounted && decide (m.userBytes < m.nsBytes)

/-! ### Program failures, folding, collection -/

/-- A program of superblock i fails (R538): the last unit taken in it is programmed elsewhere, its block is retired,
the superblock is closed and queued. -/
def Mach.programFail (m : Mach) (inj : Bool) (i block : Nat) : Mach :=
  match mapFind m.ftl.sbs i with
  | some b =>
    let m := m.setSb i { b with state := .closed, closeTime := (m.reg Reg.flmMediaTime).toNat }
    let redo (m : Mach) (c : MapChange) : MapChange × Mach :=
      match c with
      | .write nsid off bytes us =>
        match us.getLast? with
        | some (u, r) =>
          if r.sb = i then
            match m.ns? nsid with
            | some x =>
              match m.placeSlots .slc (iuSlots x.iu) b.wbin with
              | some (sb, slot, m) => (.write nsid off bytes (us.dropLast ++ [(u, { r with sb := sb, slot := slot })]), m)
              | none => (c, m)
            | none => (c, m)
          else (c, m)
        | none => (c, m)
      | c => (c, m)
    let m := match m.ftl.pendJ.getLast? with
      | some (c, d) =>
        let r := redo m c
        { r.2 with ftl := { r.2.ftl with pendJ := r.2.ftl.pendJ.dropLast ++ [(r.1, d)] } }
      | none => m
    ((m.retireBlock i).queueSb i).flashFault inj (b.carrier * 8) 1 block St.ok
  | none => m

/-- Valid units of a superblock: namespace, unit, entry, in SEQ order. -/
def Mach.sbUnits (m : Mach) (i : Nat) : List (Nat × Nat × UnitRec) :=
  let l := m.ftl.nss.flatMap (fun p => (p.2.units.filter (fun u => u.2.sb = i && !u.2.lost)).map (fun u => (p.1, u.1, u.2)))
  l.mergeSort (fun a b => a.2.2.seq ≤ b.2.2.seq)

/-- Units copied into NATIVE superblocks, their moves journaled; none where they do not all fit. -/
def Mach.copyUnits (m : Mach) (us : List (Nat × Nat × UnitRec)) : Option (List Nat × Mach) :=
  us.foldl (fun (acc : Option (List Nat × Mach)) u =>
    match acc with
    | none => none
    | some (sbs, m) =>
      match m.ns? u.1 with
      | none => some (sbs, m)
      | some x =>
        match m.placeSlots .native (iuSlots x.iu) 0 with
        | some (sb, slot, m) =>
          let m := m.addFld Reg.flmGcSlots 63 0 (iuSlots x.iu)
          some (sb :: sbs, m.journal (.move u.1 u.2.1 u.2.2.sb u.2.2.slot { u.2.2 with sb := sb, slot := slot }) .inner)
        | none => none) (some ([], m))

/-- A copy whose verify or program fails (R540, R552): the destination block is retired at its second failure, or at
once at a program failure; no map entry changes. -/
def Mach.copyFailed (m : Mach) (dst : List Nat) (program : Bool) : Mach :=
  match dst with
  | i :: _ =>
    match mapFind m.ftl.sbs i with
    | some b =>
      let m := m.setSb i { b with verifyFails := b.verifyFails + 1, state := .closed }
      let m := if program || 1 ≤ b.verifyFails then m.retireBlock i else m
      m.flashFault false (b.carrier * 8) (if program then 1 else 3) i St.ok
    | none => m
  | [] => m

/-- The SLC superblock that folds next: that of the valid unit with the lowest SEQ. -/
def Mach.foldNext (m : Mach) : Option Nat :=
  let slc := m.ftl.sbs.filter (fun p => p.2.kind = .slc && p.2.state ≠ .free)
  let us := slc.flatMap (fun p => (m.sbUnits p.1).take 1)
  (us.foldl (fun (best : Option (Nat × Nat)) u =>
    match best with
    | none => some (u.2.2.seq, u.2.2.sb)
    | some (q, i) => if u.2.2.seq < q then some (u.2.2.seq, u.2.2.sb) else some (q, i)) none).map (fun p => p.2)

/-- A fold (R539, R540): the units of one SLC superblock copied, verified and journaled, and the superblock erased. -/
def Mach.foldStep (m : Mach) (verify : Bool) : Mach :=
  match m.foldNext with
  | none => m
  | some i =>
    match mapFind m.ftl.sbs i with
    | none => m
    | some b =>
      let m := m.setSb i { b with state := .closed }
      let before := m.ftl.pendJ
      match m.copyUnits (m.sbUnits i) with
      | some (dst, m') =>
        if verify then m'.journal (.erase i) .inner
        else ({ m' with ftl := { m'.ftl with pendJ := before } }).copyFailed dst false
      | none => m

/-- A collection (R551 to R553): units whose read fails are journaled LOST; the victim is erased. -/
def Mach.gcStep (m : Mach) (bad : List (Nat × Nat)) (fails : Bool) : Mach :=
  match m.gcVictim with
  | none => m
  | some i =>
    let us := m.sbUnits i
    let isBad (u : Nat × Nat × UnitRec) : Bool := bad.contains (u.1, u.2.1)
    let before := m.ftl.pendJ
    match m.copyUnits (us.filter (fun u => !isBad u)) with
    | some (dst, m') =>
      if fails then ({ m' with ftl := { m'.ftl with pendJ := before } }).copyFailed dst true
      else
        let m := (us.filter isBad).foldl (fun m u =>
          (m.journal (.lost u.1 u.2.1) .inner).mediaRecord (m.unitChan u.2.2) u.1 u.2.1) m'
        let m := { m with ftl := { m.ftl with queued := m.ftl.queued.filter (fun x => x ≠ i) } }
        m.journal (.erase i) .inner
    | none => m

/-! ### Reads -/

/-- The outcome of reading a unit apart from keys: LOST, a carrier that is absent, or two failed dies of a stripe fail
the read (R546, R553, R562, R563). -/
def Mach.unitStatus (m : Mach) (x : Ns) (u : Nat) : Nat :=
  match mapFind x.units u with
  | none => St.ok
  | some r =>
    if r.lost then St.mediaUnrecoverable
    else
      match mapFind m.ftl.sbs r.sb with
      | some b => if m.sbUp b && m.sbDead b ≤ 1 then St.ok else St.mediaUnrecoverable
      | none => St.mediaUnrecoverable

/-- The units that a byte range of a namespace covers. -/
def unitsOf (x : Ns) (off n : Nat) : List Nat :=
  let ub := iuBytes x.iu
  let first := off / ub
  if n = 0 then [] else (List.range ((off + n + ub - 1) / ub - first)).map (fun i => first + i)

/-- A key that a unit needs is absent or revoked (03 R118, 10 R375). -/
def Mach.unitKey (m : Mach) (x : Ns) (u : Nat) : Nat :=
  match mapFind x.units u with
  | some r => if r.key = 0 then St.ok else m.keyStatus r.key
  | none => St.ok

/-- The status of reading a byte range, bad units among it failing after all retries. -/
def Mach.rangeStatus (m : Mach) (x : Ns) (off n : Nat) (bad : List Nat) : Nat :=
  (unitsOf x off n).foldl (fun st u =>
    St.first (St.first st (m.unitKey x u))
      (if bad.contains u then St.mediaUnrecoverable else m.unitStatus x u)) St.ok

/-- The number of a time bin of R545. -/
def timeBin (s : Nat) : Nat :=
  if s < 3600 then 0 else if s < 28800 then 1 else if s < 86400 then 2 else if s < 345600 then 3
  else if s < 1382400 then 4 else if s < 5529600 then 5 else if s < 22118400 then 6 else 7

/-- The index into FLM_TTBL of a first read (R545), for a bin of the die's current temperature. -/
def Mach.ttblIndex (m : Mach) (b : SBlk) (cbin : Nat) : Nat :=
  min 7 (timeBin ((m.reg Reg.flmMediaTime).toNat - b.closeTime) + b.bias) * 16 + b.wbin * 4 + cbin

/-- A read of a superblock climbs to a step of the ladder (R546, R547), step 8 being a failure; half says that its hard
decode used more than half the correction capability. -/
def Mach.flashRead (m : Mach) (i step : Nat) (half : Bool) (nsid unit : Nat) : Mach :=
  match mapFind m.ftl.sbs i with
  | some b =>
    let m := m.addFld (Reg.flmReadStep step) 63 0 1
    let m := if 1 ≤ step && step ≤ 3 && b.bias < step then m.setSb i { b with bias := step } else m
    let m := if 4 ≤ step || half then m.queueSb i else m
    if step = 8 then m.mediaRecord (b.carrier * 8) nsid unit else m
  | none => m

/-! ### Mount and carriers -/

/-- Channels of a carrier take a STATE: 0 normal, 2 absent, 3 failed. -/
def Mach.carrierChans (m : Mach) (n state : Nat) : Mach :=
  (List.range 8).foldl (fun m i => m.setFld (Reg.flmChStatus (8 * n + i)) 31 30 state) m

/-- The superblocks of newly mounted media: NATIVE ones first, then SLC, spread over the mounted carriers and dies; what the
media hold already lies in the first. -/
def freshSbs (carriers : List Nat) (dies native slc : Nat) (holds : Bool) : SMap SBlk :=
  (List.range (native + slc)).map (fun i =>
    (i, ⟨if i < native then .native else .slc, carriers.getD (i % max 1 carriers.length) 0,
      i / max 1 carriers.length % max 1 dies, if i = 0 && holds then .closed else .free, 0, 0, 0, 0, 0, 0⟩))

/-- The namespaces that a mount finds on a set. -/
def foundNss (l : List FoundNs) (set : Nat) : SMap Ns :=
  (l.filter (fun f => f.setId = set)).foldl (fun s f =>
    mapSet s f.nsid
      { nsze := f.nsze, lba := f.lba, iu := f.iu, kind := f.kind, key := f.key,
        attached := f.attached.map (fun p => p.val), sealedBy := none, usedBy := none,
        units := f.units.foldl (fun us u => mapSet us u.1 ⟨0, 0, false, 0, f.key⟩) [],
        data := f.units.foldl (fun d u => memWrite d (u.1 * iuBytes f.iu) (sliceBytes u.2 0 (iuBytes f.iu))) [],
        resv := Resv.reset }) []

/-- Carriers of one set mounted (R116, R529, R558): those of another geometry than the first are not. -/
def Mach.mountSet (m : Mach) (info : MountInfo) (set : Nat) : Mach :=
  let cs := info.carriers.filter (fun c => c.setId = set)
  match cs with
  | [] => m
  | g :: _ =>
    let same (c : CarrierInfo) : Bool := c.cellBits = g.cellBits && c.planes = g.planes && c.diesPerCh = g.diesPerCh &&
      c.pages = g.pages && c.blocks = g.blocks && c.ratedPe = g.ratedPe
    let id := if set = 0 then m.drawn 0x116 % 2 ^ 64 + 1 else set
    let m := if set = 0 then m.draw else m
    let ours := m.ftl.setId = id && !m.ftl.sbs.isEmpty
    let good := (cs.filter same).map (fun c => c.conn.val)
    let m := { m with ftl := { m.ftl with
      setId := id, mounted := true,
      carriers := info.carriers.foldl (fun (s : SMap Carrier) (c : CarrierInfo) =>
        mapSet s c.conn.val ⟨{ c with setId := if c.setId = set then id else c.setId }, true,
          good.contains c.conn.val⟩) m.ftl.carriers,
      sbs := if ours then m.ftl.sbs
        else freshSbs good (4 * g.diesPerCh) info.native info.slc (!(foundNss info.nss set).isEmpty),
      spares := if ours then m.ftl.spares else info.spares,
      queued := if ours then m.ftl.queued else [], deadDies := if ours then m.ftl.deadDies else [],
      retired := if ours then m.ftl.retired else 0,
      nss := if ours then m.ftl.nss else foundNss info.nss set, pendJ := [], waiting := [] } }
    let m := if ours then m
      else { m with ks := { m.ks with keys := [], gens := [], generation := 0 } }
    -- open superblocks are closed and queued (R558 step 6)
    let opened := (m.ftl.sbs.filter (fun p => p.2.state = .opened)).map (fun p => p.1)
    let m := opened.foldl (fun m i => match mapFind m.ftl.sbs i with
      | some b => (m.setSb i { b with state := .closed }).queueSb i
      | none => m) m
    let m := (cs.filter (fun c => !same c)).foldl (fun m c =>
      (m.carrierChans c.conn.val 2).notice 0x0006 (sourceOf 0 0) c.conn.val St.unitAbsent) m
    let m := good.foldl (fun m c => m.carrierChans c 0) m
    -- keys (R116, R118)
    let need := (cs.filter (fun c => good.contains c.conn.val && m.ks.generation < c.keyGen)).map (fun c => c.conn.val)
    let m := m.setFld Reg.glbAdopt 3 0 (bitMask good)
    let m := (m.setFld Reg.glbAdopt 7 4 (bitMask need)).setBit Reg.glbAdopt 31 (!need.isEmpty)
    let m := m.setBit Reg.glbAdopt 30 false
    -- registers set at mount
    let m := m.setReg Reg.flmGeom (BitVec.ofNat 64 (g.cellBits * 2 ^ 28 + g.planes * 2 ^ 24 + g.diesPerCh * 2 ^ 18 + g.pages))
    let m := m.setReg Reg.flmGeom2 (BitVec.ofNat 64 (g.ratedPe * 2 ^ 16 + g.blocks))
    let m := m.setReg Reg.flmReplay (BitVec.ofNat 64 (info.replayed * 2 ^ 32 + info.replayUs))
    let m := m.setBit Reg.flmStatus 29 (info.replayed ≠ 0)
    let m := m.setBit Reg.flmStatus 28 (good.length = 1)
    let m := (List.range info.ttbl.length).foldl
      (fun m i => m.setReg (Reg.flmTtbl i) (BitVec.ofNat 64 ((info.ttbl.getD i 0).val))) m
    m.checkpoint

/-- WP# is low on the connectors whose CARRIER_PG is low (R55). -/
def Mach.wpMask (m : Mach) : Nat := 0xF - bitMask ((m.ftl.carriers.filter (fun p => p.2.pg)).map (fun p => p.1))

/-- The carriers of the flash examined and mounted (R558 step 1, R116, R117). -/
def Mach.mountFlash (m : Mach) (info : MountInfo) : Mach :=
  let m := { m with ftl := { m.ftl with
    found := some info, mounted := false, pendJ := [], waiting := [],
    carriers := info.carriers.foldl (fun (s : SMap Carrier) (c : CarrierInfo) => mapSet s c.conn.val ⟨c, true, false⟩) [] } }
  let m := { m with power := { m.power with wpLow := m.wpMask } }
  let m := { m with ks := { m.ks with isOpen := true, tables := [], signedJobs := [], tagSecret := m.drawnBytes 0x374 32 } }
  let m := (List.range 4).foldl (fun m c => m.carrierChans c 2) m.draw
  let sets := (info.carriers.map (fun c => c.setId)).dedup
  match sets with
  | [] => m
  | [s] => m.mountSet info s
  | _ =>
    let mask := bitMask (info.carriers.map (fun c => c.conn.val))
    (m.setBit Reg.glbAdopt 30 true).notice 0x0003 (sourceOf 0 0) mask St.ok

/-- FTL_MOUNT (03 R103): STAGE 0x06 becomes 0x07; a Sanitize or Format that ran resumes (14 R518). -/
def Mach.ftlMount (m : Mach) (info : MountInfo) : Mach :=
  if m.power.pwrOk && m.fld Reg.glbBootStatus 7 0 = 6 then
    let m := m.mountFlash info
    let m := match m.hif.maint with
      | some x => { m with hif := { m.hif with maint := some { x with resumed := true, done := none } } }
      | none => m
    m.setFld Reg.glbBootStatus 7 0 7
  else m

/-- ADOPT_SEL (R117): effective only while MIXED_SETS is 1. -/
def Mach.adoptSel (m : Mach) (w : Writer) (sel : Nat) : Mach :=
  match m.bit Reg.glbAdopt 30, m.ftl.found with
  | true, some info =>
    match info.carriers.find? (fun c => bitAt sel c.conn.val) with
    | some c => m.mountSet info c.setId
    | none => m
  | _, _ => m.rejected (writerSource w) Reg.glbAdopt (sel * 2 ^ 8) 4

/-- Superblocks of a carrier closed and, for failed dies, queued. -/
def Mach.closeCarrier (m : Mach) (n : Nat) : Mach :=
  { m with ftl := { m.ftl with sbs := m.ftl.sbs.map (fun (p : Nat × SBlk) =>
    if p.2.carrier = n && p.2.state = .opened then (p.1, { p.2 with state := .closed }) else p) } }

/-- CARRIER_PG falls (R55, R563). -/
def Mach.carrierFall (m : Mach) (n : Nat) : Mach :=
  let m := { m with power := { m.power with wpLow := m.power.wpLow ||| 2 ^ n } }
  match mapFind m.ftl.carriers n with
  | some c =>
    let m := { m with ftl := { m.ftl with carriers := mapSet m.ftl.carriers n { c with pg := false } } }
    if c.mounted && c.pg then
      let m := (m.carrierChans n 2).setBit Reg.flmStatus n true
      let up : Nat := (m.ftl.carriers.filter (fun p => p.2.mounted && p.2.pg)).length
      let m : Mach := if decide (up = 1) then m.setBit Reg.flmStatus 28 true else m
      ((m.closeCarrier n).flashFault false (8 * n) 5 n St.mediaUnrecoverable).notifyLast
    else m
  | none => m

/-- CARRIER_PG rises (R563): the carrier returns if its set matches; another set is handled under R117. -/
def Mach.carrierRise (m : Mach) (info : CarrierInfo) : Mach :=
  let n := info.conn.val
  if m.power.pwrOk && m.ftl.mounted then
    let m := { m with power := { m.power with wpLow := m.power.wpLow &&& (0xF - 2 ^ n) } }
    let m := (List.range 8).foldl (fun m i => m.addFld (Reg.flmChStatus (8 * n + i)) 15 0 1) m
    if info.setId = m.ftl.setId then
      let m := { m with ftl := { m.ftl with carriers := mapSet m.ftl.carriers n ⟨info, true, true⟩ } }
      let m : Mach := (m.carrierChans n 0).setBit Reg.flmStatus n false
      let up : Nat := (m.ftl.carriers.filter (fun p => p.2.mounted && p.2.pg)).length
      m.setBit Reg.flmStatus 28 (up = 1)
    else
      let m := { m with ftl := { m.ftl with
        carriers := mapSet m.ftl.carriers n ⟨info, true, false⟩,
        found := m.ftl.found.map (fun (f : MountInfo) =>
          { f with carriers := f.carriers.filter (fun (c : CarrierInfo) => c.conn ≠ info.conn) ++ [info] }) } }
      (m.setBit Reg.glbAdopt 30 true).notice 0x0003 (sourceOf 0 0)
        (bitMask ((m.ftl.carriers.filter (fun p => p.2.pg)).map (fun p => p.1))) St.ok
  else m

/-! ### Channels and dies (R561, R562) -/

/-- A die has failed: every superblock that holds it is queued for evacuation. -/
def Mach.dieFails (m : Mach) (chan die : Nat) : Mach :=
  if m.ftl.deadDies.contains (chan, die) then m
  else
    let m := { m with ftl := { m.ftl with deadDies := m.ftl.deadDies ++ [(chan, die)] } }
    (m.ftl.sbs.filter (fun p => p.2.carrier = chan / 8 && p.2.die = die && p.2.state ≠ .free)).foldl
      (fun m p => m.queueSb p.1) m

/-- A recalibration of a channel for a trigger (3: its bit of FLM_RECAL_REQ); two failures in a row fail the channel. -/
def Mach.channelRecal (v : Variant) (m : Mach) (c trig : Nat) (pass : Bool) : Mach :=
  let st := m.fld (Reg.flmChStatus c) 31 30
  if decide (c < nandChannels v) && m.ftl.mounted && st = 0 && (trig ≠ 3 || m.bit Reg.flmRecalReq c) then
    let m := m.setBit Reg.flmRecalReq c false
    if pass then
      let m := { m with ftl := { m.ftl with recalFails := mapErase m.ftl.recalFails c } }
      m.addFld (Reg.flmChStatus c) 15 0 1
    else if mapGet (fun _ => 0) m.ftl.recalFails c = 0 then
      { m with ftl := { m.ftl with recalFails := mapSet m.ftl.recalFails c 1 } }
    else
      let m := { m with ftl := { m.ftl with recalFails := mapErase m.ftl.recalFails c } }
      let m := m.setFld (Reg.flmChStatus c) 31 30 3
      let dies := match m.geom with | some g => 4 * g.diesPerCh | none => 0
      let m := (List.range dies).foldl (fun m d => m.dieFails c d) m
      m.flashFault false c 4 c St.mediaUnrecoverable
  else m

/-- A write of FLM_RECAL_REQ: bits of absent or failed channels are discarded. -/
def Mach.recalReq (v : Variant) (m : Mach) (w : Writer) (bits : Nat) : Mach :=
  let l := (List.range 32).filter (fun c => bitAt bits c && c < nandChannels v)
  let up (c : Nat) : Bool := m.fld (Reg.flmChStatus c) 31 30 ≤ 1
  let m' := (l.filter up).foldl (fun m c => m.setBit Reg.flmRecalReq c true) m
  if l.all up then m' else m'.rejected (writerSource w) Reg.flmRecalReq bits 4

/-- A write of FLM_MEDIA_TIME (R544). -/
def Mach.writeMediaTime (m : Mach) (val : Nat) : Mach :=
  let old := (m.reg Reg.flmMediaTime).toNat
  let m := (m.setReg Reg.flmMediaTime (BitVec.ofNat 64 val)).setBit Reg.flmStatus 30 false
  if val < old then m.notice 0x0005 (sourceOf 0 0) old St.ok else m

/-- A write of FLM_STORED_CFG (R568): stored in NOR; a reserved value keeps its field. -/
def Mach.writeStoredCfg (m : Mach) (w : Writer) (val : Nat) : Mach :=
  let g := bitsOf val 15 8
  let s := val % 256
  let gOk := decide (2 ≤ g) && decide (g ≤ 16)
  let sOk := decide (1 ≤ s) && decide (s ≤ 10)
  let old := m.ftl.storedCfg
  let m := { m with ftl := { m.ftl with storedCfg :=
    (if gOk then g else bitsOf old 15 8) * 256 + (if sOk then s else old % 256) } }
  if gOk && sOk then m else m.rejected (writerSource w) Reg.flmStoredCfg val 1

end Sys2Proof.Machine
end

