-- ==== Sys2Proof/Machine/NvmeOps.lean ====
section
/-!
DEFINITION. NVMe commands: queues, namespaces, I/O, reservations, features, log pages, Identify, NVMe-MI, Sanitize and
Format (14 R501 to R518). What NVM Express 2.0 itself defines is marked PRESUMED in the assumption log.
-/
namespace Sys2Proof.Machine

/-! ### Statuses that NVM Express defines -/

def nvInvalidNs : Nat × Nat := (0x0, 0x0B)
def nvNotReady : Nat × Nat := (0x0, 0x82)
def nvReservationConflict : Nat × Nat := (0x0, 0x83)
def nvWriteProtected : Nat × Nat := (0x0, 0x20)
def nvSequence : Nat × Nat := (0x0, 0x0C)
def nvCqInvalid : Nat × Nat := (0x1, 0x00)
def nvInvalidQid : Nat × Nat := (0x1, 0x01)
def nvInvalidQSize : Nat × Nat := (0x1, 0x02)
def nvAerLimit : Nat × Nat := (0x1, 0x05)
def nvInvalidVector : Nat × Nat := (0x1, 0x08)
def nvInvalidLogPage : Nat × Nat := (0x1, 0x09)
def nvInvalidQDeletion : Nat × Nat := (0x1, 0x0C)
def nvNoCapacity : Nat × Nat := (0x1, 0x15)
def nvNsidUnavailable : Nat × Nat := (0x1, 0x16)
def nvAlreadyAttached : Nat × Nat := (0x1, 0x18)
def nvNotAttached : Nat × Nat := (0x1, 0x1A)

/-- A completion with a status of NVM Express. -/
def Mach.nvmeErr (m : Mach) (n : NvmeCtx) (e : Nat × Nat) : Mach := m.nvmeStd n e.1 e.2

def Mach.ctl (m : Mach) (p : Nat) : Ctl := (m.port p).ctl

/-! ### I/O queues (R501) -/

def Mach.createCq (m : Mach) (n : NvmeCtx) (qid size vector : Nat) (ien : Bool) : Mach :=
  let c := m.ctl n.port.val
  if qid = 0 || 256 < qid || (mapFind c.cqs qid).isSome then m.nvmeErr n nvInvalidQid
  else if size < 2 || 65536 < size then m.nvmeErr n nvInvalidQSize
  else if 263 < vector then m.nvmeErr n nvInvalidVector
  else (m.setCtl n.port.val { c with cqs := mapSet c.cqs qid (size, vector, ien) }).nvmeDone n St.ok []

def Mach.createSq (m : Mach) (n : NvmeCtx) (qid size cqid : Nat) : Mach :=
  let c := m.ctl n.port.val
  if qid = 0 || 256 < qid || (mapFind c.sqs qid).isSome then m.nvmeErr n nvInvalidQid
  else if size < 2 || 65536 < size then m.nvmeErr n nvInvalidQSize
  else if (mapFind c.cqs cqid).isNone then m.nvmeErr n nvCqInvalid
  else (m.setCtl n.port.val { c with sqs := mapSet c.sqs qid (size, cqid) }).nvmeDone n St.ok []

def Mach.deleteSq (m : Mach) (n : NvmeCtx) (qid : Nat) : Mach :=
  let c := m.ctl n.port.val
  if (mapFind c.sqs qid).isNone then m.nvmeErr n nvInvalidQid
  else (m.setCtl n.port.val { c with sqs := mapErase c.sqs qid }).nvmeDone n St.ok []

def Mach.deleteCq (m : Mach) (n : NvmeCtx) (qid : Nat) : Mach :=
  let c := m.ctl n.port.val
  if (mapFind c.cqs qid).isNone then m.nvmeErr n nvInvalidQid
  else if c.sqs.any (fun q => q.2.2 = qid) then m.nvmeErr n nvInvalidQDeletion
  else (m.setCtl n.port.val { c with cqs := mapErase c.cqs qid }).nvmeDone n St.ok []

/-! ### Reservations (R512) -/

/-- The holder condition: for the "all registrants" types every registrant holds. -/
def Resv.holds (r : Resv) (h : List Byte) : Bool :=
  if r.rtype = 5 || r.rtype = 6 then r.holder.isSome && r.regs.any (fun x => x.1 = h) else r.holder = some h

/-- A host may not read or write under the reservation. -/
def Resv.conflicts (r : Resv) (h : Option (List Byte)) (write : Bool) : Bool :=
  let mine := match h with | some x => r.holds x | none => false
  let reg := match h with | some x => r.regs.any (fun y => y.1 = x) | none => false
  r.holder.isSome && !mine &&
    match r.rtype with
    | 1 => write
    | 2 => true
    | 3 => write && !reg
    | 4 => !reg
    | 5 => write && !reg
    | _ => !reg

/-- The registration key of a host. -/
def Resv.keyOf (r : Resv) (h : List Byte) : Option Nat := (r.regs.find? (fun x => x.1 = h)).map (fun x => x.2)

/-- A host's registration removed; a reservation it held alone ends. -/
def Resv.drop (r : Resv) (h : List Byte) : Resv :=
  let regs := r.regs.filter (fun x => x.1 ≠ h)
  let ends := r.holder = some h && r.rtype ≠ 5 && r.rtype ≠ 6 || regs.isEmpty
  { r with regs := regs, holder := if ends then none else r.holder, rtype := if ends then 0 else r.rtype, gen := r.gen + 1 }

/-- Register, Acquire, Release: the new state, or none for a conflict (NVM Express 2.0). -/
def Resv.register (r : Resv) (h : List Byte) (a : ResvArgs) : Option Resv :=
  let cur := r.keyOf h
  let ok := a.iekey || cur = some a.crkey.toNat
  let put (r : Resv) : Resv :=
    { r with regs := r.regs.filter (fun x => x.1 ≠ h) ++ [(h, a.nrkey.toNat)], gen := r.gen + 1 }
  match a.action.val with
  | 0 => if cur.isNone || cur = some a.nrkey.toNat then some (put r) else none
  | 1 => if cur.isSome && ok then some (r.drop h) else none
  | _ => if cur.isSome && ok then some (put r) else none

def Resv.acquire (r : Resv) (h : List Byte) (a : ResvArgs) : Option Resv :=
  if r.keyOf h ≠ some a.crkey.toNat then none
  else
    match a.action.val with
    | 0 =>
      if r.holder.isNone || (r.holds h && r.rtype = a.rtype.val) then some { r with holder := some h, rtype := a.rtype.val }
      else none
    | _ =>
      let victims := r.regs.filter (fun x => x.2 = a.nrkey.toNat && x.1 ≠ h)
      let heldBy : Bool := match r.holder with | some x => r.keyOf x = some a.nrkey.toNat | none => false
      let r' := { r with regs := r.regs.filter (fun x => !victims.contains x), gen := r.gen + 1 }
      some (if heldBy then { r' with holder := some h, rtype := a.rtype.val } else r')

def Resv.release (r : Resv) (h : List Byte) (a : ResvArgs) : Option Resv :=
  if r.keyOf h ≠ some a.crkey.toNat then none
  else
    match a.action.val with
    | 0 => if r.holds h then (if r.rtype = a.rtype.val then some { r with holder := none, rtype := 0 } else none) else some r
    | _ => some { r with regs := [], holder := none, rtype := 0, gen := r.gen + 1 }

/-- A reservation command: the host identifier is required (R504). -/
def Mach.reserve (m : Mach) (n : NvmeCtx) (nsid : Nat) (f : Resv → List Byte → Option Resv) : Mach :=
  match m.ns? nsid, (m.ctl n.port.val).hostId with
  | none, _ => m.nvmeErr n nvInvalidNs
  | _, none => m.nvmeErr n nvSequence
  | some x, some h =>
    if !x.attached.contains n.port.val then m.nvmeErr n nvInvalidNs
    else
      match f x.resv h with
      | some r => (m.setNs nsid { x with resv := r }).nvmeDone n St.ok []
      | none => m.nvmeErr n nvReservationConflict

/-- The reservation status data: generation, type, registrants with holder mark, host identifier and key. -/
def Resv.report (r : Resv) : List Byte :=
  leBytes 4 r.gen ++ leBytes 1 r.rtype ++ leBytes 2 r.regs.length ++ List.replicate 2 0 ++ leBytes 1 (boolBit r.ptpl) ++
    List.replicate 54 0 ++
    r.regs.flatMap (fun x => leBytes 2 0xFFFF ++ leBytes 1 (boolBit (r.holds x.1)) ++ List.replicate 5 0 ++ leBytes 8 x.2 ++
      sliceBytes x.1 0 16 ++ List.replicate 32 0)

def Mach.reserveReport (m : Mach) (n : NvmeCtx) (nsid : Nat) : Mach :=
  match m.ns? nsid with
  | some x => if x.attached.contains n.port.val then m.nvmeDone n St.ok x.resv.report else m.nvmeErr n nvInvalidNs
  | none => m.nvmeErr n nvInvalidNs

/-! ### I/O commands (R503, R509 to R511) -/

/-- An I/O command on an attached namespace. -/
def Mach.onNs (m : Mach) (n : NvmeCtx) (nsid : Nat) (f : Ns → Mach) : Mach :=
  match m.ns? nsid with
  | some x => if x.attached.contains n.port.val then f x else m.nvmeErr n nvInvalidNs
  | none => m.nvmeErr n nvInvalidNs

/-- The cases of R511 and R377 that stop a read or write before the media: status code of NVMe, or a module code. -/
def Mach.ioStop (m : Mach) (x : Ns) (write : Bool) : Option (Sum (Nat × Nat) Nat) :=
  if x.usedBy.isSome then some (.inl nvNotReady)
  else if x.sealedBy.isSome then some (.inr St.policy)
  else if x.key ≠ 0 && m.keyStatus x.key ≠ St.ok then some (.inr St.keyDenied)
  else if !write && (match m.key? x.key with | some k => !bitAt k.policy 0 | none => false) then some (.inr St.policy)
  else if write && (match m.key? x.key with | some k => !k.maySeal | none => false) then some (.inr St.keyDenied)
  else none

def Mach.stopWith (m : Mach) (n : NvmeCtx) (e : Sum (Nat × Nat) Nat) : Mach :=
  match e with | .inl x => m.nvmeErr n x | .inr c => m.nvmeDone n c []

/-- A unit that a write covers in part. -/
def partUnits (x : Ns) (off n : Nat) : List Nat :=
  (unitsOf x off n).filter (fun u => u * iuBytes x.iu < off || off + n < (u + 1) * iuBytes x.iu)

/-- A Write: in part covered units whose old contents cannot be read fail it (15 R537). -/
def Mach.nvmWrite (m : Mach) (n : NvmeCtx) (nsid slba : Nat) (data : List Byte) (bad : List Nat) : Mach :=
  m.onNs n nsid (fun x =>
    let off := slba * x.lba
    let parts := partUnits x off data.length
    let fails := parts.filter (fun u => bad.contains u || m.unitStatus x u ≠ St.ok)
    if data.length % x.lba ≠ 0 then m.nvmeDone n St.invalidField []
    else if x.nsze * x.lba < off + data.length then m.nvmeDone n St.bounds []
    else if x.resv.conflicts (m.ctl n.port.val).hostId true then m.nvmeErr n nvReservationConflict
    else if m.readOnly then m.nvmeErr n nvWriteProtected
    else
      match m.ioStop x true with
      | some e => m.stopWith n e
      | none =>
        match fails with
        | [] => m.flashWrite ⟨.nvme n, nsid, off, data⟩
        | us =>
          let m := us.foldl (fun m u => m.mediaRecord (match mapFind x.units u with | some r => m.unitChan r | none => 0) nsid u) m
          m.nvmeDone n St.mediaUnrecoverable [])

/-- A Read: bad lists units whose read fails after all retries, tag those whose tag does not match. -/
def Mach.nvmRead (m : Mach) (n : NvmeCtx) (nsid slba nlb : Nat) (bad tag : List Nat) : Mach :=
  m.onNs n nsid (fun x =>
    let off := slba * x.lba
    let len := nlb * x.lba
    if x.nsze * x.lba < off + len then m.nvmeDone n St.bounds []
    else if x.resv.conflicts (m.ctl n.port.val).hostId false then m.nvmeErr n nvReservationConflict
    else
      match m.ioStop x false with
      | some e => m.stopWith n e
      | none =>
        let st := m.rangeStatus x off len bad
        let st := if (unitsOf x off len).any tag.contains then St.first st St.checkFail else st
        if st = St.ok then m.nvmeDone n St.ok (memRead x.data off len) else m.nvmeDone n st [])

/-- Blocks deallocated: whole units leave the map, parts of units are written with zeros (15 R536, R537). -/
def Mach.dealloc (m : Mach) (x : Ns) (nsid off n : Nat) (d : FlashDone) : Mach :=
  let us := unitsOf x off n
  let parts := (partUnits x off n).filter (fun u => (mapFind x.units u).isSome)
  let whole := us.filter (fun u => !(partUnits x off n).contains u)
  let m := parts.foldl (fun m u =>
    let a := max off (u * iuBytes x.iu)
    let b := min (off + n) ((u + 1) * iuBytes x.iu)
    m.flashWrite ⟨.inner, nsid, a, List.replicate (b - a) 0⟩) m
  match whole with
  | u :: _ => m.journal (.unmap nsid u whole.length) d
  | [] => m.journal (.unmap nsid 0 0) d

def Mach.writeZeroes (m : Mach) (n : NvmeCtx) (nsid slba nlb : Nat) : Mach :=
  m.onNs n nsid (fun x =>
    if x.nsze < slba + nlb then m.nvmeDone n St.bounds []
    else if x.resv.conflicts (m.ctl n.port.val).hostId true then m.nvmeErr n nvReservationConflict
    else if m.readOnly then m.nvmeErr n nvWriteProtected
    else
      match m.ioStop x true with
      | some e => m.stopWith n e
      | none => m.dealloc x nsid (slba * x.lba) (nlb * x.lba) (.nvme n))

/-- Dataset Management: Deallocate over a list of ranges; other attributes do nothing. -/
def Mach.datasetMgmt (m : Mach) (n : NvmeCtx) (nsid : Nat) (deallocate : Bool) (ranges : List (Nat × Nat)) : Mach :=
  m.onNs n nsid (fun x =>
    if !deallocate then m.nvmeDone n St.ok []
    else if ranges.any (fun r => x.nsze < r.1 + r.2) then m.nvmeDone n St.bounds []
    else if x.resv.conflicts (m.ctl n.port.val).hostId true then m.nvmeErr n nvReservationConflict
    else
      match m.ioStop x true with
      | some e => m.stopWith n e
      | none =>
        (ranges.foldl (fun m r => m.dealloc x nsid (r.1 * x.lba) (r.2 * x.lba) .inner) m).journal (.unmap nsid 0 0) (.nvme n))

/-- Flush: at once where nothing submitted before it is open, else behind it (R503). -/
def Mach.nvmFlush (m : Mach) (n : NvmeCtx) (nsid : Nat) : Mach :=
  m.onNs n nsid (fun _ =>
    if m.ftl.pendJ.isEmpty && m.ftl.waiting.isEmpty then m.nvmeDone n St.ok []
    else m.flashWrite ⟨.nvme n, nsid, 0, []⟩)

/-! ### Namespaces (R506) -/

/-- Create: the lowest free NSID. -/
def Mach.nsCreate (m : Mach) (n : NvmeCtx) (nsze lbaf iu kind key : Nat) (rsvd : Bool) : Mach :=
  let lba := if lbaf = 0 then 4096 else 512
  let k := m.key? key
  if 1 < lbaf || 1 < iu || 1 < kind || rsvd || nsze = 0 || (key ≠ 0 && kind = 1) then m.nvmeDone n St.invalidField []
  else if key ≠ 0 && (match k with | some r => r.revoked || !bitAt r.flags 0 || !m.ks.isOpen | none => true) then
    m.nvmeDone n St.keyDenied []
  else if m.userBytes < m.nsBytes + nsze * lba then m.nvmeErr n nvNoCapacity
  else
    match ((List.range 256).map (fun i => i + 1)).find? (fun i => (m.ns? i).isNone) with
    | none => m.nvmeErr n nvNsidUnavailable
    | some id =>
      (m.setNs id { nsze := nsze, lba := lba, iu := iu, kind := kind, key := key, attached := [], sealedBy := none,
                    usedBy := none, units := [], data := [], resv := Resv.reset }).nvmeDone n St.ok (leBytes 4 id)

/-- Delete one namespace, or all of them with NSID 0xFFFF_FFFF. -/
def Mach.nsDelete (m : Mach) (n : NvmeCtx) (nsid : Nat) : Mach :=
  if nsid = 0xFFFFFFFF then ({ m with ftl := { m.ftl with nss := [] } }).nvmeDone n St.ok []
  else
    match m.ns? nsid with
    | some _ => ({ m with ftl := { m.ftl with nss := mapErase m.ftl.nss nsid } }).nvmeDone n St.ok []
    | none => m.nvmeErr n nvInvalidNs

/-- Attach to, or detach from, the controllers of some ports. -/
def Mach.nsAttach (m : Mach) (n : NvmeCtx) (nsid : Nat) (ports : List Nat) (attach : Bool) : Mach :=
  match m.ns? nsid with
  | some x =>
    if attach then
      if ports.any x.attached.contains then m.nvmeErr n nvAlreadyAttached
      else (m.setNs nsid { x with attached := x.attached ++ ports }).nvmeDone n St.ok []
    else if !ports.all x.attached.contains then m.nvmeErr n nvNotAttached
    else (m.setNs nsid { x with attached := x.attached.filter (fun p => !ports.contains p) }).nvmeDone n St.ok []
  | none => m.nvmeErr n nvInvalidNs

/-! ### Features and events (R502, R504) -/

/-- Features that the controllers support. -/
def featureKnown (f : Nat) : Bool := [0x01, 0x02, 0x04, 0x06, 0x07, 0x08, 0x0B, 0x81, 0x82, 0x83].contains f

/-- Set Features: Temperature Threshold only by the owner; only power state 0; no volatile write cache; at most 256
queues of each kind. -/
def Mach.setFeature (m : Mach) (n : NvmeCtx) (f val : Nat) (hostId : List Byte) : Mach :=
  let c := m.ctl n.port.val
  if !featureKnown f || f = 0x06 then m.nvmeDone n St.invalidField []
  else if f = 0x04 && n.port.val ≠ m.hif.owner then m.nvmeDone n St.notOwner []
  else if f = 0x02 && val % 32 ≠ 0 then m.nvmeDone n St.invalidField []
  else if f = 0x81 then (m.setCtl n.port.val { c with hostId := some (sliceBytes hostId 0 16) }).nvmeDone n St.ok []
  else
    let v := if f = 0x07 then min 255 (val / 65536 % 65536) * 65536 + min 255 (val % 65536) else val % 2 ^ 32
    (m.setCtl n.port.val { c with feats := mapSet c.feats f v }).nvmeDone n St.ok (leBytes 4 v)

/-- Get Features; a feature never set has the value that NVM Express leaves to the controller. -/
def Mach.getFeature (m : Mach) (n : NvmeCtx) (f : Nat) : Mach :=
  let c := m.ctl n.port.val
  if !featureKnown f then m.nvmeDone n St.invalidField []
  else if f = 0x81 then m.nvmeDone n St.ok (c.hostId.getD (List.replicate 16 0))
  else
    let d := if f = 0x07 then 255 * 65536 + 255 else if f = 0x02 || f = 0x06 then 0 else Config.freeNat 0x504 f % 2 ^ 32
    m.nvmeDone n St.ok (leBytes 4 (mapGet (fun _ => d) c.feats f))

/-- An asynchronous event request waits, at most 8 of a controller. -/
def Mach.aer (m : Mach) (n : NvmeCtx) : Mach :=
  let c := m.ctl n.port.val
  if 8 ≤ c.aers.length then m.nvmeErr n nvAerLimit
  else m.setCtl n.port.val { c with aers := c.aers ++ [n.cid.toNat] }

/-- Abort: of the commands that have not started only event requests are left; bit 0 of the result is 1 where nothing
was aborted. -/
def Mach.abortCmd (m : Mach) (n : NvmeCtx) (qid cid : Nat) : Mach :=
  let c := m.ctl n.port.val
  if qid = 0 && c.aers.contains cid then
    let m := m.setCtl n.port.val { c with aers := c.aers.filter (fun x => x ≠ cid) }
    (m.nvmePost { n with qid := 0, cid := BitVec.ofNat 16 cid } 0x0 0x07 0 []).nvmeDone n St.ok (leBytes 4 0)
  else m.nvmeDone n St.ok (leBytes 4 1)

/-! ### Data structures (R491, R501, R505) -/

/-- n bytes whose contents the spec leaves to NVM Express and the implementation. -/
def openBytes (what n : Nat) : List Byte := (List.range n).map (fun i => Config.freeByte what 0 i)

/-- Fields put into a data structure at their offsets. -/
def withFields (b : List Byte) (fs : List (Nat × List Byte)) : List Byte := fs.foldl (fun b f => putAt b f.1 f.2) b

/-- Identify Controller: CMIC with two ports and two controllers, controller ID, 256 namespaces, Log Page attributes
and the rest as NVM Express has them. -/
def Mach.identifyCtl (m : Mach) (port : Nat) : List Byte :=
  withFields (openBytes 0x600 4096)
    [(4, sliceBytes Config.serial 0 16), (76, leBytes 1 3), (78, leBytes 2 (port + 1)), (516, leBytes 4 256),
     (525, leBytes 1 0), (526, leBytes 2 3)]

/-- Identify Namespace: size in blocks, capacity, LBA formats, sharing, and the vendor-specific bytes of R506. -/
def Ns.identify (x : Ns) : List Byte :=
  let n := x.nsze
  withFields (openBytes 0x601 4096)
    [(0, leBytes 8 n), (8, leBytes 8 n), (16, leBytes 8 (x.units.length * iuBytes x.iu / x.lba)), (25, leBytes 1 1),
     (26, leBytes 1 (if x.lba = 4096 then 0 else 1)), (30, leBytes 1 1),
     (34, leBytes 2 (iuBytes x.iu / x.lba - 1)), (36, leBytes 2 (iuBytes x.iu / x.lba - 1)),
     (128, leBytes 4 (12 * 65536)), (132, leBytes 4 (9 * 65536)),
     (3072, leBytes 1 x.iu), (3073, leBytes 1 x.kind), (3074, List.replicate 6 0), (3080, leBytes 8 x.key)]

/-- Identify by CNS: 0 a namespace, 1 the controller, 2 the list of attached namespaces above NSID, 16 the list of all
namespaces, 18 the controllers a namespace is attached to, 19 the controllers of the subsystem. -/
def Mach.identify (m : Mach) (n : NvmeCtx) (cns nsid : Nat) : Mach :=
  let ids (all : Bool) : List Byte :=
    sliceBytes ((m.ftl.nss.filter (fun p => nsid < p.1 && (all || p.2.attached.contains n.port.val))).flatMap
      (fun p => leBytes 4 p.1)) 0 4096
  match cns with
  | 0 | 17 =>
    match m.ns? nsid with
    | some x => m.nvmeDone n St.ok (if cns = 17 || x.attached.contains n.port.val then x.identify else List.replicate 4096 0)
    | none => m.nvmeErr n nvInvalidNs
  | 1 => m.nvmeDone n St.ok (m.identifyCtl n.port.val)
  | 2 => m.nvmeDone n St.ok (ids false)
  | 16 => m.nvmeDone n St.ok (ids true)
  | 18 =>
    match m.ns? nsid with
    | some x => m.nvmeDone n St.ok
        (sliceBytes (leBytes 2 x.attached.length ++ x.attached.flatMap (fun p => leBytes 2 (p + 1))) 0 4096)
    | none => m.nvmeErr n nvInvalidNs
  | 19 => m.nvmeDone n St.ok (sliceBytes (leBytes 2 2 ++ leBytes 2 1 ++ leBytes 2 2) 0 4096)
  | _ => m.nvmeDone n St.invalidField []

/-- Percent complete of a running operation. -/
def Mach.maintPercent (m : Mach) : Nat := match m.hif.maint with | some x => x.percent | none => 0

/-- A Format runs. -/
def Mach.formatRuns (m : Mach) : Bool :=
  match m.hif.maint with | some x => (match x.kind with | .format _ _ _ => true | _ => false) | none => false

/-- The contents of a log page (R505); none for a page the module has not. -/
def Mach.logPage (m : Mach) (port lid : Nat) : Option (List Byte) :=
  match lid with
  | 0x01 => some (((m.ctl port).errs.zipIdx).flatMap (fun e =>
      withFields (openBytes 0x602 64) [(8, leBytes 2 e.1.1), (10, leBytes 2 e.1.2.1),
        (12, leBytes 2 ((e.1.2.2.1 * 256 + e.1.2.2.2) * 2))]))
  | 0x02 => some (withFields (openBytes 0x603 512) [(0, leBytes 1 (8 * boolBit m.readOnly))])
  | 0x03 => some (withFields (openBytes 0x604 512)
      [(0, leBytes 1 (match m.boot.chosen with | some i => i + 1 | none => 0)),
       (8, leBytes 8 m.boot.slotA.image.version), (16, leBytes 8 m.boot.slotB.image.version),
       (24, leBytes 8 m.boot.toolRest.version)])
  | 0x05 => some (openBytes 0x605 4096)
  | 0x80 => some (openBytes 0x606 64)
  | 0x81 => some (withFields (openBytes 0x607 512)
      [(0, leBytes 2 (if m.hif.maint.isSome && !m.formatRuns then m.maintPercent * 65536 / 100 else 65535)),
       (2, leBytes 2 (if m.hif.maint.isSome && !m.formatRuns then 2 else if m.hif.sanFailed then 3
         else if m.hif.sanDone then 1 else 0))])
  | 0xC0 => some (m.evr.kept.flatMap (fun k => k.record.bytes))
  | 0xC1 => some (m.boot.measLog.flatMap MeasEntry.bytes)
  | 0xC2 => some (leBytes 2 (if m.formatRuns then m.maintPercent else 0) ++
      leBytes 1 (boolBit m.formatRuns + 2 * boolBit (m.formatRuns && (match m.hif.maint with | some x => x.resumed | none => false))))
  | _ => none

def Mach.getLog (m : Mach) (n : NvmeCtx) (lid off len : Nat) : Mach :=
  match m.logPage n.port.val lid with
  | some b => m.nvmeDone n St.ok ((b.drop off).take len)
  | none => m.nvmeErr n nvInvalidLogPage

/-! ### NVMe-MI (R507) -/

/-- NVMe-MI opcodes that are served: 0 Read NVMe-MI Data Structure, 1 Subsystem Health Status Poll, 2 Controller Health
Status Poll, 3 Configuration Set, 4 Configuration Get, 5 VPD Read. -/
def miServed (op : Nat) : Bool := op ≤ 5

/-- The response of an NVMe-MI command: status 0 and data that NVMe-MI defines, or Invalid Command Opcode (0x03).
Configuration Set takes only the SMBus frequency (1) and the MCTP unit (3); another identifier is Invalid Parameter. -/
def Mach.miResponse (m : Mach) (op arg : Nat) : Nat × List Byte :=
  match op with
  | 0 => (0, openBytes 0x610 32)
  | 1 => (0, withFields (openBytes 0x611 8) [])
  | 2 => (0, openBytes 0x612 16)
  | 3 => if arg = 1 || arg = 3 then (0, []) else (4, [])
  | 4 => if arg = 1 || arg = 3 then (0, leBytes 4 (mapGet (fun i => Config.freeNat 0x613 i % 2 ^ 32) (m.ctl 0).feats (0x1000 + arg)))
      else (4, [])
  | 5 => (0, openBytes 0x614 64)
  | _ => (3, [])

/-- The response goes back the way the command came: to a later NVMe-MI Receive, or over the management bus. -/
def Mach.miSend (m : Mach) (p : MiPath) (r : Nat × List Byte) : Mach :=
  match p with
  | .inBand n => (m.setCtl n.port.val { m.ctl n.port.val with mi := leBytes 1 r.1 ++ r.2 }).nvmeDone n St.ok []
  | .bus => m.send (.mgmt r.1 r.2)

/-- An NVMe-MI command by its path. -/
def Mach.miServe (m : Mach) (p : MiPath) (f : Mach → Mach) : Mach :=
  match p with
  | .inBand n => m.nvmeServe n .admin f
  | .bus =>
    let st := m.fld Reg.glbBootStatus 7 0
    if st = 8 || st = 0xFE then f m else m.send (.mgmt St.unitAbsent [])

def Mach.miRun (m : Mach) (p : MiPath) (op arg : Nat) : Mach := m.miServe p (fun m => m.miSend p (m.miResponse op arg))

/-- Configuration Set keeps the value (R507). -/
def Mach.miConfigSet (m : Mach) (p : MiPath) (arg val : Nat) : Mach :=
  m.miServe p (fun m =>
    let r := m.miResponse 3 arg
    let c := m.ctl 0
    let m := if r.1 = 0 then m.setCtl 0 { c with feats := mapSet c.feats (0x1000 + arg) (val % 2 ^ 32) } else m
    m.miSend p r)

/-- An NVMe-MI request over the management bus by its opcode, after boot (02 R59). -/
def Mach.nvmeMiReply (m : Mach) (op : Nat) : Mach := m.miSend .bus (m.miResponse op 1)

/-! ### Sanitize, Format and fuses (R503, R516 to R518) -/

def Mach.noJobs (m : Mach) : Bool := m.jobs.slots.isEmpty

/-- Units of some namespaces deallocated. -/
def Mach.eraseNs (m : Mach) (p : Nat → Bool) : Mach :=
  { m with ftl := { m.ftl with nss := m.ftl.nss.map (fun (x : Nat × Ns) =>
    if p x.1 then (x.1, { x.2 with units := [], data := [] }) else x) } }

/-- A Sanitize starts: refused while a job slot is held; a Crypto Erase replaces the media key before the first progress
record, so nothing stored is readable from then on. -/
def Mach.sanitizeStart (m : Mach) (n : NvmeCtx) (k : MaintKind) : Mach :=
  if !m.noJobs then m.nvmeErr n nvSequence
  else
    let m := m.journalPage
    let m := match k with
      | .cryptoErase => ({ m with ftl := { m.ftl with mediaKey := m.ftl.mediaKey + 1 } }).eraseNs (fun _ => true)
      | _ => m
    let m := { m with hif := { m.hif with maint := some ⟨k, 0, false, none⟩, sanFailed := false } }
    m.nvmeDone n St.ok []

/-- Format NVM starts; its completion comes at its end. -/
def Mach.formatStart (m : Mach) (n : NvmeCtx) (nsid ses lbaf : Nat) : Mach :=
  if 2 < ses || 1 < lbaf then m.nvmeDone n St.invalidField []
  else if !m.noJobs then m.nvmeErr n nvSequence
  else if nsid ≠ 0xFFFFFFFF && (m.ns? nsid).isNone then m.nvmeErr n nvInvalidNs
  else { m with hif := { m.hif with maint := some ⟨.format nsid ses (if lbaf = 0 then 4096 else 512), 0, false, some n⟩ } }

/-- Exit Failure Mode. -/
def Mach.exitFailure (m : Mach) (n : NvmeCtx) : Mach :=
  ({ m with hif := { m.hif with sanFailed := false } }).nvmeDone n St.ok []

/-- A Sanitize ends: user blocks erased, or the sanitize failure mode. Seals of cache namespaces lift (10 R377). -/
def Mach.sanitizeEnd (m : Mach) (ok : Bool) : Mach :=
  match m.hif.maint with
  | some x =>
    if m.formatRuns then m
    else if !ok then { m with hif := { m.hif with maint := none, sanFailed := true } }
    else
      let m := m.eraseNs (fun _ => true)
      let free (b : SBlk) : SBlk := if b.state = .free then b else { b with state := .free, used := 0, pe := b.pe + 1, bias := 0 }
      let m := { m with
        ftl := { m.ftl with
          nss := m.ftl.nss.map (fun (p : Nat × Ns) => (p.1, { p.2 with sealedBy := none })),
          queued := [], sinceCkpt := 0,
          sbs := if x.kind = .blockErase then m.ftl.sbs.map (fun (p : Nat × SBlk) => (p.1, free p.2)) else m.ftl.sbs }
        hif := { m.hif with maint := none, sanDone := true } }
      m
  | none => m

/-- A Format ends (R517): units deallocated, the LBA format changed, a seal lifted. -/
def Mach.formatEnd (m : Mach) : Mach :=
  match m.hif.maint with
  | some x =>
    match x.kind with
    | .format nsid _ lba =>
      let hit (i : Nat) : Bool := nsid = 0xFFFFFFFF || i = nsid
      let m := m.eraseNs hit
      let m := { m with
        ftl := { m.ftl with nss := m.ftl.nss.map (fun (p : Nat × Ns) =>
          if hit p.1 then (p.1, { p.2 with nsze := p.2.nsze * p.2.lba / lba, lba := lba, sealedBy := none }) else p) }
        hif := { m.hif with maint := none } }
      match x.done with
      | some n => m.nvmeDone n St.ok []
      | none => m
    | _ => m
  | none => m

/-- Raise Security Version (R97, R503). -/
def Mach.raiseSvn (m : Mach) (n : NvmeCtx) (tr : Bool) (val : Nat) : Mach :=
  let b := m.boot
  let old := if tr then b.trMinSvn else b.fwMinSvn
  let confirmed (s : Slot) : Bool := s.state = .confirmed && s.image.svn = val
  let ok := if tr then decide (old ≤ val) && decide (val ≤ 16) && decide (val ≤ b.toolRest.svn) &&
      (imageCheck b 2 b.toolRest).isNone
    else decide (old < val) && decide (val ≤ 64) && (confirmed b.slotA || confirmed b.slotB)
  if val = old then m.nvmeDone n St.ok []
  else if ok then
    let m := { m with boot := if tr then { b with trMinSvn := val } else { b with fwMinSvn := val } }
    (m.record 0x00A2 (sourceOf 12 0) St.ok (payloadOf [(1, boolBit tr), (1, old), (1, val), (1, 0)])).nvmeDone n St.ok []
  else m.nvmeDone n St.invalidField []

end Sys2Proof.Machine
end

