-- ==== Sys2Proof/Machine/PipeOps.lean ====
section
/-!
DEFINITION. Pipeline queues: their rings, doorbells, entries and completions, and administrative ownership
(14 R513 to R515, R521 to R523).
-/
namespace Sys2Proof.Machine

def Mach.pipeQ (m : Mach) (p q : Nat) : Option PipeQ := mapFind (m.port p).pipes q

def Mach.setPipe (m : Mach) (p q : Nat) (x : PipeQ) : Mach :=
  m.setPort p { m.port p with pipes := mapSet (m.port p).pipes q x }

/-- Create Pipeline Queue (R521). -/
def Mach.createPipe (m : Mach) (n : NvmeCtx) (q sqLog cqLog vector : Nat) (ien : Bool) (sqBase cqBase : Nat) : Mach :=
  let p := n.port.val
  let bad := 511 < q || sqLog < 4 || 12 < sqLog || cqLog < 4 || 12 < cqLog || 263 < vector || sqBase % 4096 ≠ 0 ||
    cqBase % 4096 ≠ 0 || (m.pipeQ p q).isSome
  if bad then m.nvmeDone n St.invalidField []
  else
    let m := { m with hif := { m.hif with made := m.hif.made + 1 } }
    (m.setPipe p q { serial := m.hif.made, sqLog := sqLog, cqLog := cqLog, vector := vector, ien := ien, sqBase := sqBase,
                     cqBase := cqBase, sqHead := 0, sqTail := 0, posted := 0, cqHead := 0, started := [],
                     waiting := [] }).nvmeDone n St.ok []

/-- Delete Pipeline Queue (R521): entries not started are dropped, and no completion is posted any more. -/
def Mach.deletePipe (m : Mach) (n : NvmeCtx) (q : Nat) : Mach :=
  let p := n.port.val
  match m.pipeQ p q with
  | some _ => (m.setPort p { m.port p with pipes := mapErase (m.port p).pipes q }).nvmeDone n St.ok []
  | none => m.nvmeDone n St.invalidField []

/-- Window-2 offset of a doorbell page (R522). -/
def doorbell (p q : Nat) : Nat := 0x400000 + (p * 512 + q) * 0x1000

/-- A doorbell write discarded: DB_ERR of the writing port and one record. -/
def Mach.dbError (m : Mach) (by_ p q off val reason : Nat) : Mach :=
  (m.addFld (Reg.hifDbErr by_) 31 0 1).rejected (sourceOf 7 by_) (doorbell p q + off) val reason

/-- SQ_TAIL written by a port to the page of queue q of port p (R522). -/
def Mach.sqTail (m : Mach) (by_ p q tail : Nat) : Mach :=
  if by_ ≠ p then m.dbError by_ p q 0 tail 2
  else
    match m.pipeQ p q with
    | none => m.dbError by_ p q 0 tail 4
    | some x =>
      let size := 2 ^ x.sqLog
      let used := (x.sqTail + size - x.sqHead) % size
      let adv := (tail + size - x.sqTail) % size
      if size ≤ tail || size - 1 < used + adv then m.dbError by_ p q 0 tail 3
      else m.setPipe p q { x with sqTail := tail }

/-- The completion ring has room. -/
def PipeQ.room (x : PipeQ) : Bool := (x.posted + 1) % 2 ^ x.cqLog ≠ x.cqHead

/-- A completion entry written to the ring. -/
def Mach.pipeWrite (m : Mach) (p q : Nat) (x : PipeQ) (c : PipeCpl) : Mach :=
  (m.setPipe p q { x with posted := x.posted + 1 }).send
    (.pipe p q c.result x.sqHead c.cid c.status (x.posted / 2 ^ x.cqLog % 2 = 0) c.fin)

/-- A completion posted, or kept until the ring has room (R523). -/
def Mach.pipePost (m : Mach) (p q : Nat) (c : PipeCpl) : Mach :=
  match m.pipeQ p q with
  | some x => if x.room && x.waiting.isEmpty then m.pipeWrite p q x c
      else m.setPipe p q { x with waiting := x.waiting ++ [c] }
  | none => m

/-- Waiting completions posted while there is room; fuel counts them. -/
def Mach.pipeServe : Nat → Mach → Nat → Nat → Mach
  | 0, m, _, _ => m
  | n + 1, m, p, q =>
    match m.pipeQ p q with
    | some x =>
      match x.waiting with
      | c :: r => if x.room then Mach.pipeServe n (m.pipeWrite p q { x with waiting := r } c) p q else m
      | [] => m
    | none => m

/-- CQ_HEAD written (R522). -/
def Mach.cqHead (m : Mach) (by_ p q head : Nat) : Mach :=
  if by_ ≠ p then m.dbError by_ p q 4 head 2
  else
    match m.pipeQ p q with
    | none => m.dbError by_ p q 4 head 4
    | some x =>
      if 2 ^ x.cqLog ≤ head then m.dbError by_ p q 4 head 3
      else (m.setPipe p q { x with cqHead := head }).pipeServe x.waiting.length p q

/-- Entries are fetched: the module is READY, does not quiesce, and no Sanitize or Format runs (R518, R519). -/
def Mach.fetches (m : Mach) : Bool := m.ready && m.power.quiesce = .none && m.hif.maint.isNone

/-- The entry of a context is taken (R523): its queue holds one, and FENCE waits for every earlier one. -/
def Mach.pipeTake (m : Mach) (c : PipeCtx) (f : Nat → Mach → Mach) : Mach :=
  let p := c.port.val
  let q := c.q.val
  match m.pipeQ p q with
  | some x =>
    if m.fetches && x.sqHead ≠ x.sqTail && (!c.fence || x.started.isEmpty) then
      f x.serial (m.setPipe p q { x with sqHead := (x.sqHead + 1) % 2 ^ x.sqLog, started := x.started ++ [c.cid.toNat] })
    else m
  | none => m

/-- The entry of a context completes: RESULT and STATUS, unless its queue has been deleted since. -/
def Mach.pipeDone (m : Mach) (p q cid serial result status : Nat) : Mach :=
  match m.pipeQ p q with
  | some x =>
    if x.serial = serial then
      ((m.setPipe p q { x with started := x.started.erase cid }).countDenied status).pipePost p q ⟨result, cid, status, false⟩
    else m
  | none => m

/-- A second completion with END (R524). -/
def Mach.pipeEnd (m : Mach) (p q cid serial result status : Nat) : Mach :=
  match m.pipeQ p q with
  | some x => if x.serial = serial then m.pipePost p q ⟨result, cid, status, true⟩ else m
  | none => m

/-- An entry that completes as soon as it is taken, with what f answers. -/
def Mach.pipeNow (m : Mach) (c : PipeCtx) (f : Mach → Nat × Nat × Mach) : Mach :=
  m.pipeTake c (fun serial m =>
    let r := f m
    r.2.2.pipeDone c.port.val c.q.val c.cid.toNat serial r.1 r.2.1)

/-! ### Administrative ownership (R513 to R515) -/

/-- Ownership moves: CHANGED, a record, and the new owner. -/
def Mach.moveOwner (m : Mach) (to_ how : Nat) : Mach :=
  let old := m.hif.owner
  let m := ({ m with hif := { m.hif with owner := to_ } }).setBit Reg.hifAdmin 1 true
  m.record 0x00A1 (sourceOf 7 to_) St.ok (payloadOf [(1, old), (1, to_), (1, how), (1, 0)])

/-- HANDOVER written by a port; a CLAIM of the other port in the same cycle is discarded (R514, R515). -/
def Mach.handover (m : Mach) (p : Nat) (claimToo : Bool) : Mach :=
  let m := if claimToo then m.rejected (sourceOf 7 (1 - p)) Reg.hifAdmin 16 4 else m
  if p = m.hif.owner then m.moveOwner (1 - p) 1 else m.rejected (sourceOf 7 p) Reg.hifAdmin 32 2

/-- CLAIM written by the other port: the owner's link has been down or its PERSTn# asserted for at least 10 s. -/
def Mach.claim (m : Mach) (p : Nat) : Mach :=
  let ok : Bool := match (m.port m.hif.owner).downSince with
    | some t => decide (t + 10 ^ 10 ≤ m.spn.count)
    | none => false
  if p ≠ m.hif.owner && ok then m.moveOwner p 2 else m.rejected (sourceOf 7 p) Reg.hifAdmin 16 4

end Sys2Proof.Machine
end

