-- ==== Sys2Proof/Machine/RasBase.lean ====
section
/-!
DEFINITION. The spare of a cluster takes over (04 R155, 17 R601).
-/
namespace Sys2Proof.Machine

/-- The tiles of a cluster whose duty waits for the spare. -/
def Mach.dueTiles (m : Mach) (c : Nat) : List Nat :=
  ((List.range 16).map (fun i => c * 16 + i)).filter (fun t => (m.tile t).handoverDue)

/-- The spare takes over the duty of the first retired tile that waits; the duty of any other becomes vacant. -/
def Mach.takeover (m : Mach) (c : Nat) : Mach :=
  match m.dueTiles c with
  | t :: rest =>
    let x := m.tile t
    let sp := c * 16 + 15
    let y := m.tile sp
    let m := (t :: rest).foldl (fun m k => m.setTile k { m.tile k with handoverDue := false, dutyOf := none }) m
    if y.role = .spare then m.setTile sp { y with role := .onDuty, dutyOf := x.dutyOf } else m
  | [] => m

end Sys2Proof.Machine
end

