-- ==== Sys2Proof/Machine/TableOps.lean ====
section
/-!
DEFINITION. Automata, grammars and stop sets of a table set, and the rules that acceptance checks every table by
(11 R380, R393 to R399).
-/
namespace Sys2Proof.Machine

/-! ### Automata, grammars and stop sets (R393, R395, R399) -/

def autoStates (t : List Byte) : Nat := leAt t 8 4
def autoStart (t : List Byte) : Nat := leAt t 0x0C 4
/-- Bit s of the accept bitmap. -/
def autoAccepts (t : List Byte) (s : Nat) : Bool := bitAt (leAt t (leAt t 0x28 8 + s / 8) 1) (s % 8)
def autoOf (t : List Byte) : Automaton := automatonAt (fun o n => sliceBytes t o n) 0 (bitAt (leAt t 6 1) 0)

/-- An automaton table keeps R393 and R394; the return table has rets entries. -/
def autoCore (t : List Byte) (rets : Nat) : Bool :=
  let n := autoStates t
  let cl := leAt t 7 1 + 1
  let pd := bitAt (leAt t 6 1) 0
  tableIs t magicAuto && leAt t 6 1 < 2 && 2 ≤ n && n ≤ 2 ^ 24 && 1 ≤ autoStart t && autoStart t < n && zeroAt t 0x30 16 &&
    (List.range 256).all (fun b => leAt t (0x40 + b) 1 < cl) && leAt t 0x18 8 + 8 * n * cl ≤ t.length &&
    leAt t 0x20 8 + 4 * rets ≤ t.length && leAt t 0x28 8 + (n + 7) / 8 ≤ t.length &&
    (List.range (n * cl)).all (fun i =>
      let e := leAt t (leAt t 0x18 8 + 8 * i) 8
      let op := bitsOf e 25 24
      e % 2 ^ 24 < n && bitsOf e 31 26 = 0 && e / 2 ^ 48 = 0 && op ≠ 3 && (pd || op = 0) &&
        (op ≠ 1 || bitsOf e 47 32 < rets)) &&
    (List.range rets).all (fun x => bitsOf (leAt t (leAt t 0x20 8 + 4 * x) 4) 23 0 < n)

def autoOk (t : List Byte) : Bool := autoCore t (leAt t 0x10 4) && leAt t 0x10 4 ≤ 65536 && zeroAt t 0x14 4

/-- State information of a stop set: DEPTH, MATCH_LEN, MATCH_IDX. -/
def stopInfo (t : List Byte) (s : Nat) : Nat := leAt t (leAt t 0x10 8 + 4 * s) 4

def stopOk (t : List Byte) : Bool :=
  autoCore t 0 && leAt t 6 1 = 0 && leAt t 0x10 8 + 4 * autoStates t ≤ t.length &&
    (List.range (autoStates t)).all (fun s =>
      let i := stopInfo t s
      bitsOf i 7 0 ≤ 63 && bitsOf i 15 8 ≤ 64 && i / 2 ^ 20 = 0)

/-- The token at a position of a grammar's order, and the position of a token. -/
def gramToken (t : List Byte) (q : Nat) : Nat := leAt t (leAt t 0x10 8 + 4 * q) 4
def gramPos (t : List Byte) (id : Nat) : Nat := leAt t (leAt t 0x18 8 + 4 * id) 4
/-- The state entry: fixed ranges and candidates. -/
def gramEntry (t : List Byte) (s : Nat) : List Byte := sliceBytes t (leAt t 0x20 8 + 16 * s) 16
def gramCands (t : List Byte) (s : Nat) : List Nat :=
  let e := gramEntry t s
  (List.range (leAt e 10 2)).map (fun i => leAt t (leAt e 6 4 + 4 * i) 4)

/-- An unsigned LEB128 integer at the head of some bytes; fuel bounds its length. -/
def leb128 : Nat → List Byte → Nat × List Byte
  | 0, l => (0, l)
  | _, [] => (0, [])
  | n + 1, b :: r => if b.toNat < 128 then (b.toNat, r) else let x := leb128 n r; (b.toNat - 128 + 128 * x.1, x.2)

/-- Ranges read from their encoding: first position and length of each (R398). -/
def rangesOf : Nat → Nat → List Byte → List (Nat × Nat)
  | 0, _, _ => []
  | _, _, [] => []
  | n + 1, pos, l =>
    let g := leb128 10 l
    let k := leb128 10 g.2
    (pos + g.1, k.1) :: rangesOf n (pos + g.1 + k.1) k.2

/-- The fixed ranges of a state. -/
def gramAlways (t : List Byte) (s : Nat) : List (Nat × Nat) :=
  let e := gramEntry t s
  let b := sliceBytes t (leAt e 0 4) (leAt e 4 2)
  rangesOf b.length 0 b

def gramOk (ts : List (List Byte)) (t : List Byte) : Bool :=
  let a := tableAt ts (leAt t 6 2)
  let v := leAt t 8 4
  let n := autoStates a
  tableIs t magicGrammar && autoOk a && leAt a 6 1 = 1 && zeroAt t 0x0C 4 && zeroAt t 0x28 24 &&
    leAt t 0x10 8 + 4 * v ≤ t.length && leAt t 0x18 8 + 4 * v ≤ t.length && leAt t 0x20 8 + 16 * n ≤ t.length &&
    (List.range v).all (fun q => gramToken t q < v && gramPos t (gramToken t q) = q) &&
    (List.range n).all (fun s =>
      let e := gramEntry t s
      leAt e 0 4 + leAt e 4 2 ≤ t.length && leAt e 6 4 + 4 * leAt e 10 2 ≤ t.length && zeroAt e 12 4 &&
        (gramAlways t s).all (fun r => 1 ≤ r.2 && r.1 + r.2 ≤ v) &&
        (gramCands t s).all (fun id => id < v) && decide ((gramCands t s).Pairwise (fun a b => gramPos t a < gramPos t b)))

/-- A table of this chapter keeps its rules; other tables are job code's own. -/
def tableOk (ts : List (List Byte)) (t : List Byte) : Bool :=
  match leAt t 0 4 with
  | 0x42434F56 => vocabOk ts t
  | 0x5347524D => mergeOk t (2 ^ 18)
  | 0x54535250 => splitOk t
  | 0x4C435053 => specialsOk t
  | 0x43464E4E => nfcOk t
  | 0x4D545541 => autoOk t || stopOk t
  | 0x4D524147 => gramOk ts t
  | _ => true

end Sys2Proof.Machine
end

