-- ==== Sys2Proof/Machine/ImageOps.lean ====
section
/-!
DEFINITION. The job image: its sections read, and the checks of acceptance that the image alone decides
(08 R278 to R282, R289, R293, R299, R302, R311, 09 R334, R344, 10 R379, 12 R439).
-/
namespace Sys2Proof.Machine

/-- A range lies in the host area (07 R626). -/
def Mach.inHost (m : Mach) (a n : Nat) : Bool := a + n ≤ m.fld Reg.memHostLimit 47 0

/-- The status of a range that a queue entry names and that must lie in the host area (14 R526, R527): a value with any of
bits [63:48] set is reserved (01 R48), and is judged as that alone. -/
def Mach.areaStatus (m : Mach) (a n : Nat) : Nat :=
  if 2 ^ 48 ≤ a then St.invalidField else if m.inHost a n then St.ok else St.bounds

/-- An image as stored: its bytes of the header, its section table and its sections. -/
structure RawImage where
  hdr : List Byte
  table : List (List Byte)
  bytes : List Byte
deriving DecidableEq, Repr

/-- The image at an address. -/
def Mach.rawImage (v : Variant) (m : Mach) (addr len : Nat) : RawImage :=
  let b := m.devRead v addr len
  ⟨b.take 64, (List.range (leAt b 0x36 2)).map (fun n => sliceBytes b (0x40 + 32 * n) 32), b⟩

/-- Sections of a type: INSTANCE and bytes. -/
def RawImage.secs (r : RawImage) (typ : Nat) : List (Nat × List Byte) :=
  (r.table.filter (fun e => leAt e 0 2 = typ)).map (fun e => (leAt e 2 2, sliceBytes r.bytes (leAt e 8 8) (leAt e 0x10 8)))

/-- The section of a type, empty where the image has none. -/
def RawImage.sec (r : RawImage) (typ : Nat) : List Byte := ((r.secs typ).map (fun s => s.2)).headD []

/-- A list of records of n bytes. -/
def chunks (n : Nat) (b : List Byte) : List (List Byte) := (List.range (b.length / n)).map (fun i => sliceBytes b (i * n) n)

def shardSpec (b : List Byte) : ShardSpec :=
  ⟨leAt b 0 4, leAt b 4 2, bitAt (leAt b 6 2) 0, leAt b 8 8, leAt b 0x10 8, leAt b 0x18 8, leAt b 0x20 8⟩

def batchSpec (b : List Byte) : BatchSpec :=
  ⟨leAt b 0 1 = 1, leAt b 1 1, leAt b 2 1, leAt b 4 4, leAt b 8 4, leAt b 0x20 8, leAt b 0x28 4,
    (List.range 4).map (fun k => leAt b (0x10 + 4 * k) 4)⟩

def chanSpec (b : List Byte) : ChanSpec :=
  ⟨leAt b 0 1, leAt b 1 1 = 0, leAt b 2 1, leAt b 3 1, leAt b 4 4, leAt b 8 8, leAt b 0x10 8, leAt b 0x18 4,
    leAt b 0x20 8, leAt b 0x28 8, leAt b 0x30 8, leAt b 0x38 8⟩

/-- POLICIES; an absent section is every field 0 (R279), and SUBST_LIMIT 0 means 65,536 (R289). -/
def policySpec (b : List Byte) : PolicySpec :=
  let k := leAt b 4 4
  ⟨leAt b 0 1 = 1, leAt b 1 1 = 1, leAt b 2 1 = 1, leAt b 3 1, if k = 0 then 65536 else k⟩

def augSpec (b : List Byte) : AugSpec :=
  let f (o n : Nat) : List Nat := (List.range n).map (fun k => leAt b (o + 4 * k) 4)
  ⟨leAt b 0 1, leAt b 1 1, leAt b 4 4, leAt b 8 8, leAt b 0x10 8, f 0x18 3, f 0x24 3, f 0x30 8⟩

def cacheSpec (b : List Byte) : CacheSpec :=
  ⟨sliceBytes b 0 16, leAt b 0x10 8, leAt b 0x18 4, leAt b 0x1C 1, leAt b 0x1D 1 = 1, leAt b 0x1E 1⟩

def optSec {α : Type} (f : List Byte → α) (b : List Byte) : Option α := if b.isEmpty then none else some (f b)

/-- The image as the control complex uses it. -/
def RawImage.parse (r : RawImage) : JobImage :=
  let h := r.hdr
  let first := leAt h 0x28 4
  let ep := leAt h 0x2C 4
  { signed := bitAt (leAt h 6 2) 0, seed := leAt h 0x10 16, n := leAt h 0x20 8, first := first,
    epochs := if ep = 0 then 2 ^ 32 - first else ep, shuffle := leAt h 0x30 1, blockLog := leAt h 0x31 1,
    l := leAt h 0x32 2, modules := leAt h 0x34 2, shards := (chunks 40 (r.sec 1)).map shardSpec,
    batch := optSec batchSpec (r.sec 4), chans := (chunks 64 (r.sec 5)).map chanSpec, policy := policySpec (r.sec 6),
    mbox := leAt (r.sec 7) 0 2, cnt := leAt (r.sec 7) 2 2, clusters := leAt (r.sec 7) 4 2, aug := optSec augSpec (r.sec 8),
    cache := optSec cacheSpec (r.sec 9), digest := shake256 r.bytes 32 }

/-! ### Batch layout (R300) -/

/-- A number rounded up to a multiple of 256. -/
def up256 (n : Nat) : Nat := (n + 255) / 256 * 256

/-- Bytes of an element. -/
def BatchSpec.elemSize (b : BatchSpec) : Nat := cvtWidth b.elem / 8

/-- Offsets of data, mask, segments, metadata and trailer; segments are absent for SAMPLE rows. -/
def BatchSpec.dataOff (_ : BatchSpec) : Nat := 256
def BatchSpec.maskOff (b : BatchSpec) : Nat := 256 + up256 (b.rows * b.elems * b.elemSize)
def BatchSpec.segOff (b : BatchSpec) : Nat := b.maskOff + up256 (if b.packed then b.rows * b.elems else b.rows)
def BatchSpec.metaOff (b : BatchSpec) : Nat := b.segOff + (if b.packed then up256 (b.rows * b.elems * 2) else 0)
def BatchSpec.trailOff (b : BatchSpec) : Nat := b.metaOff + up256 (b.rows * 32)
def BatchSpec.size (b : BatchSpec) : Nat := b.trailOff + 64

/-! ### Checks -/

/-- Two extents are apart. -/
def apart (a b : Nat × Nat) : Bool := !overlap a.1 a.2 b.1 b.2

def headerOk (h : List Byte) (len : Nat) : Bool :=
  let sh := leAt h 0x30 1
  let bl := leAt h 0x31 1
  leAt h 0 4 = 0x424F4A59 && leAt h 4 2 = 1 && leAt h 6 2 < 2 && leAt h 8 8 = len && 4096 ≤ len && len ≤ 2 ^ 34 &&
    1 ≤ leAt h 0x20 8 && leAt h 0x20 8 ≤ 2 ^ 48 && sh ≤ 2 && (if sh = 1 then 1 ≤ bl && bl ≤ 24 else bl = 0) &&
    1 ≤ leAt h 0x34 2 && leAt h 0x34 2 ≤ 1024 && 1 ≤ leAt h 0x36 2 && leAt h 0x36 2 ≤ 64 && zeroAt h 0x38 8 &&
    leAt h 0x28 4 + leAt h 0x2C 4 ≤ 2 ^ 32

/-- Section entries: offsets, extents and reserved fields (R278), counts and INSTANCE rules (R279). -/
def RawImage.tableOk (r : RawImage) (signed ordered : Bool) : Bool :=
  let cnt (t : Nat) : Nat := (r.secs t).length
  let code : List Nat := (r.secs 2).map (fun s => s.1)
  r.table.all (fun e => zeroAt e 4 4 && zeroAt e 0x18 8 && leAt e 8 8 % 64 = 0 &&
      leAt e 8 8 + leAt e 0x10 8 ≤ r.bytes.length && [1, 2, 3, 4, 5, 6, 7, 8, 9, 10, 0xFF].contains (leAt e 0 2) &&
      (leAt e 0 2 = 2 || leAt e 2 2 = 0)) &&
    decide ((r.table.map (fun e => (leAt e 8 8, leAt e 0x10 8))).Pairwise (fun a b => apart a b)) &&
    cnt 1 = 1 && cnt 5 = 1 && cnt 10 = 1 && 1 ≤ cnt 2 && cnt 2 ≤ 1024 && decide code.Nodup && code.all (fun i => i < cnt 2) &&
    cnt 3 ≤ 1 && cnt 4 ≤ 1 && (!ordered || cnt 4 = 1) && cnt 6 ≤ 1 && cnt 7 ≤ 1 && cnt 8 ≤ 1 && cnt 9 ≤ 1 &&
    cnt 0xFF = boolBit signed

def shardsOk (b : List Byte) (n modules : Nat) : Bool :=
  let cs := chunks 40 b
  let sp := cs.map shardSpec
  b.length % 40 = 0 && 1 ≤ cs.length && cs.length ≤ 2 ^ 20 && cs.all (fun c => leAt c 6 2 < 2) &&
    sp.all (fun s => s.owner < modules && 1 ≤ s.records && (s.enc || s.key = 0)) &&
    (sp.map (fun s => s.records)).sum = n &&
    (sp.zipIdx.all (fun x => x.1.first = ((sp.take x.2).map (fun s => s.records)).sum))

/-- BATCH; narrow tells whether every vocabulary of the job has at most 65,536 tokens. -/
def batchOk (b : List Byte) (narrow : Bool) : Bool :=
  let s := batchSpec b
  b.length = 64 && leAt b 0 1 ≤ 1 && s.elem ≤ 10 && (!s.packed || s.elem = 7 || s.elem = 10 || (s.elem = 9 && narrow)) &&
    (if s.packed then s.split ≤ 2 else s.split = 0) && zeroAt b 3 1 && 1 ≤ s.rows && s.rows ≤ 65536 && 1 ≤ s.elems &&
    s.elems ≤ 2 ^ 24 && s.elems = leAt b 0x10 4 * leAt b 0x14 4 * leAt b 0x18 4 * leAt b 0x1C 4 && leAt b 0x0C 4 ≤ 1024 &&
    zeroAt b 0x2C 20

/-- CHANNELS with the bytes of a batch (R302, 12 R439); an address has 48 bits (01 R48). -/
def channelsOk (b : List Byte) (size : Nat) : Bool :=
  let raw := chunks 64 b
  let cs := raw.map chanSpec
  let ord := cs.all (fun c => c.ordered)
  let lead := (cs.map (fun c => c.lead)).headD 0
  b.length % 64 = 0 && 1 ≤ cs.length && raw.all (fun c => leAt c 1 1 ≤ 1 && zeroAt c 0x1C 4) &&
    cs.all (fun c => c.kind ≤ 4 && c.dest ≤ 3 && c.addr < 2 ^ 48) &&
    (if ord then
      cs.length ≤ 64 && cs.all (fun c => 1 ≤ c.depth && c.depth ≤ 64 && c.depth ≤ c.slots && size ≤ c.slotBytes &&
        1000 ≤ c.period && c.lead = lead && c.lead + c.offset + c.period < 2 ^ 62)
    else cs.length ≤ 4 && cs.all (fun c => !c.ordered && c.depth = 0))

def policiesOk (b : List Byte) : Bool :=
  b.isEmpty || (b.length = 64 && leAt b 0 1 ≤ 1 && leAt b 1 1 ≤ 1 && leAt b 2 1 ≤ 1 && leAt b 3 1 ≤ 2 && zeroAt b 8 56)

def resourcesOk (v : Variant) (b : List Byte) : Bool :=
  b.isEmpty || (b.length = 16 && leAt b 0 2 ≤ 2048 && leAt b 2 2 ≤ 4096 && leAt b 4 2 ≤ clusterCount v && zeroAt b 6 10)

/-- The order of FP32 values that are not negative follows their bits; −0 counts as 0. None for any other value. -/
def nonNeg32 (b : Nat) : Option Nat := if b = 0x80000000 then some 0 else if b < 0x7F800000 then some b else none

/-- AUGMENT (09 R334). -/
def augOk (m : Mach) (b : List Byte) (addr len n modules : Nat) : Bool :=
  let f (i : Nat) : Option Nat := nonNeg32 (leAt b (0x30 + 4 * i) 4)
  let a := augSpec b
  let one := 0x3F800000
  let draw : Bool := match f 0, f 1, f 2, f 3, f 4, f 5, f 6, f 7 with
    | some smin, some smax, some rmin, some rmax, some p, some jb, some jc, some js =>
      decide (0 < smin ∧ smin ≤ smax ∧ smax ≤ one ∧ 0 < rmin ∧ rmin ≤ rmax ∧ p ≤ one ∧ jb < one ∧ jc < one ∧ js < one)
    | _, _, _, _, _, _, _, _ => false
  b.isEmpty || (b.length = 96 && a.source ≤ 2 && leAt b 1 1 ≤ 1 && zeroAt b 2 2 && zeroAt b 0x50 16 &&
    (if a.source = 0 then
      1 ≤ a.ringEpochs && a.ringEpochs ≤ 4 && a.ringAddr % 4096 = 0 && a.slotBytes % 4096 = 0 &&
        (n + modules - 1) / modules * 32 ≤ a.slotBytes && m.inHost a.ringAddr (a.ringEpochs * a.slotBytes) &&
        !overlap a.ringAddr (a.ringEpochs * a.slotBytes) addr len
    else a.ringEpochs = 0 && a.ringAddr = 0 && a.slotBytes = 0) &&
    (if a.source = 1 then draw else zeroAt b 0x30 32))

/-- CACHE (09 R344): a named flash tier is a cache namespace. -/
def cacheOk (m : Mach) (b : List Byte) : Bool :=
  let c := cacheSpec b
  b.isEmpty || (b.length = 64 && c.gddrBytes % 2 ^ 22 = 0 && 2 ^ 22 ≤ c.gddrBytes && c.gddrBytes ≤ 2 ^ 35 && c.point ≤ 1 &&
    leAt b 0x1D 1 ≤ 1 && 1 ≤ c.replicas && c.replicas ≤ 3 && zeroAt b 0x1F 33 &&
    (c.nsid = 0 || match m.ns? c.nsid with | some x => x.kind = 1 | none => false))

/-- SIGNATURE (10 R379): form; and its verification over the image with the section's bytes replaced by 0. -/
def signatureFormOk (b : List Byte) : Bool :=
  b.isEmpty || (b.length = 5312 && leAt b 0 2 = 1 && zeroAt b 2 14 && zeroAt b 0x149D 35)

def RawImage.signedMessage (r : RawImage) : List Byte :=
  match r.table.find? (fun e => leAt e 0 2 = 0xFF) with
  | some e => putAt r.bytes (leAt e 8 8) (List.replicate (leAt e 0x10 8) 0)
  | none => r.bytes

def RawImage.signatureValid (r : RawImage) : Bool :=
  let s := r.sec 0xFF
  Config.mldsaVerify (sliceBytes s 0x10 1952) (shake256 r.signedMessage 64) (sliceBytes s 0x7B0 3309)

/-- The signer of an image (R379). -/
def RawImage.signer (r : RawImage) : List Byte := shake256 (sliceBytes (r.sec 0xFF) 0x10 1952) 32

/-- Every shard that module index k owns names a data namespace that exists here (R282). -/
def ownShardsOk (m : Mach) (i : JobImage) (k : Nat) : Bool :=
  i.shards.all (fun s => s.owner ≠ k || match m.ns? s.nsid with | some x => x.kind = 0 | none => false)

/-- The checks with ST_INVALID_FIELD, but for L (R280); DIM3 is 1 where the image has an AUGMENT section (09 R334). -/
def Mach.imageDefined (v : Variant) (m : Mach) (r : RawImage) (addr len k : Nat) : Bool :=
  let i := r.parse
  let ts := Config.tableSet (r.sec 3)
  let plan := r.sec 10
  let tok := Config.planTokenise plan
  let narrow := tok.all (fun b => vocabTokens (tableAt ts (leAt b 0 2)) ≤ 65536)
  let ordered := i.chans.any (fun c => c.ordered)
  headerOk r.hdr len && r.tableOk i.signed ordered && shardsOk (r.sec 1) i.n i.modules &&
    ((r.sec 4).isEmpty || (batchOk (r.sec 4) narrow && ((r.sec 8).isEmpty || leAt (r.sec 4) 0x1C 4 = 1))) &&
    channelsOk (r.sec 5) (match i.batch with | some b => b.size | none => 0) && policiesOk (r.sec 6) &&
    resourcesOk v (r.sec 7) && augOk m (r.sec 8) addr len i.n i.modules && cacheOk m (r.sec 9) &&
    signatureFormOk (r.sec 0xFF) && ts.all (tableOk ts) && (Config.planDecode plan).all decodeOptsOk &&
    tok.all (tokeniseOptsOk ts) && ownShardsOk m i k &&
    i.chans.all (fun c => c.dest ≠ 3 || (m.ns? c.node).isSome)

end Sys2Proof.Machine
end

