-- ==== Sys2Proof/Machine/RowOps.lean ====
section
/-!
DEFINITION. Lanes, rows and batches: substitution, packing, the segments of epochs, and the bytes of a batch
(08 R283, R290 to R301, R307).
-/
namespace Sys2Proof.Machine

/-- One move of a lane: its next place filled, a reserve passed over, or nothing while the sample is not known (R290 to
R292). The second part tells of a substitution made; the third is a status that fails the job. -/
def Job.laneMove (x : Job) (i : JobImage) (n now : Nat) (s : Lane) : Option (Lane × Option (Nat × Bool) × Nat) :=
  let s := x.laneEpoch i n s
  if i.epochs ≤ s.e || x.count i n ≤ s.t then none
  else
    let ep := i.first + s.e
    let p := lanePos x.modules x.m x.l n s.t
    let item (sm : Nat) (rs : Option Nat) (md : Bool) (out : List Byte) : Item := ⟨ep, p, sm, rs, md, out, now⟩
    let substitute (md : Bool) : Option (Lane × Option (Nat × Bool) × Nat) :=
      let j := x.m + x.modules * (n + x.l * s.q)
      if i.policy.limit ≤ s.q then some (s, none, St.checkFail)
      else
        match x.result ep (i.n + j) with
        | none => none
        | some (.good out) =>
          some ({ s with t := s.t + 1, q := s.q + 1, media := false,
                         items := s.items ++ [item (reserveAt i ep j) (some j) (md || s.media) out] },
            some (j, md || s.media), St.ok)
        | some .corrupt => some ({ s with q := s.q + 1 }, none, St.ok)
        | some .media => some ({ s with q := s.q + 1, media := true }, none, St.ok)
    match x.result ep p with
    | none => none
    | some (.good out) =>
      some ({ s with t := s.t + 1, items := s.items ++ [item (sampleAt i ep p) none false out] }, none, St.ok)
    | some .corrupt => substitute false
    | some .media => substitute true

/-! ### Rows of a lane -/

/-- A part of a row: the item, its elements taken from one place on, and whether it was cut to a row (R296). -/
structure RowPart where
  item : Item
  start : Nat
  len : Nat
  trunc : Bool
deriving DecidableEq, Repr

/-- Elements that the parts of a row take. -/
def partsLen (l : List RowPart) : Nat := (l.map (fun p => p.len)).sum

/-- The packing of a lane: rows closed, and the open row. -/
structure Packing where
  rows : List (List RowPart)
  row : List RowPart
deriving DecidableEq, Repr

/-- A document's elements go into the open row and the rows after it; fuel bounds the rows (R296). -/
def packParts (t : Nat) (it : Item) (trunc : Bool) : Nat → Nat → Nat → Packing → Packing
  | 0, _, _, k => k
  | f + 1, start, left, k =>
    if left = 0 then k
    else
      let take := min left (t - partsLen k.row)
      let row := k.row ++ [⟨it, start, take, trunc⟩]
      let k : Packing := if partsLen row = t then ⟨k.rows ++ [row], []⟩ else { k with row := row }
      packParts t it trunc f (start + take) (left - take) k

/-- Tokens of an item's output. -/
def Item.tokens (i : Item) : Nat := i.output.length / 4

/-- One document packed (R296). -/
def packDoc (b : BatchSpec) (k : Packing) (it : Item) : Packing :=
  let t := b.elems
  let d := it.tokens + (if b.sep = 0xFFFFFFFF then 0 else 1)
  let cut := b.split = 2 && decide (t < d)
  let d := if cut then t else d
  let k : Packing :=
    if b.split ≠ 0 && d ≤ t && t - partsLen k.row < d && !k.row.isEmpty then ⟨k.rows ++ [k.row], []⟩ else k
  packParts t it cut (d + 1) 0 d k

/-- The items of a lane in a segment: all of them under CARRY, those of one epoch otherwise. -/
def segItems (i : JobImage) (s : Lane) (k : Nat) : List Item :=
  if i.policy.tail = 0 then s.items else s.items.filter (fun x => x.epoch = i.first + k)

/-- A lane has filled every place of a segment. -/
def segClosed (i : JobImage) (s : Lane) (k : Nat) : Bool := if i.policy.tail = 0 then i.epochs ≤ s.e else decide (k < s.e)

/-- The rows of a lane in a segment, as far as they are known (R295, R296): the open row closes with the segment. -/
def laneRows (i : JobImage) (b : BatchSpec) (s : Lane) (k : Nat) : List (List RowPart) :=
  let its := segItems i s k
  if b.packed then
    let p := its.foldl (packDoc b) ⟨[], []⟩
    if segClosed i s k && !p.row.isEmpty then p.rows ++ [p.row] else p.rows
  else its.map (fun x => [⟨x, 0, b.elems, false⟩])

/-- A lane moved over epochs in which it has no positions. -/
def Job.lanes' (x : Job) (i : JobImage) : List Lane :=
  (List.range x.l).map (fun n => if x.count i n = 0 then { x.lane n with e := i.epochs } else x.laneEpoch i n (x.lane n))

/-! ### Segments (R298, R299) -/

/-- The number of rows of a lane in a segment, once it is decided. -/
def laneLen (x : Job) (i : JobImage) (b : BatchSpec) (n : Nat) (s : Lane) (k : Nat) : Option Nat :=
  if b.packed then (if segClosed i s k then some (laneRows i b s k).length else none)
  else some (x.count i n * (if i.policy.tail = 0 then i.epochs else 1))

/-- The first row offset that is, or may still be, a padding row. -/
def firstPad (x : Job) (i : JobImage) (b : BatchSpec) (ls : List Lane) (k : Nat) : Nat :=
  ((ls.zipIdx.map (fun p => (laneLen x i b p.2 p.1 k).getD (laneRows i b p.1 k).length * x.l + p.2)).min?).getD 0

/-- The length of a segment in rows, once it is decided. -/
def segLen (x : Job) (i : JobImage) (b : BatchSpec) (ls : List Lane) (k : Nat) : Option Nat :=
  let lens := ls.zipIdx.map (fun p => laneLen x i b p.2 p.1 k)
  if lens.any (fun l => l.isNone) then none
  else
    let most := (lens.filterMap id).foldl max 0
    let full := (x.l * most + b.rows - 1) / b.rows * b.rows
    if i.policy.tail = 2 then some (min full (firstPad x i b ls k) / b.rows * b.rows) else some full

/-- Where a module row lies: segment and offset, not yet decided, or past the end. -/
inductive RowPlace where
  | at_ (seg off : Nat)
  | unknown
  | past
deriving DecidableEq, Repr

/-- Segments passed one by one; fuel counts them. -/
def placeFrom (x : Job) (i : JobImage) (b : BatchSpec) (ls : List Lane) : Nat → Nat → Nat → RowPlace
  | 0, _, _ => .past
  | f + 1, k, g =>
    match segLen x i b ls k with
    | some n => if g < n then .at_ k g else placeFrom x i b ls f (k + 1) (g - n)
    | none => .at_ k g

/-- The place of module row g. -/
def rowPlace (x : Job) (i : JobImage) (b : BatchSpec) (ls : List Lane) (g : Nat) : RowPlace :=
  if i.policy.tail = 0 then
    match segLen x i b ls 0 with
    | some n => if g < n then .at_ 0 g else .past
    | none => .at_ 0 g
  else if b.packed then
    let fin := ((ls.map (fun s => s.e)).min?).getD 0
    placeFrom x i b ls (min (fin + 1) i.epochs) 0 g
  else
    match segLen x i b ls 0 with
    | some n => if n = 0 then .past else if g / n < i.epochs then .at_ (g / n) (g % n) else .past
    | none => .unknown

/-- A module row: real parts, or padding. -/
inductive ModRow where
  | real (parts : List RowPart)
  | pad
deriving DecidableEq, Repr

/-- Module row g, as far as it is known: none while it is not, and padding where its lane has no row. -/
def moduleRow (x : Job) (i : JobImage) (b : BatchSpec) (ls : List Lane) (seg off : Nat) : Option ModRow :=
  let n := off % x.l
  match ls[n]? with
  | none => none
  | some s =>
    match (laneRows i b s seg)[off / x.l]? with
    | some r => some (.real r)
    | none => match laneLen x i b n s seg with
      | some k => if k ≤ off / x.l then some .pad else none
      | none => none

/-- The rows of a module batch: past the end of the job, not all written, or all of them. -/
inductive BatchRows where
  | past
  | wait
  | rows (l : List ModRow)
deriving DecidableEq, Repr

/-- The rows of module batch n (R298); under DROP its segment must reach past it (R299). -/
def batchRows (x : Job) (i : JobImage) (b : BatchSpec) (n : Nat) : BatchRows :=
  let ls := x.lanes' i
  match rowPlace x i b ls (n * b.rows) with
  | .past => .past
  | .unknown => .wait
  | .at_ k o =>
    if i.policy.tail = 2 && firstPad x i b ls k < o + b.rows then .wait
    else if i.policy.tail ≠ 2 && (match segLen x i b ls k with | some _ => false | none => true) &&
        ((List.range b.rows).any (fun r => match moduleRow x i b ls k (o + r) with | some (.real _) => false | _ => true)) then .wait
    else
      let rs := (List.range b.rows).map (fun r => moduleRow x i b ls k (o + r))
      if rs.any (fun r => r.isNone) then .wait else .rows (rs.filterMap id)

/-- The count at which the last of a batch's rows was written. -/
def rowsTime (x : Job) (rs : List ModRow) : Nat :=
  let own := rs.flatMap (fun r => match r with | .real ps => ps.map (fun p => p.item.time) | .pad => [])
  let all := if rs.any (fun r => match r with | .real ps => false | .pad => true) then
    x.lanes.flatMap (fun p => p.2.items.map (fun it => it.time)) else []
  (own ++ all).foldl max 0

/-! ### The bytes of a batch (R300) -/

namespace Config
/-- Metadata of a padding row before its FLAGS, which the spec does not state: 28 bytes by module row. -/
opaque padMeta : Nat → Nat → Byte
/-- The segment number of a part past the 65,535th of a row, which has no 16-bit number. -/
opaque segmentNumber : Nat → Nat
end Config

/-- Elements of a part: for tokens, SEP_TOKEN follows the item's own (R296). -/
def partElems (b : BatchSpec) (p : RowPart) : List Byte :=
  if b.packed then
    (List.range p.len).flatMap (fun k =>
      let j := p.start + k
      leBytes b.elemSize (if j < p.item.tokens then leAt p.item.output (4 * j) 4 else b.sep))
  else sliceBytes p.item.output 0 (b.elems * b.elemSize)

def rowData (b : BatchSpec) (r : ModRow) : List Byte :=
  let pad (n : Nat) : List Byte := (List.range n).flatMap (fun _ => leBytes b.elemSize b.pad)
  match r with
  | .real ps => ps.flatMap (partElems b) ++ pad (b.elems - partsLen ps)
  | .pad => pad b.elems

def rowMask (b : BatchSpec) (r : ModRow) : List Byte :=
  match r with
  | .real ps =>
    if b.packed then List.replicate (partsLen ps) 1 ++ List.replicate (b.elems - partsLen ps) 0 else [1]
  | .pad => List.replicate (if b.packed then b.elems else 1) 0

def rowSegs (b : BatchSpec) (r : ModRow) : List Byte :=
  match r with
  | .real ps =>
    let s := ps.zipIdx.flatMap (fun p =>
      (List.replicate p.1.len (leBytes 2 (if p.2 < 65535 then p.2 + 1 else Config.segmentNumber p.2))).flatten)
    sliceBytes s 0 (2 * b.elems)
  | .pad => List.replicate (2 * b.elems) 0

/-- FLAGS of an item in a row: SUBST and MEDIA. -/
def Item.flags (i : Item) : Nat := boolBit i.reserve.isSome + 2 * boolBit i.media

/-- Row metadata (R300). -/
def rowMeta (g : Nat) (b : BatchSpec) (r : ModRow) : List Byte :=
  match r with
  | .pad => (List.range 28).map (Config.padMeta g) ++ leBytes 2 4 ++ leBytes 2 0
  | .real ps =>
    let starts := ps.filter (fun p => p.start = 0)
    match (starts ++ ps).head? with
    | none => List.replicate 32 0
    | some f =>
      let res := (ps.findSome? (fun p => p.item.reserve)).getD 0
      let fl := ps.foldl (fun a p => a ||| p.item.flags ||| (16 * boolBit p.trunc)) 0
      let cont := match ps.head? with | some p => decide (p.start ≠ 0) | none => false
      leBytes 8 f.item.pos ++ leBytes 8 f.item.sample ++ leBytes 8 res ++ leBytes 4 f.item.epoch ++
        leBytes 2 (fl ||| 8 * boolBit cont) ++ leBytes 2 (if b.packed then min starts.length 0xFFFF else 0)

/-- The epoch that a row's metadata names, for a row with a sample. -/
def rowEpoch (r : ModRow) : Option Nat :=
  match r with
  | .real ps => ((ps.filter (fun p => p.start = 0) ++ ps).head?).map (fun p => p.item.epoch)
  | .pad => none

def rowFlags (r : ModRow) : Nat :=
  match r with | .real ps => ps.foldl (fun a p => a ||| p.item.flags) 0 | .pad => 4

/-- FLAGS of a batch header. -/
def batchFlags (b : BatchSpec) (rs : List ModRow) : Nat :=
  let padded := rs.any (fun r => match r with | .real ps => b.packed && decide (partsLen ps < b.elems) | .pad => true)
  let eps := (rs.filterMap rowEpoch).dedup
  boolBit (rs.any (fun r => bitAt (rowFlags r) 0)) + 2 * boolBit padded + 4 * boolBit (1 < eps.length) +
    8 * boolBit (rs.any (fun r => bitAt (rowFlags r) 1))

/-- A section padded with zeros to a multiple of 256 bytes. -/
def padded256 (l : List Byte) : List Byte := sliceBytes l 0 (up256 l.length)

/-- The batch header: channel number, batch number and rows. -/
def batchHeader (b : BatchSpec) (digest : List Byte) (chan k epoch : Nat) (rs : List ModRow) : List Byte :=
  sliceBytes (leBytes 4 0x43544142 ++ leBytes 2 1 ++ leBytes 2 chan ++ leBytes 8 (k % 2 ^ 40) ++ leBytes 4 b.rows ++
    leBytes 4 b.elems ++ leBytes 1 (boolBit b.packed) ++ leBytes 1 b.elem ++ leBytes 2 (batchFlags b rs) ++ leBytes 4 epoch ++
    sliceBytes digest 0 8 ++ leBytes 8 b.dataOff ++ leBytes 8 b.maskOff ++ leBytes 8 (if b.packed then b.segOff else 0) ++
    leBytes 8 b.metaOff ++ leBytes 8 b.trailOff) 0 256

/-- Every byte of a batch from the header to the end of the metadata (R300, R301). -/
def batchBody (b : BatchSpec) (digest : List Byte) (chan k first : Nat) (rs : List ModRow) : List Byte :=
  let epoch := (rs.head?.bind rowEpoch).getD (ofLe (((List.range 28).map (Config.padMeta first)).drop 24))
  batchHeader b digest chan k epoch rs ++ padded256 (rs.flatMap (rowData b)) ++ padded256 (rs.flatMap (rowMask b)) ++
    (if b.packed then padded256 (rs.flatMap (rowSegs b)) else []) ++
    rs.zipIdx.flatMap (fun p => rowMeta (first + p.2) b p.1)

/-- The trailer. -/
def batchTrailer (due emit status : Nat) (digest : List Byte) : List Byte :=
  leBytes 8 due ++ leBytes 8 emit ++ leBytes 2 status ++ List.replicate 14 0 ++ sliceBytes digest 0 32

/-- A record of an unordered channel (R307). -/
def recordBytes (it : Item) : List Byte :=
  leBytes 8 (it.pos % 2 ^ 48) ++ leBytes 4 it.epoch ++ leBytes 4 it.flags ++ leBytes 8 it.sample ++
    leBytes 4 it.output.length ++ leBytes 4 0 ++ sliceBytes it.output 0 ((it.output.length + 63) / 64 * 64)

end Sys2Proof.Machine
end

