-- ==== Sys2Proof/Machine/JobOps.lean ====
section
/-!
DEFINITION. Jobs: acceptance, launch, fetching, collection, emission and release (08 R278 to R313, 10 R374 to R377,
12 R438, R439, R446 to R448).
-/
namespace Sys2Proof.Machine

/-- A count has reached another (12 R416). -/
def countReached (a b : Nat) : Bool := (a + 2 ^ 64 - b % 2 ^ 64) % 2 ^ 64 < 2 ^ 63

/-! ### Keys of an image (10 R374, R376, R379) -/

/-- The key handles that an image names. -/
def JobImage.keys (i : JobImage) : List Nat := ((i.shards.filter (fun s => s.enc)).map (fun s => s.key)).dedup

/-- Keys and signature permitted. -/
def Mach.keysStatus (m : Mach) (r : RawImage) (i : JobImage) : Nat :=
  let bad := i.keys.any (fun h => m.keyStatus h ≠ St.ok || match m.key? h with
    | some k => k.signer ≠ List.replicate 32 0 && !(i.signed && r.signer = k.signer)
    | none => true)
  if bad || (i.signed && !r.signatureValid) then St.keyDenied else St.ok

/-- The allowed set of the keys of an image. -/
def Mach.imageAllowed (m : Mach) (i : JobImage) : Nat := allowedOf (i.keys.filterMap m.key?)

/-- The keys held by a restricted job whose set a sealed flash tier serves (10 R377). -/
def Mach.tierStatus (m : Mach) (i : JobImage) : Nat :=
  match i.cache with
  | some c =>
    match m.ns? c.nsid with
    | some x => match x.sealedBy with
      | some ks => if ks.mergeSort = i.keys.mergeSort then St.ok else St.policy
      | none => St.ok
    | none => St.ok
  | none => St.ok

/-! ### Resources -/

/-- The lowest free job slot. -/
def Mach.freeJob (m : Mach) : Option Nat := (List.range 16).find? (fun j => (m.job? j).isNone)

/-- Free module channels: 0 to 63 ordered, 64 to 67 unordered (R308, R312). -/
def Mach.freeChans (m : Mach) (ordered : Bool) : List Nat :=
  (if ordered then List.range 64 else [64, 65, 66, 67]).filter (fun k => (mapFind m.jobs.chans k).isNone)

/-- Clusters that can serve a job with its needs, lowest first (R228, R311, 04 R144). -/
def Mach.clustersFor (v : Variant) (m : Mach) (j mb cn : Nat) : List Nat :=
  (List.range (clusterCount v)).filter (fun c => m.canServe v c ⟨j, c, 0, mb, 0, cn⟩)

/-- The clusters taken: all that can where the image leaves the number open, else as many as it asks for. -/
def takeClusters (cs : List Nat) (want : Nat) : Option (List Nat) :=
  if want = 0 then (if cs.isEmpty then none else some cs) else if cs.length < want then none else some (cs.take want)

/-- Areas carved one after another. -/
def Mach.carveAreas (m : Mach) (j : Nat) : List Nat → Option (List Nat × Mach)
  | [] => some ([], m)
  | n :: r =>
    match m.carveArea j n with
    | some (b, m) => match Mach.carveAreas m j r with
      | some (bs, m) => some (b :: bs, m)
      | none => none
    | none => none

/-- Bytes of the batch area of each ordered channel (R304). -/
def JobImage.areaSizes (i : JobImage) : List Nat :=
  match i.batch with
  | some b => (i.chans.filter (fun c => c.ordered)).map (fun c => c.depth * b.size)
  | none => []

/-- A job's shard cursors created for the shards it owns (07 R273). -/
def Mach.makeCursors (v : Variant) (m : Mach) (j k : Nat) (i : JobImage) : Option (List Nat × Mach) :=
  (i.shards.zipIdx.filter (fun x => x.1.owner = k)).foldl (fun acc x =>
    match acc with
    | none => none
    | some (l, m) =>
      let s := x.1
      let key := if s.enc then m.wrapKey ((i.keys.idxOf s.key)) j else 0
      let body := leBytes 4 x.2 ++ leBytes 4 s.nsid ++ leBytes 8 s.indexLba ++ leBytes 8 s.records ++ List.replicate 20 0 ++
        List.replicate 4 0 ++ leBytes 8 key
      match m.ctxCreate v 1 (0x10 + j) body with
      | some (r, m) => some (l ++ [r], m)
      | none => none) (some ([], m))

/-! ### Digests (12 R446 to R448) -/

/-- A digest written to four 64-bit registers. -/
def Mach.putDigest (m : Mach) (reg : Nat → Nat) (d : List Byte) : Mach :=
  (List.range 4).foldl (fun m n => m.setReg (reg n) (BitVec.ofNat 64 (leAt d (8 * n) 8))) m

/-- The 32 bytes of a digest in four 64-bit registers. -/
def Mach.getDigest (m : Mach) (reg : Nat → Nat) : List Byte := (List.range 4).flatMap (fun n => leBytes 8 (m.reg (reg n)).toNat)

def ascii (s : String) : List Byte := s.toList.map (fun c => BitVec.ofNat 8 c.toNat)

/-- D0 of an ordered channel (R446). -/
def digestStart (chan : Nat) : List Byte := shake256 (ascii "YLM-CH" ++ leBytes 2 chan) 32

/-! ### Acceptance (R280) -/

/-- How a job comes to the module: image extent, owner, PLAN_SEQ, the LAUNCH asked for, module index, the resolved L
(0 to resolve here), cache homes, and whether unordered channels may be bound. -/
structure StartArgs where
  addr : Nat
  len : Nat
  owner : JobOwner
  planSeq : Nat
  asked : Nat
  idx : Nat
  lanes : Nat
  homes : List (List Nat)
  mayUnordered : Bool
deriving DecidableEq, Repr

/-- The lane count in effect (R284). -/
def lanesOf (v : Variant) (i : JobImage) (resolved : Nat) : Nat :=
  if i.l ≠ 0 then i.l else if resolved ≠ 0 then resolved else activeTiles v

/-- The status of every check but those on resources. -/
def Mach.imageStatus (v : Variant) (m : Mach) (r : RawImage) (a : StartArgs) : Nat :=
  let i := r.parse
  if !m.imageDefined v r a.addr a.len a.idx || activeTiles v < lanesOf v i a.lanes then
    -- an image whose sections are not defined is not looked at further, but for what R20 places before that group
    St.first St.invalidField (if headerOk r.hdr a.len then m.keysStatus r i else St.ok)
  else
    let pol := if i.chans.any (fun c => !bitAt (m.imageAllowed i) c.kind) then St.policy else St.ok
    let rts := if i.chans.any (fun c => !c.ordered) && !a.mayUnordered then St.rights else St.ok
    worst [m.keysStatus r i, pol, m.tierStatus i, rts]

/-- The job of an image in its slot. -/
def newJob (v : Variant) (a : StartArgs) (i : JobImage) (chans areas cursors : List Nat) (loaded : Bool) (now : Nat) : Job :=
  { state := 2, status := St.ok, nonrepro := false, planSeq := a.planSeq, imageAddr := a.addr, imageLen := a.len,
    kind := .image i, owner := a.owner, m := a.idx, modules := i.modules, l := lanesOf v i a.lanes, launch := none,
    asked := a.asked, loadedAt := if loaded then some now else none, chans := chans, areas := areas, lanes := [], results := [],
    fetched := [], emitted := [], cur := .zero, last := none, tokens := 0, samples := 0, subst := 0, mediaSubst := 0,
    augReady := 0, homes := a.homes, lost := [], cursors := cursors }

/-- The first whole microsecond at least 1 µs after a count (12 R438). -/
def autoLaunch (now : Nat) : Nat := (now + 1000 + 999) / 1000 * 1000

/-- A job starts running; one that starts after its launch count is recorded (12 R433, R438). -/
def Mach.startRunning (m : Mach) (j : Nat) (x : Job) (launch : Nat) (late : Bool) : Mach :=
  let m := m.setJob j { x with state := 3, launch := some launch }
  if late then m.record 0x0073 (sourceOf 9 j) St.late (payloadOf [(8, launch), (8, m.spn.count)]) else m

/-- The launch count fixed: the job waits for it, or starts at once where the count has reached it (12 R433, R438). -/
def Mach.fixLaunch (m : Mach) (j launch : Nat) : Mach :=
  match m.job? j with
  | some x =>
    if x.state = 2 && x.launch.isNone then
      if countReached m.spn.count launch then m.startRunning j x launch true
      else m.setJob j { x with launch := some launch }
    else m
  | none => m

/-- Every serving cluster has loaded the job's table set: the automatic launch count follows (12 R438). -/
def Mach.tablesLoaded (m : Mach) (j : Nat) : Mach :=
  match m.job? j with
  | some x =>
    let x : Job := { x with loadedAt := some m.spn.count }
    let auto : Bool := match x.owner with | .pipe _ _ _ _ _ => x.asked = 0 && x.modules = 1 && x.image?.isSome | .manager _ => false
    m.setJob j (if auto && x.launch.isNone then { x with launch := some (autoLaunch m.spn.count) } else x)
  | none => m

/-- Clusters that serve a job. -/
def Mach.servers (m : Mach) (j : Nat) : List Nat := (m.tl.clusters.filter (fun p => p.2.serves.contains j)).map (fun p => p.1)

/-- TABLE_SET_LOADED (04 R145). -/
def Mach.tableSetLoaded (m : Mach) (c j : Nat) : Mach :=
  if (m.clus c).serves.contains j && !(m.clus c).loaded.contains j then
    let m := m.serve c j true
    if (m.servers j).all (fun k => (m.clus k).loaded.contains j) then m.tablesLoaded j else m
  else m

/-- Channels bound to a job, with their digests at the start (R312, 12 R446, R447). -/
def Mach.bindChans (m : Mach) (j : Nat) (chans : List Nat) (cs : List ChanSpec) : Mach :=
  (chans.zip cs).zipIdx.foldl (fun m p =>
    let k := p.1.1
    let c := p.1.2
    let m := { m with jobs := { m.jobs with
      chans := mapSet m.jobs.chans k ⟨j, p.2, c.ordered, c.depth, 0, 0, none, 0, 0⟩ } }
    (m.putDigest (Reg.spnChDig k) (if c.ordered then digestStart p.2 else List.replicate 32 0)).setReg (Reg.spnChCount k) 0) m

/-- The decoded cache opened for a job (09 R344, R350): the GDDR7 tier starts empty; the flash tier as it stands. -/
def Mach.openCache (m : Mach) (j base : Nat) (c : CacheSpec) : Mach :=
  let m := ((m.setReg (Reg.memCarveBase 4) (BitVec.ofNat 64 base)).setReg (Reg.memCarveSize 4) (BitVec.ofNat 64 c.gddrBytes))
  let fl := mapGet (fun _ => []) m.jobs.tiers c.nsid
  let m := { m with jobs := { m.jobs with tiers := mapErase m.jobs.tiers c.nsid, dc := { m.jobs.dc with
    job := some j, base := base, gddrSegs := c.gddrBytes / 2 ^ 22, flashNs := c.nsid, segs := fl, hand := 0,
    flashSegs := (match m.ns? c.nsid with | some x => x.nsze * x.lba / 2 ^ 22 | none => 0) } } }
  match m.ns? c.nsid with
  | some x => m.setNs c.nsid { x with usedBy := some j, sealedBy := if m.jobRestricted j then some ((m.jobTable j).filterMap id) else x.sealedBy }
  | none => m

/-- A refusal with ST_POLICY is counted (SEC_POLICY_REFUSED). -/
def Mach.countPolicy (m : Mach) (st : Nat) : Mach := if st = St.policy then m.addFld Reg.secPolicyRefused 31 0 1 else m

/-- Resources granted to an image that passed its checks: slot, channels, areas, clusters, cursors; none where something
is short (ST_POOL_EMPTY). Hot tables beyond 7 MiB are recorded (04 R143). -/
def Mach.grantJob (v : Variant) (m : Mach) (r : RawImage) (i : JobImage) (a : StartArgs) : Option (Nat × Mach) :=
  match m.freeJob with
  | none => none
  | some j =>
    let ordered := i.chans.any (fun c => c.ordered)
    let chans := (m.freeChans ordered).take i.chans.length
    let cacheSz := match i.cache with | some c => [c.gddrBytes] | none => []
    if chans.length < i.chans.length || 64 < i.keys.length || (i.cache.isSome && m.jobs.dc.job.isSome) then none
    else
      match m.carveAreas j (i.areaSizes ++ cacheSz), takeClusters (m.clustersFor v j i.mbox i.cnt) i.clusters with
      | some (areas, m), some cl =>
        let m := { m with ks := { m.ks with
          tables := if i.keys.isEmpty then m.ks.tables else mapSet m.ks.tables j (i.keys.map some),
          signedJobs := if i.signed then m.ks.signedJobs ++ [j] else m.ks.signedJobs } }
        match m.makeCursors v j a.idx i with
        | none => none
        | some (cursors, m) =>
          let plan := r.sec 10
          let tabs := (r.secs 3).length ≠ 0
          let m := cl.foldl (fun m c =>
            let m := match m.grantFor j c i.mbox i.cnt with | some g => m.putGrant g (Config.planCounter plan) | none => m
            m.serve c j (!tabs)) m
          let m := m.bindChans j chans i.chans
          let batchAreas := areas.take i.areaSizes.length
          let m := m.setJob j (newJob v a i chans batchAreas cursors (!tabs) m.spn.count)
          let m := match i.cache with
            | some c => m.openCache j (areas.getD i.areaSizes.length 0) c
            | none => m
          let m := (m.putDigest (Reg.spnJobDig j) (List.replicate 32 0)).setReg (Reg.spnJobDigstat j) 0
          let hot := Config.hotBytes (r.sec 3)
          let m := if 7 * 2 ^ 20 < hot then m.notice 0x0002 (sourceOf 9 j) (hot - 7 * 2 ^ 20) St.ok else m
          some (j, if tabs then m else m.tablesLoaded j)
      | _, _ => none

/-- An image accepted or refused (R280): the status, the slot, and the machine; MEAS5 takes the image's digest. -/
def Mach.jobAccept (v : Variant) (m : Mach) (a : StartArgs) : Nat × Nat × Mach :=
  let r := m.rawImage v a.addr a.len
  let i := r.parse
  let st := m.imageStatus v r a
  if st ≠ St.ok then (st, 0, m.countPolicy st)
  else
    match m.grantJob v r i a with
    | some (j, m) => (St.ok, j, m.measureData 5 r.bytes)
    | none => (St.poolEmpty, 0, m)

/-- A LAUNCH that lies 2^62 ns or more ahead of the count (12 R439). -/
def Mach.launchTooFar (m : Mach) (launch : Nat) : Bool :=
  let ahead := (launch + 2 ^ 64 - m.spn.count % 2 ^ 64) % 2 ^ 64
  launch ≠ 0 && 2 ^ 62 ≤ ahead && ahead < 2 ^ 63

/-- The spindle count reaches LAUNCH (12 R433, R438). -/
def Mach.launchJob (m : Mach) (j : Nat) : Mach :=
  match m.job? j with
  | some x =>
    match x.launch with
    | some c => if x.state = 2 && countReached m.spn.count c then m.startRunning j x c false else m
    | none => m
  | none => m

/-! ### Progress of the lanes -/

/-- The lowest epoch (from 0) with a position not yet done; the number of epochs where every one is done. -/
def Job.lowEpoch (x : Job) (i : JobImage) : Nat := (((x.lanes' i).map (fun s => s.e)).min?).getD i.epochs

/-- The lowest position of that epoch that is not done (PIPE_JOBj_FRONTIER). -/
def Job.frontier (x : Job) (i : JobImage) : Nat :=
  let e := x.lowEpoch i
  (((x.lanes' i).zipIdx.filter (fun p => p.1.e = e)).map (fun p => lanePos x.modules x.m x.l p.2 p.1.t)).min?.getD 0

/-- An epoch has ended: its statistics become those of the last completed epoch (R312). -/
def Job.rollStats (x : Job) (i : JobImage) (before : Nat) : Job :=
  if before < x.lowEpoch i then { x with last := some x.cur, cur := .zero } else x

/-- The statistics a worker reports (12 R429). -/
def Job.stats (x : Job) : List Nat :=
  let s := x.last.getD x.cur
  [s.unitSum, s.unitCount, s.unitMax, x.tokens, x.samples, x.subst, x.mediaSubst]

/-- REPORT to the manager of a worker's job (12 R429). -/
def Mach.reportJob (m : Mach) (x : Job) (digest : Option (List Byte)) : Mach :=
  match x.owner with
  | .manager node => if node = 0 then m else m.send (.ctl node (.report x.planSeq x.stats digest))
  | _ => m

/-- Moves of a lane made while its samples are known; fuel counts them. -/
def Mach.runLane : Nat → Mach → Nat → JobImage → Nat → Mach
  | 0, m, _, _, _ => m
  | f + 1, m, j, i, n =>
    match m.job? j with
    | some x =>
      if !x.live then m
      else
        match x.laneMove i n m.spn.count (x.lane n) with
        | none => m
        | some (s, sub, st) =>
          let x : Job := { x with lanes := mapSet x.lanes n s }
          let m := m.setJob j (match sub with
            | some (_, md) => { x with subst := x.subst + boolBit (!md), mediaSubst := x.mediaSubst + boolBit md,
                                       nonrepro := x.nonrepro || md }
            | none => x)
          let m := match sub with
            | some (rsv, md) =>
              match s.items.getLast? with
              | some it => m.record 0x0070 (sourceOf 9 j) (if md then St.mediaUnrecoverable else St.sampleCorrupt)
                  (payloadOf [(8, it.pos), (4, it.epoch), (8, rsv), (4, boolBit md)])
              | none => m
            | none => m
          if st ≠ St.ok then m.jobFail j st else Mach.runLane f m j i n
    | none => m

/-- What is known of a position is stored, and its lane moves on (R290 to R292). -/
def Mach.sampleKnown (m : Mach) (j epoch p : Nat) (r : SampleRes) : Mach :=
  match m.job? j with
  | some x =>
    match x.image? with
    | some i =>
      let stop : Option Nat := match r with
        | .corrupt => if i.policy.corruptFail then some St.checkFail else none
        | .media => if i.policy.mediaSubst then none else some St.mediaUnrecoverable
        | .good _ => none
      match stop with
      | some st => m.jobFail j st
      | none =>
        if (x.result epoch p).isSome || x.l = 0 then m
        else
          let before := x.lowEpoch i
          let x : Job := { x with results := x.results ++ [((epoch, p), r)] }
          let n := laneOf' x.modules x.l (if p < i.n then p else p - i.n)
          let m := (m.setJob j x).runLane (2 * x.results.length + 2 * i.epochs + 2) j i n
          match m.job? j with
          | some y =>
            let z := y.rollStats i before
            let m := m.setJob j z
            if before < y.lowEpoch i then m.reportJob z none else m
          | none => m
    | none => m
  | none => m

/-! ### Fetching (01 R37, 09 R315, R316) -/

/-- What the record index says of a record: its frame, corrupt, or a media failure. -/
inductive IndexRead where
  | frame (off len crc : Nat)
  | corrupt
  | media
  | denied
deriving DecidableEq, Repr

/-- A 4 KiB index block's trailer matches. -/
def indexTrailer (b : List Byte) (blk used : Nat) : Bool :=
  (crc32c (b.take 4080)).toNat = leAt b 4080 4 && leAt b 4084 4 = blk && leAt b 4088 2 = used && zeroAt b 4090 6

/-- The outcome of reading a range of a namespace. -/
def Mach.nsRange (m : Mach) (x : Ns) (off n : Nat) (bad : List Nat) : Option IndexRead :=
  match m.rangeStatus x off n bad with
  | 0 => none
  | st => if st = St.keyDenied then some .denied else some .media

/-- The record index of a shard read for a record (R315, R316); bad lists units unreadable after all retries. -/
def Mach.readIndex (m : Mach) (x : Ns) (s : ShardSpec) (k : Nat) (bad : List Nat) : IndexRead :=
  let total := x.nsze * x.lba
  let base := s.indexLba * x.lba
  let blk := 1 + k / 255
  let used := min 255 (s.records - (blk - 1) * 255)
  let at_ := base + blk * 4096
  if total < base + 4096 then .corrupt
  else
    match m.nsRange x base 4096 bad with
    | some r => r
    | none =>
      let h := memRead x.data base 4096
      let data := leAt h 0x10 8 * x.lba
      let bytes := leAt h 0x18 8
      if leAt h 0 4 ≠ 0x58444E49 || leAt h 4 2 ≠ 1 || leAt h 8 8 ≠ s.records || !zeroAt h 6 2 || !zeroAt h 0x20 4048 ||
          total < data + bytes || !indexTrailer h 0 0 then .corrupt
      else if total < at_ + 4096 then .corrupt
      else
        match m.nsRange x at_ 4096 bad with
        | some r => r
        | none =>
          let b := memRead x.data at_ 4096
          let e := k % 255 * 16
          let off := leAt b e 8
          let len := leAt b (e + 8) 4
          if !indexTrailer b blk used || off % 16 ≠ 0 || len % 16 ≠ 0 || len < 32 || 2 ^ 26 + 16 < len || bytes < off + len then
            .corrupt
          else .frame (data + off) len (leAt b (e + 12) 4)

/-- The length of a frame with its padding agrees with FRAME_LEN (R316). -/
def frameLenOk (f : List Byte) (len : Nat) : Bool := (12 + leAt f 4 4 + 4 + 15) / 16 * 16 = len

/-- Buffers of an extent of n bytes: one, or a chain of pool 7 (09 R322). -/
def bufPieces (n : Nat) : List Nat :=
  if n ≤ 2 ^ 22 then [n] else (List.range ((n + 2 ^ 22 - 1) / 2 ^ 22)).map (fun i => min (2 ^ 22) (n - i * 2 ^ 22))

/-- Buffers taken at once for an owner; none where the Chuck does not hold them, so that the request waits (07 R266). -/
def Mach.takeBufs (m : Mach) (owner n : Nat) : Option (List Nat × Mach) :=
  let ps := bufPieces n
  match poolFor (ps.headD 1) with
  | none => none
  | some k =>
    if (m.pool k).ready && ps.length ≤ (m.pool k).chuck.length then
      some ((m.pool k).chuck.take ps.length, ps.foldl (fun m _ =>
        let tag := m.mem.reqTag
        ({ m with mem := { m.mem with reqTag := tag + 1 } }).takeBuf k owner tag) m)
    else none

/-- Bytes written into a chain of buffers. -/
def Mach.fillBufs (v : Variant) (m : Mach) (hs : List Nat) (b : List Byte) : Mach :=
  (hs.zipIdx).foldl (fun m p => m.devWrite v (m.bufAddr p.1) (sliceBytes b (p.2 * 2 ^ 22) (min (2 ^ 22) (b.length - p.2 * 2 ^ 22)))) m

/-- A record's frame put into buffers of the job; the shard's cursor follows (07 R273). -/
def Mach.keepFrame (v : Variant) (m : Mach) (j epoch p ns : Nat) (f : List Byte) (crc : Nat) (cur : Option (Nat × Nat × Nat)) : Mach :=
  match m.job? j, m.takeBufs (0x10 + j) f.length with
  | some x, some (hs, m) =>
    let m := m.fillBufs v hs f
    let m := m.setJob j { x with fetched := x.fetched ++ [((epoch, p), ⟨hs, f.length, some crc⟩)],
                                 cur := { x.cur with fetches := x.cur.fetches ++ [ns] } }
    match cur with
    | some (ref, rec, off) =>
      let s := m.slot (refSlot ref)
      let served := if leAt s.body 0x28 4 = epoch then leAt s.body 0x38 8 else 0
      let bytes := if leAt s.body 0x28 4 = epoch then leAt s.body 0x40 8 else 0
      let b := putAt s.body 0x18 (leBytes 8 (rec + 1))
      let b := putAt b 0x20 (leBytes 8 (off + f.length))
      let b := putAt b 0x28 (leBytes 4 epoch)
      let b := putAt b 0x38 (leBytes 8 (served + 1))
      let b := putAt b 0x40 (leBytes 8 (bytes + f.length))
      let b := putAt b 0x48 (leBytes 4 (leAt f (12 + leAt f 4 4) 4))
      m.setSlot (refSlot ref) { s with body := b }
    | none => m
  | _, _ => m

/-- SAMPLE_FETCH (01 R37, 08 R283): locally through the FTL, or what a YFT read of the owner brings. -/
def Mach.sampleFetch (v : Variant) (m : Mach) (j epoch p ns : Nat) (remote : Option RemoteRead) (bad : List Nat) : Mach :=
  match m.job? j with
  | some x =>
    match x.image? with
    | some i =>
      let ok := (x.state = 3 || x.state = 4) && i.first ≤ epoch && epoch < i.first + i.epochs &&
        posModule i x.modules p = x.m && (x.result epoch p).isNone && !x.fetched.any (fun f => f.1 = (epoch, p))
      match ok, shardOf i (posSample i epoch p) with
      | true, some (k, s) =>
        let rec_ := posSample i epoch p - s.first
        if s.owner = x.m then
          match m.ns? s.nsid with
          | none => m.sampleKnown j epoch p .media
          | some nsx =>
            if nsx.kind ≠ 0 then m.sampleKnown j epoch p .media
            else
              match m.readIndex nsx s rec_ bad with
              | .corrupt => m.sampleKnown j epoch p .corrupt
              | .media => m.sampleKnown j epoch p .media
              | .denied => m.jobFail j St.keyDenied
              | .frame off len crc =>
                match m.nsRange nsx off len bad with
                | some .denied => m.jobFail j St.keyDenied
                | some _ => m.sampleKnown j epoch p .media
                | none =>
                  let f := memRead nsx.data off len
                  if frameLenOk f len then
                    m.keepFrame v j epoch p ns f crc
                      ((x.cursors[((i.shards.zipIdx.filter (fun y => y.1.owner = x.m)).idxOf (s, k))]?).map (fun r => (r, rec_, off)))
                  else m.sampleKnown j epoch p .corrupt
        else if x.lost.contains s.owner then m.sampleKnown j epoch p .media
        else
          match remote with
          | some (.frame f crc) => if frameLenOk f f.length then m.keepFrame v j epoch p ns f crc.toNat none else m.sampleKnown j epoch p .corrupt
          | some .corrupt => m.sampleKnown j epoch p .corrupt
          | some .failed => m.sampleKnown j epoch p .media
          | none => m
      | _, _ => m
    | none => m
  | none => m

/-! ### Collection of entries (06 R230, 08 R290) -/

/-- The statuses by which a unit tells of a content-corrupt sample (R290). -/
def corruptStatus (st : Nat) : Bool := st = St.checkFail || st = St.checkAbsent

/-- The counters of the shipped kernels (10 R361, 11 R414). -/
def Mach.countKernel (m : Mach) (st : Nat) (r : UnitReport) : Mach :=
  let m := (m.addFld Reg.tokTokens 63 0 r.tokens).addFld Reg.tokBytes 63 0 r.text
  let m := if r.tooLong then m.addFld Reg.tokOver 31 0 1 else m
  let m := if r.checkFail then m.addFld Reg.cmpCheckFail 63 0 1 else m
  if st = St.checkAbsent then m.addFld Reg.cmpCheckAbsent 63 0 1 else m

/-- What is known of a collected unit: for one of the shipped kernels, what they made (09 R314); else what its mailboxes
tell. -/
def QEntry.report (e : QEntry) (r : UnitReport) : UnitReport :=
  match e.held with
  | some k => ⟨match k.out with | some l => l.length | none => r.len, r.ns, k.tokens, k.text, k.tooLong, k.check⟩
  | none => r

/-- A sample unit's outcome: its time and tokens counted, its output or its corruption known. -/
def Mach.collectSample (v : Variant) (m : Mach) (j : Nat) (e : QEntry) (r : UnitReport) : Mach :=
  match m.job? j with
  | some x =>
    match x.image? with
    | some i =>
      let m := m.countKernel e.status r
      let c := x.cur
      let x : Job := { x with
        cur := { c with unitSum := c.unitSum + r.ns, unitCount := c.unitCount + 1, unitMax := max c.unitMax r.ns },
        tokens := x.tokens + r.tokens, samples := x.samples + 1 }
      let m := m.setJob j x
      let epoch := entryEpoch e.bytes
      let p := entryPos e.bytes
      if e.status = St.ok then
        let out := (e.held.bind (fun k => k.out)).getD (m.devRead v (entrySlot e.bytes) r.len)
        let short : Bool := match i.batch with | some b => !b.packed && out.length ≠ b.elems * b.elemSize | none => false
        let wide : Bool := match i.batch with
          | some b => b.packed && tokWide b.elem b.sep ((List.range (out.length / 4)).map (fun k => leAt out (4 * k) 4))
          | none => false
        if short then m.jobFail j St.invalidField else if wide then m.sampleKnown j epoch p .corrupt else m.sampleKnown j epoch p (.good out)
      else if corruptStatus e.status then m.sampleKnown j epoch p .corrupt
      else m.jobFail j e.status
    | none => m
  | none => m

/-- A DONE entry collected: it becomes FREE, its adds are remembered, the buffers that the plan names are freed. -/
def Mach.entryCollect (v : Variant) (m : Mach) (l : QLoc) (r : UnitReport) : Mach :=
  match m.entryAt l with
  | some e =>
    if e.state = .done then
      let j := entryJob e.bytes
      let m := m.putEntry l none
      let m := { m with tl := { m.tl with
        collected := e.adds.foldl (fun (s : SMap Nat) (p : Nat × Nat) => mapSet s p.1 (mapGet (fun _ => 0) s p.1 + p.2)) m.tl.collected } }
      let m := e.frees.foldl (fun m h => m.freeBuf .control (0x10 + j) h) m
      if e.sample then m.collectSample v j e (e.report r)
      else
        match m.job? j with
        | some x => if x.image?.isSome && e.status ≠ St.ok then m.jobFail j e.status else m
        | none => m
    else m
  | none => m

/-! ### Batches (R304 to R306) -/

def Mach.chan? (m : Mach) (k : Nat) : Option Chan := mapFind m.jobs.chans k
def Mach.setChan (m : Mach) (k : Nat) (c : Chan) : Mach := { m with jobs := { m.jobs with chans := mapSet m.jobs.chans k c } }

/-- Work for the next batch of a channel starts (R304). -/
def Mach.batchStart (m : Mach) (k : Nat) : Mach :=
  match m.chan? k with
  | some c =>
    match m.job? c.job with
    | some x => if c.ordered && (x.state = 3 || x.state = 4) && c.started < c.next + c.depth then m.setChan k { c with started := c.started + 1 } else m
    | none => m
  | none => m

/-- DUE(c, k) (R303). -/
def dueCount (c : ChanSpec) (launch k : Nat) : Nat := (launch + c.lead + c.offset + k * c.period) % 2 ^ 64

/-- Spares take over in the clusters that serve a job, when a batch of it begins (17 R601). -/
def Mach.batchBoundary (m : Mach) (j : Nat) : Mach := (m.servers j).foldl (fun m c => m.takeover c) m

/-- A destination (R302): fabric and PCIe take the bytes from the port, a local namespace is written. -/
def Mach.deliver (m : Mach) (chan : Nat) (c : ChanSpec) (n : Nat) (bytes : List Byte) : Mach :=
  let a := c.addr + (if c.slots = 0 then 0 else n % c.slots) * c.slotBytes
  let m := m.send (.emit chan c.dest c.node a c.key bytes)
  if c.dest = 3 then m.flashWrite ⟨.inner, c.node, a, bytes⟩ else m

/-- The kinds a job may emit under the current policies (10 R376). -/
def Mach.mayEmit (m : Mach) (j : Nat) (c : ChanSpec) : Bool := bitAt (m.jobAllowed j) c.kind

/-- The module digest of a job (12 R448). -/
def Mach.moduleDigest (m : Mach) (x : Job) : List Byte :=
  shake256 (ascii "YLM-MOD" ++ leBytes 2 x.m ++ x.chans.flatMap (fun k => m.getDigest (Reg.spnChDig k))) 32

/-- The job digest of module digests in index order (12 R448). -/
def jobDigest (ds : List (List Byte)) : List Byte := shake256 (ascii "YLM-JOB" ++ ds.flatten) 32

/-- SPN_JOBj_DIGSTAT: VALID, NONREPRO, MODULES. -/
def Mach.digStat (m : Mach) (j : Nat) (valid nonrepro : Bool) (n : Nat) : Mach :=
  m.setReg (Reg.spnJobDigstat j) (BitVec.ofNat 64 (boolBit valid * 2 ^ 31 + boolBit nonrepro * 2 ^ 30 + n))

/-- A job is done (R312, 12 R448): a job of this module alone has its job digest; a worker reports its module digest. -/
def Mach.jobDone (m : Mach) (j : Nat) : Mach :=
  match m.job? j with
  | some x =>
    let d := m.moduleDigest x
    let m := if x.modules = 1 then ((m.putDigest (Reg.spnJobDig j) (jobDigest [d])).digStat j true x.nonrepro 1) else m
    (m.jobEnd j 5 St.ok).reportJob x (some d)
  | none => m

/-- Every batch of a job's ordered channels has been emitted. -/
def Mach.allEmitted (m : Mach) (x : Job) (i : JobImage) : Bool :=
  match i.batch with
  | some b => x.chans.zipIdx.all (fun (p : Nat × Nat) => match m.chan? p.1 with
    | some c => batchRows x i b (c.next * x.chans.length + p.2) = .past
    | none => false)
  | none => false

/-- Batches past the end: the job is draining once every position is done, and done once every batch is emitted. -/
def Mach.jobProgress (m : Mach) (j : Nat) : Mach :=
  match m.job? j with
  | some x =>
    match x.image? with
    | some i =>
      if x.state = 3 || x.state = 4 then
        let fin := i.epochs ≤ x.lowEpoch i
        let m := if fin then m.setJob j { x with state := 4 } else m
        let all := if i.chans.any (fun c => c.ordered) then m.allEmitted x i
          else fin && x.emitted.length = (x.lanes.map (fun p => p.2.items.length)).sum
        if fin && all then m.jobDone j else m
      else m
    | none => m
  | none => m

/-- BATCH_EMIT (R305): the next batch of a channel begins to leave once it is written, in order and due. -/
def Mach.batchEmit (v : Variant) (m : Mach) (k : Nat) : Mach :=
  match m.chan? k with
  | some c =>
    match m.job? c.job with
    | some x =>
      match x.image?, x.launch with
      | some i, some launch =>
        match i.batch, i.chans[c.index]? with
        | some b, some cs =>
          let n := c.next * x.chans.length + c.index
          if c.ordered && (x.state = 3 || x.state = 4) && c.next < c.started then
            match batchRows x i b n with
            | .rows rs =>
              let due := dueCount cs launch c.next
              let now := m.spn.count
              if countReached now due then
                if m.mayEmit c.job cs then
                  let body := batchBody b i.digest c.index c.next (n * b.rows) rs
                  let ready := max (rowsTime x rs) (c.lastEmit.getD 0)
                  let late := countReached ready due && ready ≠ due
                  let lateNs := (now + 2 ^ 64 - due) % 2 ^ 64
                  let dig := shake256 (m.getDigest (Reg.spnChDig k) ++ body) 32
                  let st := if late then St.late else St.ok
                  let whole := sliceBytes body 0 b.trailOff ++ batchTrailer due now st dig
                  let m := m.batchBoundary c.job
                  let m := m.devWrite v (x.areas.getD c.index 0 + c.next % c.depth * b.size) whole
                  let m := (m.putDigest (Reg.spnChDig k) dig).addFld (Reg.spnChCount k) 63 0 1
                  let m := m.setChan k { c with
                    next := c.next + 1, lastEmit := some now,
                    late := if late then satAdd (2 ^ 32 - 1) c.late 1 else c.late,
                    maxLate := if late then max c.maxLate (min lateNs (2 ^ 32 - 1)) else c.maxLate }
                  let m := if late then m.record 0x0071 (sourceOf 9 c.job) St.late
                    (payloadOf [(2, k), (2, 0), (8, c.next), (8, lateNs)]) else m
                  let m := if late then (match m.job? c.job with
                    | some y => m.setJob c.job { y with status := St.first y.status St.late }
                    | none => m) else m
                  (m.deliver k cs c.next whole).jobProgress c.job
                else (m.countPolicy St.policy).jobFail c.job St.policy
              else m
            | .past => m.jobProgress c.job
            | .wait => m
          else m
        | _, _ => m
      | _, _ => m
    | none => m
  | none => m

/-- RECORD_EMIT (R307): the record of a position leaves as soon as its unit has completed. -/
def Mach.recordEmit (m : Mach) (j epoch p : Nat) : Mach :=
  match m.job? j with
  | some x =>
    match x.image? with
    | some i =>
      let u := p / x.modules % (max 1 i.chans.length)
      let it := (x.lanes.flatMap (fun s => s.2.items)).find? (fun a => a.epoch = epoch && a.pos = p)
      match i.chans[u]?, it with
      | some cs, some it =>
        let k := x.chans.getD u 0
        if !cs.ordered && (x.state = 3 || x.state = 4) && !x.emitted.contains (epoch, p) then
          if m.mayEmit j cs then
            let b := recordBytes it
            let old := ofLe (m.getDigest (Reg.spnChDig k))
            let n := (m.reg (Reg.spnChCount k)).toNat
            let m := m.putDigest (Reg.spnChDig k) (leBytes 32 (old + ofLe (shake256 b 32)))
            let m := m.addFld (Reg.spnChCount k) 63 0 1
            let m := m.setJob j { x with emitted := x.emitted ++ [(epoch, p)] }
            (m.deliver k cs n b).jobProgress j
          else (m.countPolicy St.policy).jobFail j St.policy
        else m
      | _, _ => m
    | none => m
  | none => m

/-! ### Augmentation (09 R337, R338) -/

/-- AUG_DONE: epochs fully augmented on this module. -/
def Job.augDone (x : Job) : Nat := match x.image? with | some i => x.lowEpoch i % 2 ^ 32 | none => 0

/-- A write of AUG_READY (R338). -/
def Mach.writeAugReady (m : Mach) (w : Writer) (j val : Nat) : Mach :=
  let val := val % 2 ^ 32
  match m.job? j with
  | some x =>
    match x.image?.bind (fun i => i.aug) with
    | some a =>
      let ahead := (val + 2 ^ 32 - x.augReady) % 2 ^ 32
      let far := (val + 2 ^ 32 - x.augDone) % 2 ^ 32
      if a.source ≠ 0 then m.rejected (writerSource w) (Reg.pipeJobAugReady j) val 4
      else if ahead = 0 || 2 ^ 31 ≤ ahead || (a.ringEpochs < far && far < 2 ^ 31) then
        m.rejected (writerSource w) (Reg.pipeJobAugReady j) val 3
      else m.setJob j { x with augReady := val }
    | none => m.rejected (writerSource w) (Reg.pipeJobAugReady j) val 4
  | none => m.rejected (writerSource w) (Reg.pipeJobAugReady j) val 4

/-- The module may place units of an epoch (R337). -/
def Job.augAllows (x : Job) (epoch : Nat) : Bool :=
  match x.image? with
  | some i =>
    match i.aug with
    | some a => a.source ≠ 0 || (let d := (x.augReady + 2 ^ 32 - (epoch - i.first) % 2 ^ 32) % 2 ^ 32; decide (0 < d ∧ d < 2 ^ 31))
    | none => true
  | none => true

/-- Module rows lie in batches whose work has started (R304). -/
def Mach.rowsStarted (m : Mach) (x : Job) (rows : List Nat) : Bool :=
  match x.image? with
  | some i =>
    match i.batch with
    | some b => rows.all (fun g =>
        let n := g / b.rows
        match m.chan? (x.chans.getD (n % max 1 x.chans.length) 0) with
        | some c => n / max 1 x.chans.length < c.started
        | none => false)
    | none => true
  | none => true

/-! ### The end of a job (R312) -/

/-- A port owns a job. -/
def Job.portOf (x : Job) : Option Nat := match x.owner with | .pipe p _ _ _ _ => some p | _ => none

/-- The status of a JOB_CANCEL of a slot from a port (14 R525). -/
def Mach.cancelStatus (m : Mach) (p j : Nat) : Nat :=
  match m.job? j with
  | none => St.invalidField
  | some x =>
    match x.portOf with
    | none => St.notOwner
    | some q => if p = q || p = m.hif.owner then St.ok else St.notOwner

/-- Buffers of an owner returned, zero-filled first for a restricted job (10 R377). -/
def Mach.freeOwned (m : Mach) (owner : Nat) (zero : Bool) : Mach :=
  (List.range 8).foldl (fun m k =>
    ((m.pool k).bufs.filter (fun b => b.2.alloc && b.2.owner = owner)).foldl (fun m b =>
      let h := handleOf k b.1 b.2.gen
      let m := if zero then { m with mem := { m.mem with gddr := memZero m.mem.gddr (m.bufAddr h) (bufSize k) } } else m
      m.freeOk h) m) m

/-- Requests of an owner that wait for a buffer are withdrawn. -/
def Mach.dropWaits (m : Mach) (owner : Nat) : Mach :=
  (List.range 8).foldl (fun m k =>
    let p := m.pool k
    if p.waiting.any (fun w => w.owner = owner) then m.setPool k { p with waiting := p.waiting.filter (fun w => w.owner ≠ owner) } else m) m

/-- Context slots of an owner freed. -/
def Mach.freeCtx (v : Variant) (m : Mach) (owner : Nat) : Mach :=
  (m.mem.ctx.filter (fun p => p.2.kind ≠ 0 && p.2.owner = owner)).foldl (fun m p => (m.ctxRelease v (ctxRef p.1 p.2.gen)).2) m

/-- Everything of a job leaves the tiles and queues: units it runs end, its entries go, its ranges and clusters are freed;
for a restricted job tile SRAM and mailboxes are zero-filled (10 R377). -/
def Mach.clearWork (m : Mach) (j : Nat) (zero : Bool) : Mach :=
  let mine (e : QEntry) : Bool := entryJob e.bytes = j
  let m := { m with tl := { m.tl with
    tiles := m.tl.tiles.map (fun (p : Nat × Tile) =>
      let t := p.2
      let runs : Bool := match t.unit with | some u => entryJob u.entry = j | none => false
      let t := if runs then { t.endUnit false with unit := none, aside := [] } else t
      (p.1, if zero && t.keyJob = some j then { t with sram := [] } else t)),
    cal := m.tl.cal.filter (fun u => u.job ≠ j),
    dieQ := m.tl.dieQ.map (fun (p : Nat × SMap QEntry) => (p.1, p.2.filter (fun e => !mine e.2))) } }
  let gs := m.tl.grants.filter (fun g => g.job = j)
  let m := gs.foldl (fun m g =>
    let x := m.clus g.cluster
    m.setClus g.cluster { x with sram := if zero then memZero x.sram (0x50000 + 64 * g.mboxBase) (64 * g.mboxCount) else x.sram }) m
  { m with tl := { m.tl with
    clusters := m.tl.clusters.map (fun (p : Nat × Cluster) => (p.1, { p.2 with
      ring := p.2.ring.filter (fun e => !mine e.2), serves := p.2.serves.filter (fun k => k ≠ j),
      loaded := p.2.loaded.filter (fun k => k ≠ j) })),
    grants := m.tl.grants.filter (fun g => g.job ≠ j) } }

/-- The decoded cache closed: the GDDR7 tier is freed, the flash tier keeps its entries (09 R350). -/
def Mach.closeCache (m : Mach) (j : Nat) : Mach :=
  let d := m.jobs.dc
  if d.job = some j then
    let fl := d.segs.filter (fun s => s.flash)
    let m := { m with jobs := { m.jobs with
      dc := { DecCache.reset with nextGen := d.nextGen },
      tiers := if d.flashNs = 0 then m.jobs.tiers else mapSet m.jobs.tiers d.flashNs fl } }
    let m := (m.setReg (Reg.memCarveBase 4) 0).setReg (Reg.memCarveSize 4) 0
    match m.ns? d.flashNs with
    | some x => m.setNs d.flashNs { x with usedBy := none }
    | none => m
  else m

/-- JOB_RELEASE (R312, 14 R524): an ended job's resources are freed, and NOTIFY_END is answered. -/
def Mach.jobRelease (v : Variant) (m : Mach) (j : Nat) : Mach :=
  match m.job? j with
  | some x =>
    if x.live then m
    else
      let zero := m.jobRestricted j
      let m := ((m.clearWork j zero).dropWaits (0x10 + j)).freeOwned (0x10 + j) zero
      let m := (m.freeCtx v (0x10 + j)).closeCache j
      let m := { m with
        mem := { m.mem with areas := m.mem.areas.filter (fun a => a.job ≠ j) },
        ks := { m.ks with tables := mapErase m.ks.tables j, signedJobs := m.ks.signedJobs.filter (fun k => k ≠ j) },
        jobs := { m.jobs with slots := mapErase m.jobs.slots j, chans := m.jobs.chans.filter (fun c => c.2.job ≠ j) } }
      let answered : Bool := match x.kind with | .codec c => c.answered | _ => true
      match x.owner with
      | .pipe p q cid serial notify =>
        let m := if answered then m else m.pipeDone p q cid serial j x.status
        if notify then m.pipeEnd p q cid serial (j + x.state * 256) x.status else m
      | .manager _ => m
  | none => m

end Sys2Proof.Machine
end

