-- ==== Sys2Proof/Machine/AesOps.lean ====
section
/-!
DEFINITION. What the AES-GCM lane does (04 R131, R132, 05 R202, R203; 10 R369).
-/
namespace Sys2Proof.Machine

/-- The lane's cache of four key schedules, newest first (R131). -/
def Tile.useKey (t : Tile) (h : Nat) : Tile := { t with keyCache := (h :: t.keyCache.filter (fun x => x ≠ h)).take 4 }

/-- Source and destination overlap in part: identical ranges are allowed (05 R203). -/
def partOverlap (a n b k : Nat) : Bool := a ≠ b && overlap a n b k

/-- What DECRYPT and ENCRYPT share: reserved values, the key before any data is read, the ranges. -/
def aesRun (v : Variant) (m : Mach) (t : Nat) (d : List Byte) (srcN dstN : Nat)
    (f : Mach → KeyRec → DescOut) (mayUse : KeyRec → Bool) : DescOut :=
  let aadLen := leAt d 0x1C 4
  let src := leAt d 0x28 8
  let dst := leAt d 0x30 8
  let bad := !descFlagsIn d 0 || 65536 < aadLen || !descReserved0 d [(0x08, 52), (0x3C, 0)] ||
    partOverlap src srcN dst dstN
  let job := (m.tile t).entryNat 0 4
  if bad then failWith m St.invalidField
  else
    match m.unwrapKey job (leAt d 0x08 8) with
    | none => failWith (m.countDenied St.keyDenied) St.keyDenied
    | some k =>
      if !mayUse k then failWith (m.countDenied St.keyDenied) St.keyDenied
      else
        let st := worst [m.readStatus v t (leAt d 0x20 8) aadLen, m.readStatus v t src srcN, m.writeStatus v t dst dstN]
        if st ≠ St.ok then failWith m st
        else f (m.setTile t ((m.tile t).useKey (leAt d 0x08 8))) k

/-- AES-GCM DECRYPT: a tag that does not match leaves the destination zeroed (R132). -/
def aesDecrypt (v : Variant) (m : Mach) (t : Nat) (d : List Byte) : DescOut :=
  let len := leAt d 0x38 4
  aesRun v m t d (len + 16) len (fun m k =>
    let aad := m.jobRead v t (leAt d 0x20 8) (leAt d 0x1C 4)
    let ct := m.jobRead v t (leAt d 0x28 8) len
    let tag := m.jobRead v t (leAt d 0x28 8 + len) 16
    match gcmOpen k.material (sliceBytes d 0x10 12) aad ct tag with
    | some pt => ⟨m.descWrite v t (leAt d 0x30 8) pt, St.ok, len % 2 ^ 32, len ≠ 0⟩
    | none => ⟨m.descWrite v t (leAt d 0x30 8) (List.replicate len 0), St.checkFail, 0, len ≠ 0⟩) (fun _ => true)

/-- AES-GCM ENCRYPT: ciphertext, then the tag; a sealing is counted (10 R369). -/
def aesEncrypt (v : Variant) (m : Mach) (t : Nat) (d : List Byte) : DescOut :=
  let len := leAt d 0x38 4
  aesRun v m t d len (len + 16) (fun m k =>
    let aad := m.jobRead v t (leAt d 0x20 8) (leAt d 0x1C 4)
    let pt := m.jobRead v t (leAt d 0x28 8) len
    let r := gcmSeal k.material (sliceBytes d 0x10 12) aad pt
    ⟨(m.countSeal k).descWrite v t (leAt d 0x30 8) (r.1 ++ r.2), St.ok, len % 2 ^ 32, true⟩) KeyRec.maySeal

end Sys2Proof.Machine
end

