-- ==== Sys2Proof/Machine/KeyOps.lean ====
section
/-!
DEFINITION. The key store: its operations, and its migration (10 R367 to R375, 03 R116 to R120).
-/
namespace Sys2Proof

namespace Config
/-- An identity certificate is valid against the manufacturing key (03 R108, R119). -/
opaque certValid : List Byte → Bool
/-- The identity signing and encapsulation keys that a certificate holds (03 R108). -/
opaque certKey : List Byte → Nat → List Byte
/-- MEAS1 is on the approved firmware list of the key-store policy (03 R119), whose contents the spec does not give. -/
opaque meas1Approved : List Byte → Bool
/-- A migration receipt carries a valid signature of the module that it comes from (03 R119). -/
opaque receiptValid : List Byte → Bool
end Config

namespace Machine

/-- A key record as bytes, in the order of R371, its material last. -/
def KeyRec.bytes (k : KeyRec) : List Byte :=
  leBytes 4 k.id ++ leBytes 4 k.gen ++ leBytes 1 (if k.revoked then 2 else 1) ++ leBytes 1 k.policy ++ leBytes 2 k.flags ++
    sliceBytes k.signer 0 32 ++ leBytes 8 k.seals ++ sliceBytes k.material 0 32

/-- A key record without its material, as KEY_LIST returns it (R373). -/
def KeyRec.listed (k : KeyRec) : List Byte := k.bytes.take 52

/-- A key record read from its bytes; an imported one starts SEALS at 0 (R373). -/
def KeyRec.ofBytes (b : List Byte) : KeyRec :=
  { id := leAt b 0 4, gen := leAt b 4 4, revoked := leAt b 8 1 = 2, policy := leAt b 9 1, flags := leAt b 10 2,
    signer := sliceBytes b 12 32, seals := 0, material := sliceBytes b 52 32 }

/-- A change of the store completes: generation, MEAS6 and every adopted carrier (R373). -/
def Mach.storeChanged (m : Mach) : Mach :=
  let g := m.ks.generation + 1
  let m := { m with
    ks := { m.ks with generation := g }
    ftl := { m.ftl with carriers := m.ftl.carriers.map (fun (p : Nat × Carrier) =>
      if p.2.mounted then (p.1, { p.2 with info := { p.2.info with keyGen := g } }) else p) } }
  let m := m.setReg Reg.secKsGen (BitVec.ofNat 64 g)
  m.measureData 6 (m.ks.keys.flatMap KeyRec.listed)

/-- POLICY, FLAGS and SIGNER are permitted (R371, R372). -/
def keyFieldsOk (policy flags : Nat) (signer : List Byte) : Bool :=
  decide (policy < 32) && decide (flags < 2) && signer.length = 32 && (bitAt policy 0 || signer.any (fun b => b ≠ 0))

/-- A key added under the lowest free KEY_ID, with the GEN after its last one; the handle is returned. -/
def Mach.addKey (m : Mach) (n : NvmeCtx) (policy flags : Nat) (signer material : List Byte) : Mach :=
  if 4096 ≤ m.ks.keys.length then m.nvmeDone n St.poolEmpty []
  else if !keyFieldsOk policy flags signer then m.nvmeDone n St.invalidField []
  else
    match ((List.range 4097).map (fun i => i + 1)).find? (fun i => !m.ks.keys.any (fun k => k.id = i)) with
    | none => m.nvmeDone n St.poolEmpty []
    | some id =>
      let g := mapGet (fun _ => 0) m.ks.gens id + 1
      let m := { m with ks := { m.ks with
        keys := m.ks.keys ++ [(⟨id, g, false, policy, flags, signer, 0, sliceBytes material 0 32⟩ : KeyRec)], gens := mapSet m.ks.gens id g } }
      m.storeChanged.nvmeDone n St.ok (leBytes 8 (keyHandle id g))

/-- KEY_CREATE: material drawn in the root of trust. -/
def Mach.keyCreate (m : Mach) (n : NvmeCtx) (policy flags : Nat) (signer : List Byte) : Mach :=
  (m.addKey n policy flags signer (m.drawnBytes 0x373 32)).draw

/-- KEY_IMPORT: the package opened with K; AAD is POLICY, FLAGS and SIGNER. -/
def Mach.keyImport (m : Mach) (n : NvmeCtx) (policy flags : Nat) (signer kem iv ct tag : List Byte) : Mach :=
  let k := shake256 (Config.kemDecaps kem ++ "YLM-KEYIMP".toUTF8.toList.map (fun b => BitVec.ofNat 8 b.toNat)) 32
  let aad := leBytes 1 policy ++ leBytes 2 flags ++ sliceBytes signer 0 32
  if 4096 ≤ m.ks.keys.length then m.nvmeDone n St.poolEmpty []
  else
    match gcmOpen k iv aad ct tag with
    | some mat => if mat.length = 32 then m.addKey n policy flags signer mat else m.nvmeDone n St.checkFail []
    | none =>
      if keyFieldsOk policy flags signer then m.nvmeDone n St.checkFail [] else m.nvmeDone n St.invalidField []

/-- An operation on an existing key. -/
def Mach.withKey (m : Mach) (n : NvmeCtx) (h : Nat) (f : KeyRec → Mach) : Mach :=
  match m.key? h with
  | some k => f k
  | none => m.nvmeDone n St.keyDenied []

/-- KEY_NARROW: a subset of POLICY. -/
def Mach.keyNarrow (m : Mach) (n : NvmeCtx) (h policy : Nat) : Mach :=
  m.withKey n h (fun k =>
    if policy &&& k.policy ≠ policy then m.nvmeDone n St.invalidField []
    else (m.setKey { k with policy := policy }).storeChanged.nvmeDone n St.ok [])

/-- Jobs that hold a key in their table. -/
def Mach.holders (m : Mach) (h : Nat) : List Nat :=
  (m.ks.tables.filter (fun p => p.2.contains (some h))).map (fun p => p.1)

/-- KEY_REVOKE (R373, R375): table entries and lane caches are cleared, and the jobs that hold the key fail. -/
def Mach.keyRevoke (m : Mach) (n : NvmeCtx) (h : Nat) : Mach :=
  m.withKey n h (fun k =>
    let hs := m.holders k.handle
    let m := m.setKey { k with revoked := true }
    let m := { m with
      ks := { m.ks with tables := m.ks.tables.map (fun (p : Nat × List (Option Nat)) =>
        (p.1, p.2.map (fun e => if e = some k.handle then none else e))) }
      tl := { m.tl with tiles := m.tl.tiles.map (fun (p : Nat × Tile) => (p.1, { p.2 with keyCache := [] })) } }
    (hs.foldl (fun m j => m.jobFail j St.keyDenied) m).storeChanged.nvmeDone n St.ok [])

/-- KEY_DESTROY: a revoked key that no job holds and no namespace is bound to. -/
def Mach.keyDestroy (m : Mach) (n : NvmeCtx) (h : Nat) : Mach :=
  m.withKey n h (fun k =>
    if !k.revoked || !(m.holders k.handle).isEmpty || m.ftl.nss.any (fun p => p.2.key = k.handle) then
      m.nvmeDone n St.keyDenied []
    else
      ({ m with ks := { m.ks with keys := m.ks.keys.filter (fun x => x.id ≠ k.id) } }).storeChanged.nvmeDone n St.ok [])

/-- KEY_LIST: every record without its material. -/
def Mach.keyList (m : Mach) (n : NvmeCtx) : Mach := m.nvmeDone n St.ok (m.ks.keys.flatMap KeyRec.listed)

/-! ### Migration (R119, R120) -/

/-- K of a migration. -/
def migKey (s nonce : List Byte) : List Byte :=
  shake256 (s ++ nonce ++ "YLM-MIG".toUTF8.toList.map (fun b => BitVec.ofNat 8 b.toNat)) 32

/-- Step 1: the replacement requests keys. -/
def Mach.keyRequest (m : Mach) (source : Nat) : Mach :=
  if m.fld Reg.glbAdopt 7 4 ≠ 0 then
    let m := m.setBit Reg.glbAdopt 31 true
    ({ m with boot := { m.boot with migration := .requested } }).send (.migration 1 source [])
  else m

/-- Steps 2 and 3: the source sends its nonce to a node, or the replacement answers one with its certificate and
report. -/
def Mach.migNonce (v : Variant) (m : Mach) (dst : Option Nat) (nonce : List Byte) : Mach :=
  match dst with
  | some node => ({ m with boot := { m.boot with migration := .offered nonce } }).send (.migration 2 node nonce)
  | none =>
    if m.boot.migration = .requested then
      ({ m with boot := { m.boot with migration := .reported nonce } }).send
        (.migration 3 0 (Config.certificate ++ m.attestation (capWords v) nonce))
    else m

/-- Step 4: the source's checks of certificate and report. -/
def Mach.reportAccepted (m : Mach) (cert report nonce : List Byte) : Bool :=
  Config.certValid cert && sliceBytes report 8 32 = sliceBytes nonce 0 32 && leAt report 0 4 = 0x50525441 &&
    Config.mldsaVerify (Config.certKey cert 0) (shake256 (sliceBytes report 0 0x2C0) 64) (sliceBytes report 0x2C0 3309) &&
    Config.meas1Approved (sliceBytes report (0x98 + 64) 64) && decide (m.boot.fwMinSvn ≤ leAt report 0x78 1) &&
    !bitAt (leAt report 6 2) 0

/-- Steps 4 and 5: the source, with its own store or one that it holds in escrow, sends the sealed package. -/
def Mach.migAttest (m : Mach) (cert report : List Byte) (node : Nat) (esc : Option Nat) : Mach :=
  match m.boot.migration with
  | .offered nonce =>
    if m.reportAccepted cert report nonce then
      let src : Escrow := match esc with
        | some i => m.ks.escrow.getD i ⟨0, 0, []⟩
        | none => ⟨m.ftl.setId, m.ks.generation, m.ks.keys⟩
      let e := Config.kemEncaps (Config.certKey cert 1) m.draws
      let iv := m.drawnBytes 0x119 12
      let m := m.draw
      let r := gcmSeal (migKey e.2 nonce) iv []
        (leBytes 8 src.setId ++ leBytes 8 src.generation ++ src.keys.flatMap KeyRec.bytes)
      ({ m with boot := { m.boot with migration := .sent } }).send
        (.migration 5 node (e.1 ++ leBytes 8 src.setId ++ leBytes 8 src.generation ++ iv ++ r.1 ++ r.2))
    else { m with boot := { m.boot with migration := .idle } }
  | _ => m

/-- The highest key-store generation that an adopted carrier needs. -/
def Mach.neededGen (m : Mach) : Nat :=
  (m.ftl.carriers.filter (fun p => p.2.mounted)).foldl (fun a p => max a p.2.info.keyGen) 0

/-- Step 6 (R119, R120): the replacement opens and checks the package, takes the keys and returns a receipt. -/
def Mach.migPackage (m : Mach) (p : MigPackage) : Mach :=
  let nonce? : Option (List Byte × Nat) := match m.boot.migration with
    | .reported n => some (n, 0)
    | .imported g => some ([], g)
    | _ => none
  match nonce? with
  | none => m
  | some (nonce, old) =>
    if p.setId ≠ m.ftl.setId || p.generation < m.neededGen then m.countDenied St.keyDenied
    else if p.generation = old then m
    else
      let iv := sliceBytes p.sealed 0 12
      let n := p.sealed.length - 28
      match gcmOpen (migKey (Config.kemDecaps p.ciphertext) nonce) iv [] (sliceBytes p.sealed 12 n)
          (sliceBytes p.sealed (12 + n) 16) with
      | none => m
      | some b =>
        if leAt b 0 8 ≠ p.setId || leAt b 8 8 ≠ p.generation then m
        else
          let recs := (List.range ((b.length - 16) / 84)).map (fun i => KeyRec.ofBytes (sliceBytes b (16 + 84 * i) 84))
          let m := { m with
            ks := { m.ks with keys := recs, generation := p.generation,
                              gens := recs.foldl (fun (s : SMap Nat) (k : KeyRec) => mapSet s k.id k.gen) m.ks.gens }
            boot := { m.boot with migration := .imported p.generation }
            ftl := { m.ftl with carriers := m.ftl.carriers.map (fun (c : Nat × Carrier) =>
              if c.2.mounted then
                (c.1, { c.2 with info := { c.2.info with ident := shake256 (Config.identityKey 0) 32 } }) else c) } }
          let m := (m.setReg Reg.secKsGen (BitVec.ofNat 64 p.generation)).setBit Reg.glbAdopt 31 false
          (m.setFld Reg.glbAdopt 7 4 0).send (.migration 6 0 (Config.mldsaSign 0 (leBytes 8 p.setId ++ leBytes 8 p.generation)))

/-- A predecessor that receives the receipt erases its own key store; the manager keeps its escrow (R120). -/
def Mach.migReceipt (m : Mach) (receipt : List Byte) : Mach :=
  if m.boot.migration = .sent && Config.receiptValid receipt then
    let m := { m with boot := { m.boot with migration := .idle } }
    if m.fld Reg.spnState 5 4 = 2 then m
    else { m with ks := { m.ks with keys := [], generation := 0 } }
  else m

end Machine
end Sys2Proof
end

