-- ==== Sys2Proof/Machine/SpinOps.lean ====
section
/-!
DEFINITION. The spindle count, its synchronisation, and the protocol of manager and workers
(12_spindle_count_and_determinism.md R415 to R438).
-/
namespace Sys2Proof.Machine

/-! ### Roles and the count -/

/-- ROLE of SPN_STATE: 0 standalone, 1 worker, 2 manager. -/
def Mach.role (m : Mach) : Nat := m.fld Reg.spnState 5 4

/-- STATE of SPN_STATE: 0 OWN, 1 ACQUIRING, 2 LOCKED, 3 HOLDOVER, 4 UNSYNC. -/
def Mach.sync (m : Mach) : Nat := m.fld Reg.spnState 2 0

/-- A job slot of the module is held (R417). -/
def Mach.anyJob (m : Mach) : Bool := !m.jobs.slots.isEmpty

def Mach.updSpn (m : Mach) (f : Spindle → Spindle) : Mach := { m with spn := f m.spn }

/-- The count stepped by a signed number of nanoseconds; STEPPED is set (R422, R426). -/
def Mach.stepCount (m : Mach) (by_ : Int) : Mach :=
  (m.updSpn (fun s => { s with count := unsignedOf 64 ((s.count : Int) + by_) })).setBit Reg.spnState 31 true

/-- What is left to slew out (R422); SLEWING while it is not 0. -/
def Mach.setSlew (m : Mach) (d : Int) : Mach := (m.updSpn (fun s => { s with slewLeft := d })).setBit Reg.spnState 30 (d ≠ 0)

/-- A SPINDLE_STATE record: old and new STATE, ERR_BOUND (17 R618). -/
def Mach.setSync (m : Mach) (st : Nat) : Mach :=
  let old := m.sync
  if old = st then m
  else (m.setFld Reg.spnState 2 0 st).record 0x0060 (sourceOf 0 0) St.ok
    (payloadOf [(1, old), (1, st), (2, m.fld Reg.spnErr 15 0)])

/-- ERR_BOUND set; MAX_ERR follows it (SPN_ERR). -/
def Mach.setErr (m : Mach) (e : Nat) : Mach :=
  let e := min e 0xFFFF
  (m.setFld Reg.spnErr 15 0 e).setFld Reg.spnErr 31 16 (max e (m.fld Reg.spnErr 31 16))

/-- A signed value in 32 bits, saturating at plus and minus (2^31 - 1) (SPN_OFFSET). -/
def sat32 (i : Int) : Nat := unsignedOf 32 (max (-(2 ^ 31 - 1)) (min (2 ^ 31 - 1) i))

/-- Accepted windows counted anew. -/
def Mach.restartWindows (m : Mach) : Mach :=
  m.updSpn (fun s => { s with exch := none, seen := 0, window := [], delays := [], accepted := 0, lastAccept := s.count })

/-- The signed difference of two counts (R416). -/
def countDiff (a b : Nat) : Int := signedOf 64 (unsignedOf 64 ((a : Int) - (b : Int)))

/-- theta and delay of an exchange (R419). -/
def theta (t1 t2 t3 t4 : Nat) (asym : Int) : Int := (countDiff t2 t1 - countDiff t4 t3) / 2 + asym
def pathDelay (t1 t2 t3 t4 : Nat) : Int := (countDiff t2 t1 + countDiff t4 t3) / 2

/-- ASYM_NS of SPN_CFG. -/
def Mach.asym (m : Mach) : Int := signedOf 8 (m.fld Reg.spnCfg 31 24)

/-- An accepted window: its exchange of least delay gives SPN_OFFSET and SPN_DELAY, and theta is stepped or slewed out
(R420 to R422). -/
def Mach.windowAccepted (m : Mach) (th dl : Int) (est : Nat) : Mach :=
  let m := m.addFld Reg.spnExch 31 16 1
  let m := m.setReg Reg.spnOffset (BitVec.ofNat 64 (sat32 th))
  let m := m.setReg Reg.spnDelay (BitVec.ofNat 64 (sat32 dl))
  let m := m.updSpn (fun s => { s with accepted := s.accepted + 1, lastAccept := s.count })
  let m := m.setErr est
  let m := if 1000 < th.natAbs && !m.anyJob then (m.stepCount (-th)).setSlew 0 else m.setSlew th
  let m := (m.setReg Reg.spnRate (BitVec.ofNat 64 (sat32 (max (-200000) (min 200000 (signedOf 32 (m.drawn 0x422))))))).draw
  if m.sync ≠ 2 && m.sync ≠ 0 && 16 ≤ m.spn.accepted && est ≤ 20 then
    ((m.setSync 2).setFld Reg.spnErr 31 16 (min est 0xFFFF))
  else m

/-- An exchange evaluated (R419, R420): rejected where its stamps are out of order or its delay is over 200 ns above the
smallest of the last second; every sixteenth closes the window. -/
def Mach.exchange (m : Mach) (t1 t2 t3 t4 est : Nat) : Mach :=
  let th := theta t1 t2 t3 t4 m.asym
  let dl := pathDelay t1 t2 t3 t4
  let order := countReached t3 t2 && countReached t4 t1
  let now := m.spn.count
  let recent := m.spn.delays.filter (fun d => now < d.1 + 1000000000)
  let least := (recent.map (fun d => d.2)).min?
  let near : Bool := match least with | some x => decide (dl ≤ x + 200) | none => true
  let m := m.updSpn (fun s => { s with
    delays := if order then (now, dl) :: recent else recent
    window := if order && near then s.window ++ [(th, dl)] else s.window
    seen := s.seen + 1 })
  let m := if order && near then m else m.addFld Reg.spnExch 15 0 1
  if m.spn.seen < 16 then m
  else
    let w := m.spn.window
    let m := m.updSpn (fun s => { s with window := [], seen := 0 })
    match (w.map (fun p => p.2)).min? with
    | some d =>
      match w.find? (fun p => p.2 = d) with
      | some p => m.windowAccepted p.1 p.2 est
      | none => m
    | none => m

/-! ### Messages -/

def Mach.tell (m : Mach) (node : Nat) (c : CtlMsg) : Mach := m.send (.ctl node c)

def Mach.member? (m : Mach) (node : Nat) : Option Member := mapFind m.spn.members node

/-- The machine with a worker's record replaced; JOINED of SPN_MEMBERS follows. -/
def Mach.setMember (m : Mach) (node : Nat) (x : Member) : Mach :=
  let m := m.updSpn (fun s => { s with members := mapSet s.members node x })
  m.setFld Reg.spnMembers 10 0 (m.spn.members.filter (fun p => p.2.joined)).length

/-- A record changed if the manager has one of the node. -/
def Mach.onMember (m : Mach) (node : Nat) (f : Member → Member) : Mach :=
  match m.member? node with
  | some x => m.setMember node (f x)
  | none => m

def Mach.joinedCount (m : Mach) : Nat := (m.spn.members.filter (fun p => p.2.joined)).length

/-- The fabric port of a node's first path (0 where the node table has none). -/
def Mach.nodePort (m : Mach) (node : Nat) : Nat :=
  match mapFind m.xp.nodes node with
  | some p => ((p.paths.head?).map (fun x => x.2.port)).getD 0
  | none => 0

/-- A refusal at JOIN recorded (R428): NOTICE 0x0008. -/
def Mach.joinRefused (m : Mach) (node st : Nat) : Mach := m.notice 0x0008 (sourceOf 8 (m.nodePort node)) node st

/-! ### Joining (R428, R436, R437) -/

/-- A worker greets its manager. -/
def Mach.greet (m : Mach) : Mach :=
  let node := m.fld Reg.spnMgrNode 31 0
  if m.role = 1 && node ≠ 0 then (m.updSpn (fun s => { s with phase := .greeted })).tell node .hello else m

/-- A write of NODE: a worker leaves its manager and greets the new one; no count is kept against the old one. -/
def Mach.newManager (m : Mach) (node : Nat) : Mach :=
  let old := m.fld Reg.spnMgrNode 31 0
  let m := if m.role = 1 && m.spn.phase = .joined then m.tell old .leave else m
  let m := m.setFld Reg.spnMgrNode 31 0 node
  if m.role = 1 then
    (((m.updSpn (fun s => { s with phase := .out, plans := [] })).restartWindows).setSync 4).greet
  else m

/-- The manager receives HELLO and answers with a nonce. -/
def Mach.gotHello (m : Mach) (node : Nat) : Mach :=
  if m.role = 2 then
    let n := m.drawnBytes 0x428 32
    let x : Member := match m.member? node with
      | some x => { x with joined := false, nonce := n, t1 := none, t4 := none, heard := m.spn.count }
      | none => ⟨[], [], [], false, n, none, none, 0, m.spn.count⟩
    (m.draw.setMember node x).tell node (.nonce n)
  else m

/-- The application of a worker: certificate, report on a nonce, CAP words, failure domains, and whether it holds a job. -/
def Mach.application (v : Variant) (m : Mach) (n : List Byte) : CtlMsg :=
  .join Config.certificate (m.attestation (capWords v) n) (capWords v)
    ((List.range 4).map (fun k => (m.reg (Reg.rasFdom k)).toNat)) m.anyJob

/-- The worker receives a nonce from its manager and applies, or attests anew. -/
def Mach.gotNonce (v : Variant) (m : Mach) (node : Nat) (n : List Byte) : Mach :=
  if m.role = 1 && node = m.fld Reg.spnMgrNode 31 0 && m.spn.phase ≠ .out then
    let m := if m.spn.phase = .joined then m else m.updSpn (fun s => { s with phase := .applied })
    m.tell node (m.application v n)
  else m

/-- The manager checks JOIN: WELCOME or REFUSE; a manager whose count has restarted first adopts the count of the first
worker that holds a job (R437). The exchange that it measures by is t1 to t4. -/
def Mach.gotJoin (m : Mach) (node : Nat) (cert report : List Byte) (caps fdoms : List Nat) (hasJob : Bool)
    (t1 t2 t3 t4 : Nat) : Mach :=
  match m.member? node with
  | some x =>
    if m.role ≠ 2 then m
    else if !m.reportAccepted cert report x.nonce then
      ((m.setMember node { x with joined := false }).tell node (.refuse St.keyDenied)).joinRefused node St.keyDenied
    else if !x.joined && 1023 ≤ m.joinedCount then (m.tell node (.refuse St.poolEmpty)).joinRefused node St.poolEmpty
    else
      let th := theta t1 t2 t3 t4 m.asym
      let m := if hasJob && m.spn.fresh && !m.anyJob then
          let m := m.updSpn (fun s => { s with fresh := false })
          if 1000 < th.natAbs then (m.stepCount th).notice 0x0009 (sourceOf 0 0) (unsignedOf 64 th) St.ok else m
        else m
      let m := m.setMember node { x with
        ident := shake256 (Config.certKey cert 0) 32, caps := caps, fdoms := fdoms, joined := true, heard := m.spn.count }
      if x.joined then m else m.tell node (.welcome (m.fld Reg.pwrToleranceNs 31 0))
  | none => m

/-- The worker is joined and begins to synchronise; it takes the manager's tolerance (16 R571). -/
def Mach.gotWelcome (m : Mach) (node tol : Nat) : Mach :=
  if m.role = 1 && node = m.fld Reg.spnMgrNode 31 0 && m.spn.phase = .applied then
    (((m.updSpn (fun s => { s with phase := .joined })).restartWindows).setSync 1).setFld Reg.pwrToleranceNs 31 0 tol
  else m

/-- The worker is refused: it stays unjoined. -/
def Mach.gotRefuse (m : Mach) (node st : Nat) : Mach :=
  if m.role = 1 && node = m.fld Reg.spnMgrNode 31 0 && m.spn.phase ≠ .out then
    ((m.updSpn (fun s => { s with phase := .out })).setSync 4).joinRefused node st
  else m

/-! ### Exchanges (R419) -/

/-- The period timer of a worker at its manager: SYNC with stamp t1 and the last t4. -/
def Mach.sendSync (m : Mach) (node t1 : Nat) : Mach :=
  match m.member? node with
  | some x => if m.role = 2 && x.joined then
      (m.setMember node { x with t1 := some t1, t4 := none }).tell node (.sync t1 x.t4) else m
  | none => m

/-- The worker receives SYNC at t2, answers at t3, and evaluates the exchange that t4 completes; est is its estimate of
the bound of R423. -/
def Mach.gotSync (m : Mach) (node t1 t2 t3 : Nat) (t4 : Option Nat) (est : Nat) : Mach :=
  if m.role = 1 && node = m.fld Reg.spnMgrNode 31 0 && m.spn.phase = .joined then
    let m := m.tell node .syncReply
    let old := m.spn.exch
    let m := m.updSpn (fun s => { s with exch := some (t1, t2, t3) })
    match old, t4 with
    | some (a, b, c), some d => m.exchange a b c d est
    | _, _ => m
  else m

/-- The manager receives SYNC_REPLY at t4, with the worker's t2 and t3. -/
def Mach.gotSyncReply (m : Mach) (node t2 t3 t4 : Nat) : Mach :=
  match m.member? node with
  | some x =>
    match x.t1 with
    | some t1 => if m.role = 2 && x.joined then
        m.setMember node { x with t1 := none, t4 := some t4, delay := (pathDelay t1 t2 t3 t4).toNat, heard := m.spn.count }
      else m
    | none => m
  | none => m

/-- No accepted window for 64 periods: LOCKED becomes HOLDOVER (R421). -/
def Mach.toHoldover (m : Mach) : Mach :=
  let limit := 64 * m.fld Reg.spnCfg 23 16 * 100000
  if m.sync = 2 && m.spn.lastAccept + limit ≤ m.spn.count then
    (m.updSpn (fun s => { s with accepted := 0, holdTicks := 0 })).setSync 3
  else m

/-- ERR_BOUND above UNSYNC_NS: HOLDOVER becomes UNSYNC (R421). -/
def Mach.toUnsync (m : Mach) : Mach :=
  if m.sync = 3 && m.fld Reg.spnCfg 15 0 < m.fld Reg.spnErr 15 0 then
    (m.updSpn (fun s => { s with accepted := 0 })).setSync 4
  else m

/-- Ticks between steps of 1 ns at 100 ppm, and between growths of 1 ns at 100 ns per second, of 40 ns each. -/
def slewPeriod : Nat := 250
def holdPeriod : Nat := 250000

/-- What a tick of 40 ns does to the count: it advances, slewed by 1 ns every 10 µs, and HOLDOVER adds to ERR_BOUND. -/
def Mach.tickSpindle (m : Mach) : Mach :=
  if !m.spn.running then m
  else
    let d := m.spn.slewLeft
    let due := d ≠ 0 && slewPeriod ≤ m.spn.slewTicks + 1
    let adj : Int := if due then (if 0 < d then -1 else 1) else 0
    let m := m.updSpn (fun s => { s with
      count := unsignedOf 64 ((s.count : Int) + 40 + adj)
      slewTicks := if d = 0 || due then 0 else s.slewTicks + 1 })
    let m := if due then m.setSlew (d + adj) else m
    if m.sync = 3 then
      if holdPeriod ≤ m.spn.holdTicks + 1 then
        (m.updSpn (fun s => { s with holdTicks := 0 })).setErr (m.fld Reg.spnErr 15 0 + 1)
      else m.updSpn (fun s => { s with holdTicks := s.holdTicks + 1 })
    else m

/-- A write of SPN_SET (R426). -/
def Mach.spnSet (m : Mach) (w : Writer) (val : Nat) : Mach :=
  let leads := m.spn.starts.any (fun s => s.phase ≠ .over)
  if m.role ≠ 1 && !m.anyJob && !leads then
    (m.updSpn (fun s => { s with count := val % 2 ^ 64 })).setBit Reg.spnState 31 true
  else m.rejected (writerSource w) Reg.spnSet val 4

/-! ### Placing a plan (R430 to R434) -/

/-- Fields in which two failure-domain lists differ (R434). -/
def domainDistance (a b : List Nat) : Nat := ((a.zip b).filter (fun p => p.1 ≠ p.2)).length

/-- The homes of every module index: the owner and the replicas - 1 others that differ most, lowest index first. -/
def cacheHomes (doms : List (List Nat)) (replicas : Nat) : List (List Nat) :=
  doms.zipIdx.map (fun o =>
    let others := (doms.zipIdx.filter (fun p => p.2 ≠ o.2)).map (fun p => (domainDistance o.1 p.1, p.2))
    let sorted := others.mergeSort (fun a b => b.1 < a.1 || (a.1 = b.1 && a.2 ≤ b.2))
    o.2 :: (sorted.map (fun p => p.2)).take (replicas - 1))

/-- The children of place n of a tree of fan-out 8 over k workers; place 0 is the manager. -/
def treeChildren (ws : List Nat) (n : Nat) : List Nat := (ws.drop (8 * n)).take 8

def Mach.setStart (m : Mach) (r : StartRec) : Mach :=
  m.updSpn (fun s => { s with starts := s.starts.map (fun x => if x.planSeq = r.planSeq then r else x) })

def Mach.start? (m : Mach) (planSeq : Nat) : Option StartRec := m.spn.starts.find? (fun s => s.planSeq = planSeq)

/-- The RESULT of a start: slot and PLAN_SEQ (14 R523). -/
def StartRec.result (r : StartRec) : Nat := r.slot + r.planSeq * 2 ^ 32

/-- The module's own job of a start. -/
def Mach.ownJob (m : Mach) (r : StartRec) : Option Nat :=
  if r.mods.any (fun x => x.node.isNone && x.refused.isNone) then
    match m.job? r.slot with
    | some x => if x.planSeq = r.planSeq then some r.slot else none
    | none => none
  else none

/-- A start is cancelled (R432): CANCEL to every module, and the entry completes. -/
def Mach.cancelStart (m : Mach) (r : StartRec) (absent : Bool) : Mach :=
  let st := worst (r.mods.map (fun x => x.refused.getD (if absent && x.ready.isNone then St.unitAbsent else St.ok)))
  let m := r.mods.foldl (fun m x => match x.node with | some n => m.tell n (.cancel r.planSeq) | none => m) m
  let m := match m.ownJob r with | some j => m.jobEnd j 7 St.ok | none => m
  (m.setStart { r with phase := .over }).pipeDone r.port r.q r.cid r.serial r.result st

/-- A number rounded up to a multiple of 1,000. -/
def upMicro (n : Nat) : Nat := (n + 999) / 1000 * 1000

/-- The later of two counts (R416). -/
def laterCount (a b : Nat) : Nat := if countReached a b then a else b

/-- LAUNCH of a start whose modules are all ready (R432). -/
def Mach.goCount (m : Mach) (r : StartRec) : Nat :=
  let ready := (r.mods.filterMap (fun x => x.ready)).foldl laterCount ((r.mods.filterMap (fun x => x.ready)).headD 0)
  let delay := ((r.mods.filterMap (fun x => x.node)).filterMap (fun n => (m.member? n).map (fun x => x.delay))).foldl max 0
  let own := ready + 2 * delay + 1000000
  upMicro (if r.asked = 0 then own else laterCount r.asked own) % 2 ^ 64

/-- GO once every module is ready (R432): the entry completes. -/
def Mach.tryGo (m : Mach) (r : StartRec) : Mach :=
  if r.phase = .preparing && r.mods.all (fun x => x.ready.isSome) then
    let launch := m.goCount r
    let m := r.mods.foldl (fun m x => match x.node with | some n => m.tell n (.go r.planSeq launch) | none => m) m
    let m := m.setStart { r with phase := .launched }
    let m := match m.ownJob r with | some j => m.fixLaunch j launch | none => m
    m.pipeDone r.port r.q r.cid r.serial r.result St.ok
  else m

/-- The manager's own module is ready. -/
def Mach.ownReady (m : Mach) (j : Nat) : Mach :=
  match m.job? j with
  | some x =>
    match m.start? x.planSeq, x.loadedAt with
    | some r, some t =>
      if m.role = 2 && r.slot = j && r.phase = .preparing then
        let r := { r with mods := r.mods.map (fun y => if y.node.isNone then { y with ready := some t } else y) }
        (m.setStart r).tryGo r
      else m
    | _, _ => m
  | none => m

/-- A worker tells its manager that its tables are loaded. -/
def Mach.sayReady (m : Mach) (j : Nat) : Mach :=
  match m.job? j with
  | some x =>
    match x.owner, x.loadedAt with
    | .manager node, some t => if x.state = 2 then m.tell node (.ready x.planSeq t) else m
    | _, _ => m
  | none => m

/-- TABLE_SET_LOADED (04 R145): the last cluster's load makes the job ready. -/
def Mach.tableLoaded (m : Mach) (c j : Nat) : Mach :=
  let before := (m.job? j).bind (fun x => x.loadedAt)
  let m := m.tableSetLoaded c j
  if before.isNone then (m.sayReady j).ownReady j else m

/-- The node of the joined worker with an identity digest. -/
def Mach.nodeOf (m : Mach) (ident : List Byte) : Option Nat :=
  (m.spn.members.find? (fun p => p.2.joined && p.2.ident = ident)).map (fun p => p.1)

/-- ACTIVE_TILES of a CAP word list (00 R8). -/
def capActive (caps : List Nat) : Nat := bitsOf (caps.getD 1 0) 13 4

/-! ### The worker's side -/

/-- PREPARE: the staging area is carved; the attestation is repeated. -/
def Mach.gotPrepare (v : Variant) (m : Mach) (node planSeq : Nat) (nonce digest : List Byte) (len k modules l : Nat)
    (children : List Nat) (homes : List (List Nat)) : Mach :=
  if m.role = 1 && node = m.fld Reg.spnMgrNode 31 0 && m.spn.phase = .joined then
    let m := m.tell node (m.application v nonce)
    match m.carveArea 0x40 len with
    | some (a, m) => m.updSpn (fun s => { s with
        plans := (s.plans.filter (fun p => p.planSeq ≠ planSeq)) ++ [⟨planSeq, digest, len, k, modules, l, children, homes, a⟩] })
    | none => m.tell node (.refusePlan planSeq St.poolEmpty)
  else m

/-- A staging area given back. -/
def Mach.dropArea (m : Mach) (a : Nat) : Mach :=
  { m with mem := { m.mem with areas := m.mem.areas.filter (fun x => !(x.job = 0x40 && x.base = a)) } }

/-- The image has arrived in the staging area: digest, forwarding, acceptance, READY or REFUSE_PLAN (R431). -/
def Mach.imageStaged (v : Variant) (m : Mach) (planSeq : Nat) (image : List Byte) : Mach :=
  match m.spn.plans.find? (fun p => p.planSeq = planSeq) with
  | some p =>
    let node := m.fld Reg.spnMgrNode 31 0
    let m := m.updSpn (fun s => { s with plans := s.plans.filter (fun x => x.planSeq ≠ planSeq) })
    let bytes := sliceBytes image 0 p.len
    if shake256 bytes 32 ≠ p.digest then (m.dropArea p.area).tell node (.refusePlan planSeq St.checkFail)
    else
      let m := m.devWrite v p.area bytes
      let m := p.children.foldl (fun m n => m.send (.stage n planSeq bytes)) m
      let r := m.jobAccept v ⟨p.area, p.len, .manager node, planSeq, 0, p.m, p.l, p.homes, true⟩
      if r.1 = St.ok then
        let j := r.2.1
        let m := { r.2.2 with mem := { r.2.2.mem with areas := r.2.2.mem.areas.map (fun (x : Area) =>
          if x.job = 0x40 && x.base = p.area then { x with job := j } else x) } }
        m.sayReady j
      else (r.2.2.dropArea p.area).tell node (.refusePlan planSeq r.1)
  | none => m

/-- The worker's job of a plan: the one with this PLAN_SEQ that has not ended. -/
def Mach.planJob (m : Mach) (node planSeq : Nat) : Option Nat :=
  (m.jobs.slots.find? (fun p => p.2.planSeq = planSeq && p.2.owner = .manager node && p.2.live)).map (fun p => p.1)

/-- GO (R433). -/
def Mach.gotGo (m : Mach) (node planSeq launch : Nat) : Mach :=
  match m.planJob node planSeq with
  | some j => m.fixLaunch j launch
  | none => m

/-- CANCEL (R433): the job, or the plan not yet accepted. -/
def Mach.gotCancel (m : Mach) (node planSeq : Nat) : Mach :=
  if node ≠ m.fld Reg.spnMgrNode 31 0 then m
  else
    let m := match m.spn.plans.find? (fun p => p.planSeq = planSeq) with
      | some p => (m.updSpn (fun s => { s with plans := s.plans.filter (fun x => x.planSeq ≠ planSeq) })).dropArea p.area
      | none => m
    match m.planJob node planSeq with
    | some j => m.jobEnd j 7 St.ok
    | none => m

/-- A module of a plan is lost: its samples are media failures from now on (R435). -/
def Mach.moduleLost (m : Mach) (j k : Nat) : Mach :=
  match m.job? j with
  | some x => if x.live && !x.lost.contains k then m.setJob j { x with lost := x.lost ++ [k] } else m
  | none => m

/-- LOST (R435). -/
def Mach.gotLost (m : Mach) (node planSeq k : Nat) : Mach :=
  match m.planJob node planSeq with
  | some j => m.moduleLost j k
  | none => m

/-! ### The manager's side -/

def StartRec.onNode (r : StartRec) (node : Nat) (f : StartMod → StartMod) : StartRec :=
  { r with mods := r.mods.map (fun x => if x.node = some node then f x else x) }

/-- READY (R432). -/
def Mach.gotReady (m : Mach) (node planSeq count : Nat) : Mach :=
  match m.start? planSeq with
  | some r =>
    if m.role = 2 && r.phase = .preparing then
      let r := r.onNode node (fun x => { x with ready := some count })
      ((m.onMember node (fun x => { x with heard := m.spn.count })).setStart r).tryGo r
    else m
  | none => m

/-- REFUSE_PLAN (R432). -/
def Mach.gotRefusePlan (m : Mach) (node planSeq st : Nat) : Mach :=
  match m.start? planSeq with
  | some r =>
    if m.role = 2 && r.phase = .preparing && r.mods.any (fun x => x.node = some node) then
      (m.onMember node (fun x => { x with heard := m.spn.count })).cancelStart
        (r.onNode node (fun x => { x with refused := some st })) false
    else m
  | none => m

/-- 120 s have passed since PREPARE (R432). -/
def Mach.prepareTimeout (m : Mach) (planSeq : Nat) : Mach :=
  match m.start? planSeq with
  | some r =>
    if r.phase = .preparing && countReached m.spn.count (r.sentAt + 120000000000) then m.cancelStart r true else m
  | none => m

/-- The job digest once every module's digest is in (R448). -/
def Mach.formDigest (m : Mach) (r : StartRec) : Mach :=
  let ds := r.mods.filterMap (fun x => x.digest)
  let ended := r.mods.all (fun x => x.digest.isSome || x.lost)
  let kept : Bool := match m.job? r.slot with | some x => x.planSeq = r.planSeq | none => true
  let nr : Bool := match m.job? r.slot with | some x => x.nonrepro | none => false
  if kept then
    let m := m.setStart (if ended then { r with phase := .over } else r)
    if ds.length = r.mods.length then (m.putDigest (Reg.spnJobDig r.slot) (jobDigest ds)).digStat r.slot true nr ds.length
    else m.digStat r.slot false nr ds.length
  else m.setStart (if ended then { r with phase := .over } else r)

/-- REPORT (R429, R448): statistics, and at the end the module digest. -/
def Mach.gotReport (m : Mach) (node planSeq : Nat) (stats : List Nat) (digest : Option (List Byte)) : Mach :=
  match m.start? planSeq with
  | some r =>
    if m.role = 2 && r.phase = .launched then
      let r := r.onNode node (fun x => { x with stats := stats, digest := if digest.isSome then digest else x.digest })
      let m := (m.onMember node (fun x => { x with heard := m.spn.count })).setStart r
      if digest.isSome then m.formDigest r else m
    else m
  | none => m

/-- The manager's own module of a led job is done: its module digest joins the others. -/
def Mach.ownDigest (m : Mach) (j : Nat) : Mach :=
  match m.job? j with
  | some x =>
    match m.start? x.planSeq with
    | some r =>
      if m.role = 2 && x.state = 5 && r.slot = j && r.phase = .launched &&
          r.mods.any (fun y => y.node.isNone && y.digest.isNone) then
        let r := { r with mods := r.mods.map (fun y =>
          if y.node.isNone then { y with digest := some (m.moduleDigest x), stats := x.stats } else y) }
        (m.setStart r).formDigest r
      else m
    | none => m
  | none => m

/-- A worker is lost (R435): LOST to every other module of its jobs. -/
def Mach.workerLost (m : Mach) (node : Nat) : Mach :=
  let m := m.onMember node (fun x => { x with joined := false })
  m.spn.starts.foldl (fun m r =>
    if r.phase = .over then m
    else
      r.mods.zipIdx.foldl (fun m p =>
        if p.1.node = some node && !p.1.lost then
          let m := m.setStart (r.onNode node (fun x => { x with lost := true }))
          let m := r.mods.foldl (fun m y => match y.node with
            | some n => if n = node then m else m.tell n (.lost r.planSeq p.2)
            | none => m) m
          match m.ownJob r with | some j => m.moduleLost j p.2 | none => m
        else m) m) m

/-- LEAVE from a worker. -/
def Mach.gotLeave (m : Mach) (node : Nat) : Mach := if m.role = 2 then m.workerLost node else m

/-- A worker has been silent for 1 s. -/
def Mach.workerSilent (m : Mach) (node : Nat) : Mach :=
  match m.member? node with
  | some x => if m.role = 2 && x.joined && x.heard + 1000000000 ≤ m.spn.count then m.workerLost node else m
  | none => m

/-- A lost manager has returned: the worker joins anew (R436). -/
def Mach.rejoin (m : Mach) : Mach :=
  if m.role = 1 then (m.updSpn (fun s => { s with phase := .out })).greet else m

/-- Digests of the manager's own modules that have become due. -/
def Mach.settleDigests (m : Mach) : Mach := (List.range 16).foldl (fun m j => m.ownDigest j) m

/-! ### JOB_START (14 R523 to R526) -/

/-- Nodes of the listed modules: the manager itself is some none; none where one has not joined. -/
def Mach.listed (m : Mach) (ids : List (List Byte)) : Option (List (Option Nat)) :=
  ids.foldr (fun d acc =>
    let x : Option (Option Nat) := if d = shake256 (Config.identityKey 0) 32 then some none else (m.nodeOf d).map some
    match x, acc with
    | some n, some l => some (n :: l)
    | _, _ => none) (some [])

/-- CAP words and failure domains of a listed module. -/
def Mach.modCaps (v : Variant) (m : Mach) (n : Option Nat) : List Nat :=
  match n with
  | some k => match m.member? k with | some x => x.caps | none => []
  | none => capWords v
def Mach.modDoms (m : Mach) (n : Option Nat) : List Nat :=
  match n with
  | some k => match m.member? k with | some x => x.fdoms | none => []
  | none => (List.range 4).map (fun k => (m.reg (Reg.rasFdom k)).toNat)

/-- PREPARE to one worker, with a fresh nonce (R428, R431). -/
def Mach.sendPrepare (m : Mach) (node planSeq : Nat) (digest : List Byte) (len k modules l : Nat) (children : List Nat)
    (homes : List (List Nat)) : Mach :=
  let n := m.drawnBytes 0x428 32
  ((m.draw).onMember node (fun x => { x with nonce := n })).tell node (.prepare planSeq n digest len k modules l children homes)

/-- The job of a manager and its workers started (R430 to R432). -/
def Mach.startMany (v : Variant) (m : Mach) (c : PipeCtx) (serial addr len launch : Nat) (ns : List (Option Nat)) : Mach :=
  let r := m.rawImage v addr len
  let i := r.parse
  let seq := (m.spn.planSeq + 1) % 2 ^ 32
  let m := m.updSpn (fun s => { s with planSeq := seq })
  let l := if i.l ≠ 0 then i.l else (((ns.map (fun n => capActive (m.modCaps v n))).min?).getD 0)
  let homes := match i.cache with
    | some cs => cacheHomes (ns.map m.modDoms) cs.replicas
    | none => ns.zipIdx.map (fun p => [p.2])
  let ws := ns.filterMap id
  let digest := shake256 r.bytes 32
  let m := ns.zipIdx.foldl (fun m p => match p.1 with
    | some n => m.sendPrepare n seq digest len p.2 ns.length l (treeChildren ws (ws.idxOf n + 1)) homes
    | none => m) m
  let m := (treeChildren ws 0).foldl (fun m n => m.send (.stage n seq r.bytes)) m
  let st : StartRec := {
    planSeq := seq, port := c.port.val, q := c.q.val, cid := c.cid.toNat, serial := serial, asked := launch,
    sentAt := m.spn.count, slot := m.freeJob.getD 0, mods := ns.map (fun n => ⟨n, none, none, none, [], false⟩),
    phase := .preparing }
  let m := m.updSpn (fun s => { s with starts := s.starts ++ [st] })
  match ns.zipIdx.find? (fun p => p.1.isNone) with
  | none => m
  | some p =>
    let own : JobOwner := .pipe c.port.val c.q.val c.cid.toNat serial c.notifyEnd
    let a := m.jobAccept v ⟨addr, len, own, seq, launch, p.2, l, homes, c.port.val = m.hif.owner⟩
    if a.1 = St.ok then
      let st := { st with slot := a.2.1 }
      (a.2.2.setStart st).ownReady a.2.1
    else
      a.2.2.cancelStart { st with mods := st.mods.map (fun y => if y.node.isNone then { y with refused := some a.1 } else y) } false

/-- JOB_START: what stops it before acceptance, then a job on this module alone, or on several (14 R526, R430, R438). -/
def Mach.jobStart (v : Variant) (m : Mach) (c : PipeCtx) (addr len launch list count : Nat) : Mach :=
  m.pipeTake c (fun serial m =>
    let fin (m : Mach) (result st : Nat) : Mach := m.pipeDone c.port.val c.q.val c.cid.toNat serial result st
    let modules := (m.rawImage v addr len).parse.modules
    let shape := if (list ≠ 0 && m.role ≠ 2) || (list = 0 && (1 < modules || count ≠ 0)) || (list ≠ 0 && count ≠ modules) ||
      2 ^ 48 ≤ list || m.launchTooFar launch then St.invalidField else St.ok
    let st := St.first (m.areaStatus addr len) shape
    if st ≠ St.ok then fin m 0 st
    else
      let ids := (List.range (if list = 0 then 0 else count)).map (fun k => m.devRead v (list + 32 * k) 32)
      let alone := list = 0 || ids = [shake256 (Config.identityKey 0) 32]
      if alone then
        let seq := if m.role = 2 then (m.spn.planSeq + 1) % 2 ^ 32 else 0
        let m := if m.role = 2 then m.updSpn (fun s => { s with planSeq := seq }) else m
        let own : JobOwner := .pipe c.port.val c.q.val c.cid.toNat serial c.notifyEnd
        let a := m.jobAccept v ⟨addr, len, own, seq, launch, 0, 0, [[0]], c.port.val = m.hif.owner⟩
        if a.1 = St.ok then
          fin (if launch = 0 then a.2.2 else a.2.2.fixLaunch a.2.1 launch) (a.2.1 + seq * 2 ^ 32) St.ok
        else fin a.2.2 0 a.1
      else
        match m.listed ids with
        | none => fin m 0 St.unitAbsent
        | some ns => m.startMany v c serial addr len launch ns)

/-- JOB_CANCEL (14 R525): the job stops emitting at once, so the entry completes at once. -/
def Mach.jobCancel (m : Mach) (c : PipeCtx) (slot : Nat) : Mach :=
  m.pipeNow c (fun m =>
    let st := if 15 < slot then St.invalidField else m.cancelStatus c.port.val slot
    (0, st, if st = St.ok then m.jobEnd slot 7 St.ok else m))

/-- ENTRY_PLACE (06 R230): the control complex writes an entry into a queue, WAITING or READY; a unit of a job of an
image only once the job runs, its epoch's augmentation is in the ring and the work of its batches has started; one of the
shipped kernels only once its parameter record is settled (09 R336). -/
def Mach.entryPlace (v : Variant) (m : Mach) (toDie : Bool) (n : Nat) (bytes : List Byte) (slotLen : Nat)
    (rows frees : List Nat) (kind : UnitKind) : Mach :=
  let b := sliceBytes bytes 0 64
  let met := m.depMet b
  let may : Bool := match m.job? (entryJob b) with
    | some j => (if j.image?.isSome then j.state = 3 || j.state = 4 else j.live) && (kind = .other || j.augAllows (entryEpoch b)) &&
        (kind ≠ .kernel || j.settled (entryEpoch b) (entryPos b)) && m.rowsStarted j rows
    | none => false
  let place := if toDie then decide (n < dieCount v) && !m.tl.diesOut.contains n && met
    else decide (n < clusterCount v) && !m.tl.diesOut.contains (n / 8) && !m.ps.regionsOff.contains (n / 4) && decide (entryHome b = n)
  if may && place then m.placeUnit toDie n ⟨if met then .ready else .waiting, b, slotLen, .plain, [], 0, none, rows, frees, kind, [], none⟩
  else m

end Sys2Proof.Machine
end

