-- ==== Sys2Proof/Machine/DcOps.lean ====
section
/-!
DEFINITION. The decoded cache (09_decode_augment_cache.md R344 to R351).
-/
namespace Sys2Proof.Machine

namespace Config
/-- INSTANCE of the decode code object, from the PLAN section (08 R280), whose layout the spec does not give. -/
opaque planDecodeCode : List Byte → Nat
end Config

/-- Bytes of a segment, and of an entry with its header (R346). -/
def segSize : Nat := 2 ^ 22
def entrySize (payload : Nat) : Nat := 64 + payload

/-- The tokeniser's tables that an options block names (11 R388). -/
def tokTables (ts : List (List Byte)) (b : List Byte) : List Byte :=
  ([leAt b 0 2, leAt b 2 2, leAt b 4 2, leAt b 6 2].filter (fun i => i ≠ 0xFFFF)).flatMap (tableAt ts)

/-- DEC_DIGEST of an image for a cache point (R345). -/
def decDigest (r : RawImage) (point : Nat) : List Byte :=
  let plan := r.sec 10
  let code := (((r.secs 2).find? (fun s => s.1 = Config.planDecodeCode plan)).map (fun s => s.2)).getD []
  let tok := if point = 1 then tokTables (Config.tableSet (r.sec 3)) ((Config.planTokenise plan).headD []) else []
  (shake256 (code ++ (Config.planDecode plan).headD [] ++ tok) 32).take 8

/-- The key block of a sample (R345). -/
def dcKey (c : CacheSpec) (dig : List Byte) (s : Nat) : List Byte := sliceBytes c.id 0 16 ++ leBytes 6 s ++ leBytes 2 c.point ++ sliceBytes dig 0 8

/-- The bucket of a key (R345). -/
def dcBucket (key : List Byte) : Nat := (gh64 0 key).toNat

/-- The CRC over header and payload: the header's fields in the order in which R346 names them. -/
def dcCrc (key : List Byte) (gen frameLen frameCrc : Nat) (payload : List Byte) : Nat :=
  (crc32c (key ++ leBytes 4 gen ++ leBytes 4 frameLen ++ leBytes 4 frameCrc ++ leBytes 4 payload.length ++ payload)).toNat

def Mach.dc (m : Mach) : DecCache := m.jobs.dc
def Mach.setDc (m : Mach) (d : DecCache) : Mach := { m with jobs := { m.jobs with dc := d } }

/-- How an entry found under a key is judged (R346). -/
inductive DcJudge where
  | hit | stale | badCrc
deriving DecidableEq, Repr

/-- An entry judged against the key and the sample's current index entry. -/
def judgeEntry (key : List Byte) (bucketGen frameLen frameCrc : Nat) (e : DcEntry) : DcJudge :=
  if e.crc ≠ dcCrc e.key e.gen e.frameLen e.frameCrc e.payload then .badCrc
  else if e.key = key && e.gen = bucketGen && e.frameLen = frameLen && e.frameCrc = frameCrc then .hit
  else .stale

/-- The segment that holds a key, with the entry: its place in the list. -/
def DecCache.find (d : DecCache) (key : List Byte) : Option (Nat × DcSeg × DcEntry) :=
  d.segs.zipIdx.findSome? (fun p =>
    if p.1.unlinked.isSome then none
    else match p.1.entries.find? (fun e => e.key = key) with
      | some e => some (p.2, p.1, e)
      | none => none)

/-- A segment replaced. -/
def DecCache.put (d : DecCache) (i : Nat) (s : DcSeg) : DecCache := { d with segs := d.segs.set i s }

/-- The entry of a key dropped from its segment. -/
def DecCache.drop (d : DecCache) (key : List Byte) : DecCache :=
  { d with segs := d.segs.map (fun s => { s with entries := s.entries.filter (fun e => e.key ≠ key) }) }

/-- DC_BAD, and the event where the CRC failed (R346). -/
def Mach.dcBad (m : Mach) (j : Nat) (key : List Byte) (crcFailed : Bool) : Mach :=
  let m := m.addFld Reg.memDcBad 63 0 1
  if crcFailed then m.notice 0x000A (sourceOf 9 j) (dcBucket key) St.checkFail else m

/-- A lookup in this module's own tiers: a hit's payload, and the machine. -/
def Mach.dcLocal (m : Mach) (j : Nat) (key : List Byte) (frameLen frameCrc : Nat) (flashBad : Bool) : Option (List Byte) × Mach :=
  match m.dc.find key with
  | none => (none, m)
  | some (i, s, e) =>
    if s.flash && flashBad then (none, m)
    else
      match judgeEntry key s.gen frameLen frameCrc e with
      | .hit => (some e.payload, m.setDc (m.dc.put i { s with referenced := true }))
      | .stale => (none, (m.setDc (m.dc.drop key)).dcBad j key false)
      | .badCrc => (none, (m.setDc (m.dc.drop key)).dcBad j key true)

/-- A lookup at a remote home by what one-sided reads brought. -/
def Mach.dcRemote (m : Mach) (j : Nat) (key : List Byte) (frameLen frameCrc : Nat) (r : Option DcRemote) : Option (List Byte) × Mach :=
  match r with
  | none => (none, m)
  | some x =>
    match judgeEntry key x.bucketGen frameLen frameCrc ⟨x.key, x.gen, x.frameLen, x.frameCrc, x.payload, x.crc⟩ with
    | .hit => (some x.payload, m)
    | .stale => (none, m.dcBad j key false)
    | .badCrc => (none, m.dcBad j key true)

/-- The homes looked up in order until one hits (R347). -/
def Mach.dcWalk (m : Mach) (j own : Nat) (key : List Byte) (frameLen frameCrc : Nat) (flashBad : Bool) :
    List (Nat × Option DcRemote) → Option (List Byte) × Mach
  | [] => (none, m)
  | (h, r) :: rest =>
    let x := if h = own then m.dcLocal j key frameLen frameCrc flashBad else m.dcRemote j key frameLen frameCrc r
    match x.1 with
    | some b => (some b, x.2)
    | none => Mach.dcWalk x.2 j own key frameLen frameCrc flashBad rest

/-- FRAME_LEN and FRAME_CRC of a sample's index entry: read here for an owned shard, else what a YFT read brought. -/
def Mach.indexOf (m : Mach) (x : Job) (i : JobImage) (s : Nat) (remote : Option (Nat × Nat)) (bad : List Nat) : Option (Nat × Nat) :=
  match shardOf i s with
  | none => none
  | some (_, sh) =>
    if sh.owner = x.m then
      match m.ns? sh.nsid with
      | none => none
      | some n =>
        match m.readIndex n sh (s - sh.first) bad with
        | .frame _ len crc => some (len, crc)
        | _ => none
    else remote

/-- The homes of a sample: those of its shard's owner (R347). -/
def Job.homesOf (x : Job) (i : JobImage) (s : Nat) : List Nat :=
  match shardOf i s with
  | some (_, sh) => x.homes.getD sh.owner [sh.owner]
  | none => []

/-- A position whose sample may still be looked up or offered. -/
def Job.wants (x : Job) (i : JobImage) (epoch p : Nat) : Bool :=
  (x.state = 3 || x.state = 4) && i.first ≤ epoch && epoch < i.first + i.epochs && posModule i x.modules p = x.m &&
    (x.result epoch p).isNone

/-- DC_LOOKUP: a hit serves the sample from the cache, into buffers of the job (R346, R347). -/
def Mach.dcLookup (v : Variant) (m : Mach) (j epoch p : Nat) (index : Option (Nat × Nat)) (found : List (Option DcRemote))
    (bad : List Nat) (flashBad : Bool) : Mach :=
  match m.job? j with
  | none => m
  | some x =>
    match x.image? with
    | none => m
    | some i =>
      match i.cache with
      | none => m
      | some c =>
        let s := posSample i epoch p
        if !x.wants i epoch p || x.fetched.any (fun f => f.1 = (epoch, p)) then m
        else
          match m.indexOf x i s index bad with
          | none => m
          | some (len, crc) =>
            let key := dcKey c (decDigest (m.rawImage v x.imageAddr x.imageLen) c.point) s
            let homes := (x.homesOf i s).filter (fun h => !x.lost.contains h)
            let r := m.dcWalk j x.m key len crc flashBad (homes.zipIdx.map (fun h => (h.1, (found.getD h.2 none))))
            match r.1 with
            | none => r.2.addFld Reg.memDcMisses 63 0 1
            | some b =>
              let m := r.2.addFld Reg.memDcHits 63 0 1
              match m.takeBufs (0x10 + j) b.length with
              | some (hs, m) => (m.fillBufs v hs b).setJob j { x with fetched := x.fetched ++ [((epoch, p), ⟨hs, b.length, none⟩)] }
              | none => m

/-- DC_OFFER: the decoded sample offered to every home; a sample over 4 MiB - 64 bytes is never cached (R346, R347). -/
def Mach.dcOffer (v : Variant) (m : Mach) (j epoch p : Nat) (payload : List Byte) (index : Option (Nat × Nat)) (bad : List Nat) : Mach :=
  match m.job? j with
  | none => m
  | some x =>
    match x.image? with
    | none => m
    | some i =>
      match i.cache with
      | none => m
      | some c =>
        let s := posSample i epoch p
        if !x.wants i epoch p || segSize < entrySize payload.length then m
        else
          match m.indexOf x i s index bad with
          | none => m
          | some (len, crc) =>
            let key := dcKey c (decDigest (m.rawImage v x.imageAddr x.imageLen) c.point) s
            (x.homesOf i s).foldl (fun m h =>
              if h = x.m then m.setDc { m.dc with ring := m.dc.ring ++ [⟨key, 0, len, crc, payload, 0⟩] }
              else m.send (.offer h ⟨key, 0, 0, len, crc, payload, dcCrc key 0 len crc payload⟩)) m

/-! ### Filling (R348, R349) -/

/-- Segments of a tier that are in use, unlinked ones among them. -/
def DecCache.inTier (d : DecCache) (flash : Bool) : Nat := (d.segs.filter (fun s => s.flash = flash)).length

def DcSeg.used (s : DcSeg) : Nat := (s.entries.map (fun e => entrySize e.payload.length)).sum

/-- Room for an entry in a tier's newest segment, or in a new one. -/
def DecCache.fits (d : DecCache) (flash : Bool) (n : Nat) : Bool :=
  match (d.segs.filter (fun s => s.flash = flash && s.unlinked.isNone)).getLast? with
  | some s => decide (s.used + n ≤ segSize) || decide (d.inTier flash < if flash then d.flashSegs else d.gddrSegs)
  | none => decide (d.inTier flash < if flash then d.flashSegs else d.gddrSegs)

/-- An entry as it lies in a segment of a generation. -/
def DcEntry.sealed (e : DcEntry) (gen : Nat) : DcEntry :=
  { e with gen := gen, crc := dcCrc e.key gen e.frameLen e.frameCrc e.payload }

/-- An entry published: payload, header, then bucket (R348). -/
def DecCache.publish (d : DecCache) (flash : Bool) (e : DcEntry) : DecCache :=
  let n := entrySize e.payload.length
  let d := d.drop e.key
  match (d.segs.zipIdx.filter (fun p => p.1.flash = flash && p.1.unlinked.isNone)).getLast? with
  | some (s, i) =>
    if s.used + n ≤ segSize then d.put i { s with entries := s.entries ++ [e.sealed s.gen] }
    else { d with
      segs := d.segs ++ [⟨flash, d.nextGen, false, [e.sealed d.nextGen], none⟩]
      nextGen := (d.nextGen + 1) % 2 ^ 32 }
  | none => { d with
      segs := d.segs ++ [⟨flash, d.nextGen, false, [e.sealed d.nextGen], none⟩]
      nextGen := (d.nextGen + 1) % 2 ^ 32 }

/-- The clock hand goes on until it meets an unreferenced segment of a tier: its place, and the reference bits cleared. -/
def clockHand (flash : Bool) : Nat → List DcSeg → Nat → Option (Nat × List DcSeg)
  | 0, _, _ => none
  | f + 1, segs, h =>
    let i := if segs.length ≤ h then 0 else h
    match segs[i]? with
    | some s =>
      if s.flash ≠ flash || s.unlinked.isSome then clockHand flash f segs (i + 1)
      else if s.referenced then clockHand flash f (segs.set i { s with referenced := false }) (i + 1)
      else some (i, segs)
    | none => none

/-- A segment of a tier unlinked by the clock, its entries handed back. -/
def DecCache.unlinkOne (d : DecCache) (flash : Bool) (now : Nat) : DecCache × List DcEntry :=
  match clockHand flash (2 * d.segs.length + 1) d.segs d.hand with
  | some (i, segs) =>
    match segs[i]? with
    | some s => ({ d with segs := segs.set i { s with entries := [], unlinked := some now }, hand := i + 1 }, s.entries)
    | none => (d, [])
  | none => (d, [])

/-- Fewer than two segments of a tier are free. -/
def DecCache.tight (d : DecCache) (flash : Bool) : Bool := (if flash then d.flashSegs else d.gddrSegs) < d.inTier flash + 2

/-- Evicted entries written to the flash tier, whose own clock drops what it evicts (R349). -/
def DecCache.demote (d : DecCache) (now : Nat) (es : List DcEntry) : DecCache :=
  es.foldl (fun d e =>
    let d := if d.tight true then (d.unlinkOne true now).1 else d
    if d.fits true (entrySize e.payload.length) then d.publish true e else d) d

/-- Segments of the flash tier with no entry of the job's cache: the first of them unlinked (R350). -/
def DecCache.evictForeign (d : DecCache) (own : List Byte → Bool) (now : Nat) : DecCache :=
  match d.segs.zipIdx.find? (fun p => p.1.flash && p.1.unlinked.isNone && !p.1.entries.any (fun e => own e.key)) with
  | some (s, i) => d.put i { s with entries := [], unlinked := some now }
  | none => d

/-- A key of the job's cache: CACHE_ID, POINT and DEC_DIGEST agree. -/
def sameCache (c : CacheSpec) (dig key : List Byte) : Bool := key.take 16 = sliceBytes c.id 0 16 && key.drop 22 = leBytes 2 c.point ++ sliceBytes dig 0 8

/-- An offer taken or refused by its policy (R349): the cache, and whether it was taken. -/
def DecCache.insert (d : DecCache) (c : CacheSpec) (dig : List Byte) (now : Nat) (e : DcEntry) : DecCache × Bool :=
  let n := entrySize e.payload.length
  let flashOk (d : DecCache) : DecCache := if d.fits true n then d else d.evictForeign (sameCache c dig) now
  if c.clock then
    let r := if d.tight false then d.unlinkOne false now else (d, [])
    let d := if c.nsid = 0 then r.1 else r.1.demote now r.2
    if d.fits false n then (d.publish false e, true) else (d, false)
  else if d.fits false n then (d.publish false e, true)
  else
    let d := if c.nsid = 0 then d else flashOk d
    if c.nsid ≠ 0 && d.fits true n then (d.publish true e, true) else (d, false)

/-- DC_INSERT: the head of the insert ring, or an offer that a peer has written into it (R347, R348). -/
def Mach.dcInsert (v : Variant) (m : Mach) (peer : Option DcRemote) : Mach :=
  let head : Option (DcEntry × List DcEntry) := match peer with
    | some x => some (⟨x.key, 0, x.frameLen, x.frameCrc, x.payload, 0⟩, m.dc.ring)
    | none => match m.dc.ring with | e :: r => some (e, r) | [] => none
  match head, m.dc.job with
  | some (e, r), some j =>
    match m.job? j with
    | none => m
    | some x =>
      match x.image?.bind (fun i => i.cache) with
      | none => m
      | some c =>
        if segSize < entrySize e.payload.length || e.key.length ≠ 32 then m
        else
          let dig := decDigest (m.rawImage v x.imageAddr x.imageLen) c.point
          let d := { m.dc with ring := r }.insert c dig m.spn.count e
          let m := m.setDc d.1
          if d.2 then m.addFld Reg.memDcInserts 63 0 1 else m.addFld Reg.memDcRefused 63 0 1
  | _, _ => m

/-- SEGMENT_REUSE: segments unlinked at least 1 ms ago become free; the next segment has a later generation (R348). -/
def Mach.segmentReuse (m : Mach) : Mach :=
  m.setDc { m.dc with segs := m.dc.segs.filter (fun s => match s.unlinked with
    | some t => decide (m.spn.count < t + 1000000)
    | none => true) }

/-- STATIC refuses offers in every tier (MEM_DC_STATUS.FULL). -/
def Mach.dcFull (m : Mach) : Bool :=
  match m.dc.job.bind m.job? with
  | some x =>
    match x.image?.bind (fun i => i.cache) with
    | some c => !c.clock && m.dc.gddrSegs ≤ m.dc.inTier false && (c.nsid = 0 || m.dc.flashSegs ≤ m.dc.inTier true)
    | none => false
  | none => false

end Sys2Proof.Machine
end

