-- ==== Sys2Proof/Machine/RecorderCmds.lean ====
section
/-!
DEFINITION. The meanings of the event recorder's commands: records to NOR and the two read windows
(17_health_faults_event_recorder.md R614, R615, R617, R619, R631, R632).
-/
namespace Sys2Proof.Machine

/-- A sector of the circular area erased: its records are discarded from that area (R615). -/
def eraseSector (l : List KeptRec) (sec : Nat) : List KeptRec :=
  (l.map (fun k => if !k.buffered && k.circ && k.sector = sec then { k with circ := false } else k)).filter
    (fun k => k.buffered || k.circ || k.perm)

/-- The first buffered record written to NOR: a record never spans a sector, and the module erases a sector before it
writes into it (R615). -/
def Recorder.writeOne (e : Recorder) : Recorder :=
  match e.kept.find? (fun k => k.buffered) with
  | none => e
  | some k =>
    let n := k.record.size
    let pos := if e.circPos % 65536 + n ≤ 65536 then e.circPos else (e.circPos / 65536 + 1) * 65536
    let pos := pos % 15728640
    let sec := pos / 65536
    let kept := if pos % 65536 = 0 then eraseSector e.kept sec else e.kept
    { e with kept := kept.map (fun x => if x.record.seq = k.record.seq && x.buffered then
                { x with buffered := false, sector := sec } else x),
             circPos := (pos + n) % 15728640 }

/-- Every buffered record written to NOR, oldest first. -/
def Recorder.writeAll : Nat → Recorder → Recorder
  | 0, e => e
  | n + 1, e => Recorder.writeAll n e.writeOne

/-- RECORD_TO_NOR (R614, R615): buffered records reach the circular area; with the room returned, records dropped
meanwhile are reported. -/
def execRecordToNor (s : State) : Res :=
  doing (fun m =>
    if m.recorderOn then
      { m with evr := (Recorder.writeAll m.evr.kept.length m.evr).reportDrops m.spn.count }
    else m) s

/-- The read window of a port. -/
def Recorder.win (e : Recorder) (p : Nat) : ReadWin := if p = 0 then e.win0 else e.win1

def Recorder.setWin (e : Recorder) (p : Nat) (w : ReadWin) : Recorder :=
  if p = 0 then { e with win0 := w } else { e with win1 := w }

/-- A write of EVR_RD_SEQp (R617, R619): discarded and recorded when the window is busy or another port's, else the
load begins from the area that the AREA bit then names. -/
def Mach.selectRecord (m : Mach) (w : Writer) (p seq : Nat) : Mach :=
  let win := m.evr.win p
  let other := match w with | .port q => decide (q.val ≠ p) | _ => false
  if win.busy || other then m.rejected (writerSource w) (Reg.evrRdSeq p) seq 2
  else { m with evr := m.evr.setWin p { win with seq := seq, busy := true, loadArea := win.area } }

/-- EVR_RD_SEQ (R617, R619). -/
def execEvrRdSeq (w : Writer) (sel : Port) (seq : BitVec 32) (s : State) : Res :=
  doing (fun m => m.selectRecord w sel.val seq.toNat) s

/-- A sequence is at or after another under the half-range rule (06 R231). -/
def seqAtOrAfter (a b : Nat) : Bool := decide ((a + 2 ^ 32 - b) % 2 ^ 32 < 2 ^ 31)

/-- A record is kept in an area: the permanent one, or the circular one, where a buffered record counts as kept. -/
def KeptRec.inArea (k : KeptRec) (perm : Bool) : Bool := if perm then k.perm else k.circ

/-- EVR_RD_LOADED (R617, R632): the window holds the record, or STATE says why not. -/
def execEvrRdLoaded (sel : Port) (s : State) : Res :=
  doing (fun m =>
    let w := m.evr.win sel.val
    if !w.busy then m else
    let w := { w with busy := false }
    let w := match m.evr.kept.find? (fun k => k.record.seq = w.seq && k.inArea w.loadArea) with
      | some k => { w with state := 0, data := k.record.bytes }
      | none => { w with state := if seqAtOrAfter w.seq m.evr.nextSeq then 2 else 1, data := [] }
    { m with evr := m.evr.setWin sel.val w }) s

/-- The oldest sequence kept in an area; EVR_NEXT_SEQ where the area is empty (R631). -/
def Recorder.oldest (e : Recorder) (perm : Bool) : Nat :=
  match e.kept.find? (fun k => k.inArea perm) with
  | some k => k.record.seq
  | none => e.nextSeq

/-- The last sequence of the permanent area; EVR_NEXT_SEQ - 1 where it is empty (R631). -/
def Recorder.permLast (e : Recorder) : Nat :=
  match (e.kept.filter (fun k => k.perm)).getLast? with
  | some k => k.record.seq
  | none => (e.nextSeq + 2 ^ 32 - 1) % 2 ^ 32

/-- Whole records from the first kept one at or after a sequence, as long as they fit (R617). -/
def takeRecords : List KeptRec → Nat → List KeptRec
  | [], _ => []
  | k :: r, room => if k.record.size ≤ room then k :: takeRecords r (room - k.record.size) else []

/-- The data of Get Log Page 0xC0 (R617): a 16-byte header and whole records. -/
def Recorder.logPage (e : Recorder) (perm : Bool) (first len : Nat) : List Byte :=
  let l := e.kept.filter (fun k => k.inArea perm && seqAtOrAfter k.record.seq first)
  let l := takeRecords l (len - 16)
  let start := match l.head? with | some k => k.record.seq | none => e.nextSeq
  leBytes 4 start ++ leBytes 4 l.length ++ leBytes 4 (e.oldest perm) ++
    leBytes 4 (boolBit e.permFull + 2 * boolBit (e.dropped ≠ 0)) ++ l.flatMap (fun k => k.record.bytes)

end Sys2Proof.Machine
end

