-- ==== Sys2Proof/Machine/CodecOps.lean ====
section
/-!
DEFINITION. Codec requests (10_compression_and_sealed_data.md R358 to R367, R376; frames of 09 R317, R318, R320).
-/
namespace Sys2Proof.Machine

/-- A level that a format has (R358). -/
def levelOk (format level : Nat) : Bool := 1 ≤ level && level ≤ (if format = 5 then 2 else 9)

/-- The items of a list of n entries. -/
def codecItems (v : Variant) (m : Mach) (list n : Nat) : List (List Byte) :=
  (List.range n).map (fun i => m.devRead v (list + 16 * i) 16)

/-- Two ranges share a byte; an empty one shares none. -/
def sharing (a n b k : Nat) : Bool := n ≠ 0 && k ≠ 0 && overlap a n b k

/-- A range lies in backed GDDR7 (00 R6). -/
def backed (v : Variant) (a n : Nat) : Bool := a + n ≤ gddrTop v

/-- The request a block asks for, with the gain that it captures (R361, R362). -/
def Mach.codecReq (v : Variant) (m : Mach) (b : List Byte) : CodecReq :=
  let fl := leAt b 9 1
  { op := leAt b 6 1, format := leAt b 7 1, level := leAt b 8 1, abhar := bitAt fl 0, encrypt := bitAt fl 1, acceptAbsent := bitAt fl 2,
    typ := leAt b 0x0A 2,
    items := (codecItems v m (leAt b 0x10 8) (leAt b 0x0C 4)).map (fun e => (leAt e 0 8, leAt e 8 4)),
    dst := leAt b 0x18 8, dstLen := leAt b 0x20 8, results := leAt b 0x28 8, key := leAt b 0x30 8,
    gain := m.fld Reg.cmpMinGain 16 0, answered := false }

/-- Kind of a request's output (R376); VERIFY has none. -/
def CodecReq.outKind (c : CodecReq) : Option Nat :=
  if c.op = 2 then none else if c.op = 0 && c.encrypt then some 1 else some 0

/-- Fields that R362 reserves or bounds. -/
def codecFieldsOk (b : List Byte) (c : CodecReq) (n : Nat) : Bool :=
  leAt b 0 4 = 0x43454443 && leAt b 4 2 = 1 && c.op ≤ 2 && leAt b 9 1 < 8 && 1 ≤ n && n ≤ 2 ^ 24 && c.dst % 64 = 0 &&
    leAt b 0x38 8 = 0 &&
    (if c.abhar && c.op ≠ 0 then c.format = 0 else 1 ≤ c.format && c.format ≤ 5) &&
    (if c.op = 0 then levelOk c.format (leAt b 8 1) else leAt b 8 1 = 0) &&
    (!c.encrypt || (c.op = 0 && c.abhar)) && (if c.op = 0 && c.abhar then true else c.typ = 0) &&
    (c.op ≠ 2 || c.dstLen = 0)

/-- Items that R362 bounds. -/
def codecItemsOk (c : CodecReq) (raw : List (List Byte)) : Bool :=
  let top := if c.abhar && c.op ≠ 0 then itemMax + 16 else itemMax
  raw.all (fun e => leAt e 0x0C 4 = 0 && 1 ≤ leAt e 8 4 && leAt e 8 4 ≤ top)

/-- The output region overlaps what the request reads or reports in (R366). -/
def codecOverlap (addr list n : Nat) (c : CodecReq) : Bool :=
  sharing c.dst c.dstLen list (16 * n) || sharing c.dst c.dstLen c.results (16 * n) || sharing c.dst c.dstLen addr 64 ||
    c.items.any (fun i => sharing c.dst c.dstLen i.1 i.2)

/-- The status by which a request is accepted or refused. -/
def Mach.codecStatus (v : Variant) (m : Mach) (addr : Nat) (b : List Byte) : Nat :=
  let n := leAt b 0x0C 4
  let list := leAt b 0x10 8
  let c := m.codecReq v b
  let fields := codecFieldsOk b c n && codecItemsOk c (codecItems v m list n) && !codecOverlap addr list n c
  let keyNeeded := c.encrypt || c.key ≠ 0
  let key := if !keyNeeded then St.ok
    else match m.key? c.key with
      | some k => if m.keyStatus c.key = St.ok && k.signer = List.replicate 32 0 then St.ok else St.keyDenied
      | none => St.keyDenied
  let pol := match c.outKind, (if c.key = 0 then none else m.key? c.key) with
    | some k, some r => if bitAt r.policy k then St.ok else St.policy
    | _, _ => St.ok
  let area := if backed v list (16 * n) && backed v c.dst c.dstLen && backed v c.results (16 * n) then St.ok else St.bounds
  worst [if fields then St.ok else St.invalidField, key, pol, area]

/-- CODEC: the request is accepted into a job slot, or its entry completes with why not (R362, 14 R526). -/
def Mach.codecStart (v : Variant) (m : Mach) (p : PipeCtx) (addr : Nat) : Mach :=
  m.pipeTake p (fun serial m =>
    let fin (m : Mach) (st : Nat) : Mach := m.pipeDone p.port.val p.q.val p.cid.toNat serial 0 st
    if m.areaStatus addr 64 ≠ St.ok then fin m (m.areaStatus addr 64)
    else
      let b := m.devRead v addr 64
      let st := m.codecStatus v addr b
      if st ≠ St.ok then fin (m.countPolicy st) st
      else
        match m.freeJob with
        | none => fin m St.poolEmpty
        | some j =>
          let c := m.codecReq v b
          let m := { m with ks := { m.ks with
            tables := if c.key = 0 then m.ks.tables else mapSet m.ks.tables j [some (c.key % 2 ^ 64)] } }
          m.setJob j {
            state := 3, status := St.ok, nonrepro := false, planSeq := 0, imageAddr := addr, imageLen := 64,
            kind := .codec c, owner := .pipe p.port.val p.q.val p.cid.toNat serial p.notifyEnd, m := 0, modules := 1, l := 0,
            launch := none, asked := 0, loadedAt := none, chans := [], areas := [], lanes := [], results := [], fetched := [],
            emitted := [], cur := .zero, last := none, tokens := 0, samples := 0, subst := 0, mediaSubst := 0, augReady := 0,
            homes := [], lost := [], cursors := [] })

/-! ### Items -/

/-- Zero bytes up to a multiple of 16. -/
def pad16 (b : List Byte) : List Byte := b ++ List.replicate ((16 - b.length % 16) % 16) 0

/-- The header of a frame (09 R317). -/
def frameHeader (bodyLen comp enc typ : Nat) : List Byte :=
  leBytes 4 0x52484241 ++ leBytes 4 bodyLen ++ leBytes 1 1 ++ leBytes 1 (comp + 8 * enc) ++ leBytes 2 typ

/-- A frame of a stored body: header, body, CRC-32C and padding (09 R317). -/
def frameOf (hdr body : List Byte) : List Byte := pad16 (hdr ++ body ++ leBytes 4 (crc32c (hdr ++ body)).toNat)

/-- A frame that the module makes of compressed bytes, sealed with a drawn IV where it encrypts (R363, R367). -/
def Mach.makeFrame (m : Mach) (c : CodecReq) (body : List Byte) : Nat × List Byte × Mach :=
  if c.encrypt then
    match m.key? c.key with
    | some k =>
      if k.maySeal && m.keyStatus c.key = St.ok then
        let iv := m.drawnBytes 0x367 12
        let m := m.draw
        let hdr := frameHeader (body.length + 28) c.format 1 c.typ
        let r := gcmSeal k.material iv hdr body
        (St.ok, frameOf hdr (iv ++ r.1 ++ r.2), m.countSeal k)
      else (St.keyDenied, [], m)
    | none => (St.keyDenied, [], m)
  else (St.ok, frameOf (frameHeader body.length c.format 0 c.typ) body, m)

/-- Steps 1 and 2 of 09 R320 on a frame: the compression and the decrypted body, or the failure's status. -/
def Mach.openFrame (m : Mach) (c : CodecReq) (f : List Byte) : Nat × Nat × List Byte :=
  match frameParts f with
  | none => (St.checkFail, 0, [])
  | some x =>
    if !x.enc then (St.ok, x.comp, x.body)
    else
      let n := x.body.length
      match m.key? c.key with
      | some k =>
        if m.keyStatus c.key ≠ St.ok then (St.keyDenied, 0, [])
        else if n < 28 then (St.checkFail, 0, [])
        else
          match gcmOpen k.material (x.body.take 12) (f.take 12) (sliceBytes x.body 12 (n - 28)) (x.body.drop (n - 16)) with
          | some p => (St.ok, x.comp, p)
          | none => (St.checkFail, 0, [])
      | none => (St.keyDenied, 0, [])

/-- A body decompressed under the request's check-absent policy (R353, R356, R357); no dictionaries (R354). -/
def CodecReq.inflate (c : CodecReq) (comp : Nat) (body : List Byte) : Nat × List Byte :=
  match unpack [] comp c.acceptAbsent codecOutMax body with
  | .out b => (St.ok, b)
  | .checkFail => (St.checkFail, [])
  | .checkAbsent => (St.checkAbsent, [])

/-- An item finished: its status and its output. -/
def Mach.codecItem (v : Variant) (m : Mach) (c : CodecReq) (i : Nat × Nat) : Nat × List Byte × Mach :=
  if !backed v i.1 i.2 then (St.bounds, [], m)
  else
    let src := m.devRead v i.1 i.2
    if c.op = 0 then
      let b := compressFrame c.format c.level src
      if i.2 ≤ b.length + c.gain || i.2 ≤ c.gain then (St.noGain, [], m)
      else if c.abhar then m.makeFrame c b else (St.ok, b, m)
    else if c.abhar then
      match m.openFrame c src with
      | (0, comp, body) => ((c.inflate comp body).1, (c.inflate comp body).2, m)
      | (st, _, _) => (st, [], m)
    else ((c.inflate c.format src).1, (c.inflate c.format src).2, m)

/-- All items in order: their statuses and outputs. -/
def Mach.codecAll (v : Variant) (m : Mach) (c : CodecReq) : List (Nat × Nat) → List (Nat × List Byte) × Mach
  | i :: is =>
    let r := m.codecItem v c i
    let t := Mach.codecAll v r.2.2 c is
    ((r.1, r.2.1) :: t.1, t.2)
  | [] => ([], m)

/-- A number rounded up to a multiple of 16. -/
def up16 (n : Nat) : Nat := (n + 15) / 16 * 16

/-- OUT_OFF of each item (R364). -/
def outOffs : Nat → List (Nat × List Byte) → List Nat
  | _, [] => []
  | o, (st, b) :: r => o :: outOffs (o + (if st = St.ok then up16 b.length else 0)) r

/-- The end of the placed outputs. -/
def outEnd (l : List (Nat × List Byte)) : Nat :=
  ((l.zip (outOffs 0 l)).map (fun p => if p.1.1 = St.ok then p.2 + p.1.2.length else 0)).foldl max 0

/-- Outputs and result entries written. -/
def Mach.codecWrite (v : Variant) (m : Mach) (c : CodecReq) (l : List (Nat × List Byte)) : Mach :=
  (l.zip (outOffs 0 l)).zipIdx.foldl (fun m p =>
    let st := p.1.1.1
    let b := p.1.1.2
    let off := p.1.2
    let m := if st = St.ok && c.op ≠ 2 then m.devWrite v (c.dst + off) (b ++ List.replicate (min (up16 b.length - b.length) (c.dstLen - off - b.length)) 0)
      else m
    m.devWrite v (c.results + 16 * p.2)
      (leBytes 2 st ++ [0, 0] ++ leBytes 4 (if st = St.ok then b.length else 0) ++ leBytes 8 off)) m

def countSt (l : List (Nat × List Byte)) (st : Nat) : Nat := (l.filter (fun p => p.1 = st)).length

/-- The request's entry completes, and its job ends. -/
def Mach.codecEnd (m : Mach) (j : Nat) (x : Job) (c : CodecReq) (final st : Nat) : Mach :=
  let m := (m.setJob j { x with kind := .codec { c with answered := true } }).jobEnd j final st
  match x.owner with
  | .pipe p q cid serial _ => m.pipeDone p q cid serial j st
  | .manager _ => m

/-- CODEC_COMPLETE: every item has finished (R360 to R367, R376). -/
def Mach.codecComplete (v : Variant) (m : Mach) (j : Nat) : Mach :=
  match m.job? j with
  | some x =>
    match x.kind with
    | .codec c =>
      if !x.live then m
      else
        let allowed : Bool := match c.outKind with | some k => bitAt (m.jobAllowed j) k | none => true
        if !allowed then (m.countPolicy St.policy).codecEnd j x c 6 St.policy
        else
          let r := m.codecAll v c c.items
          let m := r.2.addFld Reg.cmpItems 63 0 r.1.length
          let m := m.addFld Reg.cmpNogain 63 0 (countSt r.1 St.noGain)
          let m := m.addFld Reg.cmpCheckFail 63 0 (countSt r.1 St.checkFail)
          let m := m.addFld Reg.cmpCheckAbsent 63 0 (countSt r.1 St.checkAbsent)
          if c.op ≠ 2 && c.dstLen < outEnd r.1 then
            let m := (m.devWrite v c.dst (m.drawnBytes 0x365 c.dstLen)).draw
            let m := (m.devWrite v c.results (m.drawnBytes 0x366 (16 * c.items.length))).draw
            m.codecEnd j x c 6 St.outOverflow
          else (m.codecWrite v c r.1).codecEnd j x c 5 St.ok
    | _ => m
  | none => m

end Sys2Proof.Machine
end

