-- ==== Sys2Proof/Machine/XptOps.lean ====
section
/-!
DEFINITION. The Yelmos Fabric Transport: nodes, queues, entries, packets and access keys
(13_fabric_and_remote_access.md R461 to R489, 14 R523 to R527).
-/
namespace Sys2Proof.Machine

namespace Config
/-- The job transport key of a sealed queue (10 R377), by its reference: it travels between roots of trust. -/
opaque transportKey : Nat → List Byte
end Config

/-! ### Registers -/

def Mach.node (m : Mach) : Nat := m.fld Reg.fabNodeId 31 0
def Mach.lifeNs (m : Mach) : Nat := m.fld Reg.xptCfg 8 0 * 1000
def Mach.rtoNs (m : Mach) : Nat := m.fld Reg.xptCfg 27 18 * 1000
def Mach.retryLimit (m : Mach) : Nat := m.fld Reg.xptCfg 31 28
/-- MTU_PAY of a port in bytes. -/
def Mach.mtu (m : Mach) (p : Nat) : Nat := 1024 * 2 ^ m.fld (Reg.fabCfg p) 7 6

/-! ### Ports and paths (R465, R466) -/

def Mach.fabPort (m : Mach) (p : Nat) : FabPort := if p = 0 then m.xp.f0 else m.xp.f1
def Mach.setFab (m : Mach) (p : Nat) (x : FabPort) : Mach :=
  if p = 0 then { m with xp := { m.xp with f0 := x } } else { m with xp := { m.xp with f1 := x } }
def Mach.linkUp (m : Mach) (p : Nat) : Bool := m.bit (Reg.fabStatus p) 31

def Mach.peer? (m : Mach) (node : Nat) : Option Peer := mapFind m.xp.nodes node
def Mach.setPeer (m : Mach) (node : Nat) (x : Peer) : Mach := { m with xp := { m.xp with nodes := mapSet m.xp.nodes node x } }

/-- The first n good paths of a peer. -/
def Peer.good (x : Peer) (n : Nat) : List Nat := ((x.paths.filter (fun p => p.2.good)).map (fun p => p.1)).take n

/-- A path changed. -/
def Mach.onPath (m : Mach) (node path : Nat) (f : NetPath → NetPath) : Mach :=
  match m.peer? node with
  | some x =>
    match mapFind x.paths path with
    | some p => m.setPeer node { x with paths := mapSet x.paths path (f p) }
    | none => m
  | none => m

/-- A timeout on a path: the third in a row marks it bad (R466). -/
def Mach.pathTimeout (m : Mach) (node path : Nat) : Mach :=
  m.onPath node path (fun p =>
    if 3 ≤ p.timeouts + 1 then { p with timeouts := p.timeouts + 1, good := false, badSince := m.spn.count }
    else { p with timeouts := p.timeouts + 1 })

/-- A probe of a bad path, no sooner than 1 ms after it was marked: good where it is acknowledged (R466). -/
def Mach.pathProbe (m : Mach) (node path : Nat) (acked : Bool) : Mach :=
  m.onPath node path (fun p =>
    if p.good || m.spn.count < p.badSince + 1000000 then p
    else if acked then { p with good := true, timeouts := 0 } else { p with badSince := m.spn.count })

/-- Every path over a port marked bad (R466). -/
def Mach.portPathsBad (m : Mach) (port : Nat) : Mach :=
  { m with xp := { m.xp with nodes := m.xp.nodes.map (fun (n : Nat × Peer) =>
    (n.1, { n.2 with paths := n.2.paths.map (fun (p : Nat × NetPath) =>
      if p.2.port = port then (p.1, { p.2 with good := false, badSince := m.spn.count }) else p) })) } }

/-! ### Queue slots (R467 to R469) -/

/-- A field of the body of a slot, by its offset in the slot. -/
def slotNat (x : CtxSlot) (off n : Nat) : Nat := leAt x.body (off - 0x10) n
def slotPut (x : CtxSlot) (off n val : Nat) : CtxSlot := { x with body := putAt x.body (off - 0x10) (leBytes n val) }

/-- The slot of a queue reference: KIND 3 and the reference's GEN. -/
def Mach.queue? (m : Mach) (ref : Nat) : Option CtxSlot :=
  let x := m.slot (refSlot ref)
  if x.kind = 3 && x.gen = refGen ref then some x else none

def Mach.qNat (m : Mach) (ref off n : Nat) : Nat := slotNat (m.slot (refSlot ref)) off n
def Mach.qPut (m : Mach) (ref off n val : Nat) : Mach := m.setSlot (refSlot ref) (slotPut (m.slot (refSlot ref)) off n val)
/-- A 32-bit counter of the slot advanced. -/
def Mach.qAdd (m : Mach) (ref off k : Nat) : Mach := m.qPut ref off 4 (m.qNat ref off 4 + k)
def Mach.qSat (m : Mach) (ref off : Nat) : Mach := m.qPut ref off 4 (satAdd (2 ^ 32 - 1) (m.qNat ref off 4) 1)

def Mach.qState (m : Mach) (ref : Nat) : Nat := m.qNat ref 0x21 1
def Mach.qSealed (m : Mach) (ref : Nat) : Bool := bitAt (m.qNat ref 0x23 1) 0

def Mach.xq (m : Mach) (ref : Nat) : XQueue := mapGet (fun _ => XQueue.fresh) m.xp.queues (refSlot ref)
def Mach.setXq (m : Mach) (ref : Nat) (x : XQueue) : Mach := { m with xp := { m.xp with queues := mapSet m.xp.queues (refSlot ref) x } }

/-- a is b or after b, modulo 2^32 (06 R231). -/
def reached32 (a b : Nat) : Bool := (a + 2 ^ 32 - b % 2 ^ 32) % 2 ^ 32 < 2 ^ 31

/-! ### Access keys (R476 to R480) -/

def Mach.xkey? (m : Mach) (h : Nat) : Option XKey :=
  m.xp.keys.find? (fun k => k.id = h / 2 ^ 32 && k.gen = h % 2 ^ 32 && k.valid)

/-- Every byte of a range lies in buffers or areas of an owner (R476). -/
def Mach.ownedRange (m : Mach) (owner a n : Nat) : Bool :=
  (List.range n).all (fun i => m.inBufOf owner (a + i) || (0x10 ≤ owner && m.inAreaOf (owner - 0x10) (a + i)))

/-- The checks of R478 on a range; need is the bit of RIGHTS. -/
def Mach.xkeyStatus (m : Mach) (h addr len need : Nat) (ns sealed_ : Bool) : Nat :=
  match m.xkey? h with
  | none => St.keyDenied
  | some k =>
    if addr < k.base || k.limit < addr + len || k.ns ≠ ns || (k.poolCheck && !m.ownedRange k.owner addr len) then St.bounds
    else if !bitAt k.rights need then St.rights
    else if 0x10 ≤ k.owner && m.jobRestricted (k.owner - 0x10) && !sealed_ then St.policy
    else St.ok

/-- A memory key's range (R477): backed, and apart from MEM_CARVE 0 to 3. -/
def Mach.keyRangeOk (v : Variant) (m : Mach) (base limit : Nat) : Bool :=
  base < limit && limit ≤ gddrTop v &&
    (List.range 4).all (fun i => !sharing' base (limit - base) (m.fld (Reg.memCarveBase i) 47 0) (m.reg (Reg.memCarveSize i)).toNat)
where sharing' (a n b k : Nat) : Bool := k ≠ 0 && overlap a n b k

/-- The status of a create (R477, R489). -/
def Mach.keyCreateStatus (v : Variant) (m : Mach) (c : KeyCreate) : Nat :=
  let full := if 16384 ≤ m.xp.keys.length then St.poolEmpty else St.ok
  if c.ns then
    match m.ns? c.nsid.toNat with
    | none => St.first St.invalidField full
    | some x => worst [if x.key ≠ 0 then St.policy else St.ok, if c.rights.val ≤ 1 then St.ok else St.invalidField, full]
  else St.first (if m.keyRangeOk v c.base.toNat c.limit.toNat then St.ok else St.bounds) full

/-- The result registers of a key command; OP returns to 00 (R489). -/
def Mach.keyResult (m : Mach) (id gen st : Nat) : Mach :=
  let m := (m.setReg Reg.xptKeycmdResult (BitVec.ofNat 64 st)).setFld Reg.xptKeycmdCtl 1 0 0
  let m := m.setReg Reg.xptKeycmdStatus (BitVec.ofNat 64 m.xp.keys.length)
  if st = St.ok then m.setReg Reg.xptKeycmdKey (BitVec.ofNat 64 (id * 2 ^ 32 + gen)) else m

/-- GEN of a key after an invalidation (R476). -/
def nextKeyGen (g : Nat) : Nat := if g = 0xFFFFFFFF then 1 else g + 1

/-- A key put into the table for an owner: its handle. -/
def Mach.addXkey (m : Mach) (c : KeyCreate) (owner : Nat) : Nat × Mach :=
  let id := if m.xp.lastKey + 1 = 2 ^ 32 then 1 else m.xp.lastKey + 1
  let gen := mapGet (fun _ => 1) m.xp.keyGens id
  let k : XKey := ⟨id, gen, c.ns, c.base.toNat, c.limit.toNat, c.rights.val, owner, c.poolCheck, c.nsid.toNat, true⟩
  (id * 2 ^ 32 + gen, { m with xp := { m.xp with keys := m.xp.keys ++ [k], lastKey := id } })

/-- The owner that a writer acts for (R477, 07 R261). -/
def writerOwner (w : Writer) : Nat := match w with | .port p => 2 + p.val | _ => 0

def Mach.xkeyCreate (v : Variant) (m : Mach) (w : Writer) (c : KeyCreate) : Mach :=
  let st := m.keyCreateStatus v c
  if st = St.ok then
    let r := m.addXkey c (writerOwner w)
    r.2.keyResult (r.1 / 2 ^ 32) (r.1 % 2 ^ 32) St.ok
  else m.keyResult 0 0 st

/-- A key invalidated: its GEN advances (R480). -/
def Mach.dropXkey (m : Mach) (id : Nat) : Mach :=
  match m.xp.keys.find? (fun k => k.id = id) with
  | some k => { m with xp := { m.xp with
      keys := m.xp.keys.filter (fun x => x.id ≠ id), keyGens := mapSet m.xp.keyGens id (nextKeyGen k.gen) } }
  | none => m

def Mach.xkeyInvalidate (m : Mach) (w : Writer) (id : Nat) : Mach :=
  match m.xp.keys.find? (fun k => k.id = id) with
  | none => m.keyResult 0 0 St.keyDenied
  | some k =>
    if k.owner ≠ writerOwner w then m.keyResult 0 0 St.notOwner
    else (m.dropXkey id).keyResult id (nextKeyGen k.gen) St.ok

/-! ### Packets (R462, R463) -/

/-- The 64 bytes of a header. -/
def pktHeader (p : YftPkt) (typ : Nat) : List Byte :=
  [BitVec.ofNat 8 (p.version.val * 16 + typ), p.flags, p.path, p.rsv] ++ beBytes 4 p.srcNode.toNat ++ beBytes 4 p.dstNode.toNat ++
    beBytes 4 p.srcQueue.toNat ++ beBytes 4 p.dstQueue.toNat ++ beBytes 4 p.psn.toNat ++ beBytes 4 p.msgSeq.toNat ++
    beBytes 4 p.xmit.toNat ++ beBytes 8 p.sent.toNat ++ beBytes 8 p.key.toNat ++ beBytes 8 p.addr.toNat ++
    beBytes 4 p.msgLen.toNat ++ beBytes 4 p.off.toNat

/-- Payload bytes that a type carries: none, a fixed number, or data within its message. -/
def payloadOk (typ n off len : Nat) : Bool :=
  match typ with
  | 1 => 1 ≤ n && off + n ≤ len
  | 3 => 1 ≤ n && off + n ≤ len
  | 7 => 1 ≤ n && off + n ≤ len
  | 4 => n = 8
  | 5 => n = 16
  | 6 => n = 8
  | _ => n = 0

/-- Step 1 of R481: check values, header and destination. -/
def Mach.pktGood (m : Mach) (typ : Nat) (p : YftPkt) : Bool :=
  let resp := typ = 3 || typ = 6
  p.frameOk && p.crc = crc32c (pktHeader p typ ++ p.payload ++ p.tag) && p.version.val = 1 && p.flags.toNat < 16 &&
    p.path.toNat < 64 && p.rsv = 0 && m.node ≠ 0 && p.dstNode.toNat = m.node && (!resp || (p.key = 0 && p.addr = 0)) &&
    payloadOk typ p.payload.length p.off.toNat p.msgLen.toNat && p.tag.length = (if bitAt p.flags.toNat 0 then 16 else 0)

/-- Step 2: a packet is late, or too far ahead (R483). -/
def Mach.pktLate (m : Mach) (p : YftPkt) : Bool :=
  let now := m.spn.count
  let life := m.lifeNs
  countReached now (p.sent.toNat + life) || countReached p.sent.toNat (now + life)

/-- Step 3: the queue that a packet belongs to (R467, R469). -/
def Mach.pktQueue (m : Mach) (p : YftPkt) : Option Nat :=
  let ref := p.dstQueue.toNat
  match m.queue? ref with
  | some x => if slotNat x 0x21 1 ≠ 2 && slotNat x 0x10 4 = p.srcNode.toNat && slotNat x 0x14 4 = p.srcQueue.toNat then some ref else none
  | none => none

/-- The judgements on a sequence number (R482). -/
inductive PsnJudge where
  | new (d : Nat)
  | dup
  | out
deriving DecidableEq, Repr

def judgePsn (base : Nat) (map : Nat) (psn : Nat) : PsnJudge :=
  let d := (psn + 2 ^ 32 - base % 2 ^ 32) % 2 ^ 32
  if d < 1024 then (if bitAt map d then .dup else .new d)
  else if 2 ^ 32 - 2 ^ 20 ≤ d then .dup else .out

/-- Consecutive set bits from bit 0; fuel bounds them. -/
def trailingOnes : Nat → Nat → Nat
  | 0, _ => 0
  | f + 1, n => if bitAt n 0 then 1 + trailingOnes f (n / 2) else 0

/-- A packet received: its bit set, RX_BASE past every consecutive set bit (R482). -/
def Mach.markRx (m : Mach) (ref d : Nat) : Mach :=
  let map := m.qNat ref 0x58 128 ||| 2 ^ d
  let k := trailingOnes 1024 map
  (m.qPut ref 0x50 4 (m.qNat ref 0x50 4 + k)).qPut ref 0x58 128 (map / 2 ^ k)

/-- The place of a round robin over good paths, and the paths. -/
def Mach.nextPath (m : Mach) (node limit : Nat) : Option (Nat × Mach) :=
  match m.peer? node with
  | none => none
  | some x =>
    let g := x.good limit
    match g[x.turn % max 1 g.length]? with
    | some p => some (p, m.setPeer node { x with turn := x.turn + 1 })
    | none => none

/-- A packet sent on a path: the header of R462, sealed where the queue is (R484), and the CRC. -/
def Mach.emitPkt (m : Mach) (ref path : Nat) (typ flags psn msgSeq key addr msgLen off : Nat) (payload : List Byte) : Mach :=
  let node := m.qNat ref 0x10 4
  let sealed_ := m.qSealed ref && typ ≤ 7
  let xmit := m.qNat ref 0x4C 4
  let p : YftPkt := {
    port := 0, frameOk := true, version := 1, flags := BitVec.ofNat 8 (flags + boolBit sealed_), path := BitVec.ofNat 8 path,
    rsv := 0, srcNode := BitVec.ofNat 32 m.node, dstNode := BitVec.ofNat 32 node, srcQueue := BitVec.ofNat 32 ref,
    dstQueue := BitVec.ofNat 32 (m.qNat ref 0x14 4), psn := BitVec.ofNat 32 psn, msgSeq := BitVec.ofNat 32 msgSeq,
    xmit := BitVec.ofNat 32 xmit, sent := BitVec.ofNat 64 m.spn.count, key := BitVec.ofNat 64 key, addr := BitVec.ofNat 64 addr,
    msgLen := BitVec.ofNat 32 msgLen, off := BitVec.ofNat 32 off, payload := payload, tag := [], crc := 0 }
  let h := pktHeader p typ
  let iv := beBytes 4 m.node ++ beBytes 4 ref ++ beBytes 4 xmit
  let body := if sealed_ then (let r := gcmSeal (Config.transportKey ref) iv h payload; r.1 ++ r.2) else payload
  let port := match m.peer? node with
    | some x => match mapFind x.paths path with | some q => q.port | none => 0
    | none => 0
  let m := (m.qAdd ref 0x4C 1).addFld (Reg.fabFramesTx port) 63 0 1
  m.send (.yft port path (h ++ body ++ beBytes 4 (crc32c (h ++ body)).toNat))

/-- ACK: RX_BASE, and a bitmap of the packets after it (R481). -/
def Mach.sendAck (m : Mach) (ref : Nat) : Mach :=
  let x := m.xq ref
  let m := m.setXq ref { x with unacked := 0 }
  match m.nextPath (m.qNat ref 0x10 4) 64 with
  | some (path, m) => m.emitPkt ref path 8 0 (m.qNat ref 0x50 4) 0 0 (m.qNat ref 0x58 128 / 2 % 2 ^ 64) 0 0 []
  | none => m

/-- NAK: the status of a failed message (R462, R478). -/
def Mach.sendNak (m : Mach) (ref msgSeq st : Nat) : Mach :=
  let m := m.addFld Reg.xptNak 63 0 1
  match m.nextPath (m.qNat ref 0x10 4) 64 with
  | some (path, m) => m.emitPkt ref path 9 0 (m.qNat ref 0x50 4) msgSeq 0 0 st 0 []
  | none => m

/-- A packet counts as accepted; an ACK leaves after 16 of them (R481). -/
def Mach.countAccepted (m : Mach) (ref : Nat) : Mach :=
  let m := m.addFld Reg.xptAccepted 63 0 1
  let x := m.xq ref
  let m := m.setXq ref { x with unacked := x.unacked + 1, ackSince := if x.unacked = 0 then m.spn.count else x.ackSince }
  if 16 ≤ x.unacked + 1 then m.sendAck ref else m

/-- ACK_TIMER (R481): 1 µs after an accepted packet. -/
def Mach.ackTimer (m : Mach) (ref : Nat) : Mach :=
  let x := m.xq ref
  if (m.queue? ref).isSome && x.unacked ≠ 0 && x.ackSince + 1000 ≤ m.spn.count then m.sendAck ref else m

/-! ### Completion of entries (R469, R473, R474) -/

/-- Completed entries at the front counted in DONE. -/
def Mach.countDone : Nat → Mach → Nat → Mach
  | 0, m, _ => m
  | f + 1, m, ref =>
    let x := m.xq ref
    match x.entries with
    | e :: r => if e.status.isSome then Mach.countDone f ((m.setXq ref { x with entries := r }).qAdd ref 0x2C 1) ref else m
    | [] => m

/-- The completion entry of R474; false where the ring would overwrite one not yet consumed. -/
def Mach.writeCqe (v : Variant) (m : Mach) (ref : Nat) (e : TxMsg) (st bytes : Nat) : Bool × Mach :=
  let lg := m.qNat ref 0x34 1
  if lg = 0 || !(bitAt (leAt e.bytes 1 1) 4 || st ≠ St.ok) then (true, m)
  else
    let tail := m.qNat ref 0x40 4
    if 2 ^ lg ≤ (tail + 2 ^ 32 - (m.xq ref).consumed) % 2 ^ 32 then (false, m)
    else
      let user := if leAt e.bytes 0 1 = 4 then 0 else leAt e.bytes 0x38 4
      let b := leBytes 2 st ++ leBytes 1 (leAt e.bytes 0 1) ++ [0] ++ leBytes 4 e.index ++ leBytes 4 bytes ++ leBytes 4 user
      (true, (m.devWrite v (m.qNat ref 0x38 8 + tail % 2 ^ lg * 16) b).qAdd ref 0x40 1)

/-- An entry's status set, with its completion entry: the flag tells of an overflow. -/
def Mach.closeEntry (v : Variant) (m : Mach) (ref index st : Nat) : Bool × Mach :=
  let x := m.xq ref
  match x.entries.find? (fun e => e.index = index && e.status.isNone) with
  | none => (true, m)
  | some e =>
    let bytes := if st = St.ok then leAt e.bytes 4 4 else e.got
    let m := m.setXq ref { x with entries := x.entries.map (fun y => if y.index = index then { y with status := some st } else y) }
    m.writeCqe v ref e st bytes

/-- The queue's error state (R469): every entry taken and not complete completes with LAST_STATUS. -/
def Mach.queueError (v : Variant) (m : Mach) (ref st : Nat) : Mach :=
  let m := (m.qPut ref 0x21 1 2).qPut ref 0x54 2 st
  let open_ := ((m.xq ref).entries.filter (fun e => e.status.isNone)).map (fun e => e.index)
  let m := open_.foldl (fun m i => (m.closeEntry v ref i st).2) m
  let m := m.countDone ((m.xq ref).entries.length) ref
  m.setXq ref { m.xq ref with pkts := [] }

/-- An entry completes; DONE counts it once every earlier one has (R473). -/
def Mach.completeEntry (v : Variant) (m : Mach) (ref index st : Nat) : Mach :=
  let r := m.closeEntry v ref index st
  if r.1 then r.2.countDone ((r.2.xq ref).entries.length) ref else r.2.queueError v ref St.poolEmpty

/-! ### Sending (R466, R481, R482) -/

/-- The first transmission of every packet within the window of 1,024 that has a good path. -/
def Mach.pump : Nat → Mach → Nat → Mach
  | 0, m, _ => m
  | f + 1, m, ref =>
    let x := m.xq ref
    let acked := m.qNat ref 0x48 4
    match x.pkts.find? (fun p => p.sent.isNone) with
    | none => m
    | some p =>
      if 1024 ≤ (p.psn + 2 ^ 32 - acked) % 2 ^ 32 then m
      else
        match m.nextPath (m.qNat ref 0x10 4) (m.qNat ref 0x22 1) with
        | none => m
        | some (path, m) =>
          let m := m.setXq ref { x with pkts := x.pkts.map (fun y =>
            if y.psn = p.psn then { y with sent := some m.spn.count, path := path } else y) }
          Mach.pump f (m.emitPkt ref path p.typ p.flags p.psn p.msgSeq p.key p.addr p.msgLen p.off p.payload) ref

/-- Packets of one message put into the queue's stream and sent as far as the window allows. -/
def Mach.sendMsg (m : Mach) (ref typ flags msgSeq key addr msgLen : Nat) (parts : List (Nat × List Byte)) : Mach :=
  let psn := m.qNat ref 0x44 4
  let ps := parts.zipIdx.map (fun (p : (Nat × List Byte) × Nat) =>
    (⟨(psn + p.2) % 2 ^ 32, typ, msgSeq, flags, key, addr, msgLen, p.1.1, p.1.2, none, 0, 0⟩ : TxPkt))
  let x := m.xq ref
  let m := (m.setXq ref { x with pkts := x.pkts ++ ps }).qAdd ref 0x44 ps.length
  m.pump ((m.xq ref).pkts.length) ref

/-- Data cut into packets of MTU_PAY bytes, the last with the rest (R463). -/
def cutData (mtu : Nat) (b : List Byte) : List (Nat × List Byte) :=
  (List.range ((b.length + mtu - 1) / mtu)).map (fun i => (i * mtu, sliceBytes b (i * mtu) (min mtu (b.length - i * mtu))))

/-- MTU_PAY for a queue's messages: that of the peer's first good path. -/
def Mach.qMtu (m : Mach) (ref : Nat) : Nat :=
  match m.peer? (m.qNat ref 0x10 4) with
  | some x => match x.good 64 with
    | i :: _ => m.mtu ((mapFind x.paths i).map (fun p => p.port) |>.getD 0)
    | [] => m.mtu 0
  | none => m.mtu 0

/-- RETRANSMIT (R466, R481): a packet not acknowledged RTO_US after its last transmission. -/
def Mach.retransmit (v : Variant) (m : Mach) (ref psn : Nat) : Mach :=
  let x := m.xq ref
  match m.queue? ref, x.pkts.find? (fun p => p.psn = psn) with
  | some _, some p =>
    match p.sent with
    | none => m
    | some t =>
      if m.spn.count < t + m.rtoNs then m
      else
        let node := m.qNat ref 0x10 4
        let m := m.pathTimeout node p.path
        if m.retryLimit ≤ p.tries then
          let m := if p.typ = 3 || p.typ = 6 then m else (m.closeEntry v ref p.msgSeq St.mediaUnrecoverable).2
          m.queueError v ref St.mediaUnrecoverable
        else
          let again (m : Mach) (path : Nat) : Mach := m.setXq ref { x with pkts := x.pkts.map (fun y =>
            if y.psn = psn then { y with sent := some m.spn.count, path := path, tries := y.tries + 1 } else y) }
          match m.nextPath node (m.qNat ref 0x22 1) with
          | none => again m p.path
          | some (path, m) =>
            let m := ((again m path).addFld Reg.xptRetx 63 0 1).qSat ref 0xD8
            m.emitPkt ref path p.typ (p.flags ||| 4) p.psn p.msgSeq p.key p.addr p.msgLen p.off p.payload
  | _, _ => m

/-! ### Entries (R470 to R475) -/

/-- The status of an entry's checks, but for its target (R465, R471); addresses have 48 bits (01 R48). -/
def Mach.entryStatus (m : Mach) (ref : Nat) (e : List Byte) : Nat :=
  let op := leAt e 0 1
  let len := leAt e 4 4
  let fl := leAt e 1 1
  let lenOk := match op with
    | 1 => 1 ≤ len && len ≤ 2 ^ 26
    | 2 => 1 ≤ len && len ≤ 2 ^ 26
    | 3 => len = 8
    | 4 => len = 8
    | 5 => 1 ≤ len && len ≤ 2 ^ 22
    | _ => len = 0
  let owner := (m.slot (refSlot ref)).owner
  let atomic := op = 3 || op = 4
  let waitOk : Bool := !bitAt fl 0 || match m.queue? (leAt e 0x28 4) with | some x => x.owner = owner | none => false
  let fields := 1 ≤ op && op ≤ 6 && fl < 32 && leAt e 2 1 ≤ 64 && leAt e 3 1 = 0 && lenOk && waitOk &&
    (!atomic || (leAt e 0x18 8 % 8 = 0 && leAt e 8 8 % 8 = 0)) && (op = 6 || (m.peer? (m.qNat ref 0x10 4)).isSome) &&
    leAt e 8 8 < 2 ^ 48 && leAt e 0x18 8 < 2 ^ 48
  let lk := leAt e 0x10 8
  let need := if op = 1 || op = 5 then 0 else 1
  let key := if op = 6 then St.ok else if lk = 0 then (if owner = 0 then St.ok else St.keyDenied)
    else m.xkeyStatus lk (leAt e 8 8) len need false (m.qSealed ref)
  St.first (if fields then St.ok else St.invalidField) key

/-- An entry's wait and fence are over (R472). -/
def Mach.waitOver (m : Mach) (ref : Nat) (e : List Byte) : Bool :=
  let fl := leAt e 1 1
  let q := leAt e 0x28 4
  (!bitAt fl 0 || (m.queue? q).isNone || reached32 (m.qNat q (if bitAt fl 1 then 0x30 else 0x2C) 4) (leAt e 0x2C 4)) &&
    (!bitAt fl 2 || (m.xq ref).entries.isEmpty)

/-- The next entry of a queue taken and started, if its OP is the one named (R470). -/
def Mach.startEntry (v : Variant) (m : Mach) (ref op : Nat) : Mach :=
  match m.queue? ref with
  | none => m
  | some x =>
    let head := slotNat x 0x24 4
    let e := m.devRead v (slotNat x 0x18 8 + head % 2 ^ slotNat x 0x20 1 * 64) 64
    let q := m.xq ref
    if slotNat x 0x21 1 ≠ 0 || slotNat x 0x14 4 = 0 || head = slotNat x 0x28 4 || leAt e 0 1 ≠ op || 64 ≤ q.entries.length ||
        !m.waitOver ref e || (m.node = 0 && op ≠ 6) then m
    else
      let m := (m.qAdd ref 0x24 1).setXq ref { q with entries := q.entries ++ [⟨head, e, 0, none, false, none⟩] }
      let st := m.entryStatus ref e
      if st ≠ St.ok then m.completeEntry v ref head st
      else
        let len := leAt e 4 4
        let loc := leAt e 8 8
        let addr := leAt e 0x18 8
        let key := leAt e 0x20 8
        let fl := (leAt e 1 1 / 8 % 2) * 2
        match op with
        | 1 => m.sendMsg ref 1 fl head key addr len (cutData (m.qMtu ref) (m.devRead v loc len))
        | 2 => m.sendMsg ref 2 fl head key addr len [(0, [])]
        | 3 => m.sendMsg ref 4 fl head key addr 8 [(0, sliceBytes e 0x30 8)]
        | 4 => m.sendMsg ref 5 fl head key addr 8 [(0, sliceBytes e 0x30 16)]
        | 5 => m.sendMsg ref 7 fl head 0 0 len (cutData (m.qMtu ref) (m.devRead v loc len))
        | _ => m.completeEntry v ref head St.ok

/-! ### Receiving (R481) -/

/-- Steps 1 to 3 for a packet: the queue it belongs to, or what it is counted as. Reference 0 is the control queue, whose
stream firmware keeps. -/
def Mach.receive (m : Mach) (typ : Nat) (p : YftPkt) : Option Nat × Mach :=
  let m := m.addFld (Reg.fabFramesRx p.port.val) 63 0 1
  let m := if p.frameOk then m else m.addFld (Reg.fabFcsErr p.port.val) 63 0 1
  if !m.pktGood typ p then (none, m.addFld Reg.xptBad 63 0 1)
  else if m.pktLate p then
    let m := m.addFld Reg.xptLate 63 0 1
    (none, match m.pktQueue p with | some ref => m.qSat ref 0xE0 | none => m)
  else if p.dstQueue = 0 then (none, m.addFld Reg.xptAccepted 63 0 1)
  else
    match m.pktQueue p with
    | some ref => (some ref, m)
    | none => (none, m.addFld Reg.xptStray 63 0 1)

/-- Steps 4 and 5 for a sequenced packet: its place in the window and its opened payload. -/
def Mach.sequenced (m : Mach) (ref typ : Nat) (p : YftPkt) : Option (Nat × List Byte) × Mach :=
  match judgePsn (m.qNat ref 0x50 4) (m.qNat ref 0x58 128) p.psn.toNat with
  | .out => (none, m.addFld Reg.xptOutWindow 63 0 1)
  | .dup => (none, ((m.addFld Reg.xptDup 63 0 1).qSat ref 0xDC).sendAck ref)
  | .new d =>
    let sealedFlag := bitAt p.flags.toNat 0
    if sealedFlag ≠ m.qSealed ref then (none, m.addFld Reg.xptBad 63 0 1)
    else if sealedFlag then
      let iv := beBytes 4 p.srcNode.toNat ++ beBytes 4 p.srcQueue.toNat ++ beBytes 4 p.xmit.toNat
      match gcmOpen (Config.transportKey ref) iv (pktHeader p typ) p.payload p.tag with
      | some b => (some (d, b), m)
      | none => (none, m.addFld Reg.xptBad 63 0 1)
    else (some (d, p.payload), m)

/-- Steps 1 to 5, then what f does with the place, the payload and the queue. -/
def Mach.withPacket (m : Mach) (typ : Nat) (p : YftPkt) (f : Mach → Nat → Nat → List Byte → Mach) : Mach :=
  match m.receive typ p with
  | (some ref, m) =>
    match m.sequenced ref typ p with
    | (some (d, b), m) => f m ref d b
    | (none, m) => m
  | (none, m) => m

/-- A failing request: it counts as received, and its message is answered with a NAK (R478). -/
def Mach.refusePkt (m : Mach) (ref d msgSeq st : Nat) : Mach := ((m.markRx ref d).countAccepted ref).sendNak ref msgSeq st

/-- Bytes of a message counted; the whole message completes, with SIGNAL in RX_DONE (R473). -/
def Mach.rxCount (m : Mach) (ref : Nat) (p : YftPkt) (bufs : List Nat) : Bool × Mach :=
  let x := m.xq ref
  let seq := p.msgSeq.toNat
  let old := mapGet (fun _ => (⟨0, bufs⟩ : RxMsg)) x.rx seq
  let n := old.placed + p.payload.length
  if p.msgLen.toNat ≤ n then
    let m := m.setXq ref { x with rx := mapErase x.rx seq }
    (true, if bitAt p.flags.toNat 1 then m.qAdd ref 0x30 1 else m)
  else (false, m.setXq ref { x with rx := mapSet x.rx seq { old with placed := n } })

/-- WRITE received (R481). -/
def Mach.gotWrite (v : Variant) (m : Mach) (p : YftPkt) : Mach :=
  m.withPacket 1 p (fun m ref d b =>
    let st := m.xkeyStatus p.key.toNat p.addr.toNat p.msgLen.toNat 1 (bitAt p.flags.toNat 3) (m.qSealed ref)
    if st ≠ St.ok then m.refusePkt ref d p.msgSeq.toNat st
    else
      let m := (m.markRx ref d).devWrite v (p.addr.toNat + p.off.toNat) b
      ((m.rxCount ref p []).2).countAccepted ref)

/-- READ_REQ received: the bytes are read and returned in the responder's stream, through the FTL for a namespace key
(R479); bad lists indirection units unreadable after all retries. -/
def Mach.gotReadReq (v : Variant) (m : Mach) (p : YftPkt) (bad : List Nat) : Mach :=
  m.withPacket 2 p (fun m ref d _ =>
    let ns := bitAt p.flags.toNat 3
    let len := p.msgLen.toNat
    let st := m.xkeyStatus p.key.toNat p.addr.toNat len 0 ns (m.qSealed ref)
    if st ≠ St.ok then m.refusePkt ref d p.msgSeq.toNat st
    else
      let m := (m.markRx ref d).countAccepted ref
      let m := if bitAt p.flags.toNat 1 then m.qAdd ref 0x30 1 else m
      let reply (m : Mach) (b : List Byte) : Mach := m.sendMsg ref 3 0 p.msgSeq.toNat 0 0 len (cutData (m.qMtu ref) b)
      if ns then
        match (m.xkey? p.key.toNat).bind (fun k => m.ns? k.nsid) with
        | none => m.sendNak ref p.msgSeq.toNat St.mediaUnrecoverable
        | some x =>
          match m.rangeStatus x p.addr.toNat len bad with
          | 0 => reply m (memRead x.data p.addr.toNat len)
          | st => m.sendNak ref p.msgSeq.toNat (if st = St.keyDenied then st else St.mediaUnrecoverable)
      else reply m (m.devRead v p.addr.toNat len))

/-- FETCH_ADD or CAS received: applied once, atomically; the old value is returned (R473). -/
def Mach.gotAtomic (v : Variant) (m : Mach) (p : YftPkt) (cas : Bool) : Mach :=
  m.withPacket (if cas then 5 else 4) p (fun m ref d b =>
    let a := p.addr.toNat
    let st := m.xkeyStatus p.key.toNat a 8 2 (bitAt p.flags.toNat 3) (m.qSealed ref)
    if st ≠ St.ok then m.refusePkt ref d p.msgSeq.toNat st
    else
      let old := m.devRead v a 8
      let new := if cas then (if old = b.take 8 then b.drop 8 else old) else leBytes 8 (ofLe old + ofLe b)
      let m := ((m.markRx ref d).devWrite v a new).countAccepted ref
      let m := if bitAt p.flags.toNat 1 then m.qAdd ref 0x30 1 else m
      m.sendMsg ref 6 0 p.msgSeq.toNat 0 0 8 [(0, old)])

/-- READ_RESP received: placed at LOCAL_ADDR (R473). -/
def Mach.gotReadResp (v : Variant) (m : Mach) (p : YftPkt) : Mach :=
  m.withPacket 3 p (fun m ref d b =>
    let m := (m.markRx ref d).countAccepted ref
    let x := m.xq ref
    match x.entries.find? (fun e => e.index = p.msgSeq.toNat && leAt e.bytes 0 1 = 2 && e.status.isNone) with
    | none => m
    | some e =>
      let m := m.devWrite v (leAt e.bytes 8 8 + p.off.toNat) b
      let got := e.got + b.length
      let m := m.setXq ref { x with entries := x.entries.map (fun y =>
        if y.index = e.index then { y with got := got, answered := true } else y) }
      if leAt e.bytes 4 4 ≤ got then m.completeEntry v ref e.index St.ok else m)

/-- ATOMIC_RESP received: the old value is written at LOCAL_ADDR (R473). -/
def Mach.gotAtomicResp (v : Variant) (m : Mach) (p : YftPkt) : Mach :=
  m.withPacket 6 p (fun m ref d b =>
    let m := (m.markRx ref d).countAccepted ref
    let x := m.xq ref
    match x.entries.find? (fun e => e.index = p.msgSeq.toNat && (leAt e.bytes 0 1 = 3 || leAt e.bytes 0 1 = 4) && e.status.isNone) with
    | none => m
    | some e => (m.devWrite v (leAt e.bytes 8 8) b).completeEntry v ref e.index St.ok)

/-- SEND received: its first packet takes a buffer (R475). -/
def Mach.gotSend (v : Variant) (m : Mach) (p : YftPkt) : Mach :=
  m.withPacket 7 p (fun m ref d b =>
    let seq := p.msgSeq.toNat
    let top := m.qNat ref 0x35 1
    let len := p.msgLen.toNat
    let place (m : Mach) (h : Nat) : Mach :=
      let m := (m.markRx ref d).devWrite v (m.bufAddr h + p.off.toNat) b
      let r := m.rxCount ref p [h]
      let m := if r.1 then r.2.setXq ref { r.2.xq ref with inbox := (r.2.xq ref).inbox ++ [([h], len)] } else r.2
      m.countAccepted ref
    match mapFind (m.xq ref).rx seq with
    | some x => place m (x.bufs.headD 0)
    | none =>
      if top = 0xFF then m.refusePkt ref d seq St.invalidField
      else if bufSize top < len then m.refusePkt ref d seq St.bounds
      else
        match poolFor len with
        | none => m.refusePkt ref d seq St.bounds
        | some k =>
          match (m.pool k).chuck with
          | h :: _ =>
            if (m.pool k).ready then
              let tag := m.mem.reqTag
              place (({ m with mem := { m.mem with reqTag := tag + 1 } }).takeBuf k (m.slot (refSlot ref)).owner tag) h
            else m.sendNak ref seq St.poolEmpty
          | [] => m.sendNak ref seq St.poolEmpty)

/-- The packets that an ACK reports: those before RX_BASE and those of the bitmap. -/
def ackCovers (base map psn : Nat) : Bool :=
  !reached32 psn base || (let d := (psn + 2 ^ 32 - base % 2 ^ 32) % 2 ^ 32; 1 ≤ d && d ≤ 64 && bitAt map (d - 1))

/-- Entries whose every packet has been acknowledged. -/
def Mach.ackEntries (v : Variant) (m : Mach) (ref : Nat) : Mach :=
  (m.xq ref).entries.foldl (fun m e =>
    let x := m.xq ref
    let op := leAt e.bytes 0 1
    if e.status.isSome || x.pkts.any (fun p => p.msgSeq = e.index && p.typ ≠ 3 && p.typ ≠ 6) then m
    else if op = 1 || op = 5 then m.completeEntry v ref e.index St.ok
    else m.setXq ref { x with entries := x.entries.map (fun y =>
      if y.index = e.index && y.ackedAt.isNone then { y with ackedAt := some m.spn.count } else y) }) m

/-- ACK received (R481). -/
def Mach.gotAck (v : Variant) (m : Mach) (p : YftPkt) : Mach :=
  match m.receive 8 p with
  | (some ref, m) =>
    let x := m.xq ref
    let gone := x.pkts.filter (fun k => k.sent.isSome && ackCovers p.psn.toNat p.addr.toNat k.psn)
    let left := x.pkts.filter (fun k => !(k.sent.isSome && ackCovers p.psn.toNat p.addr.toNat k.psn))
    let m := m.setXq ref { x with pkts := left }
    let m := gone.foldl (fun m k => m.onPath (m.qNat ref 0x10 4) k.path (fun q => { q with timeouts := 0 })) m
    let m := m.qPut ref 0x48 4 ((left.head?.map (fun k => k.psn)).getD (m.qNat ref 0x44 4))
    let m := m.ackEntries v ref
    m.pump ((m.xq ref).pkts.length) ref
  | (none, m) => m

/-- NAK received (R475, R478): a SEND refused for want of a buffer is sent again after RTO_US, any other message fails. -/
def Mach.gotNak (v : Variant) (m : Mach) (p : YftPkt) : Mach :=
  match m.receive 9 p with
  | (some ref, m) =>
    let x := m.xq ref
    let st := p.msgLen.toNat % 2 ^ 16
    let idx := p.msgSeq.toNat
    match x.entries.find? (fun e => e.index = idx && e.status.isNone) with
    | none => m
    | some e =>
      if leAt e.bytes 0 1 = 5 && st = St.poolEmpty then
        m.setXq ref { x with pkts := x.pkts.map (fun k =>
          if k.msgSeq = idx && k.typ = 7 && k.sent.isSome then { k with sent := some m.spn.count } else k) }
      else m.completeEntry v ref idx st
  | (none, m) => m

/-- READ_TIMEOUT (R479). -/
def Mach.readTimeout (v : Variant) (m : Mach) (ref index : Nat) : Mach :=
  match m.queue? ref, (m.xq ref).entries.find? (fun e => e.index = index && leAt e.bytes 0 1 = 2 && e.status.isNone) with
  | some _, some e =>
    match e.ackedAt with
    | some t => if !e.answered && t + m.fld Reg.xptCfg 17 10 * 1000000 ≤ m.spn.count then
        m.completeEntry v ref index St.mediaUnrecoverable else m
    | none => m
  | _, _ => m

/-! ### Register commands of queues -/

def Mach.xptReject (m : Mach) (w : Writer) (off val reason : Nat) : Mach := m.rejected (writerSource w) off val reason

/-- XPT_DOORBELL (R470). -/
def Mach.xptDoorbell (m : Mach) (w : Writer) (ref tail : Nat) : Mach :=
  match m.queue? ref with
  | none => m.xptReject w Reg.xptDoorbell tail 4
  | some x =>
    if x.owner ≠ writerOwner w then m.xptReject w Reg.xptDoorbell tail 2
    else if slotNat x 0x21 1 ≠ 0 then m.xptReject w Reg.xptDoorbell tail 4
    else
      let adv := (tail + 2 ^ 32 - slotNat x 0x28 4) % 2 ^ 32
      let ahead := (tail + 2 ^ 32 - slotNat x 0x2C 4) % 2 ^ 32
      if adv = 0 || 2 ^ 31 ≤ adv || 2 ^ slotNat x 0x20 1 < ahead then m.xptReject w Reg.xptDoorbell tail 3
      else m.qPut ref 0x28 4 tail

/-- XPT_QDELETE (R468). -/
def Mach.xptDelete (m : Mach) (w : Writer) (ref : Nat) : Mach :=
  match m.queue? ref with
  | none => m.xptReject w Reg.xptQdelete ref 4
  | some x =>
    if x.owner ≠ writerOwner w then m.xptReject w Reg.xptQdelete ref 2
    else if slotNat x 0x21 1 = 1 then m.xptReject w Reg.xptQdelete ref 4
    else (m.qPut ref 0x21 1 1).setXq ref { m.xq ref with drainSince := some m.spn.count }

/-- QUEUE_DRAIN_END (R468). -/
def Mach.drainEnd (v : Variant) (m : Mach) (ref : Nat) : Mach :=
  match m.queue? ref, (m.xq ref).drainSince with
  | some _, some t =>
    if (m.xq ref).entries.isEmpty || t + 2 * m.lifeNs ≤ m.spn.count then
      let m := m.queueError v ref St.mediaUnrecoverable
      let m := { m with xp := { m.xp with queues := mapErase m.xp.queues (refSlot ref) } }
      (m.ctxRelease v ref).2
    else m
  | _, _ => m

/-- XPT_CQ_CONSUMED (R474, 14 R527). -/
def Mach.cqConsumed (m : Mach) (w : Writer) (ref count : Nat) : Mach :=
  match m.queue? ref with
  | none => m.xptReject w Reg.xptCqConsumed count 4
  | some x =>
    if x.owner ≠ writerOwner w then m.xptReject w Reg.xptCqConsumed count 2
    else if !reached32 count (m.xq ref).consumed || !reached32 (slotNat x 0x40 4) count then m.xptReject w Reg.xptCqConsumed count 3
    else m.setXq ref { m.xq ref with consumed := count }

/-! ### Pipeline entries (14 R523, R527) -/

/-- YFT_QCREATE. -/
def Mach.qCreate (v : Variant) (m : Mach) (c : PipeCtx) (a : QCreate) : Mach :=
  m.pipeNow c (fun m =>
    let rl := a.ringLog.toNat
    let cl := a.cqLog.toNat
    let area := St.first (m.areaStatus a.ringBase.toNat (64 * 2 ^ rl)) (m.areaStatus a.cqBase.toNat (if cl = 0 then 0 else 16 * 2 ^ cl))
    let fields := 4 ≤ rl && rl ≤ 16 && (cl = 0 || (4 ≤ cl && cl ≤ 16)) && 1 ≤ a.paths.toNat && a.paths.toNat ≤ 64 &&
      (a.recvPool.toNat ≤ 7 || a.recvPool.toNat = 0xFF) && a.tclass.toNat < 512 && a.ringBase.toNat % 4096 = 0 && a.peerNode ≠ 0
    let st := St.first area (if fields then St.ok else St.invalidField)
    if st ≠ St.ok then (0, st, m)
    else
      let body := leBytes 4 a.peerNode.toNat ++ leBytes 4 a.peerQueue.toNat ++ leBytes 8 a.ringBase.toNat ++ leBytes 1 rl ++ [0] ++
        leBytes 1 a.paths.toNat ++ [0] ++ leBytes 16 0 ++ leBytes 1 cl ++ leBytes 1 a.recvPool.toNat ++ leBytes 2 a.tclass.toNat ++
        leBytes 8 a.cqBase.toNat
      match m.ctxCreate v 3 (2 + c.port.val) body with
      | some (ref, m) => (ref, St.ok, m.setXq ref .fresh)
      | none => (0, St.poolEmpty, m))

/-- YFT_QCONNECT. -/
def Mach.qConnect (m : Mach) (c : PipeCtx) (ref peer : Nat) : Mach :=
  m.pipeNow c (fun m =>
    match m.queue? ref with
    | none => (0, St.badHandle, m)
    | some x =>
      let st := St.first (if x.owner ≠ 2 + c.port.val then St.notOwner else St.ok)
        (if slotNat x 0x14 4 ≠ 0 || slotNat x 0x21 1 ≠ 0 || peer = 0 then St.invalidField else St.ok)
      (0, st, if st = St.ok then m.qPut ref 0x14 4 peer else m))

/-- NODE_PATH. -/
def Mach.nodePath (v : Variant) (m : Mach) (c : PipeCtx) (a : PathArgs) : Mach :=
  m.pipeNow c (fun m =>
    let node := a.node.toNat
    let path := a.path.toNat
    let kind := a.kind.toNat
    let ok := node ≠ 0 && path < 64 && kind ≤ 2 && a.port.toNat < 2 && (a.vlan.toNat < 4096 || a.vlan.toNat = 0xFFFF)
    let st := worst [if c.port.val = m.hif.owner then St.ok else St.notOwner, if ok then St.ok else St.invalidField,
      if kind ≠ 0 && fabPorts v ≤ a.port.toNat then St.unitAbsent else St.ok,
      if kind ≠ 0 && (m.peer? node).isNone && 2048 ≤ m.xp.nodes.length then St.poolEmpty else St.ok]
    if st ≠ St.ok then (0, st, m)
    else
      let x := (m.peer? node).getD ⟨[], 0⟩
      let paths := if kind = 0 then mapErase x.paths path
        else mapSet x.paths path ⟨a.port.toNat, kind = 2, a.vlan.toNat, a.udpSrc.toNat, sliceBytes a.mac 0 6, sliceBytes a.ip 0 16,
          m.linkUp a.port.toNat, 0, m.spn.count⟩
      (0, St.ok, if paths.isEmpty then { m with xp := { m.xp with nodes := mapErase m.xp.nodes node } }
        else m.setPeer node { x with paths := paths }))

/-- TIME (R483): an exchange of a peer answered by a module in state OWN or LOCKED. -/
def Mach.gotTime (m : Mach) (node t2 t3 : Nat) : Mach :=
  if m.node ≠ 0 && node ≠ 0 && (m.sync = 0 || m.sync = 2) then m.send (.time node t2 t3) else m

end Sys2Proof.Machine
end

