-- ==== Sys2Proof/Machine/SessOps.lean ====
section
/-!
DEFINITION. Generation sessions: masks, stop strings, sequences and their results (11_tokeniser_and_grammar.md R396 to
R412).
-/
namespace Sys2Proof.Machine

/-! ### Masks (R397, R398) -/

/-- The tables of a session and one sequence's choice among them. -/
structure SeqTables where
  voc : List Byte
  gram : Option (List Byte)
  auto : List Byte
  stop : Option (List Byte)
  endTok : Nat
deriving DecidableEq, Repr

/-- The tables by the indices of an OPEN; 0xFFFF names none. -/
def seqTables (ts : List (List Byte)) (voc gram stop endTok : Nat) : SeqTables :=
  let g := tableAt ts gram
  ⟨tableAt ts voc, if gram = 0xFFFF then none else some g, if gram = 0xFFFF then [] else tableAt ts (leAt g 6 2),
    if stop = 0xFFFF then none else some (tableAt ts stop), endTok⟩

/-- A walk over bytes that reaches neither state 0 nor a push past depth 64: the state and the stack. -/
def walkBytes (t : List Byte) (b : List Byte) (s : Nat) (st : List Nat) : Option (Nat × List Nat) :=
  let r := stepBytes (autoOf t) b 0 s st
  if r.1 ≠ 0 && r.2.2.2 = St.ok && r.2.2.1 = b.length then some (r.1, r.2.1) else none

/-- END_TOKEN may end the sequence: the state accepts at depth 0. -/
def SeqTables.mayEnd (t : SeqTables) (s : Nat) (st : List Nat) : Bool := autoAccepts t.auto s && st.isEmpty

/-- A token of the set of R397. -/
def SeqTables.allows (t : SeqTables) (g : List Byte) (s : Nat) (st : List Nat) (id : Nat) : Bool :=
  let q := gramPos g id
  (id = t.endTok && t.mayEnd s st) ||
    (!tokenSpecial t.voc id &&
      ((gramAlways g s).any (fun r => decide (r.1 ≤ q ∧ q < r.1 + r.2)) ||
        ((gramCands g s).contains id && (walkBytes t.auto (tokenBytes t.voc id) s st).isSome)))

/-- The mask over positions. -/
def SeqTables.maskOf (t : SeqTables) (g : List Byte) (s : Nat) (st : List Nat) (forced : Bool) : List Bool :=
  (List.range (vocabTokens t.voc)).map (fun q =>
    let id := gramToken g q
    if forced then id = t.endTok else t.allows g s st id)

/-- Ranges of the positions that are set: gap and length, from a gap and a run so far. -/
def maskRuns : List Bool → Nat → Nat → List (Nat × Nat)
  | [], g, n => if n = 0 then [] else [(g, n)]
  | true :: r, g, n => maskRuns r g (n + 1)
  | false :: r, g, n => if n = 0 then maskRuns r (g + 1) 0 else (g, n) :: maskRuns r 1 0

/-- An unsigned LEB128 integer; fuel bounds its bytes. -/
def leb128Put : Nat → Nat → List Byte
  | 0, _ => []
  | f + 1, n => if n < 128 then [BitVec.ofNat 8 n] else BitVec.ofNat 8 (n % 128 + 128) :: leb128Put f (n / 128)

def encodeRuns (l : List (Nat × Nat)) : List Byte := l.flatMap (fun r => leb128Put 10 r.1 ++ leb128Put 10 r.2)

/-- The shorter of both forms, the direct one where they are equal: INVERT and the bytes (R398). -/
def encodeMask (m : List Bool) : Bool × List Byte :=
  let d := encodeRuns (maskRuns m 0 0)
  let i := encodeRuns (maskRuns (m.map (!·)) 0 0)
  if i.length < d.length && m.any id then (true, i) else (false, d)

/-! ### Stop strings (R399 to R401) -/

/-- The stop DFA over the bytes of a token: the state, and at the first match the bytes read, MATCH_LEN and MATCH_IDX. -/
def stopRun (t : List Byte) : List Byte → Nat → Nat → Nat × Option (Nat × Nat × Nat)
  | [], s, _ => (s, none)
  | b :: r, s, n =>
    let s' := (stepBytes (autoOf t) [b] 0 s []).1
    let i := stopInfo t s'
    if bitsOf i 15 8 ≠ 0 then (s', some (n + 1, bitsOf i 15 8, bitsOf i 19 16)) else stopRun t r s' (n + 1)

/-! ### Sequences (R404 to R412) -/

def Job.sess? (x : Job) : Option SessReq := match x.kind with | .session s => some s | _ => none

def Mach.setSess (m : Mach) (j : Nat) (s : SessReq) : Mach :=
  match m.job? j with
  | some x => m.setJob j { x with kind := .session s }
  | none => m

/-- A live session of a slot. -/
def Mach.session? (m : Mach) (j : Nat) : Option SessReq :=
  match m.job? j with
  | some x => if x.live then x.sess? else none
  | none => none

def SessReq.seq? (s : SessReq) (ref : Nat) : Option SeqRec := s.seqs.find? (fun q => q.ref = ref)
def SessReq.setSeq (s : SessReq) (q : SeqRec) : SessReq := { s with seqs := s.seqs.map (fun x => if x.ref = q.ref then q else x) }

def Mach.setSeq (m : Mach) (j : Nat) (q : SeqRec) : Mach :=
  match (m.job? j).bind Job.sess? with
  | some s => m.setSess j (s.setSeq q)
  | none => m

/-- Fields of the slot of R412. -/
def seqFlags (x : CtxSlot) : Nat := slotNat x 0x28 2
def seqStack (x : CtxSlot) : List Nat := ((List.range (slotNat x 0x30 1)).map (fun i => slotNat x (0x80 + 2 * i) 2)).reverse
def putStack (x : CtxSlot) (st : List Nat) : CtxSlot :=
  let x := slotPut x 0x30 1 st.length
  st.reverse.zipIdx.foldl (fun x p => slotPut x (0x80 + 2 * p.2) 2 p.1) x

/-- Flags of a result (R409). -/
def fEnded : Nat := 1
def fEos : Nat := 2
def fLength : Nat := 4
def fForced : Nat := 8
def fInvert : Nat := 16
def fSpilled : Nat := 32
def fClosed : Nat := 64
def fComplete : Nat := 128
def fUnconstrained : Nat := 256

/-- What a result tells beside the slot's fields. -/
structure SeqResult where
  status : Nat
  flags : Nat
  stopIdx : Nat
  stopOff : Nat
  overhang : List Byte
  bytes : List Byte
  mask : List Byte
deriving DecidableEq, Repr

def SeqResult.of (status flags : Nat) (bytes mask : List Byte) : SeqResult := ⟨status, flags, 0xFF, 0, [], bytes, mask⟩

/-- A buffer of a pool taken at once for an owner. -/
def Mach.takeFrom (m : Mach) (k owner : Nat) : Option (Nat × Mach) :=
  match (m.pool k).chuck with
  | h :: _ =>
    if (m.pool k).ready then
      let tag := m.mem.reqTag
      some (h, ({ m with mem := { m.mem with reqTag := tag + 1 } }).takeBuf k owner tag)
    else none
  | [] => none

/-- The payload of a result: returned bytes, overhang, and from the next multiple of 8 the mask. -/
def resultPayload (r : SeqResult) (mask : List Byte) : List Byte :=
  let b := r.bytes ++ r.overhang
  if mask.isEmpty then b else b ++ List.replicate ((8 - b.length % 8) % 8) 0 ++ mask

/-- The bytes of a result record (R409). -/
def resultBytes (ref steps tag spill key outLen : Nat) (r : SeqResult) (mask : List Byte) : List Byte :=
  leBytes 4 ref ++ leBytes 4 steps ++ leBytes 2 r.status ++ leBytes 2 r.flags ++ leBytes 1 r.stopIdx ++ leBytes 1 r.stopOff ++
    leBytes 1 r.overhang.length ++ [0] ++ leBytes 8 tag ++ leBytes 4 r.bytes.length ++ leBytes 4 r.mask.length ++ leBytes 8 spill ++
    leBytes 8 key ++ leBytes 4 outLen ++ List.replicate 12 0 ++ resultPayload r mask

/-- The result written, its mask spilled to a buffer of pool 6 where the record cannot hold it (R410); none where no such
buffer is free, so that the command waits. keep tells whether the result is the one that later repeats give. -/
def Mach.giveResult (v : Variant) (m : Mach) (j ref : Nat) (r : SeqResult) (keep : Bool) : Option Mach :=
  match (m.job? j).bind Job.sess? with
  | none => none
  | some s =>
    match s.seq? ref with
    | none => none
    | some q =>
      let x := m.slot (refSlot ref)
      let m := match q.spill with | some h => m.freeBuf .control (0x10 + j) h | none => m
      let fits := 0x40 + (resultPayload r r.mask).length ≤ slotNat x 0x50 4
      let spilled : Option (Nat × Mach) := if fits then some (0, m) else m.takeFrom 6 (0x10 + j)
      match spilled with
      | none => none
      | some (h, m) =>
        let a := m.bufAddr h
        let m := if fits then m else (m.devWrite v a r.mask).addFld Reg.grmSpilled 31 0 1
        let r := if fits then r else { r with flags := r.flags ||| fSpilled }
        let b := resultBytes ref (slotNat x 0x18 4) (slotNat x 0x10 8) (if fits then 0 else a) (if fits then 0 else s.key)
          (slotNat x 0x3C 4) r (if fits then r.mask else [])
        let m := m.send (.result (slotNat x 0x48 8) (slotNat x 0x40 8) b)
        some (m.setSeq j { q with last := if keep then b else q.last, spill := if fits then none else some h })

/-- The result of an OPEN that makes no sequence. -/
def Mach.refuseOpen (m : Mach) (c : List Byte) (st : Nat) : Mach :=
  m.send (.result (leAt c 0x18 8) (leAt c 0x10 8) (resultBytes 0 0 (leAt c 8 8) 0 0 0 (.of st 0 [] []) []))

/-- The mask that a sequence's state gives, with its flags; none without a grammar. -/
def SeqTables.mask (t : SeqTables) (s : Nat) (st : List Nat) (forced : Bool) : Nat × List Byte × Bool :=
  match t.gram with
  | none => (fUnconstrained + (if t.endTok < vocabTokens t.voc then fComplete else 0), [], false)
  | some g =>
    let bits := t.maskOf g s st forced
    let e := encodeMask bits
    ((if e.1 then fInvert else 0) + (if forced || (t.mayEnd s st && t.endTok < vocabTokens t.voc) then fComplete else 0) +
      (if forced then fForced else 0), e.2, !bits.any id)

/-- Output bytes kept: they go into the chain of pool-2 buffers (R411); none where a buffer is wanting. -/
def Mach.keepOutput (v : Variant) (m : Mach) (j ref : Nat) (b : List Byte) : Option Mach :=
  match (m.job? j).bind Job.sess? with
  | none => none
  | some s =>
    if s.outNsid = 0 || b.isEmpty then some m
    else
      match s.seq? ref with
      | none => none
      | some q =>
        let out := q.output ++ b
        let need := (out.length + 4095) / 4096
        let taken := (List.range (need - q.chain.length)).foldl (fun (acc : Option (List Nat × Mach)) _ =>
          match acc with
          | none => none
          | some (l, m) => match m.takeFrom 2 (0x10 + j) with
            | some (h, m) => some (l ++ [h], m)
            | none => none) (some (q.chain, m))
        match taken with
        | none => none
        | some (chain, m) =>
          let m := chain.zipIdx.foldl (fun m p => m.devWrite v (m.bufAddr p.1) (sliceBytes out (p.2 * 4096) (min 4096 (out.length - p.2 * 4096)))) m
          let x := m.slot (refSlot ref)
          let x := slotPut (slotPut (slotPut x 0x38 4 (chain.headD 0)) 0x54 4 (chain.getLastD 0)) 0x3C 4 out.length
          some ((m.setSlot (refSlot ref) x).setSeq j { q with output := out, chain := chain })

/-- The head of a CBOR item (RFC 8949), in its shortest form. -/
def cborHead (major n : Nat) : List Byte :=
  if n < 24 then [BitVec.ofNat 8 (major * 32 + n)]
  else if n < 2 ^ 8 then BitVec.ofNat 8 (major * 32 + 24) :: beBytes 1 n
  else if n < 2 ^ 16 then BitVec.ofNat 8 (major * 32 + 25) :: beBytes 2 n
  else if n < 2 ^ 32 then BitVec.ofNat 8 (major * 32 + 26) :: beBytes 4 n
  else BitVec.ofNat 8 (major * 32 + 27) :: beBytes 8 n

/-- The frame of an ended sequence (R411): a record of content type CBOR whose payload is the array. -/
def outputFrame (tag status steps flags : Nat) (out : List Byte) : List Byte :=
  let body := cborHead 5 2 ++ cborHead 0 1 ++ cborHead 0 5 ++ cborHead 0 2 ++ cborHead 4 5 ++ cborHead 0 tag ++ cborHead 0 status ++
    cborHead 0 steps ++ cborHead 0 flags ++ cborHead 2 out.length ++ out
  frameOf (frameHeader body.length 0 0 5) body

/-- A sequence ends (R405, R411): its slot says so, its frame joins the extent, or the session fails for want of room. -/
def Mach.endSeq (m : Mach) (j ref status flags : Nat) : Mach :=
  match (m.job? j).bind Job.sess? with
  | none => m
  | some s =>
    match s.seq? ref with
    | none => m
    | some q =>
      let x := m.slot (refSlot ref)
      let x := slotPut (slotPut x 0x28 2 (seqFlags x ||| 16)) 0x2A 2 status
      let m := m.setSlot (refSlot ref) (slotPut x 0x31 1 0)
      if s.outNsid = 0 then m
      else
        let f := outputFrame (slotNat x 0x10 8) status (slotNat x 0x18 4) flags q.output
        let lba := match m.ns? s.outNsid with | some n => n.lba | none => 0
        if s.outBlocks * lba < s.used + f.length then m.jobFail j St.outOverflow
        else m.setSess j { s with used := s.used + f.length, writing := s.writing ++ [f] }

/-- OPEN (R404). -/
def Mach.seqOpen (v : Variant) (m : Mach) (j : Nat) (cmd : List Byte) : Mach :=
  match m.session? j with
  | none => m
  | some s =>
    let c := sliceBytes cmd 0 64
    let ts := Config.tableSet s.tables
    let fl := leAt c 1 1
    let g := leAt c 2 2
    let sp := leAt c 4 2
    let voc := tableAt ts s.vocab
    let rl := leAt c 0x20 4
    let endTok := leAt c 0x28 4
    let ok := fl < 8 && leAt c 6 2 = 0 && leAt c 0x10 8 % 64 = 0 && 256 ≤ rl && rl ≤ 65536 && rl % 64 = 0 && leAt c 0x24 4 ≤ 65536 &&
      (endTok = 0xFFFFFFFF || endTok < vocabTokens voc) && zeroAt c 0x2C 20 &&
      (g = 0xFFFF || (gramOk ts (tableAt ts g) && leAt (tableAt ts g) 8 4 = vocabTokens voc)) &&
      (sp = 0xFFFF || stopOk (tableAt ts sp))
    if !ok then m.refuseOpen c St.invalidField
    else if s.maxSeqs ≠ 0 && s.maxSeqs ≤ s.seqs.length then m.refuseOpen c St.poolEmpty
    else
      let t := seqTables ts s.vocab g sp endTok
      let start := if g = 0xFFFF then 0 else autoStart t.auto
      let sStart := match t.stop with | some a => autoStart a | none => 0
      let max := if leAt c 0x24 4 = 0 then 65536 else leAt c 0x24 4
      let mk := t.mask start [] false
      let force := mk.2.2 && bitAt fl 1 && endTok ≠ 0xFFFFFFFF
      let body := leBytes 8 (leAt c 8 8) ++ leBytes 4 0 ++ leBytes 4 max ++ leBytes 2 g ++ leBytes 2 sp ++ leBytes 4 endTok ++
        leBytes 2 (fl + (if force then 8 else 0)) ++ leBytes 2 0 ++ leBytes 4 start ++ leBytes 4 0 ++ leBytes 4 sStart ++ leBytes 8 0 ++
        leBytes 8 (leAt c 0x10 8) ++ leBytes 8 (leAt c 0x18 8) ++ leBytes 4 rl
      match m.ctxCreate v 2 (0x10 + j) body with
      | none => m.refuseOpen c St.poolEmpty
      | some (ref, m1) =>
        let m1 := m1.setSess j { s with seqs := s.seqs ++ [⟨ref, [], [], [], none, []⟩] }
        let r := if force then t.mask start [] true else mk
        let m1 := if force then m1.addFld Reg.grmForced 31 0 1 else m1
        if mk.2.2 && !force then
          let m1 := (m1.addFld Reg.grmDead 31 0 1).endSeq j ref St.grammarDead fEnded
          (m1.giveResult v j ref (.of St.grammarDead fEnded [] []) true).getD m
        else (m1.giveResult v j ref (.of St.ok r.1 [] r.2.1) true).getD m

/-- A command for a stale or foreign sequence (R405 row 1): counted and recorded. -/
def Mach.seqStale (m : Mach) (j ref : Nat) : Mach :=
  (m.addFld Reg.grmRefused 31 0 1).record 0x00A3 (sourceOf 9 j) St.badHandle
    (payloadOf [(2, kindCode 0x00A3 405), (2, 0), (8, ref)])

/-- The sequence ends with a token consumed: its output, its result and its frame. -/
def Mach.finishSeq (v : Variant) (m : Mach) (j ref : Nat) (r : SeqResult) : Option Mach :=
  match m.keepOutput v j ref r.bytes with
  | none => none
  | some m => (m.endSeq j ref r.status r.flags).giveResult v j ref r true

/-- STEP (R405, R406). -/
def Mach.seqStep (v : Variant) (m : Mach) (j ref stepNo tok : Nat) : Mach :=
  match m.session? j with
  | none => m
  | some s =>
    match s.seq? ref with
    | none => m.seqStale j ref
    | some q =>
      let x := m.slot (refSlot ref)
      let fl := seqFlags x
      let steps := slotNat x 0x18 4
      let again := m.send (.result (slotNat x 0x48 8) (slotNat x 0x40 8) q.last)
      if bitAt fl 4 || stepNo + 1 = steps then again
      else
        let t := seqTables (Config.tableSet s.tables) s.vocab (slotNat x 0x20 2) (slotNat x 0x22 2) (slotNat x 0x24 4)
        let gs := slotNat x 0x2C 4
        let st := seqStack x
        let forced := bitAt fl 3
        let cur := t.mask gs st forced
        if stepNo ≠ steps then (m.giveResult v j ref (.of St.invalidField 0 [] []) false).getD m
        else
          let allowed : Bool := tok < vocabTokens t.voc &&
            (match t.gram with | none => true | some g => if forced then tok = t.endTok else t.allows g gs st tok)
          if !allowed then (m.giveResult v j ref (.of St.invalidField cur.1 [] cur.2.1) false).getD m
          else
            let b := if tokenSpecial t.voc tok && !bitAt fl 2 then [] else tokenBytes t.voc tok
            let include_ := bitAt fl 0
            let stopR : Nat × Option (Nat × Nat × Nat) := match t.stop with
              | some a => stopRun a b (slotNat x 0x34 4) 0
              | none => (0, none)
            let m1 := (m.setSlot (refSlot ref) (slotPut (slotPut x 0x18 4 (steps + 1)) 0x34 4 stopR.1)).addFld Reg.grmSteps 63 0 1
            let all := q.held ++ b
            let fin : Option Mach :=
              match stopR.2 with
              | some (off, len, idx) =>
                let pre := q.held ++ b.take off
                let ret := if include_ then b.take off else pre.take (pre.length - len)
                (m1.addFld Reg.grmStop 31 0 1).finishSeq v j ref ⟨St.stopMatch, fEnded, idx, off, b.drop off, ret, []⟩
              | none =>
                if tok = t.endTok then
                  m1.finishSeq v j ref (.of St.ok (fEnded + fEos + (if forced then fForced else 0)) all [])
                else if slotNat x 0x1C 4 ≤ steps + 1 then m1.finishSeq v j ref (.of St.ok (fEnded + fLength) all [])
                else
                  let w := match t.gram with
                    | some _ => (walkBytes t.auto (tokenBytes t.voc tok) gs st).getD (0, st)
                    | none => (gs, st)
                  let nx := t.mask w.1 w.2 false
                  let dead := nx.2.2
                  let force := dead && bitAt fl 1 && t.endTok ≠ 0xFFFFFFFF
                  if dead && !force then
                    (m1.addFld Reg.grmDead 31 0 1).finishSeq v j ref (.of St.grammarDead fEnded all [])
                  else
                    let depth := match t.stop with | some a => bitsOf (stopInfo a stopR.1) 7 0 | none => 0
                    let hold := if include_ then 0 else min depth all.length
                    let ret := all.take (all.length - hold)
                    let y := m1.slot (refSlot ref)
                    let y := putStack (slotPut (slotPut y 0x2C 4 w.1) 0x31 1 hold) w.2
                    let y := if force then slotPut y 0x28 2 (fl ||| 8) else y
                    let m2 := m1.setSlot (refSlot ref) y
                    let m2 := m2.setSeq j { q with held := all.drop (all.length - hold) }
                    let m2 := if force then m2.addFld Reg.grmForced 31 0 1 else m2
                    let r := if force then t.mask w.1 w.2 true else nx
                    match m2.keepOutput v j ref ret with
                    | none => none
                    | some m3 => m3.giveResult v j ref (.of St.ok r.1 ret r.2.1) true
            fin.getD m

/-- A sequence leaves its session: buffers and slot are freed (R407). -/
def Mach.dropSeq (v : Variant) (m : Mach) (j : Nat) (q : SeqRec) : Mach :=
  let m := match q.spill with | some h => m.freeBuf .control (0x10 + j) h | none => m
  let m := q.chain.foldl (fun m h => m.freeBuf .control (0x10 + j) h) m
  let m := match (m.job? j).bind Job.sess? with
    | some s => m.setSess j { s with seqs := s.seqs.filter (fun x => x.ref ≠ q.ref) }
    | none => m
  (m.ctxRelease v q.ref).2

/-- CLOSE (R407). -/
def Mach.seqClose (v : Variant) (m : Mach) (j ref : Nat) : Mach :=
  match m.session? j with
  | none => m
  | some s =>
    match s.seq? ref with
    | none => m.seqStale j ref
    | some q =>
      let ended := bitAt (seqFlags (m.slot (refSlot ref))) 4
      let done : Option Mach := if ended then some m
        else m.finishSeq v j ref (.of St.ok (fEnded + fClosed) q.held [])
      match done with
      | none => m
      | some m =>
        match ((m.job? j).bind Job.sess?).bind (fun s => s.seq? ref) with
        | some q => m.dropSeq v j q
        | none => m

/-! ### Messages (R403) -/

/-- The commands of a message, or none where they do not fill it. -/
def seqCommands : Nat → List Byte → Option (List (List Byte))
  | 0, b => if b.isEmpty then some [] else none
  | n + 1, b =>
    let size := match leAt b 0 1 with | 1 => 64 | 2 => 16 | 3 => 16 | _ => 0
    if size = 0 || b.length < size then none
    else (seqCommands n (b.drop size)).map (fun l => b.take size :: l)

/-- One command of a message. -/
def Mach.seqCommand (v : Variant) (m : Mach) (j : Nat) (c : List Byte) : Mach :=
  match leAt c 0 1 with
  | 1 => m.seqOpen v j c
  | 2 => m.seqStep v j (leAt c 4 4) (leAt c 8 4) (leAt c 12 4)
  | _ => m.seqClose v j (leAt c 4 4)

/-- A message parsed: its commands in order, or all of it discarded. -/
def Mach.seqMessage (v : Variant) (m : Mach) (j : Nat) (b : List Byte) : Mach :=
  let n := leAt b 4 4
  let ok := 16 ≤ b.length && leAt b 0 4 = 0x53444953 && 1 ≤ n && n ≤ 65536 && zeroAt b 8 8
  match (if ok then seqCommands n (b.drop 16) else none) with
  | some l => l.foldl (fun m c => m.seqCommand v j c) m
  | none => m.addFld Reg.grmRefused 31 0 1

/-- SESSION_MESSAGE: the oldest message that a queue of the session has received; its buffer is freed once its commands
have been read (R403, 13 R475). -/
def Mach.sessionMessage (v : Variant) (m : Mach) (j q : Nat) : Mach :=
  match m.session? j, m.queue? q with
  | some s, some x =>
    let k := m.xq q
    match k.inbox with
    | (hs, len) :: r =>
      if s.inBase ≤ q && q < s.inBase + s.inQueues then
        let b := m.devRead v (m.bufAddr (hs.headD 0)) len
        let m := m.setXq q { k with inbox := r }
        let m := hs.foldl (fun m h => m.freeBuf .control x.owner h) m
        m.seqMessage v j b
      else m
    | [] => m
  | _, _ => m

/-! ### The session (R402) -/

/-- The access key of a session: the module area, in its own buffers, for reading (13 R476). -/
def Mach.sessionKey (m : Mach) : KeyCreate :=
  ⟨BitVec.ofNat 48 (m.fld Reg.memHostLimit 47 0), BitVec.ofNat 48 (m.fld (Reg.memCarveBase 3) 47 0), 0, false, 1, true⟩

def Mach.sessionStatus (v : Variant) (m : Mach) (b : List Byte) : Nat :=
  let t := m.devRead v (leAt b 8 8) (leAt b 0x10 8)
  let ts := Config.tableSet t
  let ns := leAt b 0x20 4
  let blocks := leAt b 0x30 8
  let nq := leAt b 0x18 2
  let fields := leAt b 0 4 = 0x4E454753 && leAt b 4 2 = 1 && 1 ≤ nq && nq ≤ 64 && leAt b 0x1A 2 = 0 && leAt b 0x24 4 ≤ 262144 &&
    leAt b 0x38 8 = 0 && vocabOk ts (tableAt ts (leAt b 6 2)) && ts.all (tableOk ts) && (ns ≠ 0 || blocks = 0) &&
    (ns = 0 || match m.ns? ns with | some x => x.kind = 0 && leAt b 0x28 8 + blocks ≤ x.nsze | none => false)
  St.first (if fields then St.ok else St.invalidField) (if backed v (leAt b 8 8) (leAt b 0x10 8) then St.ok else St.bounds)

/-- SESSION_START. -/
def Mach.sessionStart (v : Variant) (m : Mach) (c : PipeCtx) (addr : Nat) : Mach :=
  m.pipeTake c (fun serial m =>
    let fin (m : Mach) (result st : Nat) : Mach := m.pipeDone c.port.val c.q.val c.cid.toNat serial result st
    if m.areaStatus addr 64 ≠ St.ok then fin m 0 (m.areaStatus addr 64)
    else
      let b := m.devRead v addr 64
      let st := m.sessionStatus v b
      if st ≠ St.ok then fin m 0 st
      else
        match m.freeJob with
        | none => fin m 0 St.poolEmpty
        | some j =>
          match takeClusters (m.clustersFor v j 0 0) 0 with
          | none => fin m 0 St.poolEmpty
          | some cl =>
            if 16384 ≤ m.xp.keys.length then fin m 0 St.poolEmpty
            else
              let k := m.addXkey m.sessionKey (0x10 + j)
              let m := cl.foldl (fun m c => m.serve c j false) k.2
              let s : SessReq := {
                vocab := leAt b 6 2, tables := m.devRead v (leAt b 8 8) (leAt b 0x10 8), inBase := leAt b 0x1C 4,
                inQueues := leAt b 0x18 2, maxSeqs := leAt b 0x24 4, outNsid := leAt b 0x20 4, outLba := leAt b 0x28 8,
                outBlocks := leAt b 0x30 8, used := 0, done := 0, writing := [], key := k.1, seqs := [] }
              fin (m.setJob j {
                state := 3, status := St.ok, nonrepro := false, planSeq := 0, imageAddr := addr, imageLen := 64,
                kind := .session s, owner := .pipe c.port.val c.q.val c.cid.toNat serial c.notifyEnd, m := 0, modules := 1,
                l := 0, launch := none, asked := 0, loadedAt := none, chans := [], areas := [], lanes := [], results := [],
                fetched := [], emitted := [], cur := .zero, last := none, tokens := 0, samples := 0, subst := 0,
                mediaSubst := 0, augReady := 0, homes := [], lost := [], cursors := [] }) j St.ok)

/-- OUTPUT_FRAME_WRITE (R411): the oldest frame is written to the extent, and GRM_OUT advances past it. -/
def Mach.outputWrite (m : Mach) (j : Nat) : Mach :=
  match m.session? j with
  | none => m
  | some s =>
    match s.writing with
    | [] => m
    | f :: r =>
      let lba := match m.ns? s.outNsid with | some n => n.lba | none => 0
      (m.setSess j { s with writing := r, done := s.done + f.length }).flashWrite ⟨.inner, s.outNsid, s.outLba * lba + s.done, f⟩

/-- The release of a job, with its session's access key (R407, 13 R480). -/
def Mach.releaseSlot (v : Variant) (m : Mach) (j : Nat) : Mach :=
  match m.job? j with
  | some x =>
    let m := match x.sess? with | some s => if x.live then m else m.dropXkey (s.key / 2 ^ 32) | none => m
    m.jobRelease v j
  | none => m

end Sys2Proof.Machine
end

