-- ==== Sys2Proof/Machine/FabOps.lean ====
section
/-!
DEFINITION. The fabric ports: links, lane sparing, optical engines and margins
(13_fabric_and_remote_access.md R451 to R460).
-/
namespace Sys2Proof.Machine

/-- MODE of a port: SPARE. -/
def Mach.spareMode (m : Mach) (p : Nat) : Bool := m.bit (Reg.fabStatus p) 0
def Mach.partner (m : Mach) (p : Nat) : Bool := m.bit (Reg.fabStatus p) 30
def Mach.rxSpared (m : Mach) (p : Nat) : Nat := m.fld (Reg.fabStatus p) 23 20
def Mach.txSpared (m : Mach) (p : Nat) : Nat := m.fld (Reg.fabStatus p) 19 16

/-- An injection holds a receive lane of a port out of lock (17 R604); lane 0xF stands for any of them. -/
def Mach.laneOut (m : Mach) (p lane : Nat) : Bool :=
  m.ras.lanesOut.any (fun x => x.port = p && (x.lane = lane || lane = 0xF) &&
    (match x.till with | some t => decide (m.spn.count < t) | none => true))

/-- A MARGIN_LOW record: the register value of the reading (17 R606, R618). -/
def Mach.marginLow (m : Mach) (src val : Nat) : Mach := m.record 0x0090 src St.ok (payloadOf [(4, val)])

/-- A LANE_EVENT record (17 R618): kind (0 swap, 1 revert, 2 refused, 3 link down, 4 link up, 5 abandoned) and direction
(0 receive, 1 transmit) by codes that the spec does not state. -/
def Mach.laneEvent (m : Mach) (p lane kind dir : Nat) : Mach :=
  m.recordAs (m.laneOut p lane) 0x0050 (sourceOf 8 (p * 16 + lane)) St.ok
    (payloadOf [(1, kindCode 0x0050 kind), (1, kindCode 0x1050 dir), (2, 0)])

/-- The sparing messages by their numbers in Out.spare. -/
def spareHello : Nat := 0
def spareReq : Nat := 1
def spareAck : Nat := 2
def spareDone : Nat := 3

/-- Both lane maps as every bring-up sets them (R454, R457). -/
def Mach.resetMaps (m : Mach) (p : Nat) : Mach :=
  let m := (m.setFld (Reg.fabStatus p) 23 20 0xF).setFld (Reg.fabStatus p) 19 16 0xF
  let m := m.setBit (Reg.fabSpareCtl p) 31 false
  m.setFab p { m.fabPort p with rx := none, tx := none, abandoned := none, txOff := none }

/-- LINK_UP (R453, R454): the engine's data path is active; app tells whether it advertises the application the mode
needs (R458). -/
def Mach.fabLinkUp (v : Variant) (m : Mach) (p : Nat) (app : Bool) : Mach :=
  if fabPorts v ≤ p || !m.power.pwrOk || !m.bit (Reg.fabCfg p) 0 || !m.bit (Reg.fabStatus p) 29 || m.linkUp p ||
      (List.range 8).any (fun k => m.laneOut p k) then m
  else if !app then m.setBit (Reg.fabStatus p) 28 true
  else
    let m := (m.setBit (Reg.fabStatus p) 28 false).setBit (Reg.fabStatus p) 30 false
    let m := (m.setBit (Reg.fabStatus p) 31 true).resetMaps p
    let m := m.setFab p { m.fabPort p with downSince := none, upAt := m.spn.count }
    let m := if m.spareMode p then m.send (.spare p spareHello 0) else m
    m.laneEvent p 0xF 4 0

/-- The link of a port goes down: its paths are bad (R466). -/
def Mach.fabLinkDown (m : Mach) (p : Nat) : Mach :=
  if m.linkUp p then
    let m := (m.setBit (Reg.fabStatus p) 31 false).setBit (Reg.fabStatus p) 30 false
    let m := (m.resetMaps p).portPathsBad p
    (m.setFab p { m.fabPort p with downSince := some m.spn.count }).laneEvent p 0xF 3 0
  else m

/-- The partner's answer to SPARE_HELLO, within 100 ms of the link-up (R454). -/
def Mach.gotHelloAnswer (m : Mach) (p : Nat) : Mach :=
  if m.linkUp p && m.spareMode p && m.spn.count ≤ (m.fabPort p).upAt + 100000000 then m.setBit (Reg.fabStatus p) 30 true else m

/-- A swap of a receive lane is asked for (R455): refused where lane 8 is in use (R457). -/
def Mach.askSwap (m : Mach) (p lane : Nat) : Mach :=
  if 7 < lane || !m.linkUp p || !m.spareMode p || !m.partner p then m
  else if m.rxSpared p ≠ 0xF || (m.fabPort p).rx.isSome then m.laneEvent p lane 2 0
  else (m.setFab p { m.fabPort p with rx := some ⟨lane, false, false, m.spn.count⟩, abandoned := none }).send (.spare p spareReq lane)

/-- REQ written (R455): REQ reads 1 until the swap ends or is refused; a reserved lane is ignored. -/
def Mach.fabReq (m : Mach) (p : Nat) : Mach :=
  let m := m.askSwap p (m.fld (Reg.fabSpareCtl p) 23 20)
  m.setBit (Reg.fabSpareCtl p) 31 (m.fabPort p).rx.isSome

/-- REVERT written (R457): the sequence in reverse. -/
def Mach.fabRevert (m : Mach) (p : Nat) : Mach :=
  if m.linkUp p && m.rxSpared p ≠ 0xF && (m.fabPort p).rx.isNone then
    (m.setFab p { m.fabPort p with rx := some ⟨m.rxSpared p, false, true, m.spn.count⟩ }).send (.spare p spareReq (m.rxSpared p))
  else m

/-- SPARE_REQ from the partner: lane 8 carries a copy, or for the lane already spared the lane itself resumes. -/
def Mach.gotSpareReq (m : Mach) (p lane : Nat) : Mach :=
  if !m.linkUp p || !m.spareMode p || 7 < lane then m
  else if m.txSpared p = lane then
    (m.setFab p { m.fabPort p with tx := some ⟨lane, true, true, m.spn.count⟩, txOff := none }).send (.spare p spareAck lane)
  else if m.txSpared p ≠ 0xF then m
  else (m.setFab p { m.fabPort p with tx := some ⟨lane, true, false, m.spn.count⟩ }).send (.spare p spareAck lane)

/-- SPARE_ACK (R455): lane 8 locks and the selection changes at an alignment marker; SPARE_DONE. -/
def Mach.gotSpareAck (m : Mach) (p : Nat) : Mach :=
  match (m.fabPort p).rx with
  | some s =>
    if !m.linkUp p || s.acked then m
    else
      let m := m.setFld (Reg.fabStatus p) 23 20 (if s.revert then 0xF else s.lane)
      let m := (m.setFab p { m.fabPort p with rx := none }).setBit (Reg.fabSpareCtl p) 31 false
      m.send (.spare p spareDone s.lane)
  | none => m

/-- SPARE_DONE (R455, R459): the failed lane's transmitter and its laser are turned off; the swap is recorded. -/
def Mach.gotSpareDone (m : Mach) (p : Nat) : Mach :=
  match (m.fabPort p).tx with
  | some s =>
    if !m.linkUp p then m
    else if s.revert then
      ((m.setFld (Reg.fabStatus p) 19 16 0xF).setFab p { m.fabPort p with tx := none, txOff := none }).laneEvent p s.lane 1 1
    else
      let m := (m.setFld (Reg.fabStatus p) 19 16 s.lane).setFab p { m.fabPort p with tx := none, txOff := some s.lane }
      (m.addFld (Reg.fabSwaps p) 63 0 1).laneEvent p s.lane 0 1
  | none => m

/-- No SPARE_ACK within 1 ms: the swap is abandoned (R457). -/
def Mach.spareAbandon (m : Mach) (p : Nat) : Mach :=
  match (m.fabPort p).rx with
  | some s =>
    if s.since + 1000000 ≤ m.spn.count then
      let again := if s.revert then none else some (s.lane, m.spn.count)
      let m := (m.setFab p { m.fabPort p with rx := none, abandoned := again }).setBit (Reg.fabSpareCtl p) 31 false
      m.laneEvent p s.lane 5 0
    else m
  | none => m

/-- One second later the request is repeated (R457). -/
def Mach.swapRepeat (m : Mach) (p : Nat) : Mach :=
  match (m.fabPort p).abandoned with
  | some (lane, t) => if t + 1000000000 ≤ m.spn.count then m.askSwap p lane else m
  | none => m

/-! ### Optical engines (R458) -/

/-- The monitors of an engine read into their registers. -/
def Mach.cmisPoll (m : Mach) (p : Nat) (r : OeReading) : Mach :=
  if !m.bit (Reg.fabStatus p) 29 then m
  else
    let m := m.setReg (Reg.fabOeTemp p) (BitVec.ofNat 64 (r.vcc.toNat * 2 ^ 16 + r.temp.toNat))
    let m := ((r.chans.take 9).zipIdx).foldl
      (fun m c => m.setReg (Reg.fabOeMon p c.2) (BitVec.ofNat 64 (c.1.1.toNat * 2 ^ 16 + c.1.2.toNat))) m
    let new := ((List.range 9).filter (fun k => r.lowRx.any (fun x => x.val = k))).filter (fun k => !m.ras.lowRx.contains (p, k))
    let m := new.foldl (fun m k => m.marginLow (sourceOf 8 (p * 16 + k)) (m.reg (Reg.fabOeMon p k)).toNat) m
    { m with ras := { m.ras with
      lowRx := m.ras.lowRx.filter (fun x => x.1 ≠ p) ++ r.lowRx.dedup.map (fun k => (p, k.val)) } }

/-- Loss of signal or a laser fault on the channels that the latched flags name asks for swaps (R455, R458). -/
def Mach.oeFlags (m : Mach) (p : Nat) (lanes : List Nat) : Mach :=
  if m.bit (Reg.fabStatus p) 29 then lanes.foldl (fun m k => m.askSwap p k) m else m

def Mach.oeRemoved (m : Mach) (p : Nat) : Mach :=
  let m := (m.setBit (Reg.fabStatus p) 29 false).setBit (Reg.fabStatus p) 28 false
  (m.setFab p { m.fabPort p with lowPower := true, resetDue := false }).fabLinkDown p

/-- An engine inserted: reset at the next enable, which an enabled port gives at once. -/
def Mach.oeInserted (m : Mach) (p : Nat) : Mach :=
  let m := m.setBit (Reg.fabStatus p) 29 true
  let en := m.bit (Reg.fabCfg p) 0
  m.setFab p { m.fabPort p with lowPower := !en, resetDue := !en }

/-- ENABLE committed (R453, R458): 1 resets a new engine and lets it work, 0 takes the link down. -/
def Mach.fabEnable (m : Mach) (p : Nat) (en : Bool) : Mach :=
  if en then m.setFab p { m.fabPort p with lowPower := !m.bit (Reg.fabStatus p) 29, resetDue := false }
  else (m.setFab p { m.fabPort p with lowPower := true }).fabLinkDown p

/-- A sweep of the margin samplers: BER_EXP, HMARGIN and VMARGIN of each lane (R460). -/
def Mach.marginSweep (m : Mach) (p : Nat) (l : List (Nat × Nat × Nat)) : Mach :=
  if m.linkUp p then
    ((l.take 9).zipIdx).foldl (fun m x =>
      let old := m.reg (Reg.fabLaneMargin p x.2)
      let new := x.1.1 % 2 ^ 8 * 2 ^ 24 + x.1.2.1 % 2 ^ 12 * 2 ^ 12 + x.1.2.2 % 2 ^ 12
      let low (b : Nat) : Bool := b ≠ 0 && decide (b < 50)
      let m := m.setReg (Reg.fabLaneMargin p x.2) (BitVec.ofNat 64 new)
      if low (x.1.1 % 2 ^ 8) && !low (fieldOf old 31 24) then m.marginLow (sourceOf 8 (p * 16 + x.2)) new else m) m
  else m

/-- A frame that is neither a YFT frame nor a sparing frame (R452). -/
def Mach.otherFrame (m : Mach) (p : Nat) (pause : Bool) : Mach :=
  if m.linkUp p then (m.addFld (Reg.fabFramesRx p) 63 0 1).addFld (if pause then Reg.fabPauseDisc p else Reg.fabOtherDisc p) 63 0 1
  else m

end Sys2Proof.Machine
end

