-- ==== Sys2Proof/Machine/PortOps.lean ====
section
/-!
DEFINITION. The host ports: link and reset events, CC.EN, latency tolerance and window 4
(14 R490 to R500, 03 R104, R105).
-/
namespace Sys2Proof.Machine

/-- The machine with a port changed. -/
def Mach.onPort (m : Mach) (p : Nat) (f : PortSt → PortSt) : Mach := m.setPort p (f (m.port p))

/-! ### Link and configuration space (R490, R500, 03 R104) -/

/-- Link training starts: the I/O die is powered and PERSTn# has been deasserted. -/
def Mach.linkTraining (m : Mach) (p : Nat) : Mach :=
  if m.power.pwrOk && !(m.port p).up then
    m.onPort p (fun x => { x with perst := false, training := true, lstate := 4 })
  else m

/-- The configuration space of a port is ready: its link is up at a rate and a width; STAGE 0x04 with the first port. -/
def Mach.configReady (m : Mach) (p speed width : Nat) (flit : Bool) : Mach :=
  if (m.port p).training then
    let m := m.onPort p (fun x => { x with
      training := false, up := true, cfgReady := true, lstate := 0, speed := speed, width := width, flit := flit,
      ltr := none, downSince := none })
    if m.fld Reg.glbBootStatus 7 0 = 3 then m.setFld Reg.glbBootStatus 7 0 4 else m
  else m

/-- A configuration request is answered: with Retry Status until the configuration space is ready. -/
def Mach.configRequest (m : Mach) (p : Nat) : Mach := m.send (.config p !(m.port p).cfgReady)

/-- The link enters L0, L1, L1.1 or L1.2, or recovery. -/
def Mach.linkState (m : Mach) (p st : Nat) : Mach :=
  if (m.port p).up && st ≤ 4 then m.onPort p (fun x => { x with lstate := st }) else m

/-- A margining command waits while the module measures, and is served otherwise (R492). -/
def Mach.marginCommand (m : Mach) (p : Nat) : Mach :=
  if (m.port p).up then m.onPort p (fun x => { x with marginWait := m.hif.margining }) else m

/-- An LTR message: the smaller of its snoop and no-snoop values, ns (R493). -/
def Mach.gotLtr (m : Mach) (p snoop noSnoop : Nat) : Mach :=
  if (m.port p).up then m.onPort p (fun x => { x with ltr := some (min snoop noSnoop) }) else m

/-- The tolerance that a port imposes (R493). -/
def PortSt.tolerance (x : PortSt) : Nat :=
  if x.up && !x.d3 then min (x.ltr.getD 0xFFFFFFFF) 0xFFFFFFFF else 0xFFFFFFFF

/-! ### Controller and function resets (R498, 03 R105) -/

/-- CC.EN 0: the controller resets, its I/O queues are deleted and the commands it has not completed are dropped. -/
def Ctl.off (c : Ctl) : Ctl :=
  { c with en := false, rdy := false, sqs := [], cqs := [], aers := [], feats := [], hostId := none, errs := [], mi := [] }

/-- A write that a reset leaves without its completion is still programmed (R499). -/
def FlashDone.without (p : Nat) (d : FlashDone) : FlashDone :=
  match d with
  | .nvme n => if n.port.val = p then .inner else d
  | .inner => d

/-- The completions of a port's writes in flight are not posted (R499). -/
def Mach.dropCompletions (m : Mach) (p : Nat) : Mach :=
  { m with ftl := { m.ftl with
    pendJ := m.ftl.pendJ.map (fun (x : MapChange × FlashDone) => (x.1, x.2.without p))
    waiting := m.ftl.waiting.map (fun (x : WaitWrite) => { x with done := x.done.without p }) } }

/-- The controller of a port resets as CC.EN 0 requires. -/
def Mach.ctlOff (m : Mach) (p : Nat) : Mach := (m.onPort p (fun x => { x with ctl := x.ctl.off })).dropCompletions p

/-- CC.EN 1 on a port whose function works. -/
def Mach.ctlOn (m : Mach) (p : Nat) : Mach :=
  let x := m.port p
  if x.up && x.cfgReady && !x.d3 && !x.ctl.en then m.onPort p (fun x => { x with ctl := { x.ctl with en := true } }) else m

/-- CSTS.RDY: STAGE has reached 0x07, or Tool rest runs (03 R105). -/
def Mach.ctlReady (m : Mach) (p : Nat) : Mach :=
  let st := m.fld Reg.glbBootStatus 7 0
  let served := st = 7 || st = 8 || (m.fld Reg.glbBootStatus 11 8 = 2 && st ≠ 0xFF)
  if (m.port p).ctl.en && served then m.onPort p (fun x => { x with ctl := { x.ctl with rdy := true } }) else m

/-- D3hot, and the return to D0. -/
def Mach.toD3 (m : Mach) (p : Nat) : Mach :=
  if (m.port p).up then (m.onPort p (fun x => { x with d3 := true })).ctlOff p else m

def Mach.toD0 (m : Mach) (p : Nat) : Mach := m.onPort p (fun x => { x with d3 := false })

/-- A job, session or codec request started from a port, or a job with a channel to it (R498). -/
def Job.ofPort (x : Job) (p : Nat) : Bool :=
  (match x.owner with | .pipe q _ _ _ _ => q = p | .manager _ => false) ||
  (match x.kind with | .image i => i.chans.any (fun c => c.dest = 1 + p) | _ => false)

/-- Starts that a port's queue asked for and that still prepare are cancelled with its jobs. -/
def Mach.cancelStarts (m : Mach) (p : Nat) : Mach :=
  (m.spn.starts.filter (fun r => r.port = p && r.phase = .preparing)).foldl (fun m r => m.cancelStart r false) m

/-- References of the YFT queues of an owner. -/
def Mach.queuesOf (m : Mach) (owner : Nat) : List Nat :=
  (m.mem.ctx.filter (fun s => s.2.kind = 3 && s.2.owner = owner && slotNat s.2 0x21 1 ≠ 1)).map (fun s => ctxRef s.1 s.2.gen)

/-- Handles of the buffers of an owner. -/
def Mach.buffersOf (m : Mach) (owner : Nat) : List Nat :=
  m.mem.pools.flatMap (fun k => (k.2.bufs.filter (fun b => b.2.alloc && b.2.owner = owner && !b.2.lost)).map
    (fun b => handleOf k.1 b.1 b.2.gen))

/-- What a hot reset, PERSTn# or a surprise down does to a port (R498, R499): the controller resets, pipeline queues go
without completions, the port's jobs are cancelled with an event each, its YFT queues drain, its keys are invalidated
and its buffers freed. -/
def Mach.portReset (m : Mach) (p : Nat) : Mach :=
  let m := (m.cancelStarts p).ctlOff p
  let m := m.onPort p (fun x => { x with
    up := false, cfgReady := false, training := false, d3 := false, lstate := 5, speed := 0, width := 0, flit := false,
    ltr := none, pipes := [], marginWait := false, downSince := some (x.downSince.getD m.spn.count) })
  let m := (m.jobs.slots.filter (fun j => j.2.live && j.2.ofPort p)).foldl (fun m j => m.jobEnd j.1 7 St.ok) m
  let m := (m.queuesOf (2 + p)).foldl (fun m r =>
    (m.qPut r 0x21 1 1).setXq r { m.xq r with drainSince := some m.spn.count }) m
  let m := (m.xp.keys.filter (fun k => k.owner = 2 + p)).foldl (fun m k => m.dropXkey k.id) m
  (m.buffersOf (2 + p)).foldl (fun m h => m.freeOk h) m

/-- PERSTn# asserted. -/
def Mach.perstAssert (m : Mach) (p : Nat) : Mach :=
  ((m.portReset p).onPort p (fun x => { x with perst := true })).addFld (Reg.hifDowns p) 15 0 1

/-- A hot reset: the link goes through training again. -/
def Mach.hotReset (m : Mach) (p : Nat) : Mach :=
  if (m.port p).up then (m.portReset p).addFld (Reg.hifDowns p) 15 0 1 else m

/-- A surprise down. -/
def Mach.surpriseDown (m : Mach) (p : Nat) : Mach :=
  if (m.port p).up then (m.portReset p).addFld (Reg.hifDowns p) 31 16 1 else m

/-! ### Window 4 (R496) -/

/-- What lies at a window-4 offset, as far as the table of R496 tells places apart. -/
inductive Win4Kind where
  | plain | tables | mapCache | tier | restricted | unbacked
deriving DecidableEq, Repr

/-- The offset lies in carve-out i. -/
def Mach.inCarve (m : Mach) (i a : Nat) : Bool :=
  let b := m.fld (Reg.memCarveBase i) 47 0
  decide (b ≤ a) && decide (a < b + (m.reg (Reg.memCarveSize i)).toNat)

/-- A place of a restricted job: a buffer, a batch area or the cache tier (10 R377). -/
def Mach.inRestricted (m : Mach) (a : Nat) : Bool :=
  (m.jobs.slots.map (fun j => j.1)).any (fun j => m.jobRestricted j &&
    (m.inBufOf (0x10 + j) a || m.inAreaOf j a || (m.jobs.dc.job = some j && m.inCarve 4 a)))

/-- The row of R496 for an offset. -/
def Mach.win4At (v : Variant) (m : Mach) (a : Nat) : Win4Kind :=
  if gddrTop v ≤ a then .unbacked
  else if m.inRestricted a then .restricted
  else if m.inCarve 3 a then .mapCache
  else if m.inCarve 0 a || m.inCarve 1 a || m.inCarve 2 a then .tables
  else if m.inCarve 4 a then .tier
  else .plain

/-- A byte of the place reads as itself. -/
def Win4Kind.reads : Win4Kind → Bool
  | .plain | .tables | .tier => true
  | _ => false

/-- A byte written there is kept; the cache tier only while no job uses it. -/
def Win4Kind.writes (used : Bool) : Win4Kind → Bool
  | .plain => true
  | .tier => !used
  | _ => false

/-- An access answered with 0xFF bytes or discarded: counted, SEC_WIN4_BLOCKED for a restricted job, and the first of each
whole second recorded (R496, 10 R377, 17 R629). -/
def Mach.win4Refused (m : Mach) (p a : Nat) (restricted : Bool) : Mach :=
  let m := m.addFld (Reg.hifWin4 p) 31 0 1
  let m := if restricted then m.addFld Reg.secWin4Blocked 31 0 1 else m
  let sec := m.spn.count / 10 ^ 9
  if (m.port p).win4Sec = some sec then m
  else (m.onPort p (fun x => { x with win4Sec := some sec })).notice 0x0001 (sourceOf 7 p) a St.bounds

/-- The port's function answers window accesses. -/
def PortSt.serves (x : PortSt) : Bool := x.up && x.cfgReady && !x.d3

/-- A read of n bytes. -/
def Mach.win4Read (v : Variant) (m : Mach) (p a n : Nat) : Mach :=
  if !(m.port p).serves then m
  else
    let kinds := (List.range n).map (fun i => m.win4At v (a + i))
    let data := (List.range n).map (fun i => if (m.win4At v (a + i)).reads then memByte m.mem.gddr (a + i) else 0xFF)
    let m := m.send (.readData p data)
    if kinds.all (fun k => k.reads) then m else m.win4Refused p a (kinds.contains .restricted)

/-- Bytes written where their places take them. -/
def Mach.win4Store (v : Variant) (used : Bool) (m : Mach) (a : Nat) (bs : List Byte) : Mach :=
  match bs with
  | [] => m
  | b :: r =>
    let m := if (m.win4At v a).writes used then (m.putLoc (.gddr a) b).written a 1 else m
    Mach.win4Store v used m (a + 1) r

/-- A write of bytes. -/
def Mach.win4Write (v : Variant) (m : Mach) (p a : Nat) (bs : List Byte) : Mach :=
  if !(m.port p).serves then m
  else
    let used := m.jobs.dc.job.isSome
    let kinds := (List.range bs.length).map (fun i => m.win4At v (a + i))
    let m := m.win4Store v used a bs
    if kinds.all (fun k => k.writes used) then m else m.win4Refused p a (kinds.contains .restricted)

end Sys2Proof.Machine
end

