-- ==== Sys2Proof/Machine/PsOps.lean ====
section
/-!
DEFINITION. The power states (16 R569 to R591).
-/
namespace Sys2Proof.Machine

/-! ### Choosing a state (R571 to R573) -/

/-- The effective tolerance T_tol, ns (R571). -/
def Mach.tolerance (m : Mach) : Nat :=
  min (m.fld Reg.pwrToleranceNs 31 0) (min m.hif.p0.tolerance m.hif.p1.tolerance)

/-- Exit latency of a state, ns; of PS2 with n other regions off (R569, R573). -/
def exitLatency (s n : Nat) : Nat :=
  match s with
  | 1 => 1000 | 2 => 50000 + 20000 * n | 3 => 300000 | 4 => 5000000
  | _ => 0

/-- Entry time of a state, ns: the final row of its table; four cycles of the cluster clock for PS1 (R580 to R583). -/
def entryTime (s mhz : Nat) : Nat :=
  match s with
  | 1 => (4000 + mhz - 1) / max 1 mhz | 2 => 15000 | 3 => 12000 | 4 => 2000000
  | _ => 0

/-- Period of the self-test slots of a region, ns (17 R596). -/
def Mach.selftestPeriod (m : Mach) : Nat := m.fld Reg.rasCaliperCfg 15 8 * 60 * 10 ^ 9

/-- The next self-test slot of region r at or after a count (17 R596). -/
def Mach.nextSlot (m : Mach) (r : Nat) : Nat :=
  let p := max 1 m.selftestPeriod
  let off := r * p / 8
  off + (m.spn.count - off + p - 1) / p * p

/-- A region's slot is a known event: it holds a suspect or derated tile, or one whose last passed suite is more than
24 h old (17 R596). -/
def Mach.needsSlot (v : Variant) (m : Mach) (r : Nat) : Bool :=
  ((List.range 64).map (fun i => r * 64 + i)).any (fun t =>
    let x := m.tile t
    tilePresent v t && !m.tl.diesOut.contains (t / 128) && x.role ≠ .retired &&
      (x.suspect || x.derate.isSome ||
        !x.history.any (fun h => h.passed && decide (m.spn.count ≤ h.time + 24 * 3600 * 10 ^ 9))))

/-- Known events of the package: count and SRC of PWR_NEXT_SRC (R572). -/
def Mach.packageEvents (v : Variant) (m : Mach) : List (Nat × Nat) :=
  let wake := (m.reg Reg.pwrWakeAt).toNat
  (if wake = 0 then [] else [(wake, 1)]) ++
  (if m.ftl.mounted && m.ftl.sinceCkpt ≠ 0 then [(m.ftl.lastCkpt + 60 * 10 ^ 9, 2)] else []) ++
  (((List.range (2 * dieCount v)).filter (fun r => m.needsSlot v r)).map (fun r => (m.nextSlot r, 3)))

/-- Known events of a region: its own slot. -/
def Mach.regionEvents (v : Variant) (m : Mach) (r : Nat) : List (Nat × Nat) :=
  if m.needsSlot v r then [(m.nextSlot r, 3)] else []

/-- The earliest of some known events. -/
def firstEvent (l : List (Nat × Nat)) : Option (Nat × Nat) :=
  l.foldl (fun b e => match b with
    | none => some e
    | some x => if e.1 < x.1 then some e else some x) none

/-- A latency and an entry time stay below T_ev (R573). -/
def Mach.before (m : Mach) (l : List (Nat × Nat)) (ns : Nat) : Bool := l.all (fun e => decide (m.spn.count + ns < e.1))

/-- A state is one that R573 allows a unit. -/
def Mach.qualifies (m : Mach) (s lat entry : Nat) (events : List (Nat × Nat)) : Bool :=
  decide (s ≤ m.fld Reg.pwrCfg 2 0) && decide (lat < m.tolerance) && m.before events (lat + entry)

/-! ### Idle conditions (R570) -/

/-- Duty tiles of a cluster that are blocked on the work queue (06 R240). -/
def Mach.blockedTiles (m : Mach) (c : Nat) : Nat :=
  if (m.nextEntry c).isSome then 0
  else (((List.range 16).map (fun i => c * 16 + i)).filter (fun t => (m.tile t).carriesDuty && (m.tile t).idle)).length

/-- A cluster meets the idle condition of PS1. -/
def Mach.clusterIdle (m : Mach) (c : Nat) : Bool :=
  (m.nextEntry c).isNone && ((List.range 16).map (fun i => c * 16 + i)).all (fun t =>
    let x := m.tile t
    (!x.carriesDuty || x.idle) && x.dq.q.isEmpty)

/-- Clusters of a region. -/
def regionClusters (r : Nat) : List Nat := (List.range 4).map (fun i => r * 4 + i)

/-- A region meets the idle condition of PS2. -/
def Mach.regionIdle (m : Mach) (r : Nat) : Bool :=
  (regionClusters r).all (fun c => (m.clus c).gated && (m.clus c).serves.isEmpty)

/-! ### The poll (R577) -/

/-- A port has an NVMe command or a pipeline entry that is not complete. -/
def Mach.portBusy (m : Mach) (p : Nat) : Bool :=
  let mine (d : FlashDone) : Bool := match d with | .nvme n => n.port.val = p | .inner => false
  (m.port p).pipes.any (fun q => !q.2.started.isEmpty || !q.2.waiting.isEmpty || q.2.sqHead ≠ q.2.sqTail) ||
    m.ftl.pendJ.any (fun x => mine x.2) || m.ftl.waiting.any (fun x => mine x.done) ||
    (match m.boot.live with | some l => l.port = p | none => false)

/-- A lane swap or a YFT message is in progress. -/
def Mach.fabricBusy (m : Mach) : Bool :=
  m.xp.queues.any (fun q => !q.2.entries.isEmpty || !q.2.pkts.isEmpty || !q.2.rx.isEmpty) ||
    m.xp.f0.rx.isSome || m.xp.f0.tx.isSome || m.xp.f1.rx.isSome || m.xp.f1.tx.isSome

/-- A YFT queue other than the control queue exists, or the module is joined to or joined by another. -/
def Mach.fabricHolds (m : Mach) : Bool :=
  m.mem.ctx.any (fun s => s.2.kind = 3 && !bitAt (slotNat s.2 0x23 1) 1) ||
    (m.role = 1 && m.spn.phase = .joined) || (m.role = 2 && m.joinedCount ≠ 0)

/-- Percent of the SLC region that holds valid units (FLM_SLC.OCCUPANCY). -/
def Mach.slcOccupancy (m : Mach) : Nat :=
  match m.geom with
  | some g =>
    let slc := m.ftl.sbs.filter (fun p => p.2.kind = .slc)
    100 * (slc.map (fun p => m.sbValid p.1)).sum / max 1 (slc.length * sbCap g .slc)
  | none => 0

/-- NAND work that refuses PS3. -/
def Mach.gcBusy (m : Mach) : Bool :=
  !m.ftl.pendJ.isEmpty || !m.ftl.waiting.isEmpty || !m.ftl.queued.isEmpty || (m.ftl.mounted && m.regime ≠ 0) ||
    (m.ftl.mounted && decide (m.fld Reg.flmSlc 15 8 ≤ m.slcOccupancy)) || (m.reg Reg.flmRecalReq).toNat ≠ 0

/-- Firmware refuses: a live update, a Sanitize or Format, or STAGE below READY. -/
def Mach.firmwareBusy (m : Mach) : Bool :=
  m.boot.live.isSome || m.hif.maint.isSome || decide (m.fld Reg.glbBootStatus 7 0 < 8)

/-- Codes of the participants that refuse a state, in table order (PWR_LAST_REFUSER.WHO). -/
def Mach.refusers (m : Mach) (s r : Nat) : List Nat :=
  let deep := 3 ≤ s
  let on (b : Bool) (w : Nat) : List Nat := if b then [w] else []
  let up (p : Nat) : Bool := s = 4 && (m.port p).up && (m.port p).lstate ≠ 3
  on ((deep && m.portBusy 0) || up 0) 1 ++ on ((deep && m.portBusy 1) || up 1) 2 ++
  on ((deep && m.fabricBusy) || (s = 4 && m.fabricHolds)) 3 ++
  on (if deep then m.anyJob else (regionClusters r).any (fun c => !(m.clus c).serves.isEmpty)) 4 ++
  on (deep && m.gcBusy) 5 ++ on (s = 4 && m.evr.buffered ≠ 0) 6 ++ on m.power.calibrating 7 ++ on m.firmwareBusy 8

/-- What PWR_LAST_REFUSER and PWR_REFUSE_COUNT record of a refusal or an abort. -/
def Mach.noteRefuser (m : Mach) (abort : Bool) (s r who : Nat) : Mach :=
  let reg := boolBit abort * 2 ^ 31 + s * 2 ^ 28 + (if s = 2 then r else 0) * 2 ^ 8 + who
  let m := m.setReg Reg.pwrLastRefuser (BitVec.ofNat 64 reg)
  if abort then m.addFld (Reg.pwrRefuseCount s) 31 16 1 else m.addFld (Reg.pwrRefuseCount s) 15 0 1

/-- The key of R578 for a state of a unit. -/
def retryKey (s r : Nat) : Nat := if s = 2 then 16 + r else s * 8

/-- The participant that an armed injection of type 6 makes refuse a state. -/
def Mach.injRefuser (m : Mach) (s : Nat) : Option Nat :=
  match m.armed 6 with
  | some i => if i.target % 8 = s then some (bitsOf i.target 7 4) else none
  | none => none

/-! ### Entry -/

/-- The machine with its power-state record changed. -/
def Mach.updPs (m : Mach) (f : PowerStates → PowerStates) : Mach := { m with ps := f m.ps }

/-- PS1 entered (R580). -/
def Mach.ps1Enter (m : Mach) (c : Nat) : Mach :=
  (m.setClus c { m.clus c with gated := true }).addFld (Reg.pwrEntries 1) 31 0 1

/-- A tile that lost its power: what the region holds is gone; what the RAS block knows of it stays. -/
def Tile.powerOff (t : Nat) (x : Tile) : Tile :=
  { Tile.factory t with
    role := x.role, dutyOf := x.dutyOf, derate := x.derate, suspect := x.suspect, suspicions := x.suspicions,
    history := x.history, retireInj := x.retireInj, handoverDue := x.handoverDue }

/-- The registers of some TILE pages return to reset. -/
def Mach.resetPages (m : Mach) (f : Nat → Bool) : Mach :=
  { m with regs := { m.regs with vals := m.regs.vals.filter (fun p => !(decide (0x1000000 ≤ p.1) && f ((p.1 - 0x1000000) / 0x1000))) } }

/-- PS2 entered (R581; 01 R32): the region's SRAM and tile state are lost. -/
def Mach.ps2Enter (m : Mach) (r : Nat) : Mach :=
  let m := (regionClusters r).foldl (fun m c =>
    let x := m.clus c
    m.setClus c { Cluster.reset with lim := x.lim, current := x.current }) m
  let m := { m with tl := { m.tl with tiles := m.tl.tiles.map (fun (p : Nat × Tile) =>
    if p.1 / 64 = r then (p.1, p.2.powerOff p.1) else p) } }
  ((m.resetPages (fun t => t / 64 = r)).updPs (fun p => { p with regionsOff := p.regionsOff ++ [r] })).addFld
    (Reg.pwrEntries 2) 31 0 1

/-- Regions present. -/
def regionsPresent (v : Variant) : List Nat := List.range (2 * dieCount v)

/-- PS3 entered (R582). -/
def Mach.ps3Enter (m : Mach) : Mach :=
  (m.updPs (fun p => { p with pkg := 3, waking := false })).addFld (Reg.pwrEntries 3) 31 0 1

/-- A pool's Chuck written back to its ring (R583, 07 R268). -/
def Pool.toRing (p : Pool) : Pool :=
  if p.enabled then { p with ring := p.ring ++ p.chuck ++ p.inFlight.flatten, chuck := [], inFlight := [], ready := false }
  else p

/-- PS4 entered (R583): Chucks and context cache written back, fabric links down, engines in low power. -/
def Mach.ps4Enter (v : Variant) (m : Mach) : Mach :=
  let m := (m.mem.ways.filter (fun w => w.dirty)).foldl (fun m w => m.writeBack v w.slot) m
  let m := { m with mem := { m.mem with ways := [], pools := m.mem.pools.map (fun (p : Nat × Pool) => (p.1, p.2.toRing)) } }
  let m := (List.range (fabPorts v)).foldl (fun m p =>
    let m := m.fabLinkDown p
    m.setFab p { m.fabPort p with lowPower := true }) m
  (m.updPs (fun p => { p with pkg := 4, waking := false })).addFld (Reg.pwrEntries 4) 31 0 1

/-- An entry that met its conditions: polled, refused, aborted, or completed and, on a late event, left at once
(R577 to R579). -/
def Mach.psEnter (m : Mach) (s r : Nat) (ev : Option PsEvent) (enter : Mach → Mach) : Mach :=
  let inj := m.injRefuser s
  let who := m.refusers s r ++ inj.toList
  match who.min? with
  | some w =>
    let m := (m.noteRefuser false s r w).updPs (fun p =>
      { p with notBefore := mapSet p.notBefore (retryKey s r) (m.spn.count + 10 ^ 6) })
    if inj.isSome then m.injected else m
  | none =>
    match ev with
    | some e =>
      let m := m.noteRefuser true s r e.who.val
      if e.early then m else (enter m).updPs (fun p => { p with waking := true })
    | none => enter m

/-- A refused state may be tried again (R578). -/
def Mach.mayTry (m : Mach) (s r : Nat) : Bool := decide (mapGet (fun _ => 0) m.ps.notBefore (retryKey s r) ≤ m.spn.count)

/-- PS1_ENTER: a cluster that is idle enters PS1 where R573 allows it; there is no poll. -/
def Mach.tryPs1 (v : Variant) (m : Mach) (c : Nat) : Mach :=
  if decide (c < clusterCount v) && m.clockRuns c && m.ps.pkg = 0 && m.clusterIdle c &&
      m.qualifies 1 (exitLatency 1 0) (entryTime 1 (m.clus c).current) (m.regionEvents v (c / 4)) then m.ps1Enter c
  else m

/-- PS2_ENTER of a region. -/
def Mach.tryPs2 (v : Variant) (m : Mach) (r : Nat) (ev : Option PsEvent) : Mach :=
  if decide (r < 2 * dieCount v) && m.power.pwrOk && m.ps.pkg = 0 && !m.ps.regionsOff.contains r && m.regionIdle r &&
      m.mayTry 2 r && m.qualifies 2 (exitLatency 2 m.ps.regionsOff.length) (entryTime 2 0) (m.regionEvents v r) then
    m.psEnter 2 r ev (fun m => m.ps2Enter r)
  else m

/-- PS3_ENTER: every present region is in PS2. -/
def Mach.tryPs3 (v : Variant) (m : Mach) (ev : Option PsEvent) : Mach :=
  if m.power.pwrOk && m.ps.pkg = 0 && (regionsPresent v).all (fun r => m.ps.regionsOff.contains r || m.tl.diesOut.contains (r / 2)) &&
      m.mayTry 3 0 && m.qualifies 3 (exitLatency 3 0) (entryTime 3 0) (m.packageEvents v) then
    m.psEnter 3 0 ev (fun m => m.ps3Enter)
  else m

/-- PS4_ENTER: the package is in PS3 and no exit has started. -/
def Mach.tryPs4 (v : Variant) (m : Mach) (ev : Option PsEvent) : Mach :=
  if m.ps.pkg = 3 && !m.ps.waking && m.mayTry 4 0 &&
      m.qualifies 4 (exitLatency 4 0) (entryTime 4 0) (m.packageEvents v) then
    m.psEnter 4 0 ev (fun m => m.ps4Enter v)
  else m

/-- PS_REFUSE (17 R604): the module tries the state that the armed injection names, of region r for PS2. -/
def Mach.tryRefused (v : Variant) (m : Mach) (r : Nat) : Mach :=
  match m.armed 6 with
  | some i =>
    match i.target % 8 with
    | 2 => m.tryPs2 v r none
    | 3 => m.tryPs3 v none
    | 4 => m.tryPs4 v none
    | _ => m
  | none => m

/-! ### Exit -/

/-- PS1 left (R580): a READY entry that one of the cluster's tiles may take. -/
def Mach.ps1Exit (m : Mach) (c : Nat) : Mach :=
  if (m.clus c).gated && (m.nextEntry c).isSome then m.setClus c { m.clus c with gated := false } else m

/-- PS2 left (R581): SRAM zeroed, tiles reset, CLK_CL_CYCLES 0, RESET_WAKE. -/
def Mach.ps2Exit (m : Mach) (r : Nat) : Mach :=
  if m.ps.pkg = 0 && m.ps.regionsOff.contains r then
    let m := m.updPs (fun p => { p with regionsOff := p.regionsOff.filter (fun x => x ≠ r) })
    let m := (regionClusters r).foldl (fun m c => m.setReg (Reg.clkClCycles c) 0) m
    m.setBit Reg.pwrRegionWoke r true
  else m

/-- A GDDR7 channel whose training from stored values failed, as R256 settles it: at a lower rate, or out of service. -/
def Mach.wakeTraining (m : Mach) (c rate : Nat) : Mach :=
  if m.chanState c = 3 then m
  else if rate = 28 || rate = 24 then
    if rate < m.chanRate c then
      ((m.setFld (Reg.memChStatus c) 23 16 rate).setFld (Reg.memChStatus c) 31 30 2).retrainRecord c 4 1 rate St.ok
    else m
  else
    let m := m.setFld (Reg.memChStatus c) 31 30 3
    let m := { m with mem := { m.mem with chansOut := m.mem.chansOut ++ [c] } }
    (m.retrainRecord c 4 2 24 St.internal).notifyLast

/-- Units whose state the configuration no longer permits leave it (R591). -/
def Mach.psEnforce (v : Variant) (m : Mach) : Mach :=
  let top := m.fld Reg.pwrCfg 2 0
  let tol := m.tolerance
  let m := if m.ps.pkg ≠ 0 && (decide (top < m.ps.pkg) || decide (tol ≤ exitLatency m.ps.pkg 0) ||
      !m.before (m.packageEvents v) (exitLatency m.ps.pkg 0)) then
      m.updPs (fun p => { p with waking := true }) else m
  let m := if top < 2 || tol ≤ exitLatency 2 0 then m.ps.regionsOff.foldl (fun m r => m.ps2Exit r) m else m
  if top < 1 || tol ≤ exitLatency 1 0 then
    m.tl.clusters.foldl (fun m p => if p.2.gated then m.setClus p.1 { m.clus p.1 with gated := false } else m) m
  else m

/-- PS3 left (R582). -/
def Mach.ps3Exit (v : Variant) (m : Mach) (failed : List (Nat × Nat)) : Mach :=
  if m.ps.pkg = 3 then
    (failed.foldl (fun m p => m.wakeTraining p.1 p.2) (m.updPs (fun p => { p with pkg := 0, waking := false }))).psEnforce v
  else m

/-- A pool after PS4: its Chuck refilled from the ring (R583, R584). -/
def Pool.fromRing (k : Nat) (p : Pool) : Pool :=
  if p.enabled then
    let r := p.ringRead k 256
    { r.2 with chuck := r.1, ready := true }
  else p

/-- PS4 left (R583, R584): Chucks refilled, the fabric's bring-up starts, every region in PS2. -/
def Mach.ps4Exit (v : Variant) (m : Mach) (failed : List (Nat × Nat)) : Mach :=
  if m.ps.pkg = 4 then
    let m := m.updPs (fun p => { p with pkg := 0, waking := false })
    let m := failed.foldl (fun m p => m.wakeTraining p.1 p.2) m
    let m := { m with mem := { m.mem with pools := m.mem.pools.map (fun (p : Nat × Pool) => (p.1, p.2.fromRing p.1)) } }
    let m := (List.range (fabPorts v)).foldl (fun m p =>
      m.setFab p { m.fabPort p with lowPower := !(m.bit (Reg.fabStatus p) 29 && m.bit (Reg.fabCfg p) 0) }) m
    m.psEnforce v
  else m

/-- RESAMPLE (R589): sources found are counted and shown, and an exit starts. -/
def Mach.resample (m : Mach) (found : Nat) : Mach :=
  if m.ps.pkg ≠ 0 && found % 16 ≠ 0 then
    ((m.addFld Reg.pwrResample 31 16 1).setFld Reg.pwrResample 3 0 found).updPs (fun p => { p with waking := true })
  else m

/-- KNOWN_EVENT_WAKE (R574): the exit starts at the event's count less the exit latency. -/
def Mach.knownWake (v : Variant) (m : Mach) : Mach :=
  match firstEvent (m.packageEvents v) with
  | some e =>
    if m.ps.pkg ≠ 0 && decide (e.1 ≤ m.spn.count + exitLatency m.ps.pkg 0) then m.updPs (fun p => { p with waking := true })
    else m
  | none => m

/-- PWR_WAKE_AT returns to 0 once the count has reached it (R574). -/
def Mach.wakeReached (m : Mach) : Mach :=
  let w := (m.reg Reg.pwrWakeAt).toNat
  if w ≠ 0 && countReached m.spn.count w then m.setReg Reg.pwrWakeAt 0 else m

/-- PWR_WAKE_AT written (R574): a count already reached starts an exit at once. -/
def Mach.setWakeAt (v : Variant) (m : Mach) (val : Nat) : Mach :=
  let m := m.setReg Reg.pwrWakeAt (BitVec.ofNat 64 val)
  if val % 2 ^ 64 ≠ 0 && countReached m.spn.count val then
    (m.updPs (fun p => { p with waking := p.waking || p.pkg ≠ 0 })).wakeReached
  else m.psEnforce v

/-- IDLE_SLOW_LIMIT (R576): the tolerance limit of a cluster set or lifted. -/
def Mach.idleSlow (v : Variant) (m : Mach) (c : Nat) : Mach :=
  if clusterCount v ≤ c then m
  else if m.bit Reg.pwrCfg 3 && m.clockRuns c && 8 ≤ m.blockedTiles c then
    m.setLimit 28 [c] (some (max 400 (m.clockTarget c - 25 * (m.tolerance / 1000))))
  else m.setLimit 28 [c] none

/-- PWR_RESID over one step of 40 ns. -/
def Mach.residency (m : Mach) : Mach :=
  let m := m.addFld (Reg.pwrResid m.ps.pkg) 63 0 40
  let gated := (m.tl.clusters.filter (fun p => p.2.gated && !m.ps.regionsOff.contains (p.1 / 4))).length
  let m := if gated = 0 then m else m.addFld (Reg.pwrResid 1) 63 0 (40 * gated)
  if m.ps.regionsOff.isEmpty then m else m.addFld (Reg.pwrResid 2) 63 0 (40 * m.ps.regionsOff.length)

end Sys2Proof.Machine
end

