-- ==== Sys2Proof/Machine/RasOps.lean ====
section
/-!
DEFINITION. Self-tests, suspicion, derating, retirement, storms, injections, margins and the health score
(17 R596 to R610).
-/
namespace Sys2Proof

namespace Config
/-- Whether a lane's timing and voltage margins are at least what PCI Express 6.0 requires at a rate, by its generation
(17 R606). -/
opaque pcieMarginOk : Nat → Nat → Nat → Bool
end Config

namespace Machine

/-! ### Bands and limits (R599, R600) -/

/-- The band of a temperature in 0.1 °C (R599). -/
def bandOf (temp : Nat) : Nat := if temp < 700 then 0 else if temp < 850 then 1 else if temp < 950 then 2 else 3

/-- The band of a cluster's hottest sensor. -/
def Mach.band (m : Mach) (c : Nat) : Nat := mapGet (fun _ => 0) m.ras.bands c

/-- Tiles of a cluster. -/
def clusterTiles (c : Nat) : List Nat := (List.range 16).map (fun i => c * 16 + i)

/-- The derating limit of a cluster: the lowest of its derated tiles' limits in its present band (04 R156). -/
def Mach.derateLimit (m : Mach) (c : Nat) : Option Nat :=
  ((clusterTiles c).filterMap (fun t => match (m.tile t).derate with
    | some (mhz, b) => if b ≤ m.band c then some mhz else none
    | none => none)).min?

/-- The derating limit put into force. -/
def Mach.applyDerate (m : Mach) (c : Nat) : Mach := m.setLimit 27 [c] (m.derateLimit c)

/-- DERATE_BAND_CHANGE (R599). -/
def Mach.bandChange (v : Variant) (m : Mach) (c temp : Nat) : Mach :=
  if c < clusterCount v then
    ({ m with ras := { m.ras with bands := mapSet m.ras.bands c (bandOf temp) } }).applyDerate c
  else m

/-! ### Retirement (R599 to R602) -/

/-- Retirements confirmed in the last 3,600 s (IN_WINDOW). -/
def Mach.retireWindow (m : Mach) : List Nat := m.ras.retireTimes.filter (fun t => decide (m.spn.count < t + 3600 * 10 ^ 9))

/-- A storm is set. -/
def Mach.storm (m : Mach) : Bool := m.bit Reg.rasRetireStatus 31

/-- The cluster serves a job with an ordered channel (R601). -/
def Mach.servesOrdered (m : Mach) (c : Nat) : Bool :=
  m.jobs.chans.any (fun k => k.2.ordered && (m.clus c).serves.contains k.2.job)

/-- A tile retired (R600, R601): its SRAM zeroed, ROLE 3, the record; the map in NOR unless an injection caused it. -/
def Mach.retire (m : Mach) (t reason : Nat) : Mach :=
  let x := m.tile t
  let c := t / 16
  let sp := c * 16 + 15
  let inj := m.ras.injTiles.contains t
  let takes := x.dutyOf.isSome && t ≠ sp && (m.tile sp).role = .spare && (m.dueTiles c).isEmpty
  let m := m.setTile t { x with
    sram := [], role := .retired, dutyOf := if takes then x.dutyOf else none, handoverDue := takes, derate := none,
    suspect := false, retireInj := inj }
  let ras := m.ras
  let m := { m with ras := { ras with
    retireTimes := m.retireWindow ++ [m.spn.count],
    norRetired := if inj then ras.norRetired else ras.norRetired ++ [t],
    norDerated := if inj then ras.norDerated else ras.norDerated.filter (fun p => p.1 ≠ t) } }
  let m := (m.recordAs inj 0x0013 (sourceOf 1 t) St.ok
    (payloadOf [(2, if takes then sp else 0xFFFF), (1, kindCode 0x13 (if inj then 3 else reason)), (1, 0)])).notifyLast
  let m := m.applyDerate c
  if takes && !m.servesOrdered c then m.takeover c else m

/-- A tile quarantined (R602): ROLE 4. -/
def Mach.quarantineTile (m : Mach) (t : Nat) : Mach :=
  let m := m.setTile t { m.tile t with role := .diagnostic, suspect := false }
  { m with ras := { m.ras with quarantine := m.ras.quarantine ++ [t] } }

/-- A storm begins (R602). -/
def Mach.beginStorm (m : Mach) (t : Nat) : Mach :=
  let n := m.retireWindow.length
  let m := (m.quarantineTile t).setBit Reg.rasRetireStatus 31 true
  (m.recordAs (m.ras.injTiles.contains t) 0x0014 (sourceOf 0 0) St.internal
    (payloadOf [(2, n), (2, m.ras.quarantine.length)])).notifyLast

/-- A tile derated at a frequency from the present band on (R599). -/
def Mach.derateTile (m : Mach) (t mhz : Nat) : Mach :=
  let b := m.band (t / 16)
  let inj := m.ras.injTiles.contains t
  let m := m.setTile t { m.tile t with derate := some (mhz, b), suspect := false }
  let ras := m.ras
  let m := if inj then m
    else { m with ras := { ras with norDerated := ras.norDerated.filter (fun p => p.1 ≠ t) ++ [(t, b, mhz)] } }
  (m.recordAs inj 0x0012 (sourceOf 1 t) St.ok (payloadOf [(1, b), (1, 0), (2, mhz)])).applyDerate (t / 16)

/-- A frequency at which the derating test of a tile may end (R599): the tile's history holds a full suite passed at
1,800 MHz in a cooler band within 24 h, and the frequency is a step of 100 MHz below the current clock, not below
DERATE_MIN. -/
def Mach.mayDerate (m : Mach) (t mhz : Nat) : Bool :=
  let c := t / 16
  let cur := (m.clus c).current
  (m.tile t).history.any (fun h => h.passed && h.mhz = 1800 && decide (h.band < m.band c) &&
    decide (m.spn.count ≤ h.time + 24 * 3600 * 10 ^ 9)) &&
    decide (mhz < cur) && (cur - mhz) % 100 = 0 && decide (25 * m.fld Reg.rasRetireCfg 7 0 ≤ mhz)

/-- A confirmed tile (R599, R602): quarantined in a storm, derated, retired, or the storm begins. Reasons: 0 charge,
1 self-test, 2 hard fault. -/
def Mach.confirm (m : Mach) (t reason : Nat) (derateAt : Option Nat) : Mach :=
  let m := { m with ras := { m.ras with lastConfirm := m.spn.count } }
  if m.storm then m.quarantineTile t
  else
    let spareUsed := (m.tile (t / 16 * 16 + 15)).role ≠ .spare
    match (if spareUsed then derateAt.filter (fun f => m.mayDerate t f) else none) with
    | some f => m.derateTile t f
    | none => if m.fld Reg.rasRetireCfg 15 8 ≤ m.retireWindow.length then m.beginStorm t else m.retire t reason

/-! ### Self-tests (R596, R598) -/

/-- An armed injection makes a tile's next self-test fail (R604). -/
def Mach.faultArmed (m : Mach) (t : Nat) : Bool := match m.armed 4 with | some i => i.target % 512 = t | none => false

/-- A suite of a tile that ran to its end, with what an injection makes of it: history, counts and the record. -/
def Mach.suite (m : Mach) (r : SuiteResult) : Bool × Mach :=
  let t := r.tile.val
  let inj := m.faultArmed t
  let failed : Option Nat := match r.failed with
    | some p => some p.val
    | none => if inj then some (m.drawn 0x604 % 4) else none
  let m := if inj then { m.injected.draw with ras := { m.injected.draw.ras with injTiles := t :: m.ras.injTiles } } else m
  let x := m.tile t
  let mhz := (m.clus (t / 16)).current
  let b := bandOf r.temp.toNat
  let m := m.setTile t { x with history := ⟨m.spn.count, mhz, b, failed.isNone⟩ :: x.history }
  let m := m.addFld Reg.rasSelftests 63 0 1
  match failed with
  | none => (true, (m.setFld (Reg.tileCaliper t) 31 30 1).setFld (Reg.tileCaliper t) 29 28 2)
  | some p =>
    let m := (m.addFld Reg.rasSelftestFails 63 0 1).setFld (Reg.tileCaliper t) 31 30 3
    (false, m.recordAs (m.ras.injTiles.contains t) 0x0011 (sourceOf 1 t) St.internal
      (payloadOf [(1, p), (1, b), (2, mhz), (2, r.temp.toNat), (2, r.mv.toNat)]))

/-- A tile may run a suite in its region's slot. -/
def Mach.testable (v : Variant) (m : Mach) (t : Nat) : Bool :=
  let x := m.tile t
  tilePresent v t && m.tilePowered t && m.power.pwrOk && (x.role = .spare || x.carriesDuty) && x.idle && !x.suspect

/-- A suite in a slot: a failure makes the tile suspect. -/
def Mach.slotSuite (v : Variant) (m : Mach) (r : SuiteResult) : Mach :=
  if m.testable v r.tile.val then
    let p := m.suite r
    if p.1 then p.2 else p.2.makeSuspect r.tile.val
  else m

/-- SELFTEST_SLOT of a region (R596); a region in PS2 is skipped. -/
def Mach.selftestSlot (v : Variant) (m : Mach) (r : Nat) (rs : List SuiteResult) : Mach :=
  (rs.filter (fun x => x.tile.val / 64 = r)).foldl (fun m x => m.slotSuite v x) m

/-- TILE_FAULT: the armed injection's tile runs a suite, which fails. -/
def Mach.tileFault (v : Variant) (m : Mach) (r : SuiteResult) : Mach :=
  match m.armed 4 with
  | some i => m.slotSuite v { r with tile := Fin.ofNat 512 i.target }
  | none => m

/-- The suites of a confirmation, in order until one fails, at most three: all passed, or not. -/
def Mach.suites : List SuiteResult → Mach → Bool × Mach
  | [], m => (true, m)
  | r :: rest, m =>
    let p := m.suite r
    if p.1 then Mach.suites rest p.2 else p

/-- SUSPECT_CONFIRMATION (R598): three suites of a suspect tile that holds no unit. -/
def Mach.suspectEnd (m : Mach) (t : TileId) (rs : List SuiteResult) (derateAt : Option Nat) : Mach :=
  let x := m.tile t.val
  if !x.suspect || x.running || rs.length ≠ 3 then m
  else
    let p := Mach.suites (rs.map (fun r => { r with tile := t })) m
    let m := p.2
    if p.1 then
      let x := m.tile t.val
      let recent := m.spn.count :: x.suspicions.filter (fun k => decide (m.spn.count ≤ k + 24 * 3600 * 10 ^ 9))
      let m := m.setTile t.val { x with suspicions := recent, suspect := false }
      let m := { m with ras := { m.ras with injTiles := m.ras.injTiles.filter (fun k => k ≠ t.val) } }
      if 3 ≤ recent.length then m.confirm t.val 0 derateAt else m
    else m.confirm t.val 1 derateAt

/-- HARD_FAULT (R597, R603): what the tile holds is lost, and the fault is confirmed at once. -/
def Mach.hardFault (v : Variant) (m : Mach) (t : Nat) : Mach :=
  if tilePresent v t && (m.tile t).role ≠ .retired && m.power.pwrOk then (m.unitDrop t .tileFault false).confirm t 2 none
  else m

/-- A quarantined tile returns to what it was, suspect (R602). -/
def Tile.released (t : Nat) (x : Tile) : Tile :=
  { x with role := if t % 16 = 15 then (if x.dutyOf.isSome then .onDuty else .spare) else .active, suspect := true }

/-- STORM_END (R602): host software clears STORM, or 3,600 s have passed with no confirmation. -/
def Mach.stormEnd (m : Mach) (w1c : Bool) : Mach :=
  if m.storm && (w1c || decide (m.ras.lastConfirm + 3600 * 10 ^ 9 ≤ m.spn.count)) then
    let q := m.ras.quarantine
    let m := (m.setBit Reg.rasRetireStatus 31 false)
    let m := { m with ras := { m.ras with quarantine := [], retireTimes := [] } }
    q.foldl (fun m t => m.setTile t ((m.tile t).released t)) m
  else m

/-- SPARE_TAKEOVER (R601): a batch boundary of the cluster. -/
def Mach.spareTakeover (m : Mach) (c : Nat) : Mach := if (m.dueTiles c).isEmpty then m else m.takeover c

/-- RAS_DERATE_CLEAR (R600). -/
def Mach.derateClear (m : Mach) (go : Bool) (t : Nat) : Mach :=
  if go && (m.tile t).derate.isSome then
    let m := m.setTile t { m.tile t with derate := none }
    let m := { m with ras := { m.ras with norDerated := m.ras.norDerated.filter (fun p => p.1 ≠ t) } }
    m.applyDerate (t / 16)
  else m

/-! ### Injections (R604) -/

/-- The next write of the target word: its stored form holds one flipped bit, or three. -/
def Mach.injectWord (m : Mach) (uncorrectable : Bool) : Mach :=
  match m.armed (if uncorrectable then 2 else 1) with
  | some i =>
    let w := i.target % 2 ^ 48 / 8 * 8
    let m := m.injected
    let m := { m with ras := { m.ras with injWords := w :: m.ras.injWords.filter (fun x => x ≠ w) } }
    let keep (l : List Nat) : List Nat := l.filter (fun x => x ≠ w)
    if uncorrectable then { m with mem := { m.mem with badWords := w :: keep m.mem.badWords, ceWords := keep m.mem.ceWords } }
    else { m with mem := { m.mem with ceWords := w :: keep m.mem.ceWords, badWords := keep m.mem.badWords } }
  | none => m

/-- The target lane loses lock for 1 s, or until disarmed with PERSIST. -/
def Mach.injectLane (m : Mach) : Mach :=
  match m.armed 3 with
  | some i =>
    let p := bitsOf i.target 8 8
    let lane := i.target % 16
    if m.laneOut p lane then m
    else
      let m := m.injected
      let out : LaneOut := ⟨p, lane, if i.persist then none else some (m.spn.count + 10 ^ 9)⟩
      let m := { m with ras := { m.ras with lanesOut := out :: m.ras.lanesOut.filter (fun x => !(x.port = p && x.lane = lane)) } }
      if 7 < lane then m
      else if m.spareMode p && m.partner p && m.rxSpared p = 0xF then m.askSwap p lane
      else m.fabLinkDown p
  | none => m

/-- The next program on the target die fails. -/
def Mach.injectProgram (m : Mach) (sb block : Nat) : Mach :=
  match m.armed 5, mapFind m.ftl.sbs sb with
  | some i, some b =>
    if b.carrier = i.target % 32 / 8 && b.die = bitsOf i.target 9 5 then m.injected.programFail true sb block else m
  | _, _ => m

/-- A writer that may write RAS_INJ. -/
def Mach.mayInject (m : Mach) (w : Writer) : Bool := match w with | .port p => p.val = m.hif.owner | .core _ => true | .mgmt => false

/-- An injection disarmed: lanes that PERSIST holds down lock again. -/
def Mach.disarm (m : Mach) : Mach :=
  ({ m with ras := { m.ras with inj := none, lanesOut := m.ras.lanesOut.filter (fun x => x.till.isSome) } }).setBit Reg.rasInjCtl 31 false

/-- INJECTION_DISARM: a commit with TYPE 0. -/
def Mach.injDisarm (m : Mach) (w : Writer) : Mach :=
  if m.mayInject w then (m.setFld Reg.rasInjCtl 3 0 0).disarm else m.rejected (writerSource w) Reg.rasInjCtl 0 2

/-- A target's bits that its type does not name are 0. -/
def injTargetOk (typ target : Nat) : Bool :=
  match typ with
  | 1 | 2 => decide (target < 2 ^ 48)
  | 3 => decide (target < 2 ^ 9) && bitsOf target 7 4 = 0 && decide (target % 16 ≤ 8)
  | 4 => decide (target < 2 ^ 9)
  | 5 => decide (target < 2 ^ 10)
  | 6 => decide (target < 2 ^ 8) && bitsOf target 3 3 = 0
  | _ => true

/-- The committed RAS_INJ registers arm an injection, or disarm with TYPE 0. -/
def Mach.armCommitted (m : Mach) : Mach :=
  let typ := m.fld Reg.rasInjCtl 3 0
  let target := (m.reg Reg.rasInjTarget).toNat
  let m := m.disarm
  if typ = 0 then m
  else
    let m := ({ m with ras := { m.ras with
      inj := some ⟨typ, target, m.fld Reg.rasInjCtl 23 16, m.bit Reg.rasInjCtl 30⟩ } }).setBit Reg.rasInjCtl 31 true
    m.record 0x00F0 (sourceOf 0 0) St.ok (payloadOf [(4, (m.reg Reg.rasInjCtl).toNat), (8, target)])

/-! ### Margins (R605, R606) -/

/-- A reading written: MARGINAL, A and B; the transition is recorded. -/
def Mach.putMargin (m : Mach) (reg src : Nat) (x : Margin) (low : Bool) : Mach :=
  let was := m.bit reg 31
  let val := boolBit low * 2 ^ 31 + x.a.val * 2 ^ 12 + x.b.val
  let m := m.setReg reg (BitVec.ofNat 64 val)
  if low && !was then m.marginLow src val else m

/-- MARGIN_READING: GDDR7 eyes, PCIe lanes of each port and die supplies; a marginal channel is retrained. -/
def Mach.marginReading (v : Variant) (m : Mach) (eyes lanes0 lanes1 supplies : List Margin) : Mach :=
  let pct := m.fld Reg.rasMarginCfg 15 8
  let mv := m.fld Reg.rasMarginCfg 7 0
  let m := (eyes.filter (fun x => x.index < gddrChannels v)).foldl (fun m x =>
    let low := decide (x.a.val < 10 * pct)
    let m := m.putMargin (Reg.rasGddr7Eye x.index) (sourceOf 5 x.index) x low
    if low then (m.setBit Reg.memRetrainReq x.index true).retrainStart v x.index 3 else m) m
  let lane (p : Nat) (m : Mach) (x : Margin) : Mach :=
    m.putMargin (Reg.rasPcieMargin p x.index) (sourceOf 7 p) x (!Config.pcieMarginOk (m.port p).speed x.a.val x.b.val)
  let m := (lanes0.filter (fun x => x.index < 8)).foldl (lane 0) m
  let m := (lanes1.filter (fun x => x.index < 8)).foldl (lane 1) m
  (supplies.filter (fun x => x.index < 5)).foldl (fun m x =>
    m.putMargin (Reg.rasSupply x.index) (sourceOf 4 x.index) x (decide (x.b.val < mv))) m

/-! ### The health score (R608) -/

/-- The duty of a retired tile is carried by its spare, or waits for it. -/
def Mach.dutyCarried (m : Mach) (t : Nat) : Bool :=
  (m.tile t).handoverDue || (m.tile (t / 16 * 16 + 15)).role = .onDuty && (m.tile (t / 16 * 16 + 15)).dutyOf = some t

/-- Tiles retired. -/
def Mach.retiredTiles (m : Mach) : List Nat := (m.tl.tiles.filter (fun p => p.2.role = .retired)).map (fun p => p.1)

/-- Retired tiles, other than spares, whose duty no tile carries. -/
def Mach.vacantDuties (m : Mach) : List Nat := m.retiredTiles.filter (fun t => t % 16 ≠ 15 && !m.dutyCarried t)

/-- Points that faults take from the score. -/
def Mach.faultPoints (v : Variant) (m : Mach) : Nat :=
  let chans (s : Nat) : Nat := ((List.range (gddrChannels v)).filter (fun c => m.chanState c = s)).length
  let flash (c : Nat) : Nat := m.fld (Reg.flmChStatus c) 31 30
  let dead := (m.ftl.deadDies.filter (fun d => flash d.1 ≠ 3)).length
  let badCh := ((List.range (nandChannels v)).filter (fun c => flash c = 3)).length
  let lost := ((List.range 4).filter (fun n => m.bit Reg.flmStatus n)).length
  let spared := ((List.range (fabPorts v)).map (fun p => boolBit (m.rxSpared p ≠ 0xF) + boolBit (m.txSpared p ≠ 0xF))).sum
  let downs := ((List.range (fabPorts v)).filter (fun p => match (m.fabPort p).downSince with
    | some t => decide (t + 60 * 10 ^ 9 < m.spn.count)
    | none => false)).length
  2 * (m.retiredTiles.filter (fun t => m.dutyCarried t)).length + 15 * m.vacantDuties.length +
    5 * (m.tl.tiles.filter (fun p => p.2.derate.isSome)).length + 250 * m.tl.diesOut.length + 10 * chans 2 + 150 * chans 3 +
    5 * dead + 40 * badCh + 150 * lost + 300 * boolBit m.readOnly + 10 * spared + 100 * downs

/-- The health score (R608). -/
def Mach.healthScore (v : Variant) (m : Mach) : Nat := 1000 - min 1000 (m.faultPoints v)

/-- A change of the score counted and, on a joined worker, sent to the manager (R608). -/
def Mach.noteScore (v : Variant) (m : Mach) : Mach :=
  let n := m.healthScore v
  if n = m.ras.score then m
  else
    let m := ({ m with ras := { m.ras with score := n } }).addFld Reg.rasHealth 31 16 1
    if m.role = 1 && m.spn.phase = .joined then m.tell (m.fld Reg.spnMgrNode 31 0) (.score n) else m

/-! ### The tile map at boot (03 R103) -/

/-- The retirement and derating map applied to the factory map. -/
def Mach.applyMap (m : Mach) : Mach :=
  let m := m.ras.norRetired.foldl (fun m t =>
    let x := m.tile t
    let sp := t / 16 * 16 + 15
    let y := m.tile sp
    let m := m.setTile t { x with role := .retired, dutyOf := none, sram := [] }
    if t ≠ sp && y.role = .spare then m.setTile sp { y with role := .onDuty, dutyOf := some t } else m) m
  m.ras.norDerated.foldl (fun m p =>
    (m.setTile p.1 { m.tile p.1 with derate := some (p.2.2, p.2.1) }).applyDerate (p.1 / 16)) m

/-- TILES_READY: the self-tests are done, the map applied, STAGE 0x06; a tile that fails its self-test is suspect. -/
def Mach.tilesReady (v : Variant) (m : Mach) (rs : List SuiteResult) : Mach :=
  if m.power.pwrOk && m.fld Reg.glbBootStatus 7 0 = 5 then
    let m := m.applyMap
    let m := (rs.filter (fun r => tilePresent v r.tile.val && (m.tile r.tile.val).role ≠ .retired)).foldl
      (fun m r => let p := m.suite r; if p.1 then p.2 else p.2.makeSuspect r.tile.val) m
    m.setFld Reg.glbBootStatus 7 0 6
  else m

/-- TOOL_REST_READY (03 R102, R103): Tool rest has trained and zero-filled GDDR7. -/
def Mach.toolRestReady (m : Mach) : Mach :=
  let st := m.fld Reg.glbBootStatus 7 0
  if m.power.pwrOk && m.fld Reg.glbBootStatus 11 8 = 2 && (st = 3 || st = 4) && m.mem.trained then
    ({ m with boot := { m.boot with watchdog := false } }).setFld Reg.glbBootStatus 7 0 0xFE
  else m

/-! ### Scrubbing (07 R253) -/

/-- SCRUB_READ of a word: errors are reported and corrected ones written back; an uncorrectable word fails no unit and
stays for its later reader. -/
def Mach.scrubRead (v : Variant) (m : Mach) (a : Nat) : Mach :=
  let w := a / 8 * 8
  let m := m.meetCe v w 8
  match m.ueHit v w 8 with
  | some w => m.eccUe v false w St.ok 0
  | none => m

end Machine
end Sys2Proof
end

