-- ==== Sys2Proof/Machine/SystemOps.lean ====
section
/-!
DEFINITION. What acts on the whole module: the loss of the main rails, a warm reset, the start of a boot, a quiesce, and
the tick of an idle step (02 R67, R72 to R74, R83; 03 R103, R106; 15 R544).
-/
namespace Sys2Proof.Machine

/-! ### Off records (R67, 15 R544) -/

/-- An off record written to NOR (R67). -/
def Power.writeOff (p : Power) (c : Nat) : Power :=
  { p with offRecs := ⟨c, false⟩ :: p.offRecs, offSinceBoot := true }

/-- The media time that an off record saves: the present one while the module runs, else the one saved before. -/
def Mach.mediaTime (m : Mach) : Nat := if m.power.pwrOk then (m.reg Reg.flmMediaTime).toNat else m.ftl.savedTime

/-- An off record with a cause, which saves the media time. -/
def Mach.writeOff (m : Mach) (c : Nat) : Mach :=
  { m with power := m.power.writeOff c, ftl := { m.ftl with savedTime := m.mediaTime } }

/-! ### What a loss of the main rails and a warm reset leave -/

/-- Registers that the always-on domain holds, and the last-off cause that the standby set serves (02 R59). -/
def alwaysOnRegs : List Nat := [Reg.glbStraps, Reg.glbSupply, Reg.glbCoolant, Reg.glbCoolantTimer, Reg.glbLastOff]

/-- The recorder with its buffer lost: what is in NOR stays, and numbering goes on from the highest sequence there
(17 R612, R614). -/
def Recorder.afterLoss (e : Recorder) : Recorder :=
  let kept := (e.kept.filter (fun k => !k.buffered && (k.circ || k.perm)))
  { Recorder.reset with
    kept := kept
    nextSeq := match kept.getLast? with | some k => (k.record.seq + 1) % 2 ^ 32 | none => 0
    permFull := e.permFull
    permUsed := ((kept.filter (fun k => k.perm)).map (fun k => k.record.size)).sum
    circPos := e.circPos, pre := e.pre, preDropped := e.preDropped, preDropType := e.preDropType
    bootCount := e.bootCount }

/-- What flash and NOR hold stays; the module must mount again, and writes that no journal page holds are gone. -/
def Flash.afterLoss (f : Flash) : Flash :=
  { f with mounted := false, found := none, pendJ := [], waiting := [], recalFails := []
           nss := f.nss.map (fun (p : Nat × Ns) => (p.1, { p.2 with usedBy := none }))
           carriers := f.carriers.map (fun (p : Nat × Carrier) => (p.1, { p.2 with mounted := false })) }

/-- The keys stay in the sealed key store; the root of trust opens it again at the next mount. -/
def KeyStore.afterLoss (k : KeyStore) : KeyStore :=
  { k with isOpen := false, tables := [], tagSecret := [], signedJobs := [] }

/-- A port with its link down: PERSTn# is a pin. -/
def PortSt.afterLoss (x : PortSt) (now : Nat) : PortSt :=
  { PortSt.reset with perst := x.perst, downSince := some (x.downSince.getD now) }

/-- The progress of a Sanitize or Format is kept in NOR (14 R518). -/
def HostIf.afterLoss (h : HostIf) (now : Nat) : HostIf :=
  { HostIf.reset with
    p0 := h.p0.afterLoss now, p1 := h.p1.afterLoss now, owner := h.owner
    maint := match h.maint with | some x => some { x with done := none } | none => none
    sanFailed := h.sanFailed, sanDone := h.sanDone, made := h.made }

/-- Everything but the always-on domain, the fuses, NOR and flash at reset (R106). -/
def Mach.resetCore (m : Mach) : Mach :=
  let now := m.spn.count
  let tiers := match m.jobs.dc.job with | some j => (m.closeCache j).jobs.tiers | none => m.jobs.tiers
  let down : FabPort := { FabPort.reset with downSince := some now }
  { Mach.factory with
    regs := ⟨m.regs.vals.filter (fun p => alwaysOnRegs.contains p.1), [], [], 0⟩
    evr := m.evr.afterLoss
    power := { m.power with limit950 := false, throttled := [], quiesce := .none, calibrating := false }
    boot := { m.boot with chosen := none, watchdog := false, live := none, migration := .idle }
    spn := { Spindle.reset with
      count := now, running := m.spn.running, planSeq := m.spn.planSeq, fresh := m.spn.fresh }
    jobs := { Jobs.reset with tiers := tiers }
    ras := { Ras.reset with
      norRetired := m.ras.norRetired, norDerated := m.ras.norDerated, norFdom := m.ras.norFdom }
    ks := m.ks.afterLoss, ftl := m.ftl.afterLoss, hif := m.hif.afterLoss now
    xp := { Xpt.reset with f0 := down, f1 := down }
    out := m.out, draws := m.draws + 1 }

/-- The main rails off: the spindle count is lost with PWR_OK. -/
def Mach.mainRailsOff (m : Mach) : Mach :=
  let m := m.resetCore
  { m with spn := { m.spn with count := 0, running := false, fresh := true } }

/-! ### The start of a boot -/

/-- GLB_EMC_CFG as the strap sets it: 31.5 kHz and 0.5 % with STRAP_SSC at 1, else 0 (GLB_EMC_CFG resets). -/
def emcReset (straps : Nat) : U64 := if bitAt straps 5 then 0x1A else 0

/-- What the straps, NOR and a draw set at the start of every boot: SPN_STATE and SPN_ERR by the role (12 R418), the lane
mode (13 R451), the administrative owner (14 R513), clock spreading, the failure domains (17 R607), the media time
(15 R544) and the Caliper seed (17 R592). -/
def Mach.bootInit (v : Variant) (m : Mach) : Mach :=
  let straps := (m.reg Reg.glbStraps).toNat
  let role := bitsOf straps 1 0
  let m := m.setFld Reg.spnState 5 4 role
  let m := if role = 1 then (m.setFld Reg.spnState 2 0 4).setFld Reg.spnErr 15 0 0xFFFF else m
  let m := (List.range (fabPorts v)).foldl (fun m p => m.setBit (Reg.fabStatus p) 0 (bitAt straps 6)) m
  let m := m.setReg Reg.glbEmcCfg (emcReset straps)
  let m := (List.range 4).foldl (fun m k => m.setReg (Reg.rasFdom k) (BitVec.ofNat 64 (m.ras.norFdom.getD k 0))) m
  let m := (m.setReg Reg.flmMediaTime (BitVec.ofNat 64 m.ftl.savedTime)).setBit Reg.flmStatus 30 true
  { m.draw with tl := { m.tl with calSeed := m.drawn 0x592 % 2 ^ 64 }
                hif := { m.hif with owner := boolBit (bitAt straps 2) } }

/-- A warm reset (R106): the count, the rails and the straps stay, and the boot starts again. A flow loss in progress
still limits every cluster. -/
def Mach.warmReset (v : Variant) (m : Mach) : Mach :=
  let lims := m.tl.clusters.filterMap (fun p => ((p.2.lim.getD 2 none)).map (fun mhz => (p.1, mhz)))
  let m := m.resetCore
  let m := if m.power.limit150 then lims.foldl (fun m p => m.setLimit 26 [p.1] (some p.2)) m else m
  (m.bootInit v).startBoot

/-! ### The quiesce (R83) -/

/-- The module's part in running jobs ends, starts in preparation are cancelled, and a joined worker takes its leave of
its manager. -/
def Mach.quiesceJobs (m : Mach) : Mach :=
  let m := (m.spn.starts.filter (fun r => r.phase = .preparing)).foldl (fun m r => m.cancelStart r false) m
  let m := (m.jobs.slots.filter (fun p => p.2.live)).foldl (fun m p => m.jobEnd p.1 7 St.ok) m
  if m.role = 1 && m.spn.phase = .joined then m.tell (m.fld Reg.spnMgrNode 31 0) .leave else m

/-! ### The tick of an idle step: 40 ns (the model's choice) -/

/-- A cluster's clock and the cycle counts of its tiles over 40 ns: a tile counts a wait while any engine is blocked. -/
def Mach.tickCluster (m : Mach) (c : Nat) : Mach :=
  let x := m.clus c
  if m.clockRuns c then
    let n := x.current / 25
    let m := m.addFld (Reg.clkClCycles c) 63 0 n
    ((clusterTiles c).filter (fun t => (m.tile t).role ≠ .retired)).foldl (fun m t =>
      let m := m.addFld (Reg.tilePerfCycles t) 63 0 n
      if (m.tile t).waits.any (fun w => !w.served) then m.addFld (Reg.tilePerfWait t) 63 0 n else m) m
  else m

/-- 40 ns pass: the spindle count, the clocks of clusters, residencies, PWR_WAKE_AT and the score. -/
def Mach.tick (v : Variant) (m : Mach) : Mach :=
  if m.power.pwrOk then
    let m := m.tickSpindle
    let m := (List.range (clusterCount v)).foldl (fun m c => m.tickCluster c) m
    (m.residency.wakeReached).noteScore v
  else m

end Sys2Proof.Machine
end

