-- ==== Sys2Proof/Machine/RegView.lean ====
section
/-!
DEFINITION. What a read of window 2 returns: stored registers, and the registers whose values follow from the rest of the
state (00 R5, R10, R13; 01 R50, R51; 04 R157).
-/
namespace Sys2Proof.Machine

/-- The block of an offset: its first byte (01 R50); a TILE page is a block of its own (R13). -/
def regBlock (off : Nat) : Nat :=
  if off < 0x10000 then off / 0x8000 * 0x8000
  else if off < 0x1000000 then off / 0x10000 * 0x10000 else off / 0x1000 * 0x1000

/-- The block has a control word (R13): the blocks of window 2 but for the doorbells, and the TILE pages. -/
def hasCfgctl (blk : Nat) : Bool := decide (blk < 0x120000) || (decide (0x1000000 ≤ blk) && decide (blk < 0x1200000))

/-- Offset of the control word of a block. -/
def cfgctl (blk : Nat) : Nat := blk + 0xFF8

/-- A tile that some committed PIPE_TILECFG set still waits for (06 R242). -/
def Mach.tilesWait (v : Variant) (m : Mach) : Bool :=
  m.tl.tiles.any (fun p => p.2.cfgPend.isSome && tilePresent v p.1 && m.tilePowered p.1 && p.2.carriesDuty)

/-- A block is idle in the sense of R13. -/
def Mach.blockIdle (m : Mach) (blk : Nat) : Bool :=
  if blk = 0x60000 then m.bpmIdle
  else if blk = 0x80000 || blk = 0x110000 then m.jobs.slots.isEmpty
  else if blk = 0xB0000 then m.mem.ctx.all (fun p => p.2.kind ≠ 3)
  else if 0x1000000 ≤ blk then (m.tile ((blk - 0x1000000) / 0x1000)).unit.isNone
  else true

/-- Pending values of a block, and commit sets that wait for their commit point. -/
def Mach.blockPending (v : Variant) (m : Mach) (blk : Nat) : Bool :=
  m.regs.pend.any (fun p => regBlock p.off = blk) || m.regs.latched.any (fun c => c.blk = blk) ||
    (blk = 0xD0000 && m.tilesWait v)

/-- The control word of a block as it reads (R13, 06 R242): of the commits of PIPE_TILECFG, those that every tile has
applied count. -/
def Mach.readCfgctl (v : Variant) (m : Mach) (blk : Nat) : Nat :=
  let x := m.reg (cfgctl blk)
  let seq := fieldOf x 31 16
  let seq := if blk = 0xD0000 && m.tilesWait v then (seq + 2 ^ 16 - m.regs.tileWait % 2 ^ 16) % 2 ^ 16 else seq
  seq * 2 ^ 16 + fieldOf x 8 8 * 2 ^ 8 + boolBit (m.blockIdle blk) * 8 + boolBit (m.blockPending v blk) * 4

/-- The index of a register in an array with a stride, when an offset lies in it. -/
def indexIn (off base stride count : Nat) : Option Nat :=
  if base ≤ off && (off - base) % stride = 0 && (off - base) / stride < count then some ((off - base) / stride) else none

/-! ### Power, clocks, health, recorder -/

def readPwr (v : Variant) (m : Mach) (off : Nat) : Option Nat :=
  let next := firstEvent (m.packageEvents v)
  if off = Reg.pwrStatus then some (bitMask m.ps.regionsOff * 2 ^ 16 + m.ps.pkg)
  else if off = Reg.pwrClusterGated then
    some (bitMask ((List.range (clusterCount v)).filter (fun c => (m.clus c).gated && !m.ps.regionsOff.contains (c / 4))))
  else if off = Reg.pwrTolEffective then some m.tolerance
  else if off = Reg.pwrNextEvent then some (match next with | some e => e.1 | none => 0)
  else if off = Reg.pwrNextSrc then some (match next with | some e => e.2 | none => 0)
  else none

/-- CLK_CL_STATUSn (04 R147 to R154). -/
def Mach.readClock (m : Mach) (c : Nat) : Nat :=
  let x := m.clus c
  let src := (x.lim.zipIdx.filter (fun (p : Option Nat × Nat) => match p.1 with
    | some f => decide (f < m.clockTarget c)
    | none => false)).map (fun p => p.2)
  let cur := if m.ps.regionsOff.contains (c / 4) then 0 else x.current
  boolBit (x.current ≠ m.clockEffective c) * 2 ^ 29 + bitMask src * 2 ^ 24 + x.limitMhz * 2 ^ 11 + cur

def readRas (v : Variant) (m : Mach) (off : Nat) : Option Nat :=
  if off = Reg.rasRetireStatus then
    some (boolBit m.storm * 2 ^ 31 + min 255 m.retireWindow.length * 2 ^ 16 + m.ras.quarantine.length)
  else if off = Reg.rasTiles then
    some (m.retiredTiles.length * 2 ^ 20 + (m.tl.tiles.filter (fun p => p.2.derate.isSome)).length * 2 ^ 10 +
      m.vacantDuties.length)
  else if off = Reg.rasHealth then some (m.fld Reg.rasHealth 31 16 * 2 ^ 16 + m.healthScore v)
  else none

def readEvr (m : Mach) (off : Nat) : Option Nat :=
  let win (p : Nat) : Nat :=
    let w := m.evr.win p
    w.state * 2 ^ 30 + boolBit w.area * 2 ^ 29 + boolBit w.busy * 2 ^ 28 + w.data.length
  if off = Reg.evrStatus then
    some (boolBit m.evr.permFull * 2 ^ 31 + m.fld Reg.evrStatus 30 30 * 2 ^ 30 + m.evr.buffered)
  else if off = Reg.evrNextSeq then some m.evr.nextSeq
  else if off = Reg.evrOldestSeq then some (m.evr.oldest false)
  else if off = Reg.evrPermLast then some m.evr.permLast
  else if off = Reg.evrDropped then some m.evr.dropped
  else if off = Reg.evrRdSeq 0 then some m.evr.win0.seq
  else if off = Reg.evrRdSeq 1 then some m.evr.win1.seq
  else if off = Reg.evrRdStatus 0 then some (win 0)
  else if off = Reg.evrRdStatus 1 then some (win 1)
  else none

/-! ### Keys, pools, contexts, memory, flash -/

def readSec (m : Mach) (off : Nat) : Option Nat :=
  if off = Reg.secKsInfo then some (boolBit m.ks.isOpen * 2 ^ 29 + m.ks.keys.length)
  else match indexIn off (Reg.secJobPolicy 0) 4 16 with
    | some j =>
      let t := (mapGet (fun _ => []) m.ks.tables j).filter Option.isSome
      let allowed := if (m.job? j).isSome then m.jobAllowed j else 0x1F
      some (t.length * 2 ^ 10 + boolBit (m.ks.signedJobs.contains j) * 2 ^ 9 + boolBit (m.jobRestricted j) * 2 ^ 8 + allowed)
    | none => none

def readBpm (m : Mach) (off : Nat) : Option Nat :=
  match indexIn off (Reg.bpmPoolFree 0) 0x40 8, indexIn off (Reg.bpmPoolChuck 0) 0x40 8 with
  | some k, _ => let p := m.pool k; some (if p.enabled then p.ringLeft + p.chuck.length + p.inFlight.flatten.length else 0)
  | _, some k =>
    let p := m.pool k
    some (m.fld (Reg.bpmPoolChuck k) 31 30 * 2 ^ 30 + boolBit p.ready * 2 ^ 29 + p.chuck.length)
  | _, _ => none

def readCtx (m : Mach) (off : Nat) : Option Nat :=
  if off = Reg.ctxFree then some (262144 - m.ctxInUse)
  else if off = Reg.ctxFlush then some (boolBit m.mem.ctxFlushing * 2)
  else none

/-- MEM registers: read latencies are not the model's, so MEM_RD_LAT is a free value. -/
def readMem (m : Mach) (off : Nat) : Option Nat :=
  let d := m.dc
  if off = Reg.memRdLat then some (m.drawn 0x81320 % 2 ^ 32)
  else if off = Reg.memDcStatus then
    some (boolBit d.job.isSome * 2 ^ 31 + boolBit (d.flashNs ≠ 0) * 2 ^ 30 + boolBit m.dcFull * 2 ^ 29 +
      d.job.getD 0 * 2 ^ 16 + d.inTier false)
  else if off = Reg.memDcFlashSegs then some (d.inTier true)
  else none

/-- FLM registers: which pages the map cache holds is not the model's, so its hits and misses are free values. -/
def readFlm (m : Mach) (off : Nat) : Option Nat :=
  if off = Reg.flmUserBytes then some m.userBytes
  else if off = Reg.flmSb then some ((m.ftl.sbs.filter (fun p => p.2.kind = .native)).length * 2 ^ 32 + m.freeNative)
  else if off = Reg.flmGcStatus then some (if m.ftl.mounted then m.regime * 2 ^ 30 + m.hostShare else 128)
  else if off = Reg.flmSlc then some (m.slcOccupancy * 2 ^ 16 + m.fld Reg.flmSlc 15 8 * 2 ^ 8)
  else if off = Reg.flmStoredCfg then some m.ftl.storedCfg
  else if off = Reg.flmMapHits then some (m.drawn 0x90038)
  else if off = Reg.flmMapMisses then some (m.drawn 0x90040)
  else if off = Reg.flmStatus then some (boolBit m.readOnly * 2 ^ 31 + m.fld Reg.flmStatus 30 0)
  else if off = Reg.flmRetired then some m.ftl.retired
  else if off = Reg.flmSpares then some m.ftl.spares
  else none

/-! ### Ports, jobs, channels, sessions -/

/-- HIF_PORTn_LINK. -/
def Mach.readLink (m : Mach) (p : Nat) : Nat :=
  let x := m.port p
  boolBit x.up * 2 ^ 31 + m.fld Reg.glbStraps 5 5 * 2 ^ 30 + boolBit x.flit * 2 ^ 29 + x.speed * 2 ^ 20 + x.width * 2 ^ 16 +
    x.lstate * 16 + boolBit x.perst * 8 + boolBit x.d3 * 4

def readHif (m : Mach) (off : Nat) : Option Nat :=
  if off = Reg.hifLink 0 then some (m.readLink 0)
  else if off = Reg.hifLink 1 then some (m.readLink 1)
  else if off = Reg.hifLtr 0 then some m.hif.p0.tolerance
  else if off = Reg.hifLtr 1 then some m.hif.p1.tolerance
  else if off = Reg.hifAdmin then some (m.fld Reg.hifAdmin 1 1 * 2 + m.hif.owner)
  else if off = Reg.hifMaint then
    some (match m.hif.maint with
      | some x =>
        boolBit (!m.formatRuns) * 2 ^ 31 + boolBit m.formatRuns * 2 ^ 30 + boolBit x.resumed * 2 ^ 29 + x.percent
      | none => 0)
  else none

/-- The 99.9th percentile of fetch times, by nearest rank. -/
def percentile999 (l : List Nat) : Nat :=
  let s := l.mergeSort (· ≤ ·)
  s.getD ((999 * s.length + 999) / 1000 - 1) 0

/-- Working tiles that serve a job. -/
def Mach.workingTiles (v : Variant) (m : Mach) (j : Nat) : Nat :=
  ((m.servers j).map (fun c => ((clusterTiles c).filter (fun t =>
    tilePresent v t && m.tilePowered t && (m.tile t).carriesDuty)).length)).sum

/-- A register of a job slot, by its offset from PIPE_JOBj_STATE. -/
def Mach.readJob (v : Variant) (m : Mach) (j d : Nat) : Option Nat :=
  match m.job? j with
  | none => if d ≤ 0x44 then some 0 else none
  | some x =>
    let s := x.last.getD x.cur
    match d with
    | 0x00 => some (x.status * 2 ^ 16 + boolBit x.nonrepro * 2 ^ 15 + x.state)
    | 0x04 => some (match x.image? with | some i => (i.first + x.lowEpoch i) % 2 ^ 32 | none => 0)
    | 0x08 => some (match x.image? with | some i => x.frontier i | none => 0)
    | 0x10 => some (x.launch.getD 0)
    | 0x18 => some (m.workingTiles v j * 2 ^ 22 + x.m * 2 ^ 12 + x.l % 512)
    | 0x1C => some (if s.unitCount = 0 then 0 else min (s.unitSum / s.unitCount) (2 ^ 32 - 1))
    | 0x20 => some (min s.unitMax (2 ^ 32 - 1))
    | 0x24 => some (min (percentile999 s.fetches) (2 ^ 32 - 1))
    | 0x28 => some (if x.samples = 0 then 0 else x.tokens * 256 / x.samples % 2 ^ 32)
    | 0x2C => some (x.subst % 2 ^ 32)
    | 0x30 => some (x.mediaSubst % 2 ^ 32)
    | 0x40 => some x.augReady
    | 0x44 => some x.augDone
    | _ => none

/-- A batch of a channel has all its rows. -/
def Mach.batchWhole (m : Mach) (c : Chan) (k : Nat) : Bool :=
  match m.job? c.job with
  | some x =>
    match x.image? with
    | some i =>
      match i.batch with
      | some b => match batchRows x i b (k * x.chans.length + c.index) with | .rows _ => true | _ => false
      | none => false
    | none => false
  | none => false

/-- A register of a module channel, by its offset from PIPE_CHk_CFG. -/
def Mach.readChan (m : Mach) (k d : Nat) : Option Nat :=
  match m.chan? k with
  | none => if d ≤ 0x20 then some 0 else none
  | some c =>
    let work := (List.range (c.started - c.next)).map (fun i => c.next + i)
    let held := (work.filter (m.batchWhole c)).length
    match d with
    | 0x00 => some (2 ^ 31 + c.job * 2 ^ 20 + c.index * 2 ^ 8 + boolBit (!c.ordered) * 2 ^ 7 + c.depth)
    | 0x08 => some (c.next % 2 ^ 40)
    | 0x10 => some (match (m.job? c.job).bind Job.image?, (m.job? c.job).bind (fun x => x.launch) with
        | some i, some l => match i.chans[c.index]? with | some cs => if c.ordered then dueCount cs l c.next else 0 | none => 0
        | _, _ => 0)
    | 0x18 => some (held * 2 ^ 8 + (work.length - held))
    | 0x1C => some c.late
    | 0x20 => some c.maxLate
    | _ => none

def readPipe (v : Variant) (m : Mach) (off : Nat) : Option Nat :=
  if off < 0xD1000 then
    if off % 4 = 0 && (off - 0xD0000) % 0x100 ≤ 0x44 then m.readJob v ((off - 0xD0000) / 0x100) ((off - 0xD0000) % 0x100) else none
  else if 0xD4000 ≤ off && off < 0xD5100 then m.readChan ((off - 0xD4000) / 0x40) ((off - 0xD4000) % 0x40)
  else match indexIn off (Reg.pipeClqStatus 0) 0x10 32, indexIn off (Reg.pipeDqStatus 0) 0x10 4 with
    | some c, _ =>
      let q := (m.clus c).ring
      some (m.fld (Reg.pipeClqStatus c) 31 31 * 2 ^ 31 + countState q .waiting * 2 ^ 13 + countState q .ready)
    | _, some d => some (m.dieQueue d).length
    | _, _ => none

def readGrm (m : Mach) (off : Nat) : Option Nat :=
  if off = Reg.grmLive then some (m.mem.ctx.filter (fun p => p.2.kind = 2)).length
  else match indexIn off (Reg.grmOut 0) 8 16 with
    | some j => some (match (m.job? j).bind Job.sess? with | some s => s.done | none => 0)
    | none => none

/-! ### TILE pages -/

/-- The state of an engine as TILE_ENGINES shows it. -/
def Tile.engineState (x : Tile) (e : Fin 5) : Nat :=
  let busy : Bool := match e with
    | 0 => x.running
    | 1 => !x.vq.isEmpty
    | 2 => !x.gq.q.isEmpty
    | 3 => !x.aq.q.isEmpty
    | 4 => !x.dq.q.isEmpty
  if x.blocked e then 2 else if e = 0 && x.stalled.isSome then 3 else boolBit busy

/-- The code of a role. -/
def TileRole.code (r : TileRole) : Nat :=
  match r with | .active => 0 | .spare => 1 | .onDuty => 2 | .retired => 3 | .diagnostic => 4

/-- TILE_STATE. -/
def Mach.readTileState (m : Mach) (t : Nat) : Nat :=
  let x := m.tile t
  boolBit x.dutyOf.isSome * 2 ^ 30 + x.dutyOf.getD t * 2 ^ 21 + x.role.code * 2 ^ 18 + boolBit x.derate.isSome * 2 ^ 17 +
    boolBit (m.tilePowered t) * 2 ^ 16 + t

def readTile (m : Mach) (off : Nat) : Option Nat :=
  let t := (off - 0x1000000) / 0x1000
  let d := off % 0x1000
  let x := m.tile t
  if !m.tilePowered t then some (if d = 0 then m.readTileState t else 0)
  else if d = 0 then some (m.readTileState t)
  else if d = 4 then some (x.engineState 4 * 2 ^ 16 + x.engineState 3 * 2 ^ 12 + x.engineState 2 * 2 ^ 8 +
    x.engineState 1 * 16 + x.engineState 0)
  else if d = 8 then some (x.dq.q.length * 2 ^ 13 + x.aq.q.length * 2 ^ 9 + x.gq.q.length * 2 ^ 5 + x.vq.length)
  else match indexIn d 0x40 4 16 with
    | some k => some (m.fld (Reg.tileSync t k) 16 16 * 2 ^ 16 + x.sync.toList.getD k 0)
    | none => none

/-! ### The whole window -/

/-- The unit that a register belongs to is present (R5). -/
def regPresent (v : Variant) (off : Nat) : Bool :=
  let within (base stride len n : Nat) : Bool := decide (off < base) || decide (base + stride * len ≤ off) || decide ((off - base) / stride < n)
  within (Reg.clkClTarget 0) 0x10 32 (clusterCount v) && within (Reg.pipeClqStatus 0) 0x10 32 (clusterCount v) &&
    within (Reg.pipeDqStatus 0) 0x10 4 (dieCount v) && within (Reg.memChStatus 0) 4 64 (gddrChannels v) &&
    within (Reg.memChErr 0) 4 64 (gddrChannels v) && within (Reg.rasGddr7Eye 0) 4 64 (gddrChannels v) &&
    within (Reg.flmChStatus 0) 4 32 (nandChannels v) && within 0xB0000 0x1000 2 (fabPorts v) &&
    (decide (off < 0x1000000) || tilePresent v ((off - 0x1000000) / 0x1000))

/-- Registers whose values follow from the rest of the state. -/
def derived (v : Variant) (m : Mach) (off : Nat) : Option Nat :=
  if off < 0x8000 then none
  else if off < 0x10000 then (if off % 4 = 0 && off < 0x8014 then (capWords v)[(off - 0x8000) / 4]? else none)
  else if 0x1000000 ≤ off then readTile m off
  else match off / 0x10000 with
    | 1 => readPwr v m off
    | 2 => (indexIn off (Reg.clkClStatus 0) 0x10 32).map m.readClock
    | 3 => readRas v m off
    | 4 => readEvr m off
    | 5 => readSec m off
    | 6 => readBpm m off
    | 7 => readCtx m off
    | 8 => readMem m off
    | 9 => readFlm m off
    | 10 => readHif m off
    | 13 => readPipe v m off
    | 15 => readGrm m off
    | 17 => if off = Reg.spnCount then some m.spn.count else none
    | _ => none

/-- The value of the register at an offset: 0 where no register lies, or its unit is absent (R5, R51). -/
def regRead (v : Variant) (m : Mach) (off : Nat) : U64 :=
  if !regPresent v off then 0
  else if off = cfgctl (regBlock off) && hasCfgctl (regBlock off) then BitVec.ofNat 64 (m.readCfgctl v (regBlock off))
  else match regAt off with
    | none => 0
    | some _ =>
      match derived v m off with
      | some x => BitVec.ofNat 64 x
      | none => m.reg off

/-- Bytes of the register that starts at an offset: 4 or 8. -/
def regBytes (off : Nat) : Nat :=
  match regAt off with | some r => r.width / 8 | none => 4

/-- The register that holds a byte of window 2: the offset of its first byte. -/
def regBase (off : Nat) : Nat :=
  let a := off / 4 * 4
  let b := off / 8 * 8
  if (regAt a).isSome then a else if (match regAt b with | some r => decide (r.width = 64) | none => false) then b else a

/-- A byte of window 2 as it reads; the record windows of the recorder hold bytes (17 R617). -/
def regByte (v : Variant) (m : Mach) (off : Nat) : Byte :=
  if 0x41000 ≤ off && off < 0x43000 then ((m.evr.win ((off - 0x41000) / 0x1000)).data).getD (off % 0x1000) 0
  else
    let b := regBase off
    BitVec.ofNat 8 ((regRead v m b).toNat / 2 ^ (8 * (off - b)))

/-- A read of window 2 (R10): naturally aligned, 1, 2, 4 or 8 bytes; any other returns 0x00 in every byte. -/
def busRead (v : Variant) (m : Mach) (off n : Nat) : List Byte :=
  if (n = 1 || n = 2 || n = 4 || n = 8) && off % n = 0 then (List.range n).map (fun i => regByte v m (off + i))
  else List.replicate n 0

end Sys2Proof.Machine
end

