-- ==== Sys2Proof/Machine/PowerCmds.lean ====
section
/-!
DEFINITION. The meanings of the supply, pin and coolant commands
(02_module_connectors_power_cooling.md R53 to R92, R621 to R624; 17 R613, R630).
A command that the module's state does not admit (a rail event with the rails off, say) changes nothing.
-/
namespace Sys2Proof.Machine

/-! ### Thresholds fixed at manufacture (R64, R622) -/

/-- Undervoltage lockout of this module, mV: one unstated value from 45,000 to 46,000. -/
def uvLockout : Nat := 45000 + Config.freeNat 1 0 % 1001
/-- Undervoltage detect of this module, mV: one unstated value from 43,500 to 44,500. -/
def uvDetect : Nat := 43500 + Config.freeNat 2 0 % 1001
/-- Overvoltage shutdown of this module, mV: one unstated value from 59,000 to 60,000. -/
def ovShutdown : Nat := 59000 + Config.freeNat 3 0 % 1001

/-! ### Shared operations -/

/-- A latch of R76 is set. -/
def Power.latched (p : Power) : Bool := p.latchEmerg || p.latchOv || p.latchOther

/-- The main rails are on or coming up. -/
def Power.on (p : Power) : Bool := p.rails ≠ .off

/-- The order of R75: the place of a cause among causes that occur together. -/
def causeRank (c : Nat) : Nat :=
  match c with
  | 7 => 0 | 5 => 1 | 6 => 2 | 3 => 3 | 8 => 4 | 4 => 5 | 2 => 6 | 1 => 7
  | _ => 8

/-- The cause to write after a firmware-free power-down, with one already waiting (R75). -/
def dueCause (old : Option Nat) (c : Nat) : Option Nat :=
  match old with
  | some o => if causeRank o < causeRank c then some o else some c
  | none => some c

/-- The off record of the quiesce withdrawn by a mark after it (R67, R84). -/
def Power.withdrawOff (p : Power) : Power :=
  match p.offRecs with
  | ⟨1, false⟩ :: r => { p with offRecs := ⟨1, true⟩ :: r }
  | _ => p

/-- A coolant check may run (R68, R69, R74): MOD_EN is high, the standby rail is up, the main rails are off, no
latch is set, EMERG_OFF# is high and the input lies between lockout and overvoltage. -/
def Power.mayCheck (p : Power) : Bool :=
  p.modEn && p.standby && p.rails = .off && !p.latched && !p.emergLow && !p.overvolt && decide (uvLockout ≤ p.vin)

/-- The coolant check starts where it may (R69). -/
def Mach.startCheck (m : Mach) : Mach :=
  if m.power.mayCheck then { m with power := { m.power with checkRunning := true } } else m

/-- The check in progress stops (R69, R74). -/
def Power.stopCheck (p : Power) : Power := { p with checkRunning := false, checkFailing := false }

/-- A SUPPLY record: sensor number and kind (R630). -/
def Mach.supplyRecord (m : Mach) (sensor kind : Nat) : Mach :=
  m.record 0x0082 (sourceOf 10 sensor) St.supply (payloadOf [(4, (m.reg Reg.glbSupply).toNat), (4, kind)])

/-- A COOLANT record from sensor 0 or 1; its STATUS is ST_OK for a recovery (R630, R633). -/
def Mach.coolantRecord (m : Mach) (sensor status : Nat) : Mach :=
  m.record 0x0081 (sourceOf 10 sensor) status
    (payloadOf [(4, (m.reg Reg.glbCoolant).toNat), (4, (m.reg Reg.glbCoolantTimer).toNat)])

/-- A THERMAL record: sensor, kind (0 start, 1 end, 2 trip, as kindCode numbers them) and temperature. -/
def Mach.thermalRecord (m : Mach) (sensor kind temp : Nat) : Mach :=
  m.record 0x0080 (sourceOf 10 sensor) St.thermal (payloadOf [(1, kindCode 0x80 kind), (1, 0), (2, temp)])

/-- The flow reading and FLOW_LOW, which is 1 below 1.2 L/min (GLB_COOLANT). -/
def Mach.setFlow (m : Mach) (flow : Nat) : Mach :=
  (m.setFld Reg.glbCoolant 15 0 flow).setBit Reg.glbCoolant 28 (decide (flow < 1200))

/-- The inlet temperature reading, 0.1 °C. -/
def Mach.setInlet (m : Mach) (t : Nat) : Mach := m.setFld Reg.glbCoolant 27 16 t

/-- PWR_OK and WP# fall and the main rails switch off, in reverse order; what they powered is lost (R72, R74). -/
def Mach.powerDown (m : Mach) : Mach :=
  let m := m.mainRailsOff
  { m with power := { m.power with rails := .off, pwrOk := false, wpLow := 0xF, quiesce := .none,
                                   limit150 := false, limit950 := false, throttled := [] } }

/-- A power-down on the firmware-free path (R74): the latch of R76 is set by the caller; the off record follows. -/
def Mach.hardDown (m : Mach) (cause : Nat) : Mach :=
  let t := m.mediaTime
  let m := m.powerDown
  { m with power := { m.power with offDue := dueCause m.power.offDue cause, dueTime := t } }

/-- Clusters that a junction sensor's die holds; the I/O die and a GDDR7 device limit every cluster. -/
def clustersOfSensor (sensor : Nat) : List Nat :=
  if 16 ≤ sensor ∧ sensor < 20 then (List.range 8).map (fun i => (sensor - 16) * 8 + i) else List.range 32

/-- The mean of a list, 0 when it is empty. -/
def meanOf (l : List Nat) : Nat := l.sum / l.length

/-! ### Meanings -/

/-- HOT_SWAP_CLOSE (R64, R68 step 1): the switch closes once the input is above undervoltage lockout. -/
def execHotSwapClose (mv : Nat) (s : State) : Res :=
  doing (fun m =>
    let m := { m with power := { m.power with vin := mv } }
    if uvLockout ≤ mv then { m with power := { m.power with closed := true } }
    else m.supplyRecord 2 1) s

/-- STANDBY_UP (R68 step 2, R621): the standby rail comes up and ADDR_SEL is sampled once. -/
def execStandbyUp (addrSel : Fin 4) (s : State) : Res :=
  doing (fun m =>
    if m.power.closed && !m.power.standby then
      { m with power := { m.power with standby := true, smbusAddr := 0x6A + addrSel.val, samples := [] } }
    else m) s

/-- STANDBY_LOST (R623): below 28 V the standby rail is lost and every latched state of the always-on domain clears. -/
def execStandbyLost (mv : Nat) (s : State) : Res :=
  act (fun v m =>
    if mv < 28000 then
      let m := if m.power.on then m.powerDown else m
      let p := m.power
      { ((m.setReg Reg.glbSupply 0).setReg Reg.glbCoolant 0).setReg Reg.glbCoolantTimer 0 with
        power := { p.stopCheck with
                   vin := mv, closed := false, standby := false, latchEmerg := false,
                   latchOv := false, latchOther := false, thermTrip := false, flowTimer := false,
                   deadlinePassed := false, samples := [], offDue := none, emergLow := false, overvolt := false,
                   modEn := false }
        evr := { m.evr with pre := [], preDropped := 0, preDropType := 0 } }
    else m) s

/-- MOD_EN_RISE (R68 step 3, R76): eligible latches are released and the coolant check starts. A latch is released
after MOD_EN has been low for 100 ms; one set by EMERG_OFF# or overvoltage only while its input is good. -/
def execModEnRise (lowMs : Nat) (emergHigh : Bool) (mv : Nat) (s : State) : Res :=
  doing (fun m =>
    let p := { m.power with modEn := true, vin := mv, emergLow := !emergHigh, overvolt := decide (ovShutdown ≤ mv) }
    let good := emergHigh && decide (mv < ovShutdown)
    let p := if 100 ≤ lowMs then
        { p with latchEmerg := p.latchEmerg && !good, latchOv := p.latchOv && !good, latchOther := false }
      else p
    let p := if p.latched then p else { p with thermTrip := false }
    let m := { m with power := p }
    let m := if p.standby && p.rails = .off && decide (mv < uvLockout) then m.supplyRecord 2 1 else m
    m.startCheck) s

/-- COOLANT_CHECK (R69): the window passed starts the main rails; the first failed window of a run is recorded, and
the check repeats. -/
def execCoolantCheck (minFlow maxInlet flow inlet : Nat) (s : State) : Res :=
  doing (fun m =>
    if !m.power.checkRunning then m else
    let m := (m.setFlow flow).setInlet inlet
    if 1200 ≤ minFlow ∧ maxInlet ≤ 400 then
      { m with power := { m.power.stopCheck with rails := .ramping } }
    else if m.power.checkFailing then m
    else
      let m := m.coolantRecord (if 1200 ≤ minFlow then 1 else 0) St.coolant
      { m with power := { m.power with checkFailing := true } }) s

/-- RAILS_IN_REGULATION (R70): the six main rails have come up in order; the PWR_OK delay starts. -/
def execRailsInRegulation (s : State) : Res :=
  doing (fun m =>
    if m.power.rails = .ramping then { m with power := { m.power with rails := .regulated } } else m) s

/-- RAIL_FAULT (R71): all main rails off, PWR_OK low, cause 0x08, no retry before the latch is released. -/
def execRailFault (rail : Fin 6) (s : State) : Res :=
  act (fun v m =>
    if m.power.on then
      let m := m.supplyRecord (3 + rail.val) 4
      let m := m.hardDown 8
      { m with power := { m.power with latchOther := true } }
    else m) s

/-- The default of a strap in place of a reserved value (R63), in the bit order of GLB_STRAPS. -/
def strapsInEffect (straps : Nat) : Nat :=
  let role := if bitsOf straps 1 0 = 3 then 0 else bitsOf straps 1 0
  let gen := if bitsOf straps 8 7 = 3 then 0 else bitsOf straps 8 7
  putBits (putBits straps 1 0 role) 8 7 gen

/-- A strap sample holds a reserved value (R63). -/
def strapsReserved (straps : Nat) : Bool := bitsOf straps 1 0 = 3 || bitsOf straps 8 7 = 3

/-- The CAUSE that boot reads from the newest off record (R67): 0x03 when none was written since the last boot, 0x00
when there never was a record. -/
def Power.lastCause (p : Power) (firstBoot : Bool) : Nat :=
  match (p.offRecs.filter (fun o => !o.withdrawn)).head? with
  | some o => if p.offSinceBoot && p.offRecs.head? = some o then o.cause else 3
  | none => if firstBoot then 0 else 3

/-- The records kept before PWR_OK are numbered and kept, ahead of every later record (R613). -/
def Mach.handOver (m : Mach) : Mach :=
  let e := m.evr.pre.foldl (fun e r => e.make m.spn.count r) m.evr
  let alert := m.evr.pre.any (fun r => alerts (m.fld Reg.evrAlertMask 15 0) r.typ r.status)
  let e := if m.evr.preDropped = 0 then e
    else { e with dropRun := e.dropRun + m.evr.preDropped, dropped := (e.dropped + m.evr.preDropped) % 2 ^ 32,
                  dropType := if e.dropRun = 0 then m.evr.preDropType else e.dropType }
  let m := { m with evr := { e with pre := [], preDropped := 0, preDropType := 0 } }
  if alert then m.setBit Reg.evrStatus 30 true else m

/-- PWR_OK_RISE (R62, R63, R68 step 5, R103, R415): straps sampled, spindle count from 0, the boot begins. -/
def execPwrOkRise (straps : BitVec 11) (s : State) : Res :=
  act (fun v m =>
    if m.power.rails = .regulated && !m.power.pwrOk then
      let n := straps.toNat
      let m := { m with power := { m.power with pwrOk := true }, spn := { m.spn with count := 0, running := true } }
      let m := (m.setReg Reg.glbStraps (BitVec.ofNat 64 (strapsInEffect n))).bootInit v
      let m := m.handOver
      let m := if strapsReserved n then
          let m := m.setBit Reg.glbStraps 31 true
          m.record 0x0002 (sourceOf 0 0) St.invalidField (payloadOf [(4, (m.reg Reg.glbStraps).toNat)])
        else m
      m.startBoot
    else m) s

/-- MOD_EN_FALL (R72): PWR_OK and WP# low, the off record written (0x01 after a completed quiesce, else 0x02), the
main rails off. A check in progress stops. The rails then stay off until R76 lets them start. -/
def execModEnFall (s : State) : Res :=
  act (fun v m =>
    let m := { m with power := { m.power.stopCheck with modEn := false } }
    if m.power.on then
      let m := if m.power.quiesce = .ready then m
        else m.writeOff 2
      let m := m.powerDown
      { m with power := { m.power with latchOther := true } }
    else m) s

/-- UNDERVOLTAGE_DETECT (R73): operations stop, PWR_OK and WP# drop, the rails run from the bulk. -/
def execUndervoltageDetect (mv : Nat) (s : State) : Res :=
  doing (fun m =>
    if mv < uvDetect then
      let m := m.supplyRecord 2 2
      let p := { m.power with vin := mv, offDue := none }
      if p.on then { m with power := { p with rails := .bulk, pwrOk := false, wpLow := 0xF } }
      else { m with power := p.stopCheck }
    else m) s

/-- BULK_DEPLETED (R73): the bulk reaches 36 V or a rail leaves regulation, and the main rails switch off. -/
def execBulkDepleted (s : State) : Res :=
  act (fun v m => if m.power.rails = .bulk then m.powerDown else m) s

/-- INPUT_RETURN (R64, R76): after an input loss that kept the standby rail, the input rises above lockout and the
rails may start again without a toggle of MOD_EN. -/
def execInputReturn (mv : Nat) (s : State) : Res :=
  doing (fun m =>
    if uvLockout ≤ mv then
      ({ m with power := { m.power with vin := mv, overvolt := decide (ovShutdown ≤ mv) } }).startCheck
    else m) s

/-- EMERG_OFF (R74): the main rails switch off on the firmware-free path; with the rails off, the latch is set and a
SUPPLY record of kind 7 written. -/
def execEmergOff (s : State) : Res :=
  act (fun v m =>
    let m := { m with power := { m.power.stopCheck with emergLow := true, latchEmerg := true } }
    if m.power.on then m.hardDown 6 else m.supplyRecord 9 7) s

/-- OVERVOLTAGE (R64, R74): as EMERG_OFF, with cause 0x07 and kind 3. -/
def execOvervoltage (mv : Nat) (s : State) : Res :=
  act (fun v m =>
    if ovShutdown ≤ mv then
      let m := { m with power := { m.power.stopCheck with vin := mv, overvolt := true, latchOv := true } }
      if m.power.on then m.hardDown 7 else m.supplyRecord 2 3
    else m) s

/-- JUNCTION_TRIP (R74, R80, R81): at 115 °C the rails switch off, THERMTRIP# latches, and a flow-loss sequence ends. -/
def execJunctionTrip (die : Fin 5) (temp : Nat) (s : State) : Res :=
  act (fun v m =>
    if 1150 ≤ temp && m.power.on then
      let m := m.thermalRecord (16 + die.val) 2 temp
      let m := m.hardDown 5
      let m := m.setReg Reg.glbCoolantTimer 0
      { m with power := { m.power with thermTrip := true, latchOther := true, flowTimer := false,
                                       deadlinePassed := m.power.deadlinePassed || m.power.flowTimer } }
    else m) s

/-- OFF_RECORD (R67, R74): the always-on domain writes the record of a firmware-free power-down. -/
def execOffRecord (s : State) : Res :=
  doing (fun m =>
    match m.power.offDue with
    | some c => if m.power.standby then { m with power := { m.power.writeOff c with offDue := none }, ftl := { m.ftl with savedTime := m.power.dueTime } } else m
    | none => m) s

/-- The glitch filter of MOD_RESET# passes a low (R61): from 1 µs always, below 900 ns never, between them as the
filter happens to act. -/
def resetPasses (m : Mach) (lowNs : Nat) : Bool :=
  decide (1000 ≤ lowNs) || (decide (900 ≤ lowNs) && m.drawn 4 % 2 = 1)

/-- MOD_RESET (R61, R67, R106): an off record with cause 0x09, then a warm reset. -/
def execModReset (lowNs : Nat) (s : State) : Res :=
  act (fun v m =>
    let pass := resetPasses m lowNs
    let m := m.draw
    if pass && m.power.pwrOk then (m.writeOff 9).warmReset v else m) s

/-- SVC_REQ (R83): the module starts to quiesce: it ends its part in running jobs and notifies the manager. -/
def execSvcReq (s : State) : Res :=
  act (fun v m =>
    let m := { m with power := { m.power with svcReq := true } }
    if m.power.pwrOk && m.power.quiesce = .none then
      ({ m with power := { m.power with quiesce := .running } }).quiesceJobs
    else m) s

/-- QUIESCE_COMPLETE (R83): the FTL is journaled, the off record written, WP# goes low and SVC_READY rises. -/
def execQuiesceComplete (s : State) : Res :=
  doing (fun m =>
    if m.power.quiesce = .running then
      let m := m.checkpoint.writeOff 1
      { m with power := { m.power with quiesce := .ready, wpLow := 0xF } }
    else m) s

/-- SVC_REQ_RELEASE (R84): abandons the quiesce or returns the module to service; the off record is withdrawn. -/
def execSvcReqRelease (s : State) : Res :=
  doing (fun m =>
    let p := { m.power with svcReq := false }
    match p.quiesce with
    | .none => { m with power := p }
    | .ready => { m with power := { p.withdrawOff with quiesce := .none, wpLow := m.wpMask } }
    | _ => { m with power := { p with quiesce := .none } }) s

/-- QUIESCE_TIMEOUT (R84): SVC_READY stays low and an event is recorded. -/
def execQuiesceTimeout (s : State) : Res :=
  doing (fun m =>
    if m.power.quiesce = .running then
      ({ m with power := { m.power with quiesce := .overrun } }).notice 0x0004 (sourceOf 0 0) 0 St.ok
    else m) s

/-- WAKE_IN (R60): a level wake request; a low shorter than 5 ms may or may not wake the module. -/
def execWakeIn (heldMs : Nat) (s : State) : Res :=
  doing (fun m =>
    let wakes := decide (5 ≤ heldMs) || m.drawn 5 % 2 = 1
    { m.draw with power := { m.power with wakeIn := m.power.wakeIn || wakes } }) s

/-- The registers of the standby set (R59): supply, coolant, strap and last-off readings; GLB_BOOT_STATUS too when
the boot has halted (03 R100). -/
def standbySet (halted : Bool) : List Nat :=
  [Reg.glbStraps, Reg.glbSupply, Reg.glbLastOff, Reg.glbCoolant, Reg.glbCoolantTimer] ++
    (if halted then [Reg.glbBootStatus] else [])

/-- Boot is complete in the sense of R59: STAGE is READY or TOOL_REST_READY. -/
def Mach.bootComplete (m : Mach) : Bool :=
  m.fld Reg.glbBootStatus 7 0 = 0x08 || m.fld Reg.glbBootStatus 7 0 = 0xFE

/-- MGMT_REQUEST (R59, R621, R623): served from the standby set before boot completes, and as NVMe-MI after it; no
answer without the standby rail. A write of STRAP_INVALID or of ALERT_PEND clears it (R63, 17 R618). -/
def execMgmtRequest (req : MgmtReq) (s : State) : Res :=
  act (fun v m =>
    if !m.power.standby then m else
    let stage := m.fld Reg.glbBootStatus 7 0
    match req with
    | .read off =>
      if (standbySet (decide (stage = 0xFF))).contains off.toNat then
        m.send (.mgmt St.ok (leBytes 4 (regRead v m off.toNat).toNat))
      else m.send (.mgmt St.unitAbsent [])
    | .write off val =>
      if off.toNat = Reg.glbStraps then
        (if val.getLsbD 31 then m.setBit Reg.glbStraps 31 false else m).send (.mgmt St.ok [])
      else m.send (.mgmt St.unitAbsent [])
    | .nvmeMi op => if m.bootComplete then m.nvmeMiReply op.toNat else m.send (.mgmt St.unitAbsent [])) s

/-- FLOW_LOSS_DETECT (R78): FLOW_LOSS set, FLOW_FAULT# and ALERT# low, a record, the manager notified, 150 W by the
cluster clocks, the timer at 10,000 ms. -/
def execFlowLossDetect (flow : Nat) (silent : Bool) (mhz : Nat) (s : State) : Res :=
  doing (fun m =>
    if m.power.standby && (silent || decide (flow < 900)) && !m.bit Reg.glbCoolant 29 then
      let m := m.setFlow (if silent then 0 else flow)
      let m := (m.setBit Reg.glbCoolant 29 true).setFld Reg.glbCoolantTimer 13 0 10000
      let m := (m.coolantRecord 0 St.coolant).notifyLast
      let m := { m with power := { m.power with flowTimer := true, deadlinePassed := false, limit150 := true } }
      m.setLimit 26 (List.range 32) (some mhz)
    else m) s

/-- FLOW_LOSS_DEADLINE (R76, R78): the emergency shutdown with cause 0x04, or the latch and a record when the rails are
already off. SHUTDOWN_LEFT reads 0 from then on. -/
def execFlowLossDeadline (s : State) : Res :=
  act (fun v m =>
    if !m.power.flowTimer then m else
    let m := m.setReg Reg.glbCoolantTimer 0
    let m := { m with power := { m.power with flowTimer := false, deadlinePassed := true, latchOther := true } }
    if m.power.on then
      (m.writeOff 4).powerDown
    else { m.coolantRecord 0 St.coolant with power := m.power.stopCheck }) s

/-- FLOW_RECOVERY (R79): 1 s of flow at or above 1.2 L/min clears FLOW_LOSS and, before the deadline, lifts the 150 W
limit; after it the shutdown stands. -/
def execFlowRecovery (flow : Nat) (s : State) : Res :=
  doing (fun m =>
    if m.bit Reg.glbCoolant 29 && decide (1200 ≤ flow) then
      let m := ((m.setFlow flow).setBit Reg.glbCoolant 29 false).setReg Reg.glbCoolantTimer 0
      let m := m.coolantRecord 0 St.ok
      let m := { m with power := { m.power with flowTimer := false, limit150 := false } }
      m.setLimit 26 (List.range 32) none
    else m) s

/-- INLET_HIGH (R80): above 40.0 °C INLET_HIGH is set and a COOLANT record written. -/
def execInletHigh (temp : Nat) (s : State) : Res :=
  doing (fun m =>
    if m.power.standby && decide (400 < temp) then
      let m := m.setInlet temp
      if m.bit Reg.glbCoolant 30 then m else (m.setBit Reg.glbCoolant 30 true).coolantRecord 1 St.coolant
    else m) s

/-- INLET_CLEAR (R80): at 40.0 °C or below INLET_HIGH clears. -/
def execInletClear (temp : Nat) (s : State) : Res :=
  doing (fun m =>
    if m.power.standby && decide (temp ≤ 400) then (m.setInlet temp).setBit Reg.glbCoolant 30 false else m) s

/-- The throttle temperature of STRAP_TLIMIT, 0.1 °C (R62). -/
def throttleTemp (tlimit : Nat) : Nat := 1050 - 50 * tlimit

/-- THROTTLE_START (R80, 04 R147): a junction sensor reaches the strap's temperature; the clusters' thermal limit is
set and a THERMAL record written. -/
def execThrottleStart (sensor : Nat) (temp mhz : Nat) (s : State) : Res :=
  doing (fun m =>
    if m.power.pwrOk && decide (throttleTemp (m.fld Reg.glbStraps 10 9) ≤ temp) &&
        !m.power.throttled.contains sensor then
      let m := m.thermalRecord sensor 0 temp
      let m := { m with power := { m.power with throttled := sensor :: m.power.throttled } }
      m.setLimit 24 (clustersOfSensor sensor) (some mhz)
    else m) s

/-- THROTTLE_END (R80): the junction falls below the throttle temperature and the thermal limit lifts, from every
cluster that no other throttling sensor limits. -/
def execThrottleEnd (sensor : Nat) (temp : Nat) (s : State) : Res :=
  doing (fun m =>
    if m.power.throttled.contains sensor && decide (temp < throttleTemp (m.fld Reg.glbStraps 10 9)) then
      let m := m.thermalRecord sensor 1 temp
      let rest := m.power.throttled.filter (fun x => x ≠ sensor)
      let m := { m with power := { m.power with throttled := rest } }
      m.setLimit 24 ((clustersOfSensor sensor).filter
        (fun c => !rest.any (fun x => (clustersOfSensor x).contains c))) none
    else m) s

/-- POWER_LIMIT_ENGAGE (R65): the cluster clocks are lowered to hold 950 W, and a SUPPLY record of kind 5 written. -/
def execPowerLimitEngage (mhz : Nat) (s : State) : Res :=
  doing (fun m =>
    if m.power.pwrOk && !m.power.limit950 then
      let m := m.supplyRecord 2 5
      ({ m with power := { m.power with limit950 := true } }).setLimit 25 (List.range 32) (some mhz)
    else m) s

/-- POWER_LIMIT_RELEASE (R65): the limit is lifted, and a SUPPLY record of kind 6 written. -/
def execPowerLimitRelease (s : State) : Res :=
  doing (fun m =>
    if m.power.limit950 then
      let m := m.supplyRecord 2 6
      ({ m with power := { m.power with limit950 := false } }).setLimit 25 (List.range 32) none
    else m) s

/-- SUPPLY_SAMPLE (R624): VIN and PIN are the mean of the samples so far, at most the last 100. -/
def execSupplySample (mv dw : Nat) (s : State) : Res :=
  doing (fun m =>
    if m.power.standby then
      let l := ((mv, dw) :: m.power.samples).take 100
      let m := { m with power := { m.power with samples := l, vin := mv } }
      (m.setFld Reg.glbSupply 15 0 (meanOf (l.map (fun p => p.1)))).setFld Reg.glbSupply 31 16
        (meanOf (l.map (fun p => p.2)))
    else m) s

/-- SENSOR_CALIBRATION (16 R577): a thermal sensor calibration starts or ends. -/
def execSensorCalibration (running : Bool) (s : State) : Res :=
  doing (fun m => if m.power.pwrOk then { m with power := { m.power with calibrating := running } } else m) s

end Sys2Proof.Machine
end

