-- ==== Sys2Proof/Machine/BootCmds.lean ====
section
/-!
DEFINITION. The meanings of the start-up, live-update and attestation commands (03_startup_and_trust.md).
-/
namespace Sys2Proof.Machine

/-! ### The boot (R98 to R103, R106, R107) -/

/-- CORES_RELEASE (R98, R103, R109): the attempt is counted, the measurements taken, the body copied and cores 0 to 7
released; CAUSE is read from the off records (02 R67) and the BOOT record written (17 R612). -/
def execCoresRelease (s : State) : Res :=
  act (fun v m =>
    match m.boot.chosen with
    | none => m
    | some i =>
      if m.fld Reg.glbBootStatus 7 0 ≠ 2 then m else
      let b := m.boot
      let b := if i < 2 then b.setSlot i { b.slot i with count := (b.slot i).count + 1 } else b
      let m := { m with boot := b }
      let m := m.measureData 0 (Config.measuredConst 0 ++ leBytes 1 b.fwMinSvn ++ leBytes 1 b.trMinSvn ++
        leBytes 1 b.revoked)
      let m := m.measureData (if i = 2 then 2 else 1) (b.image i).measured
      let m := m.measureData 3 (leBytes 4 (m.reg Reg.glbStraps).toNat ++ (capWords v).flatMap (leBytes 4))
      let cause := m.power.lastCause (decide (m.evr.bootCount ≤ 1))
      let m := m.setReg Reg.glbLastOff (BitVec.ofNat 64 cause)
      let m := { m with power := { m.power with offSinceBoot := false } }
      let m := (m.setFld Reg.glbBootStatus 11 8 i).setFld Reg.glbBootStatus 7 0 3
      let m := m.setFld Reg.glbCcStatus 7 0 0xFF
      let m := m.setReg Reg.glbFwVersion (BitVec.ofNat 64 (b.image i).version)
      m.bootRecord) s

/-- STAGE_READY (R98, R101, R103): pipeline queues accept entries, the slot is confirmed, the watchdog stops. -/
def execStageReady (s : State) : Res :=
  doing (fun m =>
    if m.fld Reg.glbBootStatus 7 0 ≠ 7 then m else
    let b := m.boot
    let b := match b.chosen with
      | some i => if i < 2 then b.setSlot i { b.slot i with state := .confirmed, count := 0 } else b
      | none => b
    { m with boot := { b with watchdog := false } }.setFld Reg.glbBootStatus 7 0 8) s

/-- BOOT_WATCHDOG (R101, R106): an off record with cause 0x0A, then a warm reset. -/
def execBootWatchdog (s : State) : Res :=
  act (fun v m =>
    if m.boot.watchdog && m.power.pwrOk then (m.writeOff 0x0A).warmReset v else m) s

/-- ROOT_OF_TRUST_FAULT (01 R33 to R35, GLB_CC_STATUS): the core halts; no key operation is served. -/
def execRootOfTrustFault (s : State) : Res :=
  doing (fun m => (m.setBit Reg.glbCcStatus 17 true).setBit Reg.glbCcStatus 16 false) s

/-! ### Firmware download and live update (R98, R112 to R115) -/

/-- NVMe statuses by name, status code type and status code. -/
def nvCommandSequence : Nat × Nat := (0x0, 0x0C)
def nvInvalidFirmwareSlot : Nat × Nat := (0x1, 0x06)
def nvInvalidFirmwareImage : Nat × Nat := (0x1, 0x07)
def nvConventionalReset : Nat × Nat := (0x1, 0x0B)
def nvActivationProhibited : Nat × Nat := (0x1, 0x13)

/-- FIRMWARE_IMAGE_DOWNLOAD (R98, R112, R115): slot 1 or 2 (A or B) becomes PENDING with count 0; slot 3 is Tool rest
and takes only an image of TYPE 0x0002, which no other slot takes. -/
def execFirmwareImageDownload (n : NvmeCtx) (slot : Fin 4) (image : List Byte) (s : State) : Res :=
  act (fun v m =>
    m.nvmeServe n ⟨true, true, false, false⟩ (fun m =>
      let typ := leAt image 6 2
      match m.boot.live with
      | some l =>
        if slot.val = l.slot + 1 then m.nvmeStd n nvCommandSequence.1 nvCommandSequence.2
        else if slot.val = 0 then m.nvmeStd n nvInvalidFirmwareSlot.1 nvInvalidFirmwareSlot.2
        else if (typ = 2) = (slot.val = 3) then
          (m.storeImage slot.val image).nvmeDone n St.ok []
        else m.nvmeStd n nvInvalidFirmwareImage.1 nvInvalidFirmwareImage.2
      | none =>
        if slot.val = 0 then m.nvmeStd n nvInvalidFirmwareSlot.1 nvInvalidFirmwareSlot.2
        else if (typ = 2) = (slot.val = 3) then
          (m.storeImage slot.val image).nvmeDone n St.ok []
        else m.nvmeStd n nvInvalidFirmwareImage.1 nvInvalidFirmwareImage.2)) s

/-- FIRMWARE_COMMIT (R112, R113, R115): action 011b starts a live update of a valid image of the running LIVE_COMPAT,
whose completion comes at its end; other actions check the image, which the next boot may choose. -/
def execFirmwareCommit (n : NvmeCtx) (slot : Fin 4) (action : Fin 8) (s : State) : Res :=
  act (fun v m =>
    m.nvmeServe n ⟨true, true, false, false⟩ (fun m =>
      if m.boot.live.isSome then m.nvmeStd n nvCommandSequence.1 nvCommandSequence.2
      else if slot.val = 0 then m.nvmeStd n nvInvalidFirmwareSlot.1 nvInvalidFirmwareSlot.2
      else
        let i := slot.val - 1
        let img := m.boot.image i
        match imageCheck m.boot (if i = 2 then 2 else 1) img with
        | some _ => m.nvmeStd n nvInvalidFirmwareImage.1 nvInvalidFirmwareImage.2
        | none =>
          if action.val ≠ 3 then m.nvmeDone n St.ok []
          else match m.boot.chosen with
            | some r =>
              if i = 2 || r = 2 || img.liveCompat ≠ (m.boot.image r).liveCompat then
                m.nvmeStd n nvConventionalReset.1 nvConventionalReset.2
              else { m with boot := { m.boot with live := some ⟨i, 7, [], n.port.val, n.cid.toNat⟩ } }
            | none => m.nvmeStd n nvConventionalReset.1 nvConventionalReset.2)) s

/-- A FW_UPDATE record: old and new VERSION and the failing core, 0xFF for none (17 R618, R633). -/
def Mach.fwUpdateRecord (m : Mach) (core old new failing : Nat) : Mach :=
  m.record 0x0003 (sourceOf 11 core) (if failing = 0xFF then St.ok else St.internal)
    (payloadOf [(8, old), (8, new), (1, failing), (3, 0)])

/-- LIVE_UPDATE_CORE (R113, R114): the next core, from 7 down to 0, takes the new body, with MEAS4 extended; a
failed self-check returns every updated core to the old image and marks the slot FAILED. At most one core is paused,
and only within this step (01 R36). -/
def execLiveUpdateCore (pass : Bool) (s : State) : Res :=
  doing (fun m =>
    match m.boot.live with
    | none => m
    | some l =>
      let old := (m.reg Reg.glbFwVersion).toNat
      let img := m.boot.image l.slot
      let ctx : NvmeCtx := ⟨if l.port = 0 then 0 else 1, 0, BitVec.ofNat 16 l.cid⟩
      let m := m.measureData 4 (leBytes 1 l.core ++ img.measured)
      if !pass then
        let sl := m.boot.slot l.slot
        let m := { m with boot := { m.boot.setSlot l.slot { sl with state := .failed } with live := none } }
        (m.fwUpdateRecord l.core old img.version l.core).nvmeStd ctx nvActivationProhibited.1 nvActivationProhibited.2
      else if l.core = 0 then
        let sl := m.boot.slot l.slot
        let m := { m with boot := { m.boot.setSlot l.slot { sl with state := .confirmed, count := 0 } with
                                      live := none, chosen := some l.slot } }
        let m := (m.setReg Reg.glbFwVersion (BitVec.ofNat 64 img.version)).setFld Reg.glbBootStatus 11 8 l.slot
        (m.fwUpdateRecord 0 old img.version 0xFF).nvmeDone ctx St.ok []
      else
        { m with boot := { m.boot with live := some { l with core := l.core - 1, updated := l.core :: l.updated } } }) s

/-! ### Attestation (R109 to R111) -/

/-- The nonce waiting for a port. -/
def Boot.nonce (b : Boot) (p : Nat) : Option (List Byte) := if p = 0 then b.nonce0 else b.nonce1

def Boot.setNonce (b : Boot) (p : Nat) (n : Option (List Byte)) : Boot :=
  if p = 0 then { b with nonce0 := n } else { b with nonce1 := n }

/-- SECURITY_SEND (R109, R111): protocol 0xF1 delivers a 32-byte nonce, with which MEAS7 is extended. -/
def execSecuritySend (n : NvmeCtx) (data : List Byte) (s : State) : Res :=
  act (fun v m =>
    m.nvmeServe n ⟨false, true, false, false⟩ (fun m =>
      if data.length = 32 then
        let m := m.measureData 7 data
        ({ m with boot := m.boot.setNonce n.port.val (some data) }).nvmeDone n St.ok []
      else m.nvmeDone n St.invalidField [])) s

/-- SECURITY_RECEIVE (R111): protocol 0xF1 returns the report made with the nonce; none waiting, ST_INVALID_FIELD. -/
def execSecurityReceive (n : NvmeCtx) (alloc : Nat) (s : State) : Res :=
  act (fun v m =>
    m.nvmeServe n ⟨false, true, false, false⟩ (fun m =>
      match m.boot.nonce n.port.val with
      | some x =>
        if m.bit Reg.glbCcStatus 17 then m.nvmeDone n St.internal [] else
        ({ m with boot := m.boot.setNonce n.port.val none }).nvmeDone n St.ok
          ((m.attestation (capWords v) x).take alloc)
      | none => m.nvmeDone n St.invalidField [])) s

/-- The protocol list (14 R502): 6 reserved bytes, the list's length most significant byte first, then the
supported protocols 0x00, 0xF1 and 0xF2. -/
def protocolList : List Byte := List.replicate 6 0 ++ beBytes 2 3 ++ [0x00, 0xF1, 0xF2]

/-- SECURITY_PROTOCOL_LIST (14 R502): protocol 0x00 lists the supported protocols. -/
def execSecurityProtocolList (n : NvmeCtx) (s : State) : Res :=
  act (fun v m =>
    m.nvmeServe n ⟨false, true, false, false⟩ (fun m => m.nvmeDone n St.ok protocolList)) s

end Sys2Proof.Machine
end

