-- ==== Sys2Proof/Machine/CodecCmds.lean ====
section
/-!
DEFINITION. Codec requests as commands (10 R362 to R366).
-/
namespace Sys2Proof.Machine

/-- CODEC (R362): A CODEC entry starts a compress, decompress or verify request as a job. -/
def execCodec (c : PipeCtx) (request : U64) (s : State) : Res :=
  act (fun v m => m.codecStart v c request.toNat) s

/-- CODEC_COMPLETE (R365): Every item finishes, and the request completes, or fails with ST_OUT_OVERFLOW. -/
def execCodecComplete (j : JobSlot) (s : State) : Res :=
  act (fun v m => m.codecComplete v j.val) s

end Sys2Proof.Machine
end

