-- ==== Sys2Proof/Machine/DcCmds.lean ====
section
/-!
DEFINITION. The decoded cache as commands (09 R344 to R351).
-/
namespace Sys2Proof.Machine

/-- DC_LOOKUP (R347): A serving module looks up a sample's key at its homes by local or YFT reads. -/
def execDcLookup (j : JobSlot) (epoch : U32) (pos : Nat) (index : Option (Nat × Nat)) (found : List (Option DcRemote)) (bad : List Nat) (flashBad : Bool) (s : State) : Res :=
  act (fun v m => m.dcLookup v j.val epoch.toNat pos index found bad flashBad) s

/-- DC_OFFER (R347): After a miss everywhere, the decoded entry is offered to each home's insert ring. -/
def execDcOffer (j : JobSlot) (epoch : U32) (pos : Nat) (payload : List Byte) (index : Option (Nat × Nat)) (bad : List Nat) (s : State) : Res :=
  act (fun v m => m.dcOffer v j.val epoch.toNat pos payload index bad) s

/-- DC_INSERT (R348): A home accepts or refuses an offer and publishes the payload, header and bucket. -/
def execDcInsert (peer : Option DcRemote) (s : State) : Res :=
  act (fun v m => m.dcInsert v peer) s

/-- SEGMENT_REUSE (R348): An unlinked segment becomes reusable 1 ms later with an advanced generation. -/
def execSegmentReuse (s : State) : Res :=
  doing (fun m => m.segmentReuse) s

end Sys2Proof.Machine
end

