-- ==== Sys2Proof/Machine/ScalarCmds.lean ====
section
/-!
DEFINITION. The scalar instructions, the moves to g registers, and the system instructions (05 R167 to R172, R193, R197, R198,
R201).
-/
namespace Sys2Proof.Machine

/-- An instruction command of a tile: what the scalar core issues, from the tile's registers. -/
def onTile (t : TileId) (i : Tile → TInstr) (s : State) : Res := act (fun v m => m.tileInstr v t.val i) s

/-- An instruction with a reserved field raises ILLEGAL (R165). -/
def legal (c : Bool) (i : TInstr) : TInstr := if c then i else .illegal

/-- ADD (R169): Scalar rd := rs1 + rs2 modulo 2^64. -/
def execAdd (t : TileId) (rd rs1 rs2 : GReg) (s : State) : Res :=
  onTile t (fun _ => .salu .add rd rs1 rs2) s

/-- SUB (R169): Scalar rd := rs1 - rs2 modulo 2^64. -/
def execSub (t : TileId) (rd rs1 rs2 : GReg) (s : State) : Res :=
  onTile t (fun _ => .salu .sub rd rs1 rs2) s

/-- AND (R169): Scalar bitwise AND. -/
def execAndI (t : TileId) (rd rs1 rs2 : GReg) (s : State) : Res :=
  onTile t (fun _ => .salu .and rd rs1 rs2) s

/-- OR (R169): Scalar bitwise OR. -/
def execOrI (t : TileId) (rd rs1 rs2 : GReg) (s : State) : Res :=
  onTile t (fun _ => .salu .or rd rs1 rs2) s

/-- XOR (R169): Scalar bitwise XOR. -/
def execXor (t : TileId) (rd rs1 rs2 : GReg) (s : State) : Res :=
  onTile t (fun _ => .salu .xor rd rs1 rs2) s

/-- SHL (R169): Scalar shift left. -/
def execShl (t : TileId) (rd rs1 rs2 : GReg) (s : State) : Res :=
  onTile t (fun _ => .salu .shl rd rs1 rs2) s

/-- SHR (R169): Scalar logical shift right. -/
def execShr (t : TileId) (rd rs1 rs2 : GReg) (s : State) : Res :=
  onTile t (fun _ => .salu .shr rd rs1 rs2) s

/-- SAR (R169): Scalar arithmetic shift right. -/
def execSar (t : TileId) (rd rs1 rs2 : GReg) (s : State) : Res :=
  onTile t (fun _ => .salu .sar rd rs1 rs2) s

/-- ROR (R169): Scalar rotate right. -/
def execRor (t : TileId) (rd rs1 rs2 : GReg) (s : State) : Res :=
  onTile t (fun _ => .salu .ror rd rs1 rs2) s

/-- SLT (R169): Scalar signed set-less-than. -/
def execSlt (t : TileId) (rd rs1 rs2 : GReg) (s : State) : Res :=
  onTile t (fun _ => .salu .slt rd rs1 rs2) s

/-- SLTU (R169): Scalar unsigned set-less-than. -/
def execSltu (t : TileId) (rd rs1 rs2 : GReg) (s : State) : Res :=
  onTile t (fun _ => .salu .sltu rd rs1 rs2) s

/-- MIN (R169): Scalar signed minimum. -/
def execMinI (t : TileId) (rd rs1 rs2 : GReg) (s : State) : Res :=
  onTile t (fun _ => .salu .min rd rs1 rs2) s

/-- MAX (R169): Scalar signed maximum. -/
def execMaxI (t : TileId) (rd rs1 rs2 : GReg) (s : State) : Res :=
  onTile t (fun _ => .salu .max rd rs1 rs2) s

/-- MINU (R169): Scalar unsigned minimum. -/
def execMinu (t : TileId) (rd rs1 rs2 : GReg) (s : State) : Res :=
  onTile t (fun _ => .salu .minu rd rs1 rs2) s

/-- MAXU (R169): Scalar unsigned maximum. -/
def execMaxu (t : TileId) (rd rs1 rs2 : GReg) (s : State) : Res :=
  onTile t (fun _ => .salu .maxu rd rs1 rs2) s

/-- MUL (R169): Scalar low 64 bits of the product. -/
def execMul (t : TileId) (rd rs1 rs2 : GReg) (s : State) : Res :=
  onTile t (fun _ => .salu .mul rd rs1 rs2) s

/-- MULH (R169): Scalar high 64 bits of the signed product. -/
def execMulh (t : TileId) (rd rs1 rs2 : GReg) (s : State) : Res :=
  onTile t (fun _ => .salu .mulh rd rs1 rs2) s

/-- MULHU (R169): Scalar high 64 bits of the unsigned product. -/
def execMulhu (t : TileId) (rd rs1 rs2 : GReg) (s : State) : Res :=
  onTile t (fun _ => .salu .mulhu rd rs1 rs2) s

/-- DIV (R170): Scalar signed division, with defined results for a divisor of zero and for overflow. -/
def execDiv (t : TileId) (rd rs1 rs2 : GReg) (s : State) : Res :=
  onTile t (fun _ => .salu .div rd rs1 rs2) s

/-- DIVU (R170): Scalar unsigned division. -/
def execDivu (t : TileId) (rd rs1 rs2 : GReg) (s : State) : Res :=
  onTile t (fun _ => .salu .divu rd rs1 rs2) s

/-- REM (R170): Scalar signed remainder. -/
def execRem (t : TileId) (rd rs1 rs2 : GReg) (s : State) : Res :=
  onTile t (fun _ => .salu .rem rd rs1 rs2) s

/-- REMU (R170): Scalar unsigned remainder. -/
def execRemu (t : TileId) (rd rs1 rs2 : GReg) (s : State) : Res :=
  onTile t (fun _ => .salu .remu rd rs1 rs2) s

/-- CLZ (R169): Scalar count of leading zeros. -/
def execClz (t : TileId) (rd rs1 rs2 : GReg) (s : State) : Res :=
  onTile t (fun _ => legal (rs2 = 0) (.salu .clz rd rs1 rs2)) s

/-- CTZ (R169): Scalar count of trailing zeros. -/
def execCtz (t : TileId) (rd rs1 rs2 : GReg) (s : State) : Res :=
  onTile t (fun _ => legal (rs2 = 0) (.salu .ctz rd rs1 rs2)) s

/-- POPC (R169): Scalar population count. -/
def execPopc (t : TileId) (rd rs1 rs2 : GReg) (s : State) : Res :=
  onTile t (fun _ => legal (rs2 = 0) (.salu .popc rd rs1 rs2)) s

/-- BSWAP (R169): Scalar byte swap. -/
def execBswap (t : TileId) (rd rs1 rs2 : GReg) (s : State) : Res :=
  onTile t (fun _ => legal (rs2 = 0) (.salu .bswap rd rs1 rs2)) s

/-- ADDI (R167): Scalar add of a sign-extended immediate. -/
def execAddi (t : TileId) (rd rs1 : GReg) (imm : BitVec 16) (s : State) : Res :=
  onTile t (fun _ => .saluImm .add rd rs1 (imm.signExtend 64)) s

/-- ANDI (R167): Scalar AND with a zero-extended immediate. -/
def execAndi (t : TileId) (rd rs1 : GReg) (imm : BitVec 16) (s : State) : Res :=
  onTile t (fun _ => .saluImm .and rd rs1 (imm.setWidth 64)) s

/-- ORI (R167): Scalar OR with a zero-extended immediate. -/
def execOri (t : TileId) (rd rs1 : GReg) (imm : BitVec 16) (s : State) : Res :=
  onTile t (fun _ => .saluImm .or rd rs1 (imm.setWidth 64)) s

/-- XORI (R167): Scalar XOR with a zero-extended immediate. -/
def execXori (t : TileId) (rd rs1 : GReg) (imm : BitVec 16) (s : State) : Res :=
  onTile t (fun _ => .saluImm .xor rd rs1 (imm.setWidth 64)) s

/-- The operation of SHI by IMM[7:6] (R167). -/
def shiOp (imm : BitVec 16) : SOp :=
  match bitsOf imm.toNat 7 6 with
  | 0 => .shl | 1 => .shr | 2 => .sar
  | _ => .ror

/-- SHI (R167): Scalar shift or rotate by an immediate. -/
def execShi (t : TileId) (rd rs1 : GReg) (imm : BitVec 16) (s : State) : Res :=
  onTile t (fun _ => legal (bitsOf imm.toNat 15 8 = 0) (.saluImm (shiOp imm) rd rs1 (BitVec.ofNat 64 (bitsOf imm.toNat 5 0)))) s

/-- LUI (R167): Scalar load of an upper immediate. -/
def execLui (t : TileId) (rd rs1 : GReg) (imm : BitVec 16) (s : State) : Res :=
  onTile t (fun _ => legal (rs1 = 0) (.saluImm .add rd 0 (imm.signExtend 64 <<< 16))) s

/-- SLTI (R167): Scalar signed compare with an immediate. -/
def execSlti (t : TileId) (rd rs1 : GReg) (imm : BitVec 16) (s : State) : Res :=
  onTile t (fun _ => .saluImm .slt rd rs1 (imm.signExtend 64)) s

/-- SLTIU (R167): Scalar unsigned compare with an immediate. -/
def execSltiu (t : TileId) (rd rs1 : GReg) (imm : BitVec 16) (s : State) : Res :=
  onTile t (fun _ => .saluImm .sltu rd rs1 (imm.signExtend 64)) s

/-- LI (R168): Long-form load of a 32-bit immediate into the low or high half. -/
def execLi (t : TileId) (rd : GReg) (high : Bool) (imm : BitVec 32) (s : State) : Res :=
  onTile t (fun _ => .li rd high imm) s

/-- BEQ (R171): Branch if equal. -/
def execBeq (t : TileId) (rs1 rs2 : GReg) (off : BitVec 16) (s : State) : Res :=
  onTile t (fun _ => .br .eq rs1 rs2 off) s

/-- BNE (R171): Branch if not equal. -/
def execBne (t : TileId) (rs1 rs2 : GReg) (off : BitVec 16) (s : State) : Res :=
  onTile t (fun _ => .br .ne rs1 rs2 off) s

/-- BLT (R171): Branch if signed less. -/
def execBlt (t : TileId) (rs1 rs2 : GReg) (off : BitVec 16) (s : State) : Res :=
  onTile t (fun _ => .br .lt rs1 rs2 off) s

/-- BGE (R171): Branch if signed greater or equal. -/
def execBge (t : TileId) (rs1 rs2 : GReg) (off : BitVec 16) (s : State) : Res :=
  onTile t (fun _ => .br .ge rs1 rs2 off) s

/-- BLTU (R171): Branch if unsigned less. -/
def execBltu (t : TileId) (rs1 rs2 : GReg) (off : BitVec 16) (s : State) : Res :=
  onTile t (fun _ => .br .ltu rs1 rs2 off) s

/-- BGEU (R171): Branch if unsigned greater or equal. -/
def execBgeu (t : TileId) (rs1 rs2 : GReg) (off : BitVec 16) (s : State) : Res :=
  onTile t (fun _ => .br .geu rs1 rs2 off) s

/-- JAL (R171): Jump and link. -/
def execJal (t : TileId) (rd : GReg) (off : BitVec 21) (s : State) : Res :=
  onTile t (fun _ => .jal rd off) s

/-- JALR (R171): Jump to a register and link. -/
def execJalr (t : TileId) (rd rs1 : GReg) (imm : BitVec 16) (s : State) : Res :=
  onTile t (fun _ => .jalr rd rs1 imm) s

/-- LOAD (R172): Scalar load from tile or cluster SRAM, with zero or sign extension. -/
def execLoad (t : TileId) (rd rs1 : GReg) (w : Fin 8) (off : BitVec 13) (s : State) : Res :=
  onTile t (fun _ => legal (w.val ≤ 6) (.load rd rs1 w off)) s

/-- STORE (R172): Scalar store to tile or cluster SRAM. -/
def execStore (t : TileId) (rd rs1 : GReg) (w : Fin 8) (off : BitVec 13) (s : State) : Res :=
  onTile t (fun _ => legal (w.val ≤ 3) (.store rd rs1 w off)) s

/-- CRC32CB (R193): Advance a CRC-32C state over 1 byte. -/
def execCrc32cb (t : TileId) (rd rs1 rs2 : GReg) (s : State) : Res :=
  onTile t (fun _ => .hash (.crc 1) rd rs1 rs2) s

/-- CRC32CH (R193): Advance a CRC-32C state over 2 bytes. -/
def execCrc32ch (t : TileId) (rd rs1 rs2 : GReg) (s : State) : Res :=
  onTile t (fun _ => .hash (.crc 2) rd rs1 rs2) s

/-- CRC32CW (R193): Advance a CRC-32C state over 4 bytes. -/
def execCrc32cw (t : TileId) (rd rs1 rs2 : GReg) (s : State) : Res :=
  onTile t (fun _ => .hash (.crc 4) rd rs1 rs2) s

/-- CRC32CD (R193): Advance a CRC-32C state over 8 bytes. -/
def execCrc32cd (t : TileId) (rd rs1 rs2 : GReg) (s : State) : Res :=
  onTile t (fun _ => .hash (.crc 8) rd rs1 rs2) s

/-- GHINIT (R193): Initialise a GH64 state. -/
def execGhinit (t : TileId) (rd rs1 rs2 : GReg) (s : State) : Res :=
  onTile t (fun _ => .hash .ghinit rd rs1 rs2) s

/-- GHSTEP (R193): Perform one GH64 word step. -/
def execGhstep (t : TileId) (rd rs1 rs2 : GReg) (s : State) : Res :=
  onTile t (fun _ => .hash .ghstep rd rs1 rs2) s

/-- GHFIN (R193): Finalise a GH64 state. -/
def execGhfin (t : TileId) (rd rs1 rs2 : GReg) (s : State) : Res :=
  onTile t (fun _ => .hash .ghfin rd rs1 rs2) s

/-- VTOG (R197): Move a vector lane to a g register. -/
def execVtog (t : TileId) (rd : GReg) (rs1 : VReg) (rs2 : GReg) (size : Fin 4) (s : State) : Res :=
  onTile t (fun _ => .vtog rd rs1 rs2 size) s

/-- CSRR (R197): Read a CSR. -/
def execCsrr (t : TileId) (rd : GReg) (n : Fin 32) (s : State) : Res :=
  onTile t (fun _ => .csrr rd n) s

/-- CSRW (R162): Write a CSR; writes to CYCLE or WUDESC raise ILLEGAL. -/
def execCsrw (t : TileId) (n : Fin 32) (rs1 : GReg) (s : State) : Res :=
  onTile t (fun _ => .csrw n rs1) s

/-- PRED_TO_G (R198): Copy a predicate register into a g register. -/
def execPredToG (t : TileId) (rs : GReg) (pa : PReg) (s : State) : Res :=
  onTile t (fun _ => .predToG rs pa) s

/-- PRED_POPC (R198): Count the set bits of a predicate into a g register. -/
def execPredPopc (t : TileId) (rs : GReg) (pa : PReg) (s : State) : Res :=
  onTile t (fun _ => .predPopc rs pa) s

/-- NOP (R201): SYS NOP does nothing. -/
def execNopI (t : TileId) (s : State) : Res :=
  onTile t (fun _ => .nop) s

/-- The DONE status that the instruction accepts (R201). -/
def doneStatus (n : Nat) : Bool := n = St.ok || n = St.checkFail || n = St.checkAbsent

/-- DONE (R201): Drain the engines, fence, and end the work unit with its status, making the entry DONE. -/
def execDone (t : TileId) (rs : GReg) (s : State) : Res :=
  onTile t (fun x => legal (doneStatus ((x.gr rs).toNat % 2 ^ 16)) (.done rs)) s

/-- TRAP (R201): Raise TRAP with a code. -/
def execTrap (t : TileId) (code : BitVec 16) (s : State) : Res :=
  onTile t (fun _ => .trap code) s

end Sys2Proof.Machine
end

