-- ==== Sys2Proof/Machine/EngineCmds.lean ====
section
/-!
DEFINITION. Synchronisation, enqueueing, and the Gouge and DMA descriptors (05 R199 to R203, 06 R214 to R217).
-/
namespace Sys2Proof.Machine

/-- WAIT (R214): Block until a sync object's count is at least 1, then decrement it. -/
def execWait (t : TileId) (e : Bool) (k : SyncId) (s : State) : Res :=
  onTile t (fun _ => if e then .vec (.wait k) else .wait k) s

/-- WAIT_RELEASE (R215): A blocked waiter is served by a signal and released 4 cycles later. -/
def execWaitRelease (t : TileId) (eng : Fin 5) (s : State) : Res :=
  act (fun v m => m.release v t.val eng) s

/-- SIGNAL (R214): Increment a sync object's count, saturating with OVF; fence audit may flag it. -/
def execSignal (t : TileId) (e : Bool) (k : SyncId) (s : State) : Res :=
  onTile t (fun _ => if e then .vec (.signal k) else .signal k) s

/-- TRYWAIT (R215): Decrement a sync object's count without blocking if possible, and report the result. -/
def execTrywait (t : TileId) (e : Bool) (k : SyncId) (rd : GReg) (s : State) : Res :=
  onTile t (fun _ => legal (!e) (.trywait k rd)) s

/-- FENCE (R199): Wait until earlier writes are visible, or earlier reads are complete, within the tile. -/
def execFence (t : TileId) (e r w : Bool) (s : State) : Res :=
  onTile t (fun _ => legal (r || w) (if e then .vec (.fence w r) else .fence w r)) s

/-- GQ (R200): Enqueue a 64-byte descriptor to the Gouge queue. -/
def execGq (t : TileId) (vs : VReg) (s : State) : Res :=
  onTile t (fun _ => .enq .gouge vs) s

/-- AQ (R200): Enqueue a descriptor to the AES-GCM queue. -/
def execAq (t : TileId) (vs : VReg) (s : State) : Res :=
  onTile t (fun _ => .enq .aes vs) s

/-- DQ (R200): Enqueue a descriptor to the DMA queue. -/
def execDq (t : TileId) (vs : VReg) (s : State) : Res :=
  onTile t (fun _ => .enq .dma vs) s

/-- GOUGE_HASH (R133): A Gouge HASH descriptor computes CRC-32C or GH64 over a range. -/
def execGougeHash (t : TileId) (s : State) : Res :=
  act (fun v m => m.runDesc v t.val .gouge 1 gougeHash) s

/-- GOUGE_LOOKUP (R137): A Gouge LOOKUP descriptor probes a bucketed hash table for up to 64 keys. -/
def execGougeLookup (t : TileId) (s : State) : Res :=
  act (fun v m => m.runDesc v t.val .gouge 2 gougeLookup) s

/-- GOUGE_LZEXEC (R134): A Gouge LZEXEC descriptor executes LZ sequences into an output window. -/
def execGougeLzexec (t : TileId) (s : State) : Res :=
  act (fun v m => m.runDesc v t.val .gouge 3 gougeLzexec) s

/-- GOUGE_HUFF (R133): A Gouge HUFF descriptor decodes canonical Huffman symbols. -/
def execGougeHuff (t : TileId) (s : State) : Res :=
  act (fun v m => m.runDesc v t.val .gouge 4 gougeHuff) s

/-- GOUGE_TANS (R133): A Gouge TANS descriptor decodes tANS streams. -/
def execGougeTans (t : TileId) (s : State) : Res :=
  act (fun v m => m.runDesc v t.val .gouge 5 gougeTans) s

/-- GOUGE_STEP (R135): A Gouge STEP descriptor steps DFA or pushdown automata over byte streams. -/
def execGougeStep (t : TileId) (s : State) : Res :=
  act (fun v m => m.runDesc v t.val .gouge 6 gougeStep) s

/-- DMA_COPY (R203): A DMA COPY descriptor copies between backed addresses, with an optional counter add. -/
def execDmaCopy (t : TileId) (s : State) : Res :=
  act (fun v m => m.runDesc v t.val .dma 1 dmaCopy) s

/-- DMA_FILL (R202): A DMA FILL descriptor repeats an 8-byte pattern over a destination. -/
def execDmaFill (t : TileId) (s : State) : Res :=
  act (fun v m => m.runDesc v t.val .dma 2 dmaFill) s

/-- DMA_COPY2D (R202): A DMA COPY2D descriptor copies rows with strides. -/
def execDmaCopy2d (t : TileId) (s : State) : Res :=
  act (fun v m => m.runDesc v t.val .dma 3 dmaCopy2d) s

/-- DMA_COUNT (R203): A DMA COUNT descriptor only adds to a completion counter. -/
def execDmaCount (t : TileId) (s : State) : Res :=
  act (fun v m => m.runDesc v t.val .dma 4 dmaCount) s

end Sys2Proof.Machine
end

