-- ==== Sys2Proof/Machine/FabCmds.lean ====
section
/-!
DEFINITION. Fabric ports as commands (13 R451 to R460).
-/
namespace Sys2Proof.Machine

/-- LINK_UP (R453): A fabric port's link comes up, sparing maps reset and SPARE_HELLO begins. -/
def execLinkUp (p : Port) (app : Bool) (s : State) : Res :=
  act (fun v m => m.fabLinkUp v p.val app) s

/-- LINK_DOWN (R453): A fabric port's link goes down, and its paths are marked bad. -/
def execLinkDown (p : Port) (s : State) : Res :=
  doing (fun m => m.fabLinkDown p.val) s

/-- BRINGUP_RETRY (R453): A down port retries bring-up every 100 ms. -/
def execBringupRetry (p : Port) (active app : Bool) (s : State) : Res :=
  act (fun v m => if active then m.fabLinkUp v p.val app else m) s

/-- SPARE_HELLO (R454): The partner's answer to SPARE_HELLO sets PARTNER. -/
def execSpareHello (p : Port) (s : State) : Res :=
  doing (fun m => m.gotHelloAnswer p.val) s

/-- LANE_DEGRADE (R455): A lane's BER stays above threshold for 1 s or it loses lock or signal, and a swap is requested. -/
def execLaneDegrade (p : Port) (lane : Fin 9) (s : State) : Res :=
  doing (fun m => m.askSwap p.val lane.val) s

/-- SPARE_REQ (R455): The transmitter receives SPARE_REQ, acknowledges and mirrors the lane onto lane 8. -/
def execSpareReq (p : Port) (lane : Fin 9) (s : State) : Res :=
  doing (fun m => m.gotSpareReq p.val lane.val) s

/-- SPARE_ACK (R455): The receiver locks lane 8, switches at an alignment marker and sends SPARE_DONE. -/
def execSpareAck (p : Port) (s : State) : Res :=
  doing (fun m => m.gotSpareAck p.val) s

/-- SPARE_DONE (R455): The transmitter turns the failed lane off and records the swap. -/
def execSpareDone (p : Port) (s : State) : Res :=
  doing (fun m => m.gotSpareDone p.val) s

/-- SPARE_ABANDON (R457): No SPARE_ACK within 1 ms abandons the swap, to be repeated after 1 s. -/
def execSpareAbandon (p : Port) (s : State) : Res :=
  doing (fun m => m.spareAbandon p.val) s

/-- REQ (R455): Writing REQ requests a swap of the receive lane REQ_LANE. -/
def execReq (p : Port) (s : State) : Res :=
  doing (fun m => m.fabReq p.val) s

/-- REVERT (R457): Writing REVERT returns the spared lane to service make-before-break. -/
def execRevert (p : Port) (s : State) : Res :=
  doing (fun m => m.fabRevert p.val) s

/-- CMIS_POLL (R458): The optical-engine monitors are read every 100 ms. -/
def execCmisPoll (p : Port) (r : OeReading) (s : State) : Res :=
  doing (fun m => m.cmisPoll p.val r) s

/-- OE_INTERRUPT (R458): OEn_INTL falls, and the latched flags are read within 1 ms. -/
def execOeInterrupt (p : Port) (lanes : List Nat) (s : State) : Res :=
  doing (fun m => m.oeFlags p.val lanes) s

/-- OE_REMOVAL (R458): OEn_PRSL goes high, and the port goes down at once. -/
def execOeRemoval (p : Port) (s : State) : Res :=
  doing (fun m => m.oeRemoved p.val) s

/-- OE_INSERTION (R458): An engine is inserted and reset at the next enable. -/
def execOeInsertion (p : Port) (s : State) : Res :=
  doing (fun m => m.oeInserted p.val) s

/-- MARGIN_SWEEP (R460): Every MARGIN_S seconds each receive lane's margin is swept. -/
def execMarginSweep (p : Port) (l : List (Nat × Nat × Nat)) (s : State) : Res :=
  doing (fun m => m.marginSweep p.val l) s

/-- SWAP_REPEAT (R457): One second after a swap was abandoned, the receiver repeats its SPARE_REQ. -/
def execSwapRepeat (p : Port) (s : State) : Res :=
  doing (fun m => m.swapRepeat p.val) s

/-- NON_YFT_FRAME (R452): A received PAUSE, PFC or other non-YFT frame is discarded and counted in PAUSE_DISC or OTHER_DISC. -/
def execNonYftFrame (p : Port) (pause : Bool) (s : State) : Res :=
  doing (fun m => m.otherFrame p.val pause) s

end Sys2Proof.Machine
end

