-- ==== Sys2Proof/Machine/FlashCmds.lean ====
section
/-!
DEFINITION. The flash translation layer as commands (15 R537 to R568, 03 R103, R116, R117).
-/
namespace Sys2Proof.Machine

/-- CARRIER_PG_FALL (R563): A carrier's CARRIER_PG falls, so its channels read absent, WP# goes low and reads fail. -/
def execCarrierPgFall (n : Fin 4) (s : State) : Res :=
  doing (fun m => m.carrierFall n.val) s

/-- CARRIER_PG_RISE (R563): CARRIER_PG rises again, the channels are recalibrated and the carrier is re-mounted if its set matches. -/
def execCarrierPgRise (info : CarrierInfo) (s : State) : Res :=
  doing (fun m => m.carrierRise info) s

/-- FTL_MOUNT (R558): The flash is mounted: carriers are adopted, the journal is replayed, open superblocks are closed and a checkpoint is taken. -/
def execFtlMount (info : MountInfo) (s : State) : Res :=
  doing (fun m => m.ftlMount info) s

/-- ADOPT_SEL (R117): A write of ADOPT_SEL chooses a module set, whose carriers are then mounted. -/
def execAdoptSel (w : Writer) (sel : Fin 16) (s : State) : Res :=
  doing (fun m => m.adoptSel w sel.val) s

/-- FLASH_READ (R546): A NAND read completes through the threshold ladder, or fails with ST_MEDIA_UNRECOVERABLE. -/
def execFlashRead (sb : Nat) (step : Fin 9) (half : Bool) (nsid unit : Nat) (s : State) : Res :=
  doing (fun m => m.flashRead sb step.val half nsid unit) s

/-- FLASH_PROGRAM_FAIL (R538): A failed program reprograms the unit elsewhere and retires the block. -/
def execFlashProgramFail (sb : Nat) (block : U64) (s : State) : Res :=
  doing (fun m => m.programFail false sb block.toNat) s

/-- FOLD (R539): Valid SLC units are folded into a native superblock, verified and journaled. -/
def execFold (verify : Bool) (s : State) : Res :=
  doing (fun m => m.foldStep verify) s

/-- GC_COLLECT (R551): A victim superblock is copied, journaled, erased and freed. -/
def execGcCollect (bad : List (Nat × Nat)) (fails : Bool) (s : State) : Res :=
  doing (fun m => m.gcStep bad fails) s

/-- JOURNAL_PAGE_PROGRAM (R555): A full journal page, or one 20 µs old, is programmed on the mirrors. -/
def execJournalPageProgram (s : State) : Res :=
  doing (fun m => m.journalPage) s

/-- CHECKPOINT (R556): Dirty map pages and the directory are written and the anchor is updated. -/
def execCheckpoint (s : State) : Res :=
  doing (fun m => if m.ftl.mounted then m.checkpoint else m) s

/-- CHANNEL_RECAL (R561): An ONFI channel is recalibrated live, and fails the channel after two failures. -/
def execChannelRecal (chan : Fin 32) (trig : Fin 4) (pass : Bool) (s : State) : Res :=
  act (fun v m => m.channelRecal v chan.val trig.val pass) s

/-- FLM_RECAL_REQ (R561): Writing a bit requests a recalibration of a channel. -/
def execFlmRecalReq (w : Writer) (bits : U32) (s : State) : Res :=
  act (fun v m => m.recalReq v w bits.toNat) s

/-- DIE_FAILURE (R562): A die stops responding and its superblocks are queued for evacuation. -/
def execDieFailure (chan : Fin 32) (die : Fin 32) (s : State) : Res :=
  doing (fun m => m.dieFails chan.val die.val) s

/-- MEDIA_TIME_TICK (R544): The media time advances by one second. -/
def execMediaTimeTick (s : State) : Res :=
  doing (fun m => if m.power.pwrOk then m.addFld Reg.flmMediaTime 63 0 1 else m) s

/-- FLM_MEDIA_TIME (R544): A write sets the media time and clears TIME_UNCERTAIN. -/
def execFlmMediaTime (w : Writer) (val : U64) (s : State) : Res :=
  doing (fun m => m.writeMediaTime val.toNat) s

/-- FLM_STORED_CFG (R568): A write stores MAPCACHE_GIB and SLC_PCT in NOR for the next boot. -/
def execFlmStoredCfg (w : Writer) (val : U32) (s : State) : Res :=
  doing (fun m => m.writeStoredCfg w val.toNat) s

end Sys2Proof.Machine
end

