-- ==== Sys2Proof/Machine/JobCmds.lean ====
section
/-!
DEFINITION. Jobs as commands: start, launch, units, batches, records and release (04 R145, 06 R230, 08, 12 R438, 14 R523 to R525).
-/
namespace Sys2Proof.Machine

/-- JOB_START (R523): A JOB_START pipeline entry starts a standalone or multi-module job. -/
def execJobStart (c : PipeCtx) (image len launch list : U64) (count : U16) (s : State) : Res :=
  act (fun v m => m.jobStart v c image.toNat len.toNat launch.toNat list.toNat count.toNat) s

/-- LAUNCH (R438): The spindle count reaches LAUNCH and the job starts running. -/
def execLaunch (j : JobSlot) (s : State) : Res :=
  doing (fun m => m.launchJob j.val) s

/-- JOB_CANCEL (R525): A JOB_CANCEL entry cancels a job slot, subject to ownership. -/
def execJobCancel (c : PipeCtx) (slot : Byte) (s : State) : Res :=
  doing (fun m => m.jobCancel c slot.toNat) s

/-- TABLE_SET_LOADED (R145): A serving cluster finishes loading a job's table set and may take its first work unit. -/
def execTableSetLoaded (c : ClusterId) (j : JobSlot) (s : State) : Res :=
  doing (fun m => m.tableLoaded c.val j.val) s

/-- ENTRY_PLACE (R230): The control complex writes a work-unit entry into a queue as WAITING or READY. -/
def execEntryPlace (toDie : Bool) (n : Fin 32) (bytes : List Byte) (slotLen : Nat) (rows frees : List Nat) (kind : UnitKind) (s : State) : Res :=
  act (fun v m => m.entryPlace v toDie n.val bytes slotLen rows frees kind) s

/-- ENTRY_COLLECT (R230): The control complex collects a DONE entry, reads its mailboxes and frees the buffers the plan names. -/
def execEntryCollect (onDie : Bool) (q : Fin 32) (pos : Nat) (report : UnitReport) (s : State) : Res :=
  act (fun v m => (m.entryCollect v (if onDie then .die q.val pos else .cluster q.val pos) report).settleDigests) s

/-- SAMPLE_FETCH (R37): A sample's record extent is fetched through the FTL or by a YFT read into a pool buffer. -/
def execSampleFetch (j : JobSlot) (epoch : U32) (pos : Nat) (ns : Nat) (remote : Option RemoteRead) (bad : List Nat) (s : State) : Res :=
  act (fun v m => m.sampleFetch v j.val epoch.toNat pos ns remote bad) s

/-- BATCH_START (R304): Work for batch k starts once batch k-D has finished its emission. -/
def execBatchStart (k : Fin 68) (s : State) : Res :=
  doing (fun m => m.batchStart k.val) s

/-- BATCH_EMIT (R305): The batch begins emission once written, in order and due, late if needed, updating the digest. -/
def execBatchEmit (k : Fin 68) (s : State) : Res :=
  act (fun v m => (m.batchEmit v k.val).settleDigests) s

/-- RECORD_EMIT (R307): An unordered record is emitted as soon as its work unit completes. -/
def execRecordEmit (j : JobSlot) (epoch : U32) (pos : Nat) (s : State) : Res :=
  doing (fun m => (m.recordEmit j.val epoch.toNat pos).settleDigests) s

/-- JOB_RELEASE (R312): An ended job's last emission finishes, its slot and resources are freed, and the END completion is posted. -/
def execJobRelease (j : JobSlot) (s : State) : Res :=
  act (fun v m => m.releaseSlot v j.val) s

/-- AUG_READY (R338): A write of AUG_READY hands augmentation ring slots to the module or is discarded. -/
def execAugReady (w : Writer) (j : JobSlot) (val : U32) (s : State) : Res :=
  doing (fun m => m.writeAugReady w j.val val.toNat) s

end Sys2Proof.Machine
end

