-- ==== Sys2Proof/Machine/KeyCmds.lean ====
section
/-!
DEFINITION. The key store, its migration and the AES-GCM descriptors as commands (10 R373 to R375, 03 R119, R120, 04 R131, R132).
-/
namespace Sys2Proof.Machine

/-- AES_DECRYPT (R132): The AES-GCM lane decrypts and checks the tag, zeroing its destination on a mismatch. -/
def execAesDecrypt (t : TileId) (s : State) : Res :=
  act (fun v m => m.runDesc v t.val .aes 1 aesDecrypt) s

/-- AES_ENCRYPT (R131): The AES-GCM lane encrypts and appends the tag. -/
def execAesEncrypt (t : TileId) (s : State) : Res :=
  act (fun v m => m.runDesc v t.val .aes 2 aesEncrypt) s

/-- KEY_CREATE (R373): Generate a key with its policy, flags and signer in the key store. -/
def execKeyCreate (n : NvmeCtx) (policy : Byte) (flags : U16) (signer : List Byte) (s : State) : Res :=
  doing (fun m => m.nvmeServe n .owner (fun m => m.keyCreate n policy.toNat flags.toNat signer)) s

/-- KEY_IMPORT (R373): Import an encapsulated key into the key store. -/
def execKeyImport (n : NvmeCtx) (policy : Byte) (flags : U16) (signer kem iv ct tag : List Byte) (s : State) : Res :=
  doing (fun m => m.nvmeServe n .owner (fun m => m.keyImport n policy.toNat flags.toNat signer kem iv ct tag)) s

/-- KEY_NARROW (R373): Narrow a key's POLICY. -/
def execKeyNarrow (n : NvmeCtx) (h : U64) (policy : Byte) (s : State) : Res :=
  doing (fun m => m.nvmeServe n .owner (fun m => m.keyNarrow n h.toNat policy.toNat)) s

/-- KEY_REVOKE (R375): Revoke a key, which clears job tables and lane caches and fails the jobs that hold it. -/
def execKeyRevoke (n : NvmeCtx) (h : U64) (s : State) : Res :=
  doing (fun m => m.nvmeServe n .owner (fun m => m.keyRevoke n h.toNat)) s

/-- KEY_DESTROY (R373): Erase a revoked key and free its ID. -/
def execKeyDestroy (n : NvmeCtx) (h : U64) (s : State) : Res :=
  doing (fun m => m.nvmeServe n .owner (fun m => m.keyDestroy n h.toNat)) s

/-- KEY_LIST (R373): Return every key record without its material. -/
def execKeyList (n : NvmeCtx) (s : State) : Res :=
  doing (fun m => m.nvmeServe n .owner (fun m => m.keyList n)) s

/-- KEY_REQUEST (R119): A replacement sets KEYS_PENDING and requests keys from the source over the fabric. -/
def execKeyRequest (source : Nat) (s : State) : Res :=
  doing (fun m => m.keyRequest source) s

/-- MIGRATION_NONCE (R119): The source sends the nonce, and the replacement answers with its certificate and attestation report. -/
def execMigrationNonce (dst : Option Nat) (nonce : List Byte) (s : State) : Res :=
  act (fun v m => m.migNonce v dst nonce) s

/-- MIGRATION_ATTESTATION (R119): The source checks the certificate, report, MEAS1 and SVN, and then sends the sealed key store. -/
def execMigrationAttestation (cert report : List Byte) (node : Nat) (esc : Option Nat) (s : State) : Res :=
  doing (fun m => m.migAttest cert report node esc) s

/-- MIGRATION_PACKAGE (R120): The replacement opens and checks the package, wraps the keys, updates the carriers and returns a receipt. -/
def execMigrationPackage (package : MigPackage) (s : State) : Res :=
  doing (fun m => m.migPackage package) s

/-- MIGRATION_RECEIPT (R120): The predecessor receives the receipt and erases its own key store. -/
def execMigrationReceipt (receipt : List Byte) (s : State) : Res :=
  doing (fun m => m.migReceipt receipt) s

end Sys2Proof.Machine
end

