-- ==== Sys2Proof/Machine/SlotErr.lean ====
section
/-!
DEFINITION. Uncorrectable errors in context slots (07 R276, 13 R469).
-/
namespace Sys2Proof.Machine

/-- The session that a generation-sequence slot belongs to. -/
def Mach.slotSession (m : Mach) (ref : Nat) : Option Nat :=
  (m.jobs.slots.find? (fun p => match p.2.sess? with | some s => (s.seq? ref).isSome | none => false)).map (fun p => p.1)

/-- The outcome of R276 by KIND; a cursor that cannot be rebuilt fails its job. -/
def Mach.slotError (v : Variant) (m : Mach) (s : Nat) : Mach :=
  let x := m.slot s
  let ref := ctxRef s x.gen
  let m := m.setSlot s { x with flags := x.flags ||| 2 }
  let m := m.setReg Reg.ctxErr (BitVec.ofNat 64 (2 ^ 31 + s))
  match x.kind with
  | 1 => if m.intact then m.draw else m.draw.jobFail (x.owner - 0x10) St.internal
  | 2 =>
    match m.slotSession ref with
    | some j =>
      let r : SeqResult := .of St.internal fEnded [] []
      match m.finishSeq v j ref r with
      | some m => m
      | none => m.endSeq j ref St.internal fEnded
    | none => m
  | 3 => m.queueError v ref St.internal
  | _ => m

/-- CTX_MISS_FILL: the slot's read completes; a word with an uncorrectable error is met then. -/
def Mach.slotFilled (v : Variant) (m : Mach) (s : Nat) : Mach :=
  if m.mem.ways.any (fun w => w.slot = s && w.filling) then
    let m := m.ctxFill s
    match m.ueHit v (m.fld (Reg.memCarveBase 0) 47 0 + s * 256) 256 with
    | some w => ((m.eccUe v false w St.internal 4).wordGood w).slotError v s
    | none => m
  else m

end Sys2Proof.Machine
end

