-- ==== Sys2Proof/Machine/MemCmds.lean ====
section
/-!
DEFINITION. GDDR7 channels, buffer pools and the context table as commands (07 R247, R254 to R277, 03 R103).
-/
namespace Sys2Proof.Machine

/-- REFRESH (R247): A per-bank GDDR7 refresh is performed at its interval. -/
def execRefresh (dev : Fin 16) (bank : Nat) (s : State) : Res :=
  doing (fun m => m) s

/-- RETRAIN_START (R254): A retraining trigger starts the live retraining of a GDDR7 channel within the concurrency limits. -/
def execRetrainStart (chan : Fin 64) (trig : Fin 4) (s : State) : Res :=
  act (fun v m => m.retrainStart v chan.val trig.val) s

/-- RETRAIN_END (R255): The retraining ends, held accesses resume, or the channel is degraded or taken out of service. -/
def execRetrainEnd (chan : Fin 64) (pass : Bool) (s : State) : Res :=
  doing (fun m => m.retrainEnd chan.val pass) s

/-- MEM_RETRAIN_REQ (R254): Writing a bit of MEM_RETRAIN_REQ requests a retraining of that channel. -/
def execMemRetrainReq (w : Writer) (bits : U64) (s : State) : Res :=
  act (fun v m => m.retrainReq v w bits.toNat) s

/-- MEM_HOST_LIMIT (R628): A write of LIMIT while the MEM block is idle moves the host and module areas or is refused. -/
def execMemHostLimit (w : Writer) (val : U64) (s : State) : Res :=
  doing (fun m => m.hostLimit w val.toNat) s

/-- ALLOC (R265): A buffer allocation is served from the Chuck, waits, or fails with ST_POOL_EMPTY. -/
def execAlloc (u : Requester) (owner size : Nat) (s : State) : Res :=
  doing (fun m => m.alloc u owner size) s

/-- FREE (R262): A buffer free is checked, and the handle is returned with a new GEN or refused. -/
def execFree (u : Requester) (owner : Nat) (handle : U32) (s : State) : Res :=
  doing (fun m => m.freeBuf u owner handle.toNat) s

/-- CHUCK_REFILL (R260): A ring read of 128 handles lands in the Chuck. -/
def execChuckRefill (k : Fin 8) (s : State) : Res :=
  doing (fun m => m.chuckRefill k.val) s

/-- POOL_ENABLE (R269): Writing ENABLE 1 checks the pool's areas and fills its ring, state table and Chuck. -/
def execPoolEnable (w : Writer) (k : Fin 8) (count : BitVec 25) (s : State) : Res :=
  doing (fun m => m.poolEnable w k.val count.toNat) s

/-- POOL_DISABLE (R269): Writing ENABLE 0 clears READY and discards the ring. -/
def execPoolDisable (w : Writer) (k : Fin 8) (count : BitVec 25) (s : State) : Res :=
  doing (fun m => m.poolDisable w k.val count.toNat) s

/-- CTX_CREATE (R271): A context slot is created for a shard cursor, sequence or YFT queue. -/
def execCtxCreate (kind : Fin 3) (owner : U16) (body : List Byte) (s : State) : Res :=
  act (fun v m => m.ctxMake v (kind.val + 1) owner.toNat body) s

/-- CTX_FREE (R271): A context slot is freed, and its GEN advances. -/
def execCtxFree (ref : U32) (s : State) : Res :=
  act (fun v m => m.ctxDrop v ref.toNat) s

/-- CTX_CHECKOUT (R274): A unit checks a slot out of the context cache, waiting on contention. -/
def execCtxCheckout (unit : Nat) (ref : U32) (pin : Bool) (s : State) : Res :=
  act (fun v m => m.ctxAsk v unit ref.toNat pin) s

/-- CTX_MISS_FILL (R274): A missed slot's GDDR7 read completes, and a victim is written back. -/
def execCtxMissFill (slot : BitVec 18) (s : State) : Res :=
  act (fun v m => m.slotFilled v slot.toNat) s

/-- CTX_CHECKIN (R274): A unit checks a slot back in. -/
def execCtxCheckin (unit : Nat) (slot : BitVec 18) (body : Option (List Byte)) (unpin : Bool) (s : State) : Res :=
  act (fun v m => m.ctxIn v unit slot.toNat body unpin) s

/-- CTX_FLUSH (R277): Writing FLUSH writes every dirty slot back to GDDR7. -/
def execCtxFlush (w : Writer) (s : State) : Res :=
  act (fun v m => m.ctxFlush v w) s

/-- CTX_FLUSH_COMPLETE (R277): The last dirty slot of a context-cache flush is written back and BUSY returns to 0. -/
def execCtxFlushComplete (s : State) : Res :=
  doing (fun m => m.ctxFlushEnd) s

/-- GDDR7_READY (R627): GDDR7 is trained, zero-filled and carved, and STAGE moves to 0x05. -/
def execGddr7Ready (s : State) : Res :=
  act (fun v m => m.gddrReady v) s

end Sys2Proof.Machine
end

