-- ==== Sys2Proof/Machine/NvmeCmds.lean ====
section
/-!
DEFINITION. NVMe commands (14 R501 to R518).
-/
namespace Sys2Proof.Machine

/-- CREATE_IO_SQ (R501): NVMe Create I/O Submission Queue. -/
def execCreateIoSq (n : NvmeCtx) (qid size cqid : Nat) (s : State) : Res :=
  doing (fun m => m.nvmeServe n .admin (fun m => m.createSq n qid size cqid)) s

/-- DELETE_IO_SQ (R501): NVMe Delete I/O Submission Queue. -/
def execDeleteIoSq (n : NvmeCtx) (qid : Nat) (s : State) : Res :=
  doing (fun m => m.nvmeServe n .admin (fun m => m.deleteSq n qid)) s

/-- CREATE_IO_CQ (R501): NVMe Create I/O Completion Queue. -/
def execCreateIoCq (n : NvmeCtx) (qid size vector : Nat) (ien : Bool) (s : State) : Res :=
  doing (fun m => m.nvmeServe n .admin (fun m => m.createCq n qid size vector ien)) s

/-- DELETE_IO_CQ (R501): NVMe Delete I/O Completion Queue. -/
def execDeleteIoCq (n : NvmeCtx) (qid : Nat) (s : State) : Res :=
  doing (fun m => m.nvmeServe n .admin (fun m => m.deleteCq n qid)) s

/-- GET_LOG_PAGE (R505): Return a log page, event records included. -/
def execGetLogPage (n : NvmeCtx) (lid : Byte) (off len : Nat) (s : State) : Res :=
  doing (fun m => m.nvmeServe n ⟨false, true, true, false⟩ (fun m => m.getLog n lid.toNat off len)) s

/-- IDENTIFY (R502): Return an Identify data structure. -/
def execIdentify (n : NvmeCtx) (cns : Byte) (nsid : U32) (s : State) : Res :=
  doing (fun m => m.nvmeServe n ⟨false, true, true, false⟩ (fun m => m.identify n cns.toNat nsid.toNat)) s

/-- ABORT (R502): Abort a command that has not started. -/
def execAbort (n : NvmeCtx) (qid : Nat) (cid : U16) (s : State) : Res :=
  doing (fun m => m.nvmeServe n .admin (fun m => m.abortCmd n qid cid.toNat)) s

/-- SET_FEATURES (R504): Set a supported feature, owner-only where marked. -/
def execSetFeatures (n : NvmeCtx) (fid : Byte) (val : U32) (hostId : List Byte) (s : State) : Res :=
  doing (fun m => m.nvmeServe n .admin (fun m => m.setFeature n fid.toNat val.toNat hostId)) s

/-- GET_FEATURES (R504): Return a feature's value. -/
def execGetFeatures (n : NvmeCtx) (fid : Byte) (s : State) : Res :=
  doing (fun m => m.nvmeServe n .admin (fun m => m.getFeature n fid.toNat)) s

/-- ASYNC_EVENT_REQUEST (R502): Post an asynchronous event request, up to 8 outstanding. -/
def execAsyncEventRequest (n : NvmeCtx) (s : State) : Res :=
  doing (fun m => m.nvmeServe n .admin (fun m => m.aer n)) s

/-- NAMESPACE_CREATE (R506): Create a namespace with its IU, kind and key at the lowest free NSID. -/
def execNamespaceCreate (n : NvmeCtx) (nsze : U64) (lbaf : Fin 16) (iu kind : Byte) (key : U64) (rsvd : Bool) (s : State) : Res :=
  doing (fun m => m.nvmeServe n .owner (fun m => m.nsCreate n nsze.toNat lbaf.val iu.toNat kind.toNat key.toNat rsvd)) s

/-- NAMESPACE_DELETE (R502): Delete a namespace. -/
def execNamespaceDelete (n : NvmeCtx) (nsid : U32) (s : State) : Res :=
  doing (fun m => m.nvmeServe n .owner (fun m => m.nsDelete n nsid.toNat)) s

/-- NAMESPACE_ATTACH (R502): Attach a namespace to a controller. -/
def execNamespaceAttach (n : NvmeCtx) (nsid : U32) (ports : List Port) (s : State) : Res :=
  doing (fun m => m.nvmeServe n .owner (fun m => m.nsAttach n nsid.toNat (ports.map (fun p => p.val)) true)) s

/-- NAMESPACE_DETACH (R502): Detach a namespace from a controller. -/
def execNamespaceDetach (n : NvmeCtx) (nsid : U32) (ports : List Port) (s : State) : Res :=
  doing (fun m => m.nvmeServe n .owner (fun m => m.nsAttach n nsid.toNat (ports.map (fun p => p.val)) false)) s

/-- NVME_MI_SEND (R507): Carry an NVMe-MI request in band. -/
def execNvmeMiSend (n : NvmeCtx) (op : Byte) (arg val : U32) (s : State) : Res :=
  doing (fun m => m.nvmeServe n .admin (fun m => if op.toNat = 3 then m.miConfigSet (.inBand n) arg.toNat val.toNat else m.miSend (.inBand n) (m.miResponse op.toNat arg.toNat))) s

/-- NVME_MI_RECEIVE (R507): Return an NVMe-MI response in band. -/
def execNvmeMiReceive (n : NvmeCtx) (s : State) : Res :=
  doing (fun m => m.nvmeServe n .admin (fun m => m.nvmeDone n St.ok (m.ctl n.port.val).mi)) s

/-- READ_NVME_MI_DATA_STRUCTURE (R507): NVMe-MI Read NVMe-MI Data Structure. -/
def execReadNvmeMiDataStructure (p : MiPath) (dtyp : Byte) (s : State) : Res :=
  doing (fun m => m.miRun p 0 dtyp.toNat) s

/-- SUBSYSTEM_HEALTH_STATUS_POLL (R507): NVMe-MI NVM Subsystem Health Status Poll. -/
def execSubsystemHealthStatusPoll (p : MiPath) (s : State) : Res :=
  doing (fun m => m.miRun p 1 0) s

/-- CONTROLLER_HEALTH_STATUS_POLL (R507): NVMe-MI Controller Health Status Poll. -/
def execControllerHealthStatusPoll (p : MiPath) (s : State) : Res :=
  doing (fun m => m.miRun p 2 0) s

/-- CONFIGURATION_GET (R507): NVMe-MI Configuration Get. -/
def execConfigurationGet (p : MiPath) (ident : Byte) (s : State) : Res :=
  doing (fun m => m.miRun p 4 ident.toNat) s

/-- CONFIGURATION_SET (R507): NVMe-MI Configuration Set of the SMBus frequency or MCTP unit. -/
def execConfigurationSet (p : MiPath) (ident : Byte) (val : U32) (s : State) : Res :=
  doing (fun m => m.miConfigSet p ident.toNat val.toNat) s

/-- VPD_READ (R507): NVMe-MI VPD Read. -/
def execVpdRead (p : MiPath) (s : State) : Res :=
  doing (fun m => m.miRun p 5 0) s

/-- FORMAT_NVM (R517): Format one or all namespaces with the chosen erase and LBA format. -/
def execFormatNvm (n : NvmeCtx) (nsid : U32) (ses : Fin 8) (lbaf : Fin 16) (s : State) : Res :=
  doing (fun m => m.nvmeServe n .owner (fun m => m.formatStart n nsid.toNat ses.val lbaf.val)) s

/-- BLOCK_ERASE (R516): Sanitize Block Erase of every user block. -/
def execBlockErase (n : NvmeCtx) (s : State) : Res :=
  doing (fun m => m.nvmeServe n .owner (fun m => m.sanitizeStart n .blockErase)) s

/-- CRYPTO_ERASE (R516): Sanitize Crypto Erase replaces the media key and deallocates everything. -/
def execCryptoErase (n : NvmeCtx) (s : State) : Res :=
  doing (fun m => m.nvmeServe n .owner (fun m => m.sanitizeStart n .cryptoErase)) s

/-- EXIT_FAILURE_MODE (R516): Sanitize Exit Failure Mode. -/
def execExitFailureMode (n : NvmeCtx) (s : State) : Res :=
  doing (fun m => m.nvmeServe n .owner (fun m => m.exitFailure n)) s

/-- OVERWRITE (R516): Sanitize Overwrite completes with ST_INVALID_FIELD. -/
def execOverwrite (n : NvmeCtx) (s : State) : Res :=
  doing (fun m => m.nvmeServe n .owner (fun m => m.nvmeDone n St.invalidField [])) s

/-- RAISE_SECURITY_VERSION (R503): Raise FW_MIN_SVN or TR_MIN_SVN by blowing fuses when the value is permitted. -/
def execRaiseSecurityVersion (n : NvmeCtx) (tr : Bool) (val : Byte) (s : State) : Res :=
  doing (fun m => m.nvmeServe n .owner (fun m => m.raiseSvn n tr val.toNat)) s

/-- FLUSH (R503): NVMe Flush completes after the earlier writes. -/
def execFlush (n : NvmeCtx) (nsid : U32) (s : State) : Res :=
  doing (fun m => m.nvmeServe n .ioCmd (fun m => m.nvmFlush n nsid.toNat)) s

/-- NVM_WRITE (R537): NVMe Write is sealed, programmed to SLC and journaled before completion. -/
def execNvmWrite (n : NvmeCtx) (nsid : U32) (slba : U64) (data : List Byte) (bad : List Nat) (s : State) : Res :=
  doing (fun m => m.nvmeServe n .ioCmd (fun m => m.nvmWrite n nsid.toNat slba.toNat data bad)) s

/-- NVM_READ (R511): NVMe Read through the map, with the special-case outcomes. -/
def execNvmRead (n : NvmeCtx) (nsid : U32) (slba : U64) (nlb : Nat) (bad tag : List Nat) (s : State) : Res :=
  doing (fun m => m.nvmeServe n .ioCmd (fun m => m.nvmRead n nsid.toNat slba.toNat nlb bad tag)) s

/-- WRITE_ZEROES (R536): Deallocate the covered units. -/
def execWriteZeroes (n : NvmeCtx) (nsid : U32) (slba : U64) (nlb : Nat) (s : State) : Res :=
  doing (fun m => m.nvmeServe n .ioCmd (fun m => m.writeZeroes n nsid.toNat slba.toNat nlb)) s

/-- DATASET_MANAGEMENT (R536): Deallocate ranges. -/
def execDatasetManagement (n : NvmeCtx) (nsid : U32) (deallocate : Bool) (ranges : List (Nat × Nat)) (s : State) : Res :=
  doing (fun m => m.nvmeServe n .ioCmd (fun m => m.datasetMgmt n nsid.toNat deallocate ranges)) s

/-- RESERVATION_REGISTER (R512): NVMe Reservation Register. -/
def execReservationRegister (n : NvmeCtx) (nsid : U32) (a : ResvArgs) (s : State) : Res :=
  doing (fun m => m.nvmeServe n .ioCmd (fun m => m.reserve n nsid.toNat (fun r h => r.register h a))) s

/-- RESERVATION_ACQUIRE (R512): NVMe Reservation Acquire. -/
def execReservationAcquire (n : NvmeCtx) (nsid : U32) (a : ResvArgs) (s : State) : Res :=
  doing (fun m => m.nvmeServe n .ioCmd (fun m => m.reserve n nsid.toNat (fun r h => r.acquire h a))) s

/-- RESERVATION_RELEASE (R512): NVMe Reservation Release. -/
def execReservationRelease (n : NvmeCtx) (nsid : U32) (a : ResvArgs) (s : State) : Res :=
  doing (fun m => m.nvmeServe n .ioCmd (fun m => m.reserve n nsid.toNat (fun r h => r.release h a))) s

/-- RESERVATION_REPORT (R512): NVMe Reservation Report. -/
def execReservationReport (n : NvmeCtx) (nsid : U32) (s : State) : Res :=
  doing (fun m => m.nvmeServe n .ioCmd (fun m => m.reserveReport n nsid.toNat)) s

/-- SANITIZE_COMPLETE (R518): A running Sanitize finishes or fails, SANITIZE clears, NVMe commands are served again and pipeline entries are fetched. -/
def execSanitizeComplete (ok : Bool) (s : State) : Res :=
  doing (fun m => m.sanitizeEnd ok) s

/-- FORMAT_COMPLETE (R518): A running Format NVM finishes, FORMAT clears and the held commands and pipeline entries proceed. -/
def execFormatComplete (s : State) : Res :=
  doing (fun m => m.formatEnd) s

end Sys2Proof.Machine
end

