-- ==== Sys2Proof/Machine/PipeCmds.lean ====
section
/-!
DEFINITION. Pipeline queues and administrative ownership as commands (14 R514, R521 to R523).
-/
namespace Sys2Proof.Machine

/-- CREATE_PIPELINE_QUEUE (R521): Create a pipeline queue with its rings and vector. -/
def execCreatePipelineQueue (n : NvmeCtx) (q sqLog cqLog vector : Nat) (ien : Bool) (sqBase cqBase : U64) (s : State) : Res :=
  doing (fun m => m.nvmeServe n .admin (fun m => m.createPipe n q sqLog cqLog vector ien sqBase.toNat cqBase.toNat)) s

/-- DELETE_PIPELINE_QUEUE (R521): Delete a pipeline queue, dropping unstarted entries. -/
def execDeletePipelineQueue (n : NvmeCtx) (q : Nat) (s : State) : Res :=
  doing (fun m => m.nvmeServe n .admin (fun m => m.deletePipe n q)) s

/-- SQ_TAIL (R522): A pipeline SQ_TAIL doorbell publishes new entries, or is discarded with DB_ERR. -/
def execSqTail (writer page : Port) (q : Fin 512) (tail : BitVec 12) (s : State) : Res :=
  doing (fun m => m.sqTail writer.val page.val q.val tail.toNat) s

/-- CQ_HEAD (R522): A pipeline CQ_HEAD doorbell frees completion-ring room. -/
def execCqHead (writer page : Port) (q : Fin 512) (head : BitVec 12) (s : State) : Res :=
  doing (fun m => m.cqHead writer.val page.val q.val head.toNat) s

/-- PIPE_NOP (R523): A pipeline NOP completes at once. -/
def execPipeNop (c : PipeCtx) (s : State) : Res :=
  doing (fun m => m.pipeNow c (fun m => (0, St.ok, m))) s

/-- HANDOVER (R514): The owner port passes administrative ownership. -/
def execHandover (p : Port) (claimToo : Bool) (s : State) : Res :=
  doing (fun m => m.handover p.val claimToo) s

/-- CLAIM (R514): The other port claims ownership after 10 s of the owner's link being down. -/
def execClaim (p : Port) (s : State) : Res :=
  doing (fun m => m.claim p.val) s

end Sys2Proof.Machine
end

