-- ==== Sys2Proof/Machine/PortCmds.lean ====
section
/-!
DEFINITION. Host ports as commands (14 R490 to R500, 03 R104, R105).
-/
namespace Sys2Proof.Machine

/-- LINK_TRAINING (R104): A PCIe port starts link training after the later of PWR_OK + 52 ms and PERSTn# deassertion. -/
def execLinkTraining (p : Port) (s : State) : Res :=
  doing (fun m => m.linkTraining p.val) s

/-- CONFIG_SPACE_READY (R104): A port's configuration space becomes ready and stops answering with Configuration Request Retry Status. -/
def execConfigSpaceReady (p : Port) (speed : Fin 7) (width : Fin 9) (flit : Bool) (s : State) : Res :=
  doing (fun m => m.configReady p.val speed.val width.val flit) s

/-- PERST_ASSERT (R498): PERSTn# is asserted, which resets the port's function, deletes its queues, cancels its jobs and frees its resources. -/
def execPerstAssert (p : Port) (s : State) : Res :=
  doing (fun m => m.perstAssert p.val) s

/-- HOT_RESET (R498): A hot reset of a port has the same effect on that port as PERSTn#. -/
def execHotReset (p : Port) (s : State) : Res :=
  doing (fun m => m.hotReset p.val) s

/-- SURPRISE_DOWN (R498): A port's link goes down unexpectedly; its port resources are cleared and in-flight writes complete under R499. -/
def execSurpriseDown (p : Port) (s : State) : Res :=
  doing (fun m => m.surpriseDown p.val) s

/-- D3HOT (R498): A port's function enters D3hot and its controller resets as for CC.EN 0. -/
def execD3hot (p : Port) (s : State) : Res :=
  doing (fun m => m.toD3 p.val) s

/-- D3HOT_EXIT (R493): A port's function returns from D3hot to D0, so the port again imposes its LTR tolerance. -/
def execD3hotExit (p : Port) (s : State) : Res :=
  doing (fun m => m.toD0 p.val) s

/-- CC_EN (R105): Host software sets CC.EN and the controller starts to become ready. -/
def execCcEn (p : Port) (s : State) : Res :=
  doing (fun m => m.ctlOn p.val) s

/-- CC_DISABLE (R498): CC.EN is set to 0, and the NVMe controller resets and deletes its I/O queues. -/
def execCcDisable (p : Port) (s : State) : Res :=
  doing (fun m => m.ctlOff p.val) s

/-- CSTS_RDY (R105): CSTS.RDY becomes 1 once STAGE has reached 0x07, or under Tool rest. -/
def execCstsRdy (p : Port) (s : State) : Res :=
  doing (fun m => m.ctlReady p.val) s

/-- LTR (R493): An LTR message from a port updates that port's latency tolerance. -/
def execLtr (p : Port) (snoop noSnoop : U32) (s : State) : Res :=
  doing (fun m => m.gotLtr p.val snoop.toNat noSnoop.toNat) s

/-- WIN4_READ (R496): A window-4 read returns GDDR7 contents, 0xFF bytes or restricted data, as the table gives for the address. -/
def execWin4Read (p : Port) (off : U64) (len : Nat) (s : State) : Res :=
  act (fun v m => m.win4Read v p.val off.toNat len) s

/-- WIN4_WRITE (R496): A window-4 write is written to GDDR7 or discarded, as the table gives for the address. -/
def execWin4Write (p : Port) (off : U64) (data : List Byte) (s : State) : Res :=
  act (fun v m => m.win4Write v p.val off.toNat data) s

/-- LINK_POWER_STATE_CHANGE (R577): A PCIe link enters or leaves L1, L1.1 or L1.2, which changes LSTATE and the PS4 refusal and wake conditions. -/
def execLinkPowerStateChange (p : Port) (lstate : Fin 5) (s : State) : Res :=
  doing (fun m => m.linkState p.val lstate.val) s

/-- MARGINING_COMMAND (R492): A Lane Margining at Receiver command from the host arrives, waits up to 2 ms if the module is measuring, and is served. -/
def execMarginingCommand (p : Port) (s : State) : Res :=
  doing (fun m => m.marginCommand p.val) s

/-- CONFIGURATION_REQUEST (R104): A PCIe configuration request arrives and is answered with Configuration Request Retry Status until the configuration space is ready, and normally after. -/
def execConfigurationRequest (p : Port) (s : State) : Res :=
  doing (fun m => m.configRequest p.val) s

end Sys2Proof.Machine
end

