-- ==== Sys2Proof/Machine/PsCmds.lean ====
section
/-!
DEFINITION. The power states as commands (16 R569 to R591). The operand ev is a wake event or an arrival during the entry.
-/
namespace Sys2Proof.Machine

/-- PS1_ENTER (R580): An idle cluster drains its port, stops its clock and moves its bias. -/
def execPs1Enter (c : ClusterId) (s : State) : Res :=
  act (fun v m => m.tryPs1 v c.val) s

/-- PS1_EXIT (R580): A cluster with a takeable READY entry restores its bias and clock. -/
def execPs1Exit (c : ClusterId) (s : State) : Res :=
  doing (fun m => m.ps1Exit c.val) s

/-- PS2_ENTER (R581): A region is polled, closed and powered off. -/
def execPs2Enter (r : Fin 8) (ev : Option PsEvent) (s : State) : Res :=
  act (fun v m => m.tryPs2 v r.val ev) s

/-- PS2_EXIT (R581): A region is powered on with spacing, its SRAM zeroed and its tiles reset. -/
def execPs2Exit (r : Fin 8) (s : State) : Res :=
  doing (fun m => m.ps2Exit r.val) s

/-- PS3_ENTER (R582): The package is polled and enters self-refresh and gating, or aborts. -/
def execPs3Enter (ev : Option PsEvent) (s : State) : Res :=
  act (fun v m => m.tryPs3 v ev) s

/-- PS3_EXIT (R582): The package leaves PS3 on a wake and retrains GDDR7. -/
def execPs3Exit (failed : List (Fin 64 × Nat)) (s : State) : Res :=
  act (fun v m => m.ps3Exit v (failed.map (fun p => (p.1.val, p.2)))) s

/-- PS4_ENTER (R583): The package saves manager state, drops fabric and compute rails. -/
def execPs4Enter (ev : Option PsEvent) (s : State) : Res :=
  act (fun v m => m.tryPs4 v ev) s

/-- PS4_EXIT (R583): The package restores rails, managers, GDDR7 and Chucks within 5 ms. -/
def execPs4Exit (failed : List (Fin 64 × Nat)) (s : State) : Res :=
  act (fun v m => m.ps4Exit v (failed.map (fun p => (p.1.val, p.2)))) s

/-- RESAMPLE (R589): Firmware re-samples edge sources after entry and starts an exit if one is found. -/
def execResample (found : Fin 16) (s : State) : Res :=
  doing (fun m => m.resample found.val) s

/-- KNOWN_EVENT_WAKE (R574): The comparator starts an exit so the unit is in PS0 at its known event. -/
def execKnownEventWake (s : State) : Res :=
  act (fun v m => m.knownWake v) s

/-- PWR_WAKE_AT (R574): A write sets the package's known-event wake count. -/
def execPwrWakeAt (w : Writer) (val : U64) (s : State) : Res :=
  act (fun v m => m.setWakeAt v val.toNat) s

/-- IDLE_SLOW_LIMIT (R576): An idle cluster receives, or loses, a tolerance clock limit. -/
def execIdleSlowLimit (c : ClusterId) (s : State) : Res :=
  act (fun v m => m.idleSlow v c.val) s

end Sys2Proof.Machine
end

