-- ==== Sys2Proof/Machine/QueueCmds.lean ====
section
/-!
DEFINITION. The tile and cluster detectors, the queues, the clocks and the loss of a die (04 R145 to R150, 06 R223 to R241).
-/
namespace Sys2Proof.Machine

/-- The bits of an engine set, in the order of TILE_ENGINES. -/
def engineBits (f : EngNo → Bool) : Nat := bitMask (((List.finRange 5).filter f).map (fun e => e.val))

/-- An engine is quiet for the tile detector (R222). -/
def Tile.quiet (t : Tile) (e : EngNo) : Bool :=
  t.blocked e ||
    match e.val with
    | 0 =>
      match t.stalled with
      | some (.vec _) => t.blocked 1
      | some (.enq q _) => q.depth ≤ (t.engQ q).q.length && t.blocked q.no
      | some (.done _) => t.blocked 1 || t.blocked 2 || t.blocked 3 || t.blocked 4
      | _ => false
    | 1 => t.vq.isEmpty
    | 2 => t.gq.q.isEmpty
    | 3 => t.aq.q.isEmpty
    | _ => t.dq.q.isEmpty

/-- The tile detector fires (R223, R224): every engine quiet and at least one blocked on a wait, with ENABLE set. -/
def Mach.tileDeadlock (m : Mach) (t : Nat) : Mach :=
  let x := m.tile t
  let all := (List.finRange 5).all x.quiet
  let blocked := engineBits x.blocked
  if x.running && m.bit (Reg.tileDlkCfg t) 5 && all && blocked ≠ 0 then
    let waited := bitMask ((x.waits.filter (fun w => !w.served)).map (fun w => w.obj.val))
    let m := m.setBit (Reg.tileDlkStatus t) 31 true
    let m := (m.setFld (Reg.tileDlkStatus t) 20 16 blocked).setFld (Reg.tileDlkStatus t) 15 0 waited
    m.unitDrop t (.deadlock blocked waited) false
  else m

/-- The entry of a cluster's ring position. -/
def ringEntry (x : Cluster) (pos : Nat) : Option (Nat × QEntry) := x.ring.find? (fun p => p.1 % 4096 = pos)

/-- A WAITING entry whose counter has reached its value becomes READY (R230, R231). -/
def Mach.dependencyMet (m : Mach) (c pos : Nat) : Mach :=
  match ringEntry (m.clus c) pos with
  | some (k, e) =>
    if e.state = .waiting && m.depMet e.bytes then m.putEntry (.cluster c k) (some { e with state := .ready }) else m
  | none => m

/-- An idle tile takes its next entry (R235). -/
def Mach.workUnitTake (v : Variant) (m : Mach) (t : Nat) : Mach :=
  if m.tileReady v t then
    match m.nextEntry (t / 16) with
    | some l => m.takeEntry v t l
    | none => m
  else m

/-- A cluster queue above SPILL_MARK moves its newest READY entry to the die queue, while that has room (R238). -/
def Mach.spill (m : Mach) (c : Nat) : Mach :=
  let x := m.clus c
  if m.fld (Reg.pipeClqCfg c) 12 0 < countState x.ring .ready then
    match (x.ring.filter (fun p => p.2.state = .ready)).getLast? with
    | some (k, e) =>
      match m.placeDie (c / 8) e with
      | some m' => m'.putEntry (.cluster c k) none
      | none => m
    | none => m
  else m

/-- A tile is blocked on the work queue (R240). -/
def Mach.blockedOnQueue (m : Mach) (t : Nat) : Bool :=
  !(m.tile t).running && (m.nextEntry (t / 16)).isNone

/-- Powered tiles of a cluster that carry a duty. -/
def Mach.dutyTiles (v : Variant) (m : Mach) (c : Nat) : List Nat :=
  ((List.range 16).map (fun i => c * 16 + i)).filter
    (fun t => tilePresent v t && m.tilePowered t && (m.tile t).carriesDuty)

/-- Jobs of the WAITING entries of a cluster. -/
def Mach.waitingJobs (m : Mach) (c : Nat) : List Nat :=
  (((m.clus c).ring.filter (fun p => p.2.state = .waiting)).map (fun p => entryJob p.2.bytes)).dedup

/-- The cluster detector fires (R240, R241): DLK_FIRED is set and the control complex is told. -/
def Mach.clusterDeadlock (v : Variant) (m : Mach) (c : Nat) : Mach :=
  let jobs := m.waitingJobs c
  if c < clusterCount v && m.bit (Reg.pipeClqCfg c) 16 && (m.clus c).armed && !jobs.isEmpty &&
      (m.dutyTiles v c).all m.blockedOnQueue then
    let m := m.setBit (Reg.pipeClqStatus c) 31 true
    let m := m.setClus c { m.clus c with armed := false }
    { m with tl := { m.tl with examine := m.tl.examine ++ [c] } }
  else m

/-- A job has a READY or TAKEN entry somewhere (R241). -/
def Mach.hasWork (m : Mach) (j : Nat) : Bool :=
  m.allEntries.any (fun p => entryJob p.2.bytes = j && (p.2.state = .ready || p.2.state = .taken))

/-- The WAITING entries of a job in a cluster freed. -/
def Mach.freeWaiting (m : Mach) (c j : Nat) : Mach :=
  let x := m.clus c
  m.setClus c { x with ring := x.ring.filter (fun p => !(p.2.state = .waiting && entryJob p.2.bytes = j)) }

/-- The examination of a fired cluster's jobs (R241): a job with an entry READY or TAKEN, a YFT operation in flight or a
planned entry re-arms the detector; any other fails with ST_INTERNAL. The record says what was done. -/
def Mach.deadlockExamine (m : Mach) (c : Nat) (yft planned : List JobSlot) : Mach :=
  if m.tl.examine.contains c then
    let jobs := m.waitingJobs c
    let alive (j : Nat) : Bool := m.hasWork j || (yft ++ planned).any (fun x => x.val = j)
    let dead := jobs.filter (fun j => !alive j)
    let m := { m with tl := { m.tl with examine := m.tl.examine.filter (fun x => x ≠ c) } }
    let m := m.setClus c { m.clus c with armed := true }
    let m := m.record 0x0017 (sourceOf 2 c) (if dead.isEmpty then St.ok else St.internal)
      (payloadOf [(2, bitMask jobs), (2, Config.freeNat 0x17 (boolBit dead.isEmpty) % 2 ^ 16)])
    dead.foldl (fun m j => (m.jobFail j St.internal).freeWaiting c j) m
  else m

/-- TILE_DEADLOCK (R224): The tile detector fires after DEADLOCK_WINDOW quiet cycles, ends the unit without DONE and re-runs it elsewhere. -/
def execTileDeadlock (t : TileId) (s : State) : Res :=
  doing (fun m => m.tileDeadlock t.val) s

/-- DEPENDENCY_MET (R231): A WAITING entry's counter reaches DEP_VALUE, and the entry becomes READY. -/
def execDependencyMet (c : ClusterId) (pos : Fin 4096) (s : State) : Res :=
  doing (fun m => m.dependencyMet c.val pos.val) s

/-- WORK_UNIT_TAKE (R235): An idle tile with a duty takes the next READY entry in its own cluster, region or die-queue order. -/
def execWorkUnitTake (t : TileId) (s : State) : Res :=
  act (fun v m => m.workUnitTake v t.val) s

/-- SPILL (R238): A cluster queue above SPILL_MARK moves its newest READY entry to the die queue. -/
def execSpill (c : ClusterId) (s : State) : Res :=
  doing (fun m => m.spill c.val) s

/-- CLUSTER_DEADLOCK (R240): The cluster detector fires when duty tiles are blocked and WAITING counters do not move for its window. -/
def execClusterDeadlock (c : ClusterId) (s : State) : Res :=
  act (fun v m => m.clusterDeadlock v c.val) s

/-- DEADLOCK_EXAMINE (R241): The control complex examines each job of the fired cluster, re-arming the detector or failing the job. -/
def execDeadlockExamine (c : ClusterId) (yft planned : List JobSlot) (s : State) : Res :=
  doing (fun m => m.deadlockExamine c.val yft planned) s

/-- CLOCK_STEP (R147): A cluster clock steps 25 MHz towards its effective frequency on its ramp timer. -/
def execClockStep (c : ClusterId) (s : State) : Res :=
  doing (fun m => m.clockStep c.val) s

/-- DIE_FAULT (R31): A die-level fault takes the die out of service, re-executes its work, moves its queued entries to surviving dies and notifies the manager. -/
def execDieFault (d : DieId) (cause : BitVec 32) (s : State) : Res :=
  act (fun v m => if d.val < dieCount v then m.dieFault v d.val cause.toNat else m) s

end Sys2Proof.Machine
end

