-- ==== Sys2Proof/Machine/RasCmds.lean ====
section
/-!
DEFINITION. Self-tests, suspicion, derating, storms, injections, margins and scrubbing as commands (17 R592 to R610, 07 R253, 03 R102, R103).
-/
namespace Sys2Proof.Machine

/-- SELFTEST_SLOT (R596): A region's slot runs the known-answer suite on idle and spare tiles. -/
def execSelftestSlot (r : Fin 8) (results : List SuiteResult) (s : State) : Res :=
  act (fun v m => (m.selftestSlot v r.val results).noteScore v) s

/-- HARD_FAULT (R597): A tile stops answering or fails engine parity and is confirmed at once. -/
def execHardFault (t : TileId) (s : State) : Res :=
  act (fun v m => (m.hardFault v t.val).noteScore v) s

/-- SUSPECT_CONFIRMATION (R598): A suspect tile's three suites end, returning it to duty or confirming it. -/
def execSuspectConfirmation (t : TileId) (suites : List SuiteResult) (derateAt : Option Nat) (s : State) : Res :=
  act (fun v m => (m.suspectEnd t suites derateAt).noteScore v) s

/-- STORM_END (R602): After 3,600 s without confirmation, or a W1C write, STORM ends and quarantined tiles are re-confirmed. -/
def execStormEnd (w1c : Bool) (s : State) : Res :=
  act (fun v m => (m.stormEnd w1c).noteScore v) s

/-- SPARE_TAKEOVER (R601): At the next batch boundary the spare takes over the retired tile's duty. -/
def execSpareTakeover (c : ClusterId) (s : State) : Res :=
  act (fun v m => (m.spareTakeover c.val).noteScore v) s

/-- RAS_DERATE_CLEAR (R600): A write clears a tile's derating. -/
def execRasDerateClear (go : Bool) (t : TileId) (s : State) : Res :=
  act (fun v m => (m.derateClear go t.val).noteScore v) s

/-- ECC_CE (R604): The injection flips one bit at the next write of a word. -/
def execEccCe (s : State) : Res :=
  act (fun v m => (m.injectWord false).noteScore v) s

/-- ECC_UE (R604): The injection flips three bits at the next write of a word. -/
def execEccUe (s : State) : Res :=
  act (fun v m => (m.injectWord true).noteScore v) s

/-- LANE_LOSS (R604): The injection makes a fabric lane lose lock. -/
def execLaneLoss (s : State) : Res :=
  act (fun v m => (m.injectLane).noteScore v) s

/-- TILE_FAULT (R604): The injection makes a tile fail its comparisons and self-tests. -/
def execTileFault (r : SuiteResult) (s : State) : Res :=
  act (fun v m => (m.tileFault v r).noteScore v) s

/-- PROGRAM_FAIL (R604): The injection makes the next program on a die fail. -/
def execProgramFail (sb : Nat) (block : U64) (s : State) : Res :=
  act (fun v m => (m.injectProgram sb block.toNat).noteScore v) s

/-- PS_REFUSE (R604): The injection makes a participant refuse the next entry into a state. -/
def execPsRefuse (r : Fin 8) (s : State) : Res :=
  act (fun v m => m.tryRefused v r.val) s

/-- INJECTION_DISARM (R604): A commit with TYPE 0 disarms the armed injection. -/
def execInjectionDisarm (w : Writer) (s : State) : Res :=
  doing (fun m => m.injDisarm w) s

/-- MARGIN_READING (R605): Every PERIOD_MIN minutes GDDR7, PCIe and supply margins are read and marked. -/
def execMarginReading (eyes lanes0 lanes1 supplies : List Margin) (s : State) : Res :=
  act (fun v m => (m.marginReading v eyes lanes0 lanes1 supplies).noteScore v) s

/-- DERATE_BAND_CHANGE (R599): A cluster's hottest sensor crosses a derating band boundary (70, 85 or 95 °C), applying or lifting a derated tile's clock limit. -/
def execDerateBandChange (c : ClusterId) (temp : U16) (s : State) : Res :=
  act (fun v m => (m.bandChange v c.val temp.toNat).noteScore v) s

/-- SCRUB_READ (R253): A background scrub read checks and corrects a word. -/
def execScrubRead (a : U64) (s : State) : Res :=
  act (fun v m => (m.scrubRead v a.toNat).noteScore v) s

/-- TILES_READY (R103): Tile self-tests finish, the spare map is applied and STAGE moves to 0x06. -/
def execTilesReady (results : List SuiteResult) (s : State) : Res :=
  act (fun v m => (m.tilesReady v results).noteScore v) s

/-- TOOL_REST_READY (R102): Tool rest reaches TOOL_REST_READY and serves its limited command set. -/
def execToolRestReady (s : State) : Res :=
  act (fun v m => (m.toolRestReady).noteScore v) s

end Sys2Proof.Machine
end

