-- ==== Sys2Proof/Machine/RegOps.lean ====
section
/-!
DEFINITION. Writes of window 2: access types, arbitration, pending values, commit sets and what a commit of each block
starts (00 R10 to R18; 01 R51, R52; 17 R629). A register whose write has a command of its own does here what that command
does.
-/
namespace Sys2Proof.Machine

/-! ### Fields -/

/-- The bits of a field within its register. -/
def FieldMask (f : FieldDef) : Nat := 2 ^ (f.hi + 1) - 2 ^ f.lo

/-- A pending value of a field (R14): a second write before COMMIT replaces the first. -/
def Mach.pendField (m : Mach) (off : Nat) (f : FieldDef) (val src : Nat) : Mach :=
  let e : PendWrite := ⟨off, FieldMask f, val, src⟩
  { m with regs := { m.regs with
    pend := m.regs.pend.filter (fun p => !(p.off = off && p.mask = FieldMask f)) ++ [e] } }

/-- A value stored in a field unless it is reserved: then the field keeps its value and the write is recorded. -/
def Mach.storeField (m : Mach) (w : Writer) (off : Nat) (f : FieldDef) (val whole : Nat) : Mach :=
  if f.okVal val then m.setFld off f.hi f.lo val else m.rejected (writerSource w) off whole 1

/-- A write of one field by its access type (R13 to R17). -/
def Mach.writeField (m : Mach) (w : Writer) (off whole : Nat) (f : FieldDef) : Mach :=
  let val := bitsOf whole f.hi f.lo
  match f.acc with
  | .ro | .wo => m
  | .rw => m.storeField w off f val whole
  | .w1c => m.setFld off f.hi f.lo (m.fld off f.hi f.lo - (m.fld off f.hi f.lo &&& val))
  | .w1s => m.setFld off f.hi f.lo (m.fld off f.hi f.lo ||| val)
  | .rwc => m.pendField off f val (writerSource w)
  | .rwi => if m.blockIdle (regBlock off) then m.storeField w off f val whole else m.cfgBusy (regBlock off)

/-- Fields whose writes are discarded when they arrive: the depth and frequency of a spreading that is off (02 R89). -/
def Mach.fieldHeld (m : Mach) (off : Nat) (f : FieldDef) : Bool :=
  off = Reg.glbEmcCfg && decide (f.hi ≤ 5) && !m.bit Reg.glbStraps 5

/-- A register written field by field. -/
def Mach.writeFields (m : Mach) (w : Writer) (r : RegDef) (off val : Nat) : Mach :=
  (r.fields.filter (fun f => !m.fieldHeld off f)).foldl (fun m f => m.writeField w off val f) m

/-! ### The control word (R15, R16) -/

/-- COMMIT of a block: its pending values become one latched set; none, nothing. -/
def Mach.commitLatch (m : Mach) (blk : Nat) : Mach :=
  let mine := m.regs.pend.filter (fun p => regBlock p.off = blk)
  if mine.isEmpty then m
  else { m with regs := { m.regs with
    pend := m.regs.pend.filter (fun p => regBlock p.off ≠ blk), latched := m.regs.latched ++ [⟨blk, mine⟩] } }

/-- DISCARD of a block: pending values go; latched sets stay. -/
def Mach.discardPending (m : Mach) (blk : Nat) : Mach :=
  { m with regs := { m.regs with pend := m.regs.pend.filter (fun p => regBlock p.off ≠ blk) } }

/-- A write of a control word. -/
def Mach.writeCfgctl (m : Mach) (blk val : Nat) : Mach :=
  let m := if bitAt val 8 then m.setBit (cfgctl blk) 8 false else m
  if bitAt val 1 then m.discardPending blk else if bitAt val 0 then m.commitLatch blk else m

/-! ### Registers whose writes have commands of their own -/

/-- The AREA bit of a read window (17 R619). -/
def Mach.writeArea (m : Mach) (w : Writer) (p val : Nat) : Mach :=
  let other := match w with | .port q => decide (q.val ≠ p) | _ => false
  if other then m.rejected (writerSource w) (Reg.evrRdStatus p) val 2
  else { m with evr := m.evr.setWin p { m.evr.win p with area := bitAt val 29 } }

/-- HIF_ADMIN (14 R514): CHANGED clears; HANDOVER and CLAIM of a port. -/
def Mach.writeAdmin (m : Mach) (w : Writer) (val : Nat) (claimToo : Bool) : Mach :=
  let m := if bitAt val 1 then m.setBit Reg.hifAdmin 1 false else m
  match w with
  | .port p =>
    let m := if bitAt val 5 then m.handover p.val claimToo else m
    if bitAt val 4 && !bitAt val 5 then m.claim p.val else m
  | _ => m

/-- A pipeline doorbell (14 R522): only ports write them. -/
def Mach.writeDoorbell (m : Mach) (w : Writer) (off val : Nat) : Mach :=
  match w with
  | .port b =>
    let n := (off - 0x400000) / 0x1000
    if off % 0x1000 = 0 then m.sqTail b.val (n / 512) (n % 512) (val % 4096)
    else m.cqHead b.val (n / 512) (n % 512) (val % 4096)
  | _ => m.rejected (writerSource w) off val 2

/-- A write of a register whose effect is a command's; none for every other register. -/
def Mach.writeSpecial (v : Variant) (m : Mach) (w : Writer) (off val : Nat) : Option Mach :=
  if 0x400000 ≤ off && off < 0x800000 then some (m.writeDoorbell w off val)
  else if off = Reg.glbAdopt then some (m.adoptSel w (bitsOf val 11 8))
  else if off = Reg.pwrWakeAt then some (m.setWakeAt v val)
  else if off = Reg.rasDerateClear then some (m.derateClear (bitAt val 9) (bitsOf val 8 0))
  else if off = Reg.rasRetireStatus then some (if bitAt val 31 then m.stormEnd true else m)
  else if off = Reg.rasInjCtl || off = Reg.rasInjTarget then
    if m.mayInject w then none else some (m.rejected (writerSource w) off val 2)
  else if off = Reg.evrRdSeq 0 then some (m.selectRecord w 0 val)
  else if off = Reg.evrRdSeq 1 then some (m.selectRecord w 1 val)
  else if off = Reg.evrRdStatus 0 then some (m.writeArea w 0 val)
  else if off = Reg.evrRdStatus 1 then some (m.writeArea w 1 val)
  else if off = Reg.ctxFlush then some (if bitAt val 0 then m.ctxFlush v w else m)
  else if off = Reg.memHostLimit then some (m.hostLimit w val)
  else if off = Reg.memRetrainReq then some (m.retrainReq v w val)
  else if off = Reg.flmStoredCfg then some (m.writeStoredCfg w val)
  else if off = Reg.flmMediaTime then some (m.writeMediaTime val)
  else if off = Reg.flmRecalReq then some (m.recalReq v w val)
  else if off = Reg.hifAdmin then some (m.writeAdmin w val false)
  else if off = Reg.xptDoorbell then some (m.xptDoorbell w (val % 2 ^ 32) (val / 2 ^ 32))
  else if off = Reg.xptQdelete then some (m.xptDelete w val)
  else if off = Reg.xptCqConsumed then some (m.cqConsumed w (val % 2 ^ 32) (val / 2 ^ 32))
  else if off = Reg.spnSet then some (m.spnSet w val)
  else if off = Reg.spnMgrNode then some (if m.anyJob then m.cfgBusy 0x110000 else m.newManager val)
  else match indexIn off (Reg.bpmPoolCfg 0) 0x40 8, indexIn off (Reg.pipeJobAugReady 0) 0x100 16 with
    | some k, _ => some (if bitAt val 31 then m.poolEnable w k (val % 2 ^ 25) else m.poolDisable w k (val % 2 ^ 25))
    | _, some j => some (m.writeAugReady w j val)
    | _, _ => none

/-- What a write of some registers does beyond storing: REQ and REVERT of a fabric port (13 R455, R457), and the failure
domains' place in NOR (17 R607). -/
def Mach.afterStore (m : Mach) (off val : Nat) : Mach :=
  match indexIn off (Reg.fabSpareCtl 0) 0x1000 2, indexIn off (Reg.rasFdom 0) 4 4 with
  | some p, _ =>
    let m := if bitAt val 31 then m.fabReq p else m
    if bitAt val 30 then m.fabRevert p else m
  | _, some k => { m with ras := { m.ras with norFdom := m.ras.norFdom.set k (val % 2 ^ 32) } }
  | _, _ => m

/-! ### One write -/

/-- A TILE page takes writes: its region is on; a retired tile's only from the control complex (04 R157). -/
def Mach.pageWritable (m : Mach) (w : Writer) (off : Nat) : Bool :=
  let t := (off - 0x1000000) / 0x1000
  decide (off < 0x1000000) ||
    (m.tilePowered t && ((m.tile t).role ≠ .retired || (match w with | .core _ => true | _ => false)))

/-- A writer reaches window 2: a port whose function answers, or the module's own firmware while it runs. -/
def Mach.mayWrite (m : Mach) (w : Writer) : Bool :=
  m.power.pwrOk && (match w with | .port p => (m.port p.val).serves | _ => true)

/-- A register written whole; a write to what is absent or is no register is discarded (R5, R51). -/
def Mach.writeReg (v : Variant) (m : Mach) (w : Writer) (off val : Nat) : Mach :=
  if !regPresent v off || !m.pageWritable w off then m
  else if off = cfgctl (regBlock off) && hasCfgctl (regBlock off) then m.writeCfgctl (regBlock off) val
  else match regAt off with
    | none => m
    | some r =>
      match m.writeSpecial v w off val with
      | some m => m
      | none =>
        let plain := if (indexIn off (Reg.fabSpareCtl 0) 0x1000 2).isSome then val % 2 ^ 31 else val
        (m.writeFields w r off plain).afterStore off val

/-! ### Writes of one cycle (R10, R18, R52) -/

/-- One register written in one cycle: writer, offset and value. -/
structure OneWrite where
  who : Writer
  off : Nat
  val : Nat
deriving DecidableEq, Repr

/-- A register, or a control word, of a width in bytes lies at an offset. -/
def regOfWidth (off n : Nat) : Bool :=
  match regAt off with
  | some r => r.width = 8 * n
  | none => n = 4 && off = cfgctl (regBlock off) && hasCfgctl (regBlock off)

/-- The register writes of an access: in its cycle, and in the next one for the higher half of a 64-bit access to two
32-bit registers. Any other access is discarded (R10). -/
def splitWrite (x : RegWrite) : List OneWrite × List OneWrite :=
  let a := x.off.toNat
  let n := x.val.toNat
  if a % x.size ≠ 0 then ([], [])
  else if x.size = 4 then (if regOfWidth a 4 then [⟨x.who, a, n % 2 ^ 32⟩] else [], [])
  else if x.size = 8 then
    if regOfWidth a 8 then ([⟨x.who, a, n⟩], [])
    else (if regOfWidth a 4 then [⟨x.who, a, n % 2 ^ 32⟩] else [],
      if regOfWidth (a + 4) 4 then [⟨x.who, a + 4, n / 2 ^ 32⟩] else [])
  else ([], [])

/-- The order in which writes of one cycle act: port 0, port 1, then the module's own writers. -/
def writerRank (w : Writer) : Nat := match w with | .port p => p.val | .core _ => 2 | .mgmt => 3

/-- What acts first within a cycle: control words, since a field write that coincides with a COMMIT joins the next set
(R18), and deletes of queues (13 R488). -/
def OneWrite.early (x : OneWrite) : Bool :=
  (x.off = cfgctl (regBlock x.off) && hasCfgctl (regBlock x.off)) || x.off = Reg.xptQdelete

/-- HANDOVER from one port and CLAIM from the other in one cycle (14 R515). -/
def handoverMeets (l : List OneWrite) (x : OneWrite) : Bool :=
  x.off = Reg.hifAdmin && bitAt x.val 5 &&
    l.any (fun y => y.off = Reg.hifAdmin && bitAt y.val 4 && !bitAt y.val 5 && writerRank y.who < 2 && y.who ≠ x.who)

/-- The other port's write that a HANDOVER of the same cycle discards. -/
def claimMeets (l : List OneWrite) (x : OneWrite) : Bool :=
  x.off = Reg.hifAdmin && bitAt x.val 4 && !bitAt x.val 5 && writerRank x.who < 2 &&
    l.any (fun y => handoverMeets l y && y.who ≠ x.who)

/-- Port 1's write of a register that port 0 writes in the same cycle. -/
def arbLost (l : List OneWrite) (x : OneWrite) : Bool :=
  writerRank x.who = 1 && !handoverMeets l x && l.any (fun y => writerRank y.who = 0 && y.off = x.off && !claimMeets l y)

/-- One write of a cycle. -/
def Mach.writeOne (v : Variant) (l : List OneWrite) (m : Mach) (x : OneWrite) : Mach :=
  if arbLost l x then m.send (.arbLost x.off)
  else if claimMeets l x then m
  else if handoverMeets l x then m.writeAdmin x.who x.val true
  else m.writeReg v x.who x.off x.val

/-- The writes of one cycle. -/
def Mach.writeCycle (v : Variant) (m : Mach) (l : List OneWrite) : Mach :=
  let by_ (l : List OneWrite) : List OneWrite :=
    (List.range 4).flatMap (fun r => l.filter (fun x => writerRank x.who = r))
  (by_ (l.filter OneWrite.early) ++ by_ (l.filter (fun x => !x.early))).foldl (fun m x => m.writeOne v l x) m

/-- REGISTER_WRITE: accesses of one cycle, with the higher halves of split ones in the next. -/
def Mach.regWrites (v : Variant) (m : Mach) (ws : List RegWrite) : Mach :=
  let ws := ws.filter (fun x => m.mayWrite x.who)
  let m := m.writeCycle v (ws.flatMap (fun x => (splitWrite x).1))
  m.writeCycle v (ws.flatMap (fun x => (splitWrite x).2))

/-- A write of a control word, with other accesses of the same cycle. -/
def Mach.cfgWrite (v : Variant) (m : Mach) (w : Writer) (blk val : Nat) (also : List RegWrite) : Mach :=
  let m := if m.mayWrite w && regPresent v blk && hasCfgctl blk && blk = regBlock blk && m.pageWritable w blk then
      m.writeCfgctl blk val else m
  m.regWrites v also

/-! ### The commit point -/

/-- The field of a pending write. -/
def PendWrite.field (p : PendWrite) : Option FieldDef :=
  match regAt p.off with | some r => r.fields.find? (fun f => FieldMask f = p.mask) | none => none

/-- The pending value is one that its field permits. -/
def PendWrite.ok (p : PendWrite) : Bool := match p.field with | some f => f.okVal p.val | none => false

/-- A value of a commit set applied, or dropped with a record. -/
def Mach.applyPend (m : Mach) (p : PendWrite) : Mach :=
  match p.field with
  | some f => if f.okVal p.val then m.setFld p.off f.hi f.lo p.val else m.rejected p.src p.off (p.val * 2 ^ f.lo) 1
  | none => m

/-- The writer that a SOURCE names. -/
def writerOf (src : Nat) : Writer :=
  if src / 4096 = 7 then .port (if src % 2 = 0 then 0 else 1) else if src / 4096 = 11 then .core (Fin.ofNat 8 src) else .mgmt

/-- A key command (13 R489): OP of the applied set decides. -/
def Mach.commitKeycmd (v : Variant) (m : Mach) (c : CommitSet) : Mach :=
  match c.writes.find? (fun p => p.off = Reg.xptKeycmdCtl && p.mask = 3) with
  | none => m
  | some p =>
    let f (hi lo : Nat) : Nat := m.fld Reg.xptKeycmdCtl hi lo
    let arg := BitVec.ofNat 32 (m.fld Reg.xptKeycmdArg 31 0)
    match f 1 0 with
    | 0 => m
    | 1 =>
      m.xkeyCreate v (writerOf p.src) ⟨BitVec.ofNat 48 (m.fld Reg.xptKeycmdBase 47 0),
        BitVec.ofNat 48 (m.fld Reg.xptKeycmdLimit 47 0), arg, f 2 2 = 1, Fin.ofNat 8 (f 5 3), f 6 6 = 1⟩
    | 2 => m.xkeyInvalidate (writerOf p.src) arg.toNat
    | _ => m.keyResult 0 0 St.invalidField

/-- A RAS_INJ set arms an injection, unless it holds a reserved value (17 R604, R610). -/
def Mach.commitInject (m : Mach) (c : CommitSet) : Mach :=
  let mine := c.writes.filter (fun p => p.off = Reg.rasInjCtl || p.off = Reg.rasInjTarget)
  let typ := m.fld Reg.rasInjCtl 3 0
  let target := (m.reg Reg.rasInjTarget).toNat
  if mine.isEmpty || !mine.all PendWrite.ok then m
  else if !injTargetOk typ target then
    match mine.head? with
    | some p => m.rejected p.src Reg.rasInjTarget target 1
    | none => m
  else m.armCommitted

/-- A committed PIPE_TILECFG set as the settings that tiles apply: a field not in the set leaves the tile's (06 R242). -/
def Mach.tilecfgOf (m : Mach) (c : CommitSet) : Option Nat :=
  let mine := (c.writes.filter (fun p => p.off = Reg.pipeTilecfg && p.ok))
  let get (mask : Nat) : Nat := match mine.find? (fun p => p.mask = mask) with | some p => p.val | none => 0
  if mine.isEmpty then none
  else some (get 0x3000 * 2 ^ 12 + get 0xC00 * 2 ^ 10 + get 0x200 * 2 ^ 9 + m.fld Reg.pipeTilecfg 4 0)

/-- Settings that a tile has not yet applied, followed by newer ones. -/
def mergeTilecfg (old new : Nat) : Nat :=
  let pick (hi lo : Nat) : Nat := if bitsOf new hi lo = 0 then bitsOf old hi lo else bitsOf new hi lo
  pick 13 12 * 2 ^ 12 + pick 11 10 * 2 ^ 10 + pick 9 9 * 2 ^ 9 +
    (if bitAt new 9 then bitsOf new 4 0 else bitsOf old 4 0)

/-- PIPE_TILECFG at its commit point: tiles without a unit apply it at once, the others at their next unit. -/
def Mach.commitTilecfg (v : Variant) (m : Mach) (c : CommitSet) : Mach :=
  match m.tilecfgOf c with
  | none => m
  | some cfg =>
    let m := if m.tilesWait v then m else { m with regs := { m.regs with tileWait := 0 } }
    let l := (allTiles v).filter (fun t => m.tilePowered t && (m.tile t).role ≠ .retired)
    let m := l.foldl (fun m t =>
      let x := m.tile t
      if x.unit.isNone then m.applyTilecfg t cfg
      else m.setTile t { x with cfgPend := some (mergeTilecfg (x.cfgPend.getD 0) cfg) }) m
    if m.tilesWait v then { m with regs := { m.regs with tileWait := m.regs.tileWait + 1 } } else m

/-- A change of FAB_PORTn_CFG.ENABLE (13 R453, R458). -/
def Mach.commitFab (v : Variant) (m : Mach) (c : CommitSet) : Mach :=
  (List.range (fabPorts v)).foldl (fun m p =>
    match c.writes.find? (fun w => w.off = Reg.fabCfg p && w.mask = 1) with
    | some w => m.fabEnable p (w.val = 1)
    | none => m) m

/-- What a commit of a block starts. -/
def Mach.commitEffect (v : Variant) (m : Mach) (c : CommitSet) : Mach :=
  match c.blk with
  | 0x10000 => m.psEnforce v
  | 0x30000 => m.commitInject c
  | 0xB0000 => m.commitFab v c
  | 0xC0000 => m.commitKeycmd v c
  | 0xD0000 => m.commitTilecfg v c
  | _ => m

/-- COMMIT_POINT of a block (R15): the oldest latched set applied whole, and COMMIT_SEQ advances. -/
def Mach.commitPoint (v : Variant) (m : Mach) (blk : Nat) : Mach :=
  match m.regs.latched.find? (fun c => c.blk = blk) with
  | none => m
  | some c =>
    let m := { m with regs := { m.regs with latched := m.regs.latched.erase c } }
    let m := (c.writes.foldl (fun m p => m.applyPend p) m).commitEffect v c
    m.addFld (cfgctl blk) 31 16 1

end Sys2Proof.Machine
end

