-- ==== Sys2Proof/Machine/RegCmds.lean ====
section
/-!
DEFINITION. Register writes, commits and discards (00 R13 to R18).
-/
namespace Sys2Proof.Machine

/-- REGISTER_WRITE (R13): A write to a register with no row of its own stores, discards or queues the value as the field's access type gives, and same-cycle writes are arbitrated. -/
def execRegisterWrite (ws : List RegWrite) (s : State) : Res :=
  act (fun v m => m.regWrites v ws) s

/-- COMMIT (R15): Writing COMMIT latches every pending RWC value of the block into one commit set. -/
def execCommit (w : Writer) (blk : Nat) (also : List RegWrite) (s : State) : Res :=
  act (fun v m => m.cfgWrite v w blk 1 also) s

/-- DISCARD (R16): Writing DISCARD drops the pending values that are not yet latched. -/
def execDiscard (w : Writer) (blk : Nat) (s : State) : Res :=
  act (fun v m => m.cfgWrite v w blk 2 []) s

/-- COMMIT_POINT (R15): At the block's commit point the latched set is applied whole, reserved values are dropped and COMMIT_SEQ advances. -/
def execCommitPoint (blk : Nat) (s : State) : Res :=
  act (fun v m => m.commitPoint v blk) s

end Sys2Proof.Machine
end

