-- ==== Sys2Proof/Machine/SessCmds.lean ====
section
/-!
DEFINITION. Generation sessions as commands (11 R402 to R411).
-/
namespace Sys2Proof.Machine

/-- SESSION_START (R402): A SESSION_START entry starts a generation session as a job. -/
def execSessionStart (c : PipeCtx) (session : U64) (s : State) : Res :=
  act (fun v m => m.sessionStart v c session.toNat) s

/-- SESSION_MESSAGE (R403): A YFT message to a session queue is parsed into commands or discarded whole. -/
def execSessionMessage (j : JobSlot) (q : U32) (s : State) : Res :=
  act (fun v m => m.sessionMessage v j.val q.toNat) s

/-- OPEN (R404): Create a generation sequence and write its first result with a mask. -/
def execOpenI (j : JobSlot) (cmd : List Byte) (s : State) : Res :=
  act (fun v m => m.seqOpen v j.val cmd) s

/-- STEP (R405): Apply a token to a sequence: checks, stop match, end, grammar advance and next mask. -/
def execStep (j : JobSlot) (ref stepNo token : U32) (s : State) : Res :=
  act (fun v m => m.seqStep v j.val ref.toNat stepNo.toNat token.toNat) s

/-- CLOSE (R407): End a sequence with CLOSED and free its slot. -/
def execCloseI (j : JobSlot) (ref : U32) (s : State) : Res :=
  act (fun v m => m.seqClose v j.val ref.toNat) s

/-- OUTPUT_FRAME_WRITE (R411): An ended sequence's output frame is written to the extent, and GRM_OUT advances. -/
def execOutputFrameWrite (j : JobSlot) (s : State) : Res :=
  doing (fun m => m.outputWrite j.val) s

end Sys2Proof.Machine
end

