-- ==== Sys2Proof/Machine/SpinCmds.lean ====
section
/-!
DEFINITION. The spindle count and the manager-worker protocol as commands (12 R419 to R437). Node operands name the module at the other end.
-/
namespace Sys2Proof.Machine

/-- SYNC_PERIOD (R419): The manager's period timer sends SYNC to a worker with stamp t1. -/
def execSyncPeriod (node : U32) (t1 : U64) (s : State) : Res :=
  doing (fun m => m.sendSync node.toNat t1.toNat) s

/-- SYNC (R419): A worker receives SYNC, replies, and evaluates its exchange window to step or slew. -/
def execSync (node : U32) (t1 t2 t3 : U64) (t4 : Option U64) (est : Nat) (s : State) : Res :=
  doing (fun m => m.gotSync node.toNat t1.toNat t2.toNat t3.toNat (t4.map (fun x => x.toNat)) est) s

/-- SYNC_REPLY (R419): The manager receives SYNC_REPLY and records t4 for the next SYNC. -/
def execSyncReply (node : U32) (t2 t3 t4 : U64) (s : State) : Res :=
  doing (fun m => m.gotSyncReply node.toNat t2.toNat t3.toNat t4.toNat) s

/-- HOLDOVER_ENTER (R421): No accepted window for 64 periods moves a LOCKED worker to HOLDOVER. -/
def execHoldoverEnter (s : State) : Res :=
  doing (fun m => m.toHoldover) s

/-- UNSYNC_ENTER (R421): ERR_BOUND grows above UNSYNC_NS and the worker enters UNSYNC. -/
def execUnsyncEnter (s : State) : Res :=
  doing (fun m => m.toUnsync) s

/-- SPN_SET (R426): A write of SPN_SET steps the spindle count when permitted. -/
def execSpnSet (w : Writer) (val : U64) (s : State) : Res :=
  doing (fun m => m.spnSet w val.toNat) s

/-- SPN_MGR_NODE (R428): A write of NODE makes the worker leave its manager and send HELLO to the new one. -/
def execSpnMgrNode (w : Writer) (node : U32) (s : State) : Res :=
  doing (fun m => if m.anyJob then m.cfgBusy 0x110000 else m.newManager node.toNat) s

/-- HELLO (R428): The manager receives HELLO and replies with a nonce. -/
def execHello (node : U32) (s : State) : Res :=
  doing (fun m => m.gotHello node.toNat) s

/-- NONCE (R428): The worker receives the nonce and sends JOIN with its certificate and report. -/
def execNonce (node : U32) (nonce : List Byte) (s : State) : Res :=
  act (fun v m => m.gotNonce v node.toNat (sliceBytes nonce 0 32)) s

/-- JOIN (R428): The manager checks JOIN and sends WELCOME or REFUSE, adopting counts when returning. -/
def execJoin (node : U32) (cert report : List Byte) (caps fdoms : List Nat) (hasJob : Bool) (t1 t2 t3 t4 : U64) (s : State) : Res :=
  doing (fun m => m.gotJoin node.toNat cert report caps fdoms hasJob t1.toNat t2.toNat t3.toNat t4.toNat) s

/-- WELCOME (R428): The worker is joined and starts synchronising. -/
def execWelcome (node tol : U32) (s : State) : Res :=
  doing (fun m => m.gotWelcome node.toNat tol.toNat) s

/-- REFUSE (R428): The worker stays unjoined and records an event. -/
def execRefuse (node : U32) (status : U16) (s : State) : Res :=
  doing (fun m => m.gotRefuse node.toNat status.toNat) s

/-- PREPARE (R431): A worker receives the plan and starts receiving and forwarding the image. -/
def execPrepare (node planSeq : U32) (nonce digest : List Byte) (len idx modules l : Nat) (children : List Nat) (homes : List (List Nat)) (s : State) : Res :=
  act (fun v m => m.gotPrepare v node.toNat planSeq.toNat nonce digest len idx modules l children homes) s

/-- IMAGE_STAGED (R431): The image arrives in staging, its digest is checked, it is forwarded and accepted, and READY or REFUSE_PLAN is sent. -/
def execImageStaged (planSeq : U32) (image : List Byte) (s : State) : Res :=
  act (fun v m => m.imageStaged v planSeq.toNat image) s

/-- READY (R432): The manager records READY and sends GO when every module is ready. -/
def execReady (node planSeq : U32) (count : U64) (s : State) : Res :=
  doing (fun m => m.gotReady node.toNat planSeq.toNat count.toNat) s

/-- REFUSE_PLAN (R432): The manager receives a refusal and cancels the start. -/
def execRefusePlan (node planSeq : U32) (status : U16) (s : State) : Res :=
  doing (fun m => m.gotRefusePlan node.toNat planSeq.toNat status.toNat) s

/-- PREPARE_TIMEOUT (R432): No reply within 120 s of PREPARE makes the manager cancel the start. -/
def execPrepareTimeout (planSeq : U32) (s : State) : Res :=
  doing (fun m => m.prepareTimeout planSeq.toNat) s

/-- GO (R433): A worker sets LAUNCH and waits, or starts at once if the count has passed it. -/
def execGo (node planSeq : U32) (launch : U64) (s : State) : Res :=
  doing (fun m => m.gotGo node.toNat planSeq.toNat launch.toNat) s

/-- CANCEL (R433): A worker cancels the job in any state. -/
def execCancel (node planSeq : U32) (s : State) : Res :=
  doing (fun m => m.gotCancel node.toNat planSeq.toNat) s

/-- REPORT (R429): The manager takes statistics and final digests from a worker. -/
def execReport (node planSeq : U32) (stats : List Nat) (digest : Option (List Byte)) (s : State) : Res :=
  doing (fun m => m.gotReport node.toNat planSeq.toNat stats digest) s

/-- LOST (R435): A module stops YFT traffic to the lost module and treats its samples as media failures. -/
def execLost (node planSeq : U32) (idx : Nat) (s : State) : Res :=
  doing (fun m => m.gotLost node.toNat planSeq.toNat idx) s

/-- LEAVE (R435): The manager receives LEAVE and sends LOST for the worker. -/
def execLeave (node : U32) (s : State) : Res :=
  doing (fun m => m.gotLeave node.toNat) s

/-- WORKER_SILENT (R435): A worker silent for 1 s is declared lost by the manager. -/
def execWorkerSilent (node : U32) (s : State) : Res :=
  doing (fun m => m.workerSilent node.toNat) s

/-- WORKER_REJOIN (R436): When a lost manager returns, its workers rejoin under R428 and their counts are brought together as R437 gives. -/
def execWorkerRejoin (s : State) : Res :=
  doing (fun m => m.rejoin) s

end Sys2Proof.Machine
end

