-- ==== Sys2Proof/Machine/VectorCmds.lean ====
section
/-!
DEFINITION. The vector instructions (05 R173 to R198).
-/
namespace Sys2Proof.Machine

/-- A TYPE that the floating-point instructions accept (R176, R185). -/
def isArith (ty : Fin 8) : Bool := ty.val ≤ 2

/-- Reserved values of VCVT (R188, R189): codes 0xC to 0xF, UNIF other than to FP32, RM, and PART. -/
def cvtLegal (a : CvtArgs) : Bool :=
  let f := a.fromTy.val
  let d := a.toTy.val
  let ws := cvtWidth f
  let wd := cvtWidth d
  (f ≤ 10 || (f = 11 && d = 0)) && d ≤ 10 && a.rm.val ≤ 4 && a.part.val < max ws wd / min ws wd

/-- The address of VLD and VST (R175): g[rs1] + OFF × s. -/
def vmAddr (x : Tile) (rs1 : GReg) (mode : Fin 8) (off : BitVec 10) : U64 :=
  x.gr rs1 + off.signExtend 64 * BitVec.ofNat 64 (vldSize mode)

/-- VFP_ADD (R176): Vector floating-point add. -/
def execVfpAdd (t : TileId) (a : VArgs) (s : State) : Res :=
  onTile t (fun _ => legal (isArith a.ty) (.vec (.fp .add a))) s

/-- VFP_SUB (R176): Vector floating-point subtract. -/
def execVfpSub (t : TileId) (a : VArgs) (s : State) : Res :=
  onTile t (fun _ => legal (isArith a.ty) (.vec (.fp .sub a))) s

/-- VFP_MUL (R176): Vector floating-point multiply. -/
def execVfpMul (t : TileId) (a : VArgs) (s : State) : Res :=
  onTile t (fun _ => legal (isArith a.ty) (.vec (.fp .mul a))) s

/-- VFP_DIV (R176): Vector floating-point divide. -/
def execVfpDiv (t : TileId) (a : VArgs) (s : State) : Res :=
  onTile t (fun _ => legal (isArith a.ty) (.vec (.fp .div a))) s

/-- SQRT (R176): Vector floating-point square root. -/
def execSqrt (t : TileId) (a : VArgs) (s : State) : Res :=
  onTile t (fun _ => legal (isArith a.ty && a.vs2 = 0) (.vec (.fp .sqrt a))) s

/-- VFP_MIN (R176): Vector minimumNumber. -/
def execVfpMin (t : TileId) (a : VArgs) (s : State) : Res :=
  onTile t (fun _ => legal (isArith a.ty) (.vec (.fp .min a))) s

/-- VFP_MAX (R176): Vector maximumNumber. -/
def execVfpMax (t : TileId) (a : VArgs) (s : State) : Res :=
  onTile t (fun _ => legal (isArith a.ty) (.vec (.fp .max a))) s

/-- VFP_ABS (R176): Vector floating-point absolute value. -/
def execVfpAbs (t : TileId) (a : VArgs) (s : State) : Res :=
  onTile t (fun _ => legal (isArith a.ty) (.vec (.fp .abs a))) s

/-- NEG (R176): Vector floating-point negation. -/
def execNeg (t : TileId) (a : VArgs) (s : State) : Res :=
  onTile t (fun _ => legal (isArith a.ty) (.vec (.fp .neg a))) s

/-- FLOOR (R176): Vector round towards minus infinity. -/
def execFloor (t : TileId) (a : VArgs) (s : State) : Res :=
  onTile t (fun _ => legal (isArith a.ty) (.vec (.fp .floor a))) s

/-- CEIL (R176): Vector round towards plus infinity. -/
def execCeil (t : TileId) (a : VArgs) (s : State) : Res :=
  onTile t (fun _ => legal (isArith a.ty) (.vec (.fp .ceil a))) s

/-- TRUNC (R176): Vector round towards zero. -/
def execTrunc (t : TileId) (a : VArgs) (s : State) : Res :=
  onTile t (fun _ => legal (isArith a.ty) (.vec (.fp .trunc a))) s

/-- RINT (R176): Vector round to nearest even. -/
def execRint (t : TileId) (a : VArgs) (s : State) : Res :=
  onTile t (fun _ => legal (isArith a.ty) (.vec (.fp .rint a))) s

/-- VINT_ADD (R176): Vector integer add modulo the width. -/
def execVintAdd (t : TileId) (a : VArgs) (s : State) : Res :=
  onTile t (fun _ => legal (isIntType a.ty) (.vec (.int .add a))) s

/-- VINT_SUB (R176): Vector integer subtract modulo the width. -/
def execVintSub (t : TileId) (a : VArgs) (s : State) : Res :=
  onTile t (fun _ => legal (isIntType a.ty) (.vec (.int .sub a))) s

/-- ADDS (R176): Vector signed saturating add. -/
def execAdds (t : TileId) (a : VArgs) (s : State) : Res :=
  onTile t (fun _ => legal (isIntType a.ty) (.vec (.int .adds a))) s

/-- ADDUS (R176): Vector unsigned saturating add. -/
def execAddus (t : TileId) (a : VArgs) (s : State) : Res :=
  onTile t (fun _ => legal (isIntType a.ty) (.vec (.int .addus a))) s

/-- SUBS (R176): Vector signed saturating subtract. -/
def execSubs (t : TileId) (a : VArgs) (s : State) : Res :=
  onTile t (fun _ => legal (isIntType a.ty) (.vec (.int .subs a))) s

/-- SUBUS (R176): Vector unsigned saturating subtract. -/
def execSubus (t : TileId) (a : VArgs) (s : State) : Res :=
  onTile t (fun _ => legal (isIntType a.ty) (.vec (.int .subus a))) s

/-- VINT_MUL (R176): Vector integer multiply, low half. -/
def execVintMul (t : TileId) (a : VArgs) (s : State) : Res :=
  onTile t (fun _ => legal (isIntType a.ty) (.vec (.int .mul a))) s

/-- MADD (R176): Vector integer multiply-add. -/
def execMadd (t : TileId) (a : VArgs) (s : State) : Res :=
  onTile t (fun _ => legal (isIntType a.ty) (.vec (.int .madd a))) s

/-- VINT_MIN (R176): Vector signed minimum. -/
def execVintMin (t : TileId) (a : VArgs) (s : State) : Res :=
  onTile t (fun _ => legal (isIntType a.ty) (.vec (.int .min a))) s

/-- VINT_MAX (R176): Vector signed maximum. -/
def execVintMax (t : TileId) (a : VArgs) (s : State) : Res :=
  onTile t (fun _ => legal (isIntType a.ty) (.vec (.int .max a))) s

/-- VINT_MINU (R176): Vector unsigned minimum. -/
def execVintMinu (t : TileId) (a : VArgs) (s : State) : Res :=
  onTile t (fun _ => legal (isIntType a.ty) (.vec (.int .minu a))) s

/-- VINT_MAXU (R176): Vector unsigned maximum. -/
def execVintMaxu (t : TileId) (a : VArgs) (s : State) : Res :=
  onTile t (fun _ => legal (isIntType a.ty) (.vec (.int .maxu a))) s

/-- MULHS (R176): Vector signed multiply, high half. -/
def execMulhs (t : TileId) (a : VArgs) (s : State) : Res :=
  onTile t (fun _ => legal (isIntType a.ty) (.vec (.int .mulhs a))) s

/-- VINT_MULHU (R176): Vector unsigned multiply, high half. -/
def execVintMulhu (t : TileId) (a : VArgs) (s : State) : Res :=
  onTile t (fun _ => legal (isIntType a.ty) (.vec (.int .mulhu a))) s

/-- ABSDIFFU (R176): Vector unsigned absolute difference. -/
def execAbsdiffu (t : TileId) (a : VArgs) (s : State) : Res :=
  onTile t (fun _ => legal (isIntType a.ty) (.vec (.int .absdiffu a))) s

/-- VBIT_AND (R176): Vector bitwise AND. -/
def execVbitAnd (t : TileId) (a : VArgs) (s : State) : Res :=
  onTile t (fun _ => legal (isIntType a.ty) (.vec (.bit .and a))) s

/-- VBIT_OR (R176): Vector bitwise OR. -/
def execVbitOr (t : TileId) (a : VArgs) (s : State) : Res :=
  onTile t (fun _ => legal (isIntType a.ty) (.vec (.bit .or a))) s

/-- VBIT_XOR (R176): Vector bitwise XOR. -/
def execVbitXor (t : TileId) (a : VArgs) (s : State) : Res :=
  onTile t (fun _ => legal (isIntType a.ty) (.vec (.bit .xor a))) s

/-- ANDN (R176): Vector vs1 AND NOT vs2. -/
def execAndn (t : TileId) (a : VArgs) (s : State) : Res :=
  onTile t (fun _ => legal (isIntType a.ty) (.vec (.bit .andn a))) s

/-- VBIT_SHL (R176): Vector shift left by lane. -/
def execVbitShl (t : TileId) (a : VArgs) (s : State) : Res :=
  onTile t (fun _ => legal (isIntType a.ty) (.vec (.bit .shl a))) s

/-- VBIT_SHR (R176): Vector logical shift right by lane. -/
def execVbitShr (t : TileId) (a : VArgs) (s : State) : Res :=
  onTile t (fun _ => legal (isIntType a.ty) (.vec (.bit .shr a))) s

/-- VBIT_SAR (R176): Vector arithmetic shift right by lane. -/
def execVbitSar (t : TileId) (a : VArgs) (s : State) : Res :=
  onTile t (fun _ => legal (isIntType a.ty) (.vec (.bit .sar a))) s

/-- SHLI (R176): Vector shift left by an immediate. -/
def execShli (t : TileId) (a : VArgs) (s : State) : Res :=
  onTile t (fun _ => legal (isIntType a.ty) (.vec (.bit .shli a))) s

/-- SHRI (R176): Vector logical shift right by an immediate. -/
def execShri (t : TileId) (a : VArgs) (s : State) : Res :=
  onTile t (fun _ => legal (isIntType a.ty) (.vec (.bit .shri a))) s

/-- SARI (R176): Vector arithmetic shift right by an immediate. -/
def execSari (t : TileId) (a : VArgs) (s : State) : Res :=
  onTile t (fun _ => legal (isIntType a.ty) (.vec (.bit .sari a))) s

/-- VBIT_ABS (R176): Vector signed absolute value. -/
def execVbitAbs (t : TileId) (a : VArgs) (s : State) : Res :=
  onTile t (fun _ => legal (isIntType a.ty) (.vec (.bit .abs a))) s

/-- AVGU (R176): Vector unsigned rounding average. -/
def execAvgu (t : TileId) (a : VArgs) (s : State) : Res :=
  onTile t (fun _ => legal (isIntType a.ty) (.vec (.bit .avgu a))) s

/-- VCMP_EQ (R177): Vector compare equal into a predicate. -/
def execVcmpEq (t : TileId) (a : VArgs) (s : State) : Res :=
  onTile t (fun _ => legal (!isFp8 a.ty && a.vd.val < 8) (.vec (.cmp .eq a))) s

/-- VCMP_NE (R177): Vector compare not equal into a predicate. -/
def execVcmpNe (t : TileId) (a : VArgs) (s : State) : Res :=
  onTile t (fun _ => legal (!isFp8 a.ty && a.vd.val < 8) (.vec (.cmp .ne a))) s

/-- VCMP_LT (R177): Vector compare less into a predicate. -/
def execVcmpLt (t : TileId) (a : VArgs) (s : State) : Res :=
  onTile t (fun _ => legal (!isFp8 a.ty && a.vd.val < 8) (.vec (.cmp .lt a))) s

/-- VCMP_LE (R177): Vector compare less or equal into a predicate. -/
def execVcmpLe (t : TileId) (a : VArgs) (s : State) : Res :=
  onTile t (fun _ => legal (!isFp8 a.ty && a.vd.val < 8) (.vec (.cmp .le a))) s

/-- VCMP_LTU (R177): Vector unsigned compare less into a predicate. -/
def execVcmpLtu (t : TileId) (a : VArgs) (s : State) : Res :=
  onTile t (fun _ => legal (isIntType a.ty && a.vd.val < 8) (.vec (.cmp .ltu a))) s

/-- VCMP_LEU (R177): Vector unsigned compare less or equal into a predicate. -/
def execVcmpLeu (t : TileId) (a : VArgs) (s : State) : Res :=
  onTile t (fun _ => legal (isIntType a.ty && a.vd.val < 8) (.vec (.cmp .leu a))) s

/-- UNORD (R177): Vector unordered compare into a predicate. -/
def execUnord (t : TileId) (a : VArgs) (s : State) : Res :=
  onTile t (fun _ => legal (isArith a.ty && a.vd.val < 8) (.vec (.cmp .unord a))) s

/-- REV (R178): Reverse the lanes. -/
def execRev (t : TileId) (a : VArgs) (s : State) : Res :=
  onTile t (fun _ => .vec (.perm .rev a)) s

/-- ZIPLO (R178): Interleave the low halves. -/
def execZiplo (t : TileId) (a : VArgs) (s : State) : Res :=
  onTile t (fun _ => .vec (.perm .ziplo a)) s

/-- ZIPHI (R178): Interleave the high halves. -/
def execZiphi (t : TileId) (a : VArgs) (s : State) : Res :=
  onTile t (fun _ => .vec (.perm .ziphi a)) s

/-- UNZIPE (R178): Take the even lanes. -/
def execUnzipe (t : TileId) (a : VArgs) (s : State) : Res :=
  onTile t (fun _ => .vec (.perm .unzipe a)) s

/-- UNZIPO (R178): Take the odd lanes. -/
def execUnzipo (t : TileId) (a : VArgs) (s : State) : Res :=
  onTile t (fun _ => .vec (.perm .unzipo a)) s

/-- DUP (R178): Broadcast lane 0. -/
def execDup (t : TileId) (a : VArgs) (s : State) : Res :=
  onTile t (fun _ => .vec (.perm .dup a)) s

/-- COMPRESS (R178): Pack the active lanes to the bottom. -/
def execCompress (t : TileId) (a : VArgs) (s : State) : Res :=
  onTile t (fun _ => .vec (.perm .compress a)) s

/-- SEL (R178): Select lanes by the predicate. -/
def execSel (t : TileId) (a : VArgs) (s : State) : Res :=
  onTile t (fun _ => .vec (.perm .sel a)) s

/-- VTBL (R179): Byte table permute over 128 bytes. -/
def execVtbl (t : TileId) (a : VArgs) (vi : VReg) (s : State) : Res :=
  onTile t (fun _ => legal (a.ty = 0) (.vec (.tbl a vi))) s

/-- VGATHER (R180): Indexed gather of 16 elements. -/
def execVgather (t : TileId) (a : GatherArgs) (s : State) : Res :=
  onTile t (fun x => legal (a.sz.val ≤ 2) (.vec (.gather a (x.gr a.rs)))) s

/-- VSCATTER (R180): Indexed scatter of 16 elements. -/
def execVscatter (t : TileId) (a : GatherArgs) (s : State) : Res :=
  onTile t (fun x => legal (a.sz.val ≤ 2) (.vec (.scatter a (x.gr a.rs)))) s

/-- FMA (R181): VFMA vs1*vs2+vs3 with one rounding. -/
def execFma (t : TileId) (a : VArgs) (vs3 : VReg) (s : State) : Res :=
  onTile t (fun _ => legal (isArith a.ty) (.vec (.fma .fma a vs3))) s

/-- FMS (R181): VFMA vs1*vs2-vs3 with one rounding. -/
def execFms (t : TileId) (a : VArgs) (vs3 : VReg) (s : State) : Res :=
  onTile t (fun _ => legal (isArith a.ty) (.vec (.fma .fms a vs3))) s

/-- FNMA (R181): VFMA -(vs1*vs2)+vs3 with one rounding. -/
def execFnma (t : TileId) (a : VArgs) (vs3 : VReg) (s : State) : Res :=
  onTile t (fun _ => legal (isArith a.ty) (.vec (.fma .fnma a vs3))) s

/-- FNMS (R181): VFMA -(vs1*vs2)-vs3 with one rounding. -/
def execFnms (t : TileId) (a : VArgs) (vs3 : VReg) (s : State) : Res :=
  onTile t (fun _ => legal (isArith a.ty) (.vec (.fma .fnms a vs3))) s

/-- VDOT (R182): Dot-product accumulate into 32-bit lanes. -/
def execVdot (t : TileId) (a : VArgs) (fn : Fin 16) (s : State) : Res :=
  onTile t (fun _ => legal ((a.ty = 5 && fn.val ≤ 1) || (1 ≤ a.ty.val && a.ty.val ≤ 4 && fn = 0)) (.vec (.dot (fn = 1) a))) s

/-- VCMX (R183): Apply a 3x4 colour matrix to three planes. -/
def execVcmx (t : TileId) (a : VArgs) (s : State) : Res :=
  onTile t (fun x => legal (a.ty.val ≤ 1 && a.vs1.val ≤ 29 && a.vd.val ≤ 29) (.vec (.cmx a (x.gr a.vs2)))) s

/-- VCVT (R190): Convert lanes between types with the chosen rounding and saturation. -/
def execVcvt (t : TileId) (a : CvtArgs) (s : State) : Res :=
  onTile t (fun _ => legal (cvtLegal a) (.vec (.cvt a))) s

/-- SUM (R191): Fixed-order tree sum reduction. -/
def execSumI (t : TileId) (a : VArgs) (s : State) : Res :=
  onTile t (fun _ => legal (!isFp8 a.ty) (.vec (.red .sum a))) s

/-- VRED_MIN (R191): Fixed-order minimum reduction. -/
def execVredMin (t : TileId) (a : VArgs) (s : State) : Res :=
  onTile t (fun _ => legal (!isFp8 a.ty) (.vec (.red .min a))) s

/-- VRED_MAX (R191): Fixed-order maximum reduction. -/
def execVredMax (t : TileId) (a : VArgs) (s : State) : Res :=
  onTile t (fun _ => legal (!isFp8 a.ty) (.vec (.red .max a))) s

/-- SUMW (R191): Fixed-order widening sum reduction. -/
def execSumw (t : TileId) (a : VArgs) (s : State) : Res :=
  onTile t (fun _ => legal (a.ty ≠ 0 && a.ty ≠ 7) (.vec (.red .sumw a))) s

/-- PRED_AND (R198): Predicate AND. -/
def execPredAnd (t : TileId) (pd pa pb : PReg) (s : State) : Res :=
  onTile t (fun _ => .vec (.pred .and pd pa pb)) s

/-- PRED_OR (R198): Predicate OR. -/
def execPredOr (t : TileId) (pd pa pb : PReg) (s : State) : Res :=
  onTile t (fun _ => .vec (.pred .or pd pa pb)) s

/-- PRED_XOR (R198): Predicate XOR. -/
def execPredXor (t : TileId) (pd pa pb : PReg) (s : State) : Res :=
  onTile t (fun _ => .vec (.pred .xor pd pa pb)) s

/-- PRED_ANDN (R198): Predicate AND NOT. -/
def execPredAndn (t : TileId) (pd pa pb : PReg) (s : State) : Res :=
  onTile t (fun _ => .vec (.pred .andn pd pa pb)) s

/-- NOT (R198): Predicate NOT. -/
def execNotI (t : TileId) (pd pa : PReg) (s : State) : Res :=
  onTile t (fun _ => .vec (.pred .not pd pa 0)) s

/-- PRED_FROM_G (R198): Set a predicate register from a g register. -/
def execPredFromG (t : TileId) (pd : PReg) (rs : GReg) (s : State) : Res :=
  onTile t (fun x => .vec (.predSet pd (x.gr rs))) s

/-- PRED_FIRST_N (R198): Set the first min(g,64) lanes of a predicate. -/
def execPredFirstN (t : TileId) (pd : PReg) (rs : GReg) (s : State) : Res :=
  onTile t (fun x => .vec (.predSet pd (BitVec.ofNat 64 (2 ^ min (x.gr rs).toNat 64 - 1)))) s

/-- GTOV (R197): Move a g register into a vector lane. -/
def execGtov (t : TileId) (vd : VReg) (rs1 rs2 : GReg) (size : Fin 4) (s : State) : Res :=
  onTile t (fun x => .vec (.gtov vd size (x.gr rs2) (x.gr rs1))) s

/-- GBCAST (R197): Broadcast a g register to every lane. -/
def execGbcast (t : TileId) (vd : VReg) (rs1 : GReg) (size : Fin 4) (s : State) : Res :=
  onTile t (fun x => .vec (.bcast vd size (x.gr rs1))) s

/-- VMOV (R197): Copy a vector register. -/
def execVmov (t : TileId) (vd vs : VReg) (s : State) : Res :=
  onTile t (fun _ => .vec (.vmov vd vs)) s

/-- VHASH_GHINIT (R194): GHINIT on eight 64-bit lanes. -/
def execVhashGhinit (t : TileId) (a : VArgs) (s : State) : Res :=
  onTile t (fun _ => legal (a.ty = 0) (.vec (.vhash .ghinit a))) s

/-- VHASH_GHSTEP (R194): GHSTEP on eight 64-bit lanes. -/
def execVhashGhstep (t : TileId) (a : VArgs) (s : State) : Res :=
  onTile t (fun _ => legal (a.ty = 0) (.vec (.vhash .ghstep a))) s

/-- VHASH_GHFIN (R194): GHFIN on eight 64-bit lanes. -/
def execVhashGhfin (t : TileId) (a : VArgs) (s : State) : Res :=
  onTile t (fun _ => legal (a.ty = 0) (.vec (.vhash .ghfin a))) s

/-- VHASH_CRC32CD (R194): CRC32CD on eight 64-bit lanes. -/
def execVhashCrc32cd (t : TileId) (a : VArgs) (s : State) : Res :=
  onTile t (fun _ => legal (a.ty = 0) (.vec (.vhash (.crc 8) a))) s

/-- RNGCTR (R195): Compute Philox 4x32-10 on four counter groups. -/
def execRngctr (t : TileId) (a : VArgs) (s : State) : Res :=
  onTile t (fun x => .vec (.rng a (x.gr a.vs2))) s

/-- VLD (R175): Vector load of 64 bytes or of a broadcast element. -/
def execVld (t : TileId) (vd : VReg) (rs1 : GReg) (pg : PReg) (mode : Fin 8) (off : BitVec 10) (s : State) : Res :=
  onTile t (fun x => legal (mode.val ≤ 4) (.vec (.vld vd pg mode (vmAddr x rs1 mode off)))) s

/-- VST (R175): Vector store of the active byte lanes. -/
def execVst (t : TileId) (vd : VReg) (rs1 : GReg) (pg : PReg) (mode : Fin 8) (off : BitVec 10) (s : State) : Res :=
  onTile t (fun x => legal (mode = 0) (.vec (.vst vd pg (vmAddr x rs1 mode off)))) s

end Sys2Proof.Machine
end

