-- ==== Sys2Proof/Machine/XptCmds.lean ====
section
/-!
DEFINITION. The Yelmos Fabric Transport as commands (13 R461 to R489, 14 R527).
-/
namespace Sys2Proof.Machine

/-- WRITE (R481): A received YFT WRITE packet is judged, checked and placed. -/
def execWrite (p : YftPkt) (s : State) : Res :=
  act (fun v m => m.gotWrite v p) s

/-- READ_REQ (R479): A received READ_REQ is judged and checked, and the data is read and returned. -/
def execReadReq (p : YftPkt) (bad : List Nat) (s : State) : Res :=
  act (fun v m => m.gotReadReq v p bad) s

/-- READ_RESP (R473): A received READ_RESP places response data at the requester. -/
def execReadResp (p : YftPkt) (s : State) : Res :=
  act (fun v m => m.gotReadResp v p) s

/-- FETCH_ADD (R473): A received FETCH_ADD applies the add atomically and returns the old value. -/
def execFetchAdd (p : YftPkt) (s : State) : Res :=
  act (fun v m => m.gotAtomic v p false) s

/-- CAS (R473): A received CAS compares and swaps atomically and returns the old value. -/
def execCas (p : YftPkt) (s : State) : Res :=
  act (fun v m => m.gotAtomic v p true) s

/-- ATOMIC_RESP (R473): A received ATOMIC_RESP writes the old value at the requester. -/
def execAtomicResp (p : YftPkt) (s : State) : Res :=
  act (fun v m => m.gotAtomicResp v p) s

/-- SEND (R475): A received SEND takes a receive buffer, or is answered with a NAK. -/
def execSend (p : YftPkt) (s : State) : Res :=
  act (fun v m => m.gotSend v p) s

/-- ACK (R481): A received ACK advances acknowledgement and completes entries. -/
def execAck (p : YftPkt) (s : State) : Res :=
  act (fun v m => m.gotAck v p) s

/-- NAK (R478): A received NAK fails the message with its status, or schedules a resend. -/
def execNak (p : YftPkt) (s : State) : Res :=
  act (fun v m => m.gotNak v p) s

/-- ACK_TIMER (R481): 1 µs after an accepted packet, an ACK is sent. -/
def execAckTimer (q : U32) (s : State) : Res :=
  doing (fun m => m.ackTimer q.toNat) s

/-- RETRANSMIT (R481): A packet unacknowledged after RTO_US is retransmitted, or fails after RETRY_LIMIT. -/
def execRetransmit (q psn : U32) (s : State) : Res :=
  act (fun v m => m.retransmit v q.toNat psn.toNat) s

/-- PATH_PROBE (R466): A bad path is probed again after 1 ms. -/
def execPathProbe (node : U32) (path : Fin 64) (acked : Bool) (s : State) : Res :=
  doing (fun m => m.pathProbe node.toNat path.val acked) s

/-- READ_TIMEOUT (R479): A namespace read not begun within READ_TIMEOUT_MS fails with ST_MEDIA_UNRECOVERABLE. -/
def execReadTimeout (q index : U32) (s : State) : Res :=
  act (fun v m => m.readTimeout v q.toNat index.toNat) s

/-- XPT_DOORBELL (R470): A doorbell gives a queue its new TAIL, or is discarded. -/
def execXptDoorbell (w : Writer) (q tail : U32) (s : State) : Res :=
  doing (fun m => m.xptDoorbell w q.toNat tail.toNat) s

/-- YFT_WRITE (R473): A queue entry WRITE sends a message sprayed over paths. -/
def execYftWrite (q : U32) (s : State) : Res :=
  act (fun v m => m.startEntry v q.toNat 1) s

/-- YFT_READ (R473): A queue entry READ requests remote bytes. -/
def execYftRead (q : U32) (s : State) : Res :=
  act (fun v m => m.startEntry v q.toNat 2) s

/-- YFT_FETCH_ADD (R473): A queue entry FETCH_ADD requests a remote atomic add. -/
def execYftFetchAdd (q : U32) (s : State) : Res :=
  act (fun v m => m.startEntry v q.toNat 3) s

/-- YFT_CAS (R473): A queue entry CAS requests a remote compare-and-swap. -/
def execYftCas (q : U32) (s : State) : Res :=
  act (fun v m => m.startEntry v q.toNat 4) s

/-- YFT_SEND (R475): A queue entry SEND sends a message into a remote receive buffer. -/
def execYftSend (q : U32) (s : State) : Res :=
  act (fun v m => m.startEntry v q.toNat 5) s

/-- YFT_NOP (R472): A queue entry NOP completes once its waits are met. -/
def execYftNop (q : U32) (s : State) : Res :=
  act (fun v m => m.startEntry v q.toNat 6) s

/-- XPT_QDELETE (R468): A delete puts the queue in draining. -/
def execXptQdelete (w : Writer) (q : U32) (s : State) : Res :=
  doing (fun m => m.xptDelete w q.toNat) s

/-- QUEUE_DRAIN_END (R468): After 2 x LIFETIME_US, the remaining entries fail and the slot is freed. -/
def execQueueDrainEnd (q : U32) (s : State) : Res :=
  act (fun v m => m.drainEnd v q.toNat) s

/-- XPT_CQ_CONSUMED (R474): The owner reports consumed completion entries, or the write is discarded. -/
def execXptCqConsumed (w : Writer) (q count : U32) (s : State) : Res :=
  doing (fun m => m.cqConsumed w q.toNat count.toNat) s

/-- KEYCMD_CREATE (R477): An access-key create command executes at the commit point. -/
def execKeycmdCreate (w : Writer) (k : KeyCreate) (s : State) : Res :=
  act (fun v m => m.xkeyCreate v w k) s

/-- KEYCMD_INVALIDATE (R480): An access-key invalidate advances the key's GEN at the commit point. -/
def execKeycmdInvalidate (w : Writer) (id : U32) (s : State) : Res :=
  doing (fun m => m.xkeyInvalidate w id.toNat) s

/-- YFT_QCREATE (R527): A pipeline entry creates a YFT queue owned by the port. -/
def execYftQcreate (c : PipeCtx) (q : QCreate) (s : State) : Res :=
  act (fun v m => m.qCreate v c q) s

/-- YFT_QCONNECT (R527): A pipeline entry gives a queue its peer queue, making it ready. -/
def execYftQconnect (c : PipeCtx) (q peer : U32) (s : State) : Res :=
  doing (fun m => m.qConnect c q.toNat peer.toNat) s

/-- NODE_PATH (R527): A pipeline entry sets or clears a path in the node table. -/
def execNodePath (c : PipeCtx) (a : PathArgs) (s : State) : Res :=
  act (fun v m => m.nodePath v c a) s

/-- TIME (R483): A TIME exchange from a non-module peer is answered as SYNC. -/
def execTime (node : U32) (t2 t3 : U64) (s : State) : Res :=
  doing (fun m => m.gotTime node.toNat t2.toNat t3.toNat) s

end Sys2Proof.Machine
end

