-- ==== Sys2Proof/Machine/Dispatch.lean ====
section
/-!
DEFINITION. The meaning of every command: one arm per constructor of Instr, each a direct call of its meaning.
-/
namespace Sys2Proof.Machine

def exec (i : Instr) (s : State) : Host.Outcome State Fault Refusal :=
  match i with
  | .registerWrite ws => Sys2Proof.Machine.execRegisterWrite ws s
  | .commit w blk also => Sys2Proof.Machine.execCommit w blk also s
  | .discard w blk => Sys2Proof.Machine.execDiscard w blk s
  | .commitPoint blk => Sys2Proof.Machine.execCommitPoint blk s
  | .dieFault d cause => Sys2Proof.Machine.execDieFault d cause s
  | .hotSwapClose mv => Sys2Proof.Machine.execHotSwapClose mv s
  | .standbyUp addrSel => Sys2Proof.Machine.execStandbyUp addrSel s
  | .standbyLost mv => Sys2Proof.Machine.execStandbyLost mv s
  | .modEnRise lowMs emergHigh mv => Sys2Proof.Machine.execModEnRise lowMs emergHigh mv s
  | .coolantCheck minFlow maxInlet flow inlet => Sys2Proof.Machine.execCoolantCheck minFlow maxInlet flow inlet s
  | .railsInRegulation => Sys2Proof.Machine.execRailsInRegulation s
  | .railFault rail => Sys2Proof.Machine.execRailFault rail s
  | .pwrOkRise straps => Sys2Proof.Machine.execPwrOkRise straps s
  | .modEnFall => Sys2Proof.Machine.execModEnFall s
  | .undervoltageDetect mv => Sys2Proof.Machine.execUndervoltageDetect mv s
  | .bulkDepleted => Sys2Proof.Machine.execBulkDepleted s
  | .emergOff => Sys2Proof.Machine.execEmergOff s
  | .overvoltage mv => Sys2Proof.Machine.execOvervoltage mv s
  | .junctionTrip die temp => Sys2Proof.Machine.execJunctionTrip die temp s
  | .offRecord => Sys2Proof.Machine.execOffRecord s
  | .modReset lowNs => Sys2Proof.Machine.execModReset lowNs s
  | .svcReq => Sys2Proof.Machine.execSvcReq s
  | .quiesceComplete => Sys2Proof.Machine.execQuiesceComplete s
  | .svcReqRelease => Sys2Proof.Machine.execSvcReqRelease s
  | .quiesceTimeout => Sys2Proof.Machine.execQuiesceTimeout s
  | .wakeIn heldMs => Sys2Proof.Machine.execWakeIn heldMs s
  | .mgmtRequest req => Sys2Proof.Machine.execMgmtRequest req s
  | .flowLossDetect flow silent mhz => Sys2Proof.Machine.execFlowLossDetect flow silent mhz s
  | .flowLossDeadline => Sys2Proof.Machine.execFlowLossDeadline s
  | .flowRecovery flow => Sys2Proof.Machine.execFlowRecovery flow s
  | .inletHigh temp => Sys2Proof.Machine.execInletHigh temp s
  | .inletClear temp => Sys2Proof.Machine.execInletClear temp s
  | .throttleStart sensor temp mhz => Sys2Proof.Machine.execThrottleStart sensor temp mhz s
  | .throttleEnd sensor temp => Sys2Proof.Machine.execThrottleEnd sensor temp s
  | .powerLimitEngage mhz => Sys2Proof.Machine.execPowerLimitEngage mhz s
  | .powerLimitRelease => Sys2Proof.Machine.execPowerLimitRelease s
  | .supplySample mv dw => Sys2Proof.Machine.execSupplySample mv dw s
  | .carrierPgFall n => Sys2Proof.Machine.execCarrierPgFall n s
  | .carrierPgRise info => Sys2Proof.Machine.execCarrierPgRise info s
  | .coresRelease => Sys2Proof.Machine.execCoresRelease s
  | .gddr7Ready => Sys2Proof.Machine.execGddr7Ready s
  | .tilesReady results => Sys2Proof.Machine.execTilesReady results s
  | .ftlMount info => Sys2Proof.Machine.execFtlMount info s
  | .stageReady => Sys2Proof.Machine.execStageReady s
  | .toolRestReady => Sys2Proof.Machine.execToolRestReady s
  | .bootWatchdog => Sys2Proof.Machine.execBootWatchdog s
  | .linkTraining p => Sys2Proof.Machine.execLinkTraining p s
  | .configSpaceReady p speed width flit => Sys2Proof.Machine.execConfigSpaceReady p speed width flit s
  | .perstAssert p => Sys2Proof.Machine.execPerstAssert p s
  | .hotReset p => Sys2Proof.Machine.execHotReset p s
  | .surpriseDown p => Sys2Proof.Machine.execSurpriseDown p s
  | .d3hot p => Sys2Proof.Machine.execD3hot p s
  | .ccEn p => Sys2Proof.Machine.execCcEn p s
  | .ccDisable p => Sys2Proof.Machine.execCcDisable p s
  | .cstsRdy p => Sys2Proof.Machine.execCstsRdy p s
  | .ltr p snoop noSnoop => Sys2Proof.Machine.execLtr p snoop noSnoop s
  | .win4Read p off len => Sys2Proof.Machine.execWin4Read p off len s
  | .win4Write p off data => Sys2Proof.Machine.execWin4Write p off data s
  | .firmwareImageDownload n slot image => Sys2Proof.Machine.execFirmwareImageDownload n slot image s
  | .firmwareCommit n slot action => Sys2Proof.Machine.execFirmwareCommit n slot action s
  | .liveUpdateCore pass => Sys2Proof.Machine.execLiveUpdateCore pass s
  | .securitySend n data => Sys2Proof.Machine.execSecuritySend n data s
  | .securityReceive n alloc => Sys2Proof.Machine.execSecurityReceive n alloc s
  | .securityProtocolList n => Sys2Proof.Machine.execSecurityProtocolList n s
  | .keyRequest source => Sys2Proof.Machine.execKeyRequest source s
  | .migrationNonce dst nonce => Sys2Proof.Machine.execMigrationNonce dst nonce s
  | .migrationAttestation cert report node esc => Sys2Proof.Machine.execMigrationAttestation cert report node esc s
  | .migrationPackage package => Sys2Proof.Machine.execMigrationPackage package s
  | .migrationReceipt receipt => Sys2Proof.Machine.execMigrationReceipt receipt s
  | .adoptSel w sel => Sys2Proof.Machine.execAdoptSel w sel s
  | .gougeHash t => Sys2Proof.Machine.execGougeHash t s
  | .gougeLookup t => Sys2Proof.Machine.execGougeLookup t s
  | .gougeLzexec t => Sys2Proof.Machine.execGougeLzexec t s
  | .gougeHuff t => Sys2Proof.Machine.execGougeHuff t s
  | .gougeTans t => Sys2Proof.Machine.execGougeTans t s
  | .gougeStep t => Sys2Proof.Machine.execGougeStep t s
  | .aesDecrypt t => Sys2Proof.Machine.execAesDecrypt t s
  | .aesEncrypt t => Sys2Proof.Machine.execAesEncrypt t s
  | .dmaCopy t => Sys2Proof.Machine.execDmaCopy t s
  | .dmaFill t => Sys2Proof.Machine.execDmaFill t s
  | .dmaCopy2d t => Sys2Proof.Machine.execDmaCopy2d t s
  | .dmaCount t => Sys2Proof.Machine.execDmaCount t s
  | .clockStep c => Sys2Proof.Machine.execClockStep c s
  | .tableSetLoaded c j => Sys2Proof.Machine.execTableSetLoaded c j s
  | .add t rd rs1 rs2 => Sys2Proof.Machine.execAdd t rd rs1 rs2 s
  | .sub t rd rs1 rs2 => Sys2Proof.Machine.execSub t rd rs1 rs2 s
  | .andI t rd rs1 rs2 => Sys2Proof.Machine.execAndI t rd rs1 rs2 s
  | .orI t rd rs1 rs2 => Sys2Proof.Machine.execOrI t rd rs1 rs2 s
  | .xor t rd rs1 rs2 => Sys2Proof.Machine.execXor t rd rs1 rs2 s
  | .shl t rd rs1 rs2 => Sys2Proof.Machine.execShl t rd rs1 rs2 s
  | .shr t rd rs1 rs2 => Sys2Proof.Machine.execShr t rd rs1 rs2 s
  | .sar t rd rs1 rs2 => Sys2Proof.Machine.execSar t rd rs1 rs2 s
  | .ror t rd rs1 rs2 => Sys2Proof.Machine.execRor t rd rs1 rs2 s
  | .slt t rd rs1 rs2 => Sys2Proof.Machine.execSlt t rd rs1 rs2 s
  | .sltu t rd rs1 rs2 => Sys2Proof.Machine.execSltu t rd rs1 rs2 s
  | .minI t rd rs1 rs2 => Sys2Proof.Machine.execMinI t rd rs1 rs2 s
  | .maxI t rd rs1 rs2 => Sys2Proof.Machine.execMaxI t rd rs1 rs2 s
  | .minu t rd rs1 rs2 => Sys2Proof.Machine.execMinu t rd rs1 rs2 s
  | .maxu t rd rs1 rs2 => Sys2Proof.Machine.execMaxu t rd rs1 rs2 s
  | .mul t rd rs1 rs2 => Sys2Proof.Machine.execMul t rd rs1 rs2 s
  | .mulh t rd rs1 rs2 => Sys2Proof.Machine.execMulh t rd rs1 rs2 s
  | .mulhu t rd rs1 rs2 => Sys2Proof.Machine.execMulhu t rd rs1 rs2 s
  | .div t rd rs1 rs2 => Sys2Proof.Machine.execDiv t rd rs1 rs2 s
  | .divu t rd rs1 rs2 => Sys2Proof.Machine.execDivu t rd rs1 rs2 s
  | .rem t rd rs1 rs2 => Sys2Proof.Machine.execRem t rd rs1 rs2 s
  | .remu t rd rs1 rs2 => Sys2Proof.Machine.execRemu t rd rs1 rs2 s
  | .clz t rd rs1 rs2 => Sys2Proof.Machine.execClz t rd rs1 rs2 s
  | .ctz t rd rs1 rs2 => Sys2Proof.Machine.execCtz t rd rs1 rs2 s
  | .popc t rd rs1 rs2 => Sys2Proof.Machine.execPopc t rd rs1 rs2 s
  | .bswap t rd rs1 rs2 => Sys2Proof.Machine.execBswap t rd rs1 rs2 s
  | .addi t rd rs1 imm => Sys2Proof.Machine.execAddi t rd rs1 imm s
  | .andi t rd rs1 imm => Sys2Proof.Machine.execAndi t rd rs1 imm s
  | .ori t rd rs1 imm => Sys2Proof.Machine.execOri t rd rs1 imm s
  | .xori t rd rs1 imm => Sys2Proof.Machine.execXori t rd rs1 imm s
  | .shi t rd rs1 imm => Sys2Proof.Machine.execShi t rd rs1 imm s
  | .lui t rd rs1 imm => Sys2Proof.Machine.execLui t rd rs1 imm s
  | .slti t rd rs1 imm => Sys2Proof.Machine.execSlti t rd rs1 imm s
  | .sltiu t rd rs1 imm => Sys2Proof.Machine.execSltiu t rd rs1 imm s
  | .li t rd high imm => Sys2Proof.Machine.execLi t rd high imm s
  | .beq t rs1 rs2 off => Sys2Proof.Machine.execBeq t rs1 rs2 off s
  | .bne t rs1 rs2 off => Sys2Proof.Machine.execBne t rs1 rs2 off s
  | .blt t rs1 rs2 off => Sys2Proof.Machine.execBlt t rs1 rs2 off s
  | .bge t rs1 rs2 off => Sys2Proof.Machine.execBge t rs1 rs2 off s
  | .bltu t rs1 rs2 off => Sys2Proof.Machine.execBltu t rs1 rs2 off s
  | .bgeu t rs1 rs2 off => Sys2Proof.Machine.execBgeu t rs1 rs2 off s
  | .jal t rd off => Sys2Proof.Machine.execJal t rd off s
  | .jalr t rd rs1 imm => Sys2Proof.Machine.execJalr t rd rs1 imm s
  | .load t rd rs1 w off => Sys2Proof.Machine.execLoad t rd rs1 w off s
  | .store t rd rs1 w off => Sys2Proof.Machine.execStore t rd rs1 w off s
  | .vld t vd rs1 pg mode off => Sys2Proof.Machine.execVld t vd rs1 pg mode off s
  | .vst t vd rs1 pg mode off => Sys2Proof.Machine.execVst t vd rs1 pg mode off s
  | .vfpAdd t a => Sys2Proof.Machine.execVfpAdd t a s
  | .vfpSub t a => Sys2Proof.Machine.execVfpSub t a s
  | .vfpMul t a => Sys2Proof.Machine.execVfpMul t a s
  | .vfpDiv t a => Sys2Proof.Machine.execVfpDiv t a s
  | .sqrt t a => Sys2Proof.Machine.execSqrt t a s
  | .vfpMin t a => Sys2Proof.Machine.execVfpMin t a s
  | .vfpMax t a => Sys2Proof.Machine.execVfpMax t a s
  | .vfpAbs t a => Sys2Proof.Machine.execVfpAbs t a s
  | .neg t a => Sys2Proof.Machine.execNeg t a s
  | .floor t a => Sys2Proof.Machine.execFloor t a s
  | .ceil t a => Sys2Proof.Machine.execCeil t a s
  | .trunc t a => Sys2Proof.Machine.execTrunc t a s
  | .rint t a => Sys2Proof.Machine.execRint t a s
  | .vintAdd t a => Sys2Proof.Machine.execVintAdd t a s
  | .vintSub t a => Sys2Proof.Machine.execVintSub t a s
  | .adds t a => Sys2Proof.Machine.execAdds t a s
  | .addus t a => Sys2Proof.Machine.execAddus t a s
  | .subs t a => Sys2Proof.Machine.execSubs t a s
  | .subus t a => Sys2Proof.Machine.execSubus t a s
  | .vintMul t a => Sys2Proof.Machine.execVintMul t a s
  | .madd t a => Sys2Proof.Machine.execMadd t a s
  | .vintMin t a => Sys2Proof.Machine.execVintMin t a s
  | .vintMax t a => Sys2Proof.Machine.execVintMax t a s
  | .vintMinu t a => Sys2Proof.Machine.execVintMinu t a s
  | .vintMaxu t a => Sys2Proof.Machine.execVintMaxu t a s
  | .mulhs t a => Sys2Proof.Machine.execMulhs t a s
  | .vintMulhu t a => Sys2Proof.Machine.execVintMulhu t a s
  | .absdiffu t a => Sys2Proof.Machine.execAbsdiffu t a s
  | .vbitAnd t a => Sys2Proof.Machine.execVbitAnd t a s
  | .vbitOr t a => Sys2Proof.Machine.execVbitOr t a s
  | .vbitXor t a => Sys2Proof.Machine.execVbitXor t a s
  | .andn t a => Sys2Proof.Machine.execAndn t a s
  | .vbitShl t a => Sys2Proof.Machine.execVbitShl t a s
  | .vbitShr t a => Sys2Proof.Machine.execVbitShr t a s
  | .vbitSar t a => Sys2Proof.Machine.execVbitSar t a s
  | .shli t a => Sys2Proof.Machine.execShli t a s
  | .shri t a => Sys2Proof.Machine.execShri t a s
  | .sari t a => Sys2Proof.Machine.execSari t a s
  | .vbitAbs t a => Sys2Proof.Machine.execVbitAbs t a s
  | .avgu t a => Sys2Proof.Machine.execAvgu t a s
  | .vcmpEq t a => Sys2Proof.Machine.execVcmpEq t a s
  | .vcmpNe t a => Sys2Proof.Machine.execVcmpNe t a s
  | .vcmpLt t a => Sys2Proof.Machine.execVcmpLt t a s
  | .vcmpLe t a => Sys2Proof.Machine.execVcmpLe t a s
  | .vcmpLtu t a => Sys2Proof.Machine.execVcmpLtu t a s
  | .vcmpLeu t a => Sys2Proof.Machine.execVcmpLeu t a s
  | .unord t a => Sys2Proof.Machine.execUnord t a s
  | .rev t a => Sys2Proof.Machine.execRev t a s
  | .ziplo t a => Sys2Proof.Machine.execZiplo t a s
  | .ziphi t a => Sys2Proof.Machine.execZiphi t a s
  | .unzipe t a => Sys2Proof.Machine.execUnzipe t a s
  | .unzipo t a => Sys2Proof.Machine.execUnzipo t a s
  | .dup t a => Sys2Proof.Machine.execDup t a s
  | .compress t a => Sys2Proof.Machine.execCompress t a s
  | .sel t a => Sys2Proof.Machine.execSel t a s
  | .vtbl t a vi => Sys2Proof.Machine.execVtbl t a vi s
  | .vgather t a => Sys2Proof.Machine.execVgather t a s
  | .vscatter t a => Sys2Proof.Machine.execVscatter t a s
  | .fma t a vs3 => Sys2Proof.Machine.execFma t a vs3 s
  | .fms t a vs3 => Sys2Proof.Machine.execFms t a vs3 s
  | .fnma t a vs3 => Sys2Proof.Machine.execFnma t a vs3 s
  | .fnms t a vs3 => Sys2Proof.Machine.execFnms t a vs3 s
  | .vdot t a fn => Sys2Proof.Machine.execVdot t a fn s
  | .vcmx t a => Sys2Proof.Machine.execVcmx t a s
  | .vcvt t a => Sys2Proof.Machine.execVcvt t a s
  | .sumI t a => Sys2Proof.Machine.execSumI t a s
  | .vredMin t a => Sys2Proof.Machine.execVredMin t a s
  | .vredMax t a => Sys2Proof.Machine.execVredMax t a s
  | .sumw t a => Sys2Proof.Machine.execSumw t a s
  | .predAnd t pd pa pb => Sys2Proof.Machine.execPredAnd t pd pa pb s
  | .predOr t pd pa pb => Sys2Proof.Machine.execPredOr t pd pa pb s
  | .predXor t pd pa pb => Sys2Proof.Machine.execPredXor t pd pa pb s
  | .predAndn t pd pa pb => Sys2Proof.Machine.execPredAndn t pd pa pb s
  | .notI t pd pa => Sys2Proof.Machine.execNotI t pd pa s
  | .predFromG t pd rs => Sys2Proof.Machine.execPredFromG t pd rs s
  | .predToG t rs pa => Sys2Proof.Machine.execPredToG t rs pa s
  | .predFirstN t pd rs => Sys2Proof.Machine.execPredFirstN t pd rs s
  | .predPopc t rs pa => Sys2Proof.Machine.execPredPopc t rs pa s
  | .vtog t rd rs1 rs2 size => Sys2Proof.Machine.execVtog t rd rs1 rs2 size s
  | .gtov t vd rs1 rs2 size => Sys2Proof.Machine.execGtov t vd rs1 rs2 size s
  | .gbcast t vd rs1 size => Sys2Proof.Machine.execGbcast t vd rs1 size s
  | .vmov t vd vs => Sys2Proof.Machine.execVmov t vd vs s
  | .csrr t rd n => Sys2Proof.Machine.execCsrr t rd n s
  | .csrw t n rs1 => Sys2Proof.Machine.execCsrw t n rs1 s
  | .wait t e k => Sys2Proof.Machine.execWait t e k s
  | .waitRelease t eng => Sys2Proof.Machine.execWaitRelease t eng s
  | .signal t e k => Sys2Proof.Machine.execSignal t e k s
  | .trywait t e k rd => Sys2Proof.Machine.execTrywait t e k rd s
  | .fence t e r w => Sys2Proof.Machine.execFence t e r w s
  | .gq t vs => Sys2Proof.Machine.execGq t vs s
  | .aq t vs => Sys2Proof.Machine.execAq t vs s
  | .dq t vs => Sys2Proof.Machine.execDq t vs s
  | .nopI t => Sys2Proof.Machine.execNopI t s
  | .done t rs => Sys2Proof.Machine.execDone t rs s
  | .trap t code => Sys2Proof.Machine.execTrap t code s
  | .crc32cb t rd rs1 rs2 => Sys2Proof.Machine.execCrc32cb t rd rs1 rs2 s
  | .crc32ch t rd rs1 rs2 => Sys2Proof.Machine.execCrc32ch t rd rs1 rs2 s
  | .crc32cw t rd rs1 rs2 => Sys2Proof.Machine.execCrc32cw t rd rs1 rs2 s
  | .crc32cd t rd rs1 rs2 => Sys2Proof.Machine.execCrc32cd t rd rs1 rs2 s
  | .ghinit t rd rs1 rs2 => Sys2Proof.Machine.execGhinit t rd rs1 rs2 s
  | .ghstep t rd rs1 rs2 => Sys2Proof.Machine.execGhstep t rd rs1 rs2 s
  | .ghfin t rd rs1 rs2 => Sys2Proof.Machine.execGhfin t rd rs1 rs2 s
  | .vhashGhinit t a => Sys2Proof.Machine.execVhashGhinit t a s
  | .vhashGhstep t a => Sys2Proof.Machine.execVhashGhstep t a s
  | .vhashGhfin t a => Sys2Proof.Machine.execVhashGhfin t a s
  | .vhashCrc32cd t a => Sys2Proof.Machine.execVhashCrc32cd t a s
  | .rngctr t a => Sys2Proof.Machine.execRngctr t a s
  | .tileDeadlock t => Sys2Proof.Machine.execTileDeadlock t s
  | .entryPlace toDie n bytes slotLen rows frees kind => Sys2Proof.Machine.execEntryPlace toDie n bytes slotLen rows frees kind s
  | .dependencyMet c pos => Sys2Proof.Machine.execDependencyMet c pos s
  | .workUnitTake t => Sys2Proof.Machine.execWorkUnitTake t s
  | .spill c => Sys2Proof.Machine.execSpill c s
  | .entryCollect onDie q pos report => Sys2Proof.Machine.execEntryCollect onDie q pos report s
  | .clusterDeadlock c => Sys2Proof.Machine.execClusterDeadlock c s
  | .deadlockExamine c yft planned => Sys2Proof.Machine.execDeadlockExamine c yft planned s
  | .scrubRead a => Sys2Proof.Machine.execScrubRead a s
  | .refresh dev bank => Sys2Proof.Machine.execRefresh dev bank s
  | .retrainStart chan trig => Sys2Proof.Machine.execRetrainStart chan trig s
  | .retrainEnd chan pass => Sys2Proof.Machine.execRetrainEnd chan pass s
  | .memRetrainReq w bits => Sys2Proof.Machine.execMemRetrainReq w bits s
  | .memHostLimit w val => Sys2Proof.Machine.execMemHostLimit w val s
  | .alloc u owner size => Sys2Proof.Machine.execAlloc u owner size s
  | .free u owner handle => Sys2Proof.Machine.execFree u owner handle s
  | .chuckRefill k => Sys2Proof.Machine.execChuckRefill k s
  | .poolEnable w k count => Sys2Proof.Machine.execPoolEnable w k count s
  | .poolDisable w k count => Sys2Proof.Machine.execPoolDisable w k count s
  | .ctxCreate kind owner body => Sys2Proof.Machine.execCtxCreate kind owner body s
  | .ctxFree ref => Sys2Proof.Machine.execCtxFree ref s
  | .ctxCheckout unit ref pin => Sys2Proof.Machine.execCtxCheckout unit ref pin s
  | .ctxMissFill slot => Sys2Proof.Machine.execCtxMissFill slot s
  | .ctxCheckin unit slot body unpin => Sys2Proof.Machine.execCtxCheckin unit slot body unpin s
  | .ctxFlush w => Sys2Proof.Machine.execCtxFlush w s
  | .jobStart c image len launch list count => Sys2Proof.Machine.execJobStart c image len launch list count s
  | .launch j => Sys2Proof.Machine.execLaunch j s
  | .jobCancel c slot => Sys2Proof.Machine.execJobCancel c slot s
  | .sampleFetch j epoch pos ns remote bad => Sys2Proof.Machine.execSampleFetch j epoch pos ns remote bad s
  | .batchStart k => Sys2Proof.Machine.execBatchStart k s
  | .batchEmit k => Sys2Proof.Machine.execBatchEmit k s
  | .recordEmit j epoch pos => Sys2Proof.Machine.execRecordEmit j epoch pos s
  | .jobRelease j => Sys2Proof.Machine.execJobRelease j s
  | .augReady w j val => Sys2Proof.Machine.execAugReady w j val s
  | .dcLookup j epoch pos index found bad flashBad => Sys2Proof.Machine.execDcLookup j epoch pos index found bad flashBad s
  | .dcOffer j epoch pos payload index bad => Sys2Proof.Machine.execDcOffer j epoch pos payload index bad s
  | .dcInsert peer => Sys2Proof.Machine.execDcInsert peer s
  | .segmentReuse => Sys2Proof.Machine.execSegmentReuse s
  | .codec c request => Sys2Proof.Machine.execCodec c request s
  | .codecComplete j => Sys2Proof.Machine.execCodecComplete j s
  | .keyCreate n policy flags signer => Sys2Proof.Machine.execKeyCreate n policy flags signer s
  | .keyImport n policy flags signer kem iv ct tag => Sys2Proof.Machine.execKeyImport n policy flags signer kem iv ct tag s
  | .keyNarrow n h policy => Sys2Proof.Machine.execKeyNarrow n h policy s
  | .keyRevoke n h => Sys2Proof.Machine.execKeyRevoke n h s
  | .keyDestroy n h => Sys2Proof.Machine.execKeyDestroy n h s
  | .keyList n => Sys2Proof.Machine.execKeyList n s
  | .sessionStart c session => Sys2Proof.Machine.execSessionStart c session s
  | .sessionMessage j q => Sys2Proof.Machine.execSessionMessage j q s
  | .openI j cmd => Sys2Proof.Machine.execOpenI j cmd s
  | .step j ref stepNo token => Sys2Proof.Machine.execStep j ref stepNo token s
  | .closeI j ref => Sys2Proof.Machine.execCloseI j ref s
  | .outputFrameWrite j => Sys2Proof.Machine.execOutputFrameWrite j s
  | .syncPeriod node t1 => Sys2Proof.Machine.execSyncPeriod node t1 s
  | .sync node t1 t2 t3 t4 est => Sys2Proof.Machine.execSync node t1 t2 t3 t4 est s
  | .syncReply node t2 t3 t4 => Sys2Proof.Machine.execSyncReply node t2 t3 t4 s
  | .holdoverEnter => Sys2Proof.Machine.execHoldoverEnter s
  | .unsyncEnter => Sys2Proof.Machine.execUnsyncEnter s
  | .spnSet w val => Sys2Proof.Machine.execSpnSet w val s
  | .spnMgrNode w node => Sys2Proof.Machine.execSpnMgrNode w node s
  | .hello node => Sys2Proof.Machine.execHello node s
  | .nonce node nonce => Sys2Proof.Machine.execNonce node nonce s
  | .join node cert report caps fdoms hasJob t1 t2 t3 t4 => Sys2Proof.Machine.execJoin node cert report caps fdoms hasJob t1 t2 t3 t4 s
  | .welcome node tol => Sys2Proof.Machine.execWelcome node tol s
  | .refuse node status => Sys2Proof.Machine.execRefuse node status s
  | .prepare node planSeq nonce digest len idx modules l children homes => Sys2Proof.Machine.execPrepare node planSeq nonce digest len idx modules l children homes s
  | .imageStaged planSeq image => Sys2Proof.Machine.execImageStaged planSeq image s
  | .ready node planSeq count => Sys2Proof.Machine.execReady node planSeq count s
  | .refusePlan node planSeq status => Sys2Proof.Machine.execRefusePlan node planSeq status s
  | .prepareTimeout planSeq => Sys2Proof.Machine.execPrepareTimeout planSeq s
  | .go node planSeq launch => Sys2Proof.Machine.execGo node planSeq launch s
  | .cancel node planSeq => Sys2Proof.Machine.execCancel node planSeq s
  | .report node planSeq stats digest => Sys2Proof.Machine.execReport node planSeq stats digest s
  | .lost node planSeq idx => Sys2Proof.Machine.execLost node planSeq idx s
  | .leave node => Sys2Proof.Machine.execLeave node s
  | .workerSilent node => Sys2Proof.Machine.execWorkerSilent node s
  | .time node t2 t3 => Sys2Proof.Machine.execTime node t2 t3 s
  | .linkUp p app => Sys2Proof.Machine.execLinkUp p app s
  | .linkDown p => Sys2Proof.Machine.execLinkDown p s
  | .bringupRetry p active app => Sys2Proof.Machine.execBringupRetry p active app s
  | .spareHello p => Sys2Proof.Machine.execSpareHello p s
  | .laneDegrade p lane => Sys2Proof.Machine.execLaneDegrade p lane s
  | .spareReq p lane => Sys2Proof.Machine.execSpareReq p lane s
  | .spareAck p => Sys2Proof.Machine.execSpareAck p s
  | .spareDone p => Sys2Proof.Machine.execSpareDone p s
  | .spareAbandon p => Sys2Proof.Machine.execSpareAbandon p s
  | .req p => Sys2Proof.Machine.execReq p s
  | .revert p => Sys2Proof.Machine.execRevert p s
  | .cmisPoll p r => Sys2Proof.Machine.execCmisPoll p r s
  | .oeInterrupt p lanes => Sys2Proof.Machine.execOeInterrupt p lanes s
  | .oeRemoval p => Sys2Proof.Machine.execOeRemoval p s
  | .oeInsertion p => Sys2Proof.Machine.execOeInsertion p s
  | .marginSweep p l => Sys2Proof.Machine.execMarginSweep p l s
  | .write p => Sys2Proof.Machine.execWrite p s
  | .readReq p bad => Sys2Proof.Machine.execReadReq p bad s
  | .readResp p => Sys2Proof.Machine.execReadResp p s
  | .fetchAdd p => Sys2Proof.Machine.execFetchAdd p s
  | .cas p => Sys2Proof.Machine.execCas p s
  | .atomicResp p => Sys2Proof.Machine.execAtomicResp p s
  | .send p => Sys2Proof.Machine.execSend p s
  | .ack p => Sys2Proof.Machine.execAck p s
  | .nak p => Sys2Proof.Machine.execNak p s
  | .ackTimer q => Sys2Proof.Machine.execAckTimer q s
  | .retransmit q psn => Sys2Proof.Machine.execRetransmit q psn s
  | .pathProbe node path acked => Sys2Proof.Machine.execPathProbe node path acked s
  | .readTimeout q index => Sys2Proof.Machine.execReadTimeout q index s
  | .xptDoorbell w q tail => Sys2Proof.Machine.execXptDoorbell w q tail s
  | .yftWrite q => Sys2Proof.Machine.execYftWrite q s
  | .yftRead q => Sys2Proof.Machine.execYftRead q s
  | .yftFetchAdd q => Sys2Proof.Machine.execYftFetchAdd q s
  | .yftCas q => Sys2Proof.Machine.execYftCas q s
  | .yftSend q => Sys2Proof.Machine.execYftSend q s
  | .yftNop q => Sys2Proof.Machine.execYftNop q s
  | .xptQdelete w q => Sys2Proof.Machine.execXptQdelete w q s
  | .queueDrainEnd q => Sys2Proof.Machine.execQueueDrainEnd q s
  | .xptCqConsumed w q count => Sys2Proof.Machine.execXptCqConsumed w q count s
  | .keycmdCreate w k => Sys2Proof.Machine.execKeycmdCreate w k s
  | .keycmdInvalidate w id => Sys2Proof.Machine.execKeycmdInvalidate w id s
  | .createIoSq n qid size cqid => Sys2Proof.Machine.execCreateIoSq n qid size cqid s
  | .deleteIoSq n qid => Sys2Proof.Machine.execDeleteIoSq n qid s
  | .createIoCq n qid size vector ien => Sys2Proof.Machine.execCreateIoCq n qid size vector ien s
  | .deleteIoCq n qid => Sys2Proof.Machine.execDeleteIoCq n qid s
  | .getLogPage n lid off len => Sys2Proof.Machine.execGetLogPage n lid off len s
  | .identify n cns nsid => Sys2Proof.Machine.execIdentify n cns nsid s
  | .abort n qid cid => Sys2Proof.Machine.execAbort n qid cid s
  | .setFeatures n fid val hostId => Sys2Proof.Machine.execSetFeatures n fid val hostId s
  | .getFeatures n fid => Sys2Proof.Machine.execGetFeatures n fid s
  | .asyncEventRequest n => Sys2Proof.Machine.execAsyncEventRequest n s
  | .namespaceCreate n nsze lbaf iu kind key rsvd => Sys2Proof.Machine.execNamespaceCreate n nsze lbaf iu kind key rsvd s
  | .namespaceDelete n nsid => Sys2Proof.Machine.execNamespaceDelete n nsid s
  | .namespaceAttach n nsid ports => Sys2Proof.Machine.execNamespaceAttach n nsid ports s
  | .namespaceDetach n nsid ports => Sys2Proof.Machine.execNamespaceDetach n nsid ports s
  | .nvmeMiSend n op arg val => Sys2Proof.Machine.execNvmeMiSend n op arg val s
  | .nvmeMiReceive n => Sys2Proof.Machine.execNvmeMiReceive n s
  | .readNvmeMiDataStructure p dtyp => Sys2Proof.Machine.execReadNvmeMiDataStructure p dtyp s
  | .subsystemHealthStatusPoll p => Sys2Proof.Machine.execSubsystemHealthStatusPoll p s
  | .controllerHealthStatusPoll p => Sys2Proof.Machine.execControllerHealthStatusPoll p s
  | .configurationGet p ident => Sys2Proof.Machine.execConfigurationGet p ident s
  | .configurationSet p ident val => Sys2Proof.Machine.execConfigurationSet p ident val s
  | .vpdRead p => Sys2Proof.Machine.execVpdRead p s
  | .formatNvm n nsid ses lbaf => Sys2Proof.Machine.execFormatNvm n nsid ses lbaf s
  | .blockErase n => Sys2Proof.Machine.execBlockErase n s
  | .cryptoErase n => Sys2Proof.Machine.execCryptoErase n s
  | .exitFailureMode n => Sys2Proof.Machine.execExitFailureMode n s
  | .overwrite n => Sys2Proof.Machine.execOverwrite n s
  | .raiseSecurityVersion n tr val => Sys2Proof.Machine.execRaiseSecurityVersion n tr val s
  | .createPipelineQueue n q sqLog cqLog vector ien sqBase cqBase => Sys2Proof.Machine.execCreatePipelineQueue n q sqLog cqLog vector ien sqBase cqBase s
  | .deletePipelineQueue n q => Sys2Proof.Machine.execDeletePipelineQueue n q s
  | .flush n nsid => Sys2Proof.Machine.execFlush n nsid s
  | .nvmWrite n nsid slba data bad => Sys2Proof.Machine.execNvmWrite n nsid slba data bad s
  | .nvmRead n nsid slba nlb bad tag => Sys2Proof.Machine.execNvmRead n nsid slba nlb bad tag s
  | .writeZeroes n nsid slba nlb => Sys2Proof.Machine.execWriteZeroes n nsid slba nlb s
  | .datasetManagement n nsid deallocate ranges => Sys2Proof.Machine.execDatasetManagement n nsid deallocate ranges s
  | .reservationRegister n nsid a => Sys2Proof.Machine.execReservationRegister n nsid a s
  | .reservationReport n nsid => Sys2Proof.Machine.execReservationReport n nsid s
  | .reservationAcquire n nsid a => Sys2Proof.Machine.execReservationAcquire n nsid a s
  | .reservationRelease n nsid a => Sys2Proof.Machine.execReservationRelease n nsid a s
  | .sqTail writer page q tail => Sys2Proof.Machine.execSqTail writer page q tail s
  | .cqHead writer page q head => Sys2Proof.Machine.execCqHead writer page q head s
  | .yftQcreate c q => Sys2Proof.Machine.execYftQcreate c q s
  | .yftQconnect c q peer => Sys2Proof.Machine.execYftQconnect c q peer s
  | .nodePath c a => Sys2Proof.Machine.execNodePath c a s
  | .pipeNop c => Sys2Proof.Machine.execPipeNop c s
  | .handover p claimToo => Sys2Proof.Machine.execHandover p claimToo s
  | .claim p => Sys2Proof.Machine.execClaim p s
  | .flashRead sb step half nsid unit => Sys2Proof.Machine.execFlashRead sb step half nsid unit s
  | .flashProgramFail sb block => Sys2Proof.Machine.execFlashProgramFail sb block s
  | .fold verify => Sys2Proof.Machine.execFold verify s
  | .gcCollect bad fails => Sys2Proof.Machine.execGcCollect bad fails s
  | .journalPageProgram => Sys2Proof.Machine.execJournalPageProgram s
  | .checkpoint => Sys2Proof.Machine.execCheckpoint s
  | .channelRecal chan trig pass => Sys2Proof.Machine.execChannelRecal chan trig pass s
  | .flmRecalReq w bits => Sys2Proof.Machine.execFlmRecalReq w bits s
  | .dieFailure chan die => Sys2Proof.Machine.execDieFailure chan die s
  | .mediaTimeTick => Sys2Proof.Machine.execMediaTimeTick s
  | .flmMediaTime w val => Sys2Proof.Machine.execFlmMediaTime w val s
  | .flmStoredCfg w val => Sys2Proof.Machine.execFlmStoredCfg w val s
  | .ps1Enter c => Sys2Proof.Machine.execPs1Enter c s
  | .ps1Exit c => Sys2Proof.Machine.execPs1Exit c s
  | .ps2Enter r ev => Sys2Proof.Machine.execPs2Enter r ev s
  | .ps2Exit r => Sys2Proof.Machine.execPs2Exit r s
  | .ps3Enter ev => Sys2Proof.Machine.execPs3Enter ev s
  | .ps3Exit failed => Sys2Proof.Machine.execPs3Exit failed s
  | .ps4Enter ev => Sys2Proof.Machine.execPs4Enter ev s
  | .ps4Exit failed => Sys2Proof.Machine.execPs4Exit failed s
  | .resample found => Sys2Proof.Machine.execResample found s
  | .knownEventWake => Sys2Proof.Machine.execKnownEventWake s
  | .pwrWakeAt w val => Sys2Proof.Machine.execPwrWakeAt w val s
  | .idleSlowLimit c => Sys2Proof.Machine.execIdleSlowLimit c s
  | .selftestSlot r results => Sys2Proof.Machine.execSelftestSlot r results s
  | .hardFault t => Sys2Proof.Machine.execHardFault t s
  | .suspectConfirmation t suites derateAt => Sys2Proof.Machine.execSuspectConfirmation t suites derateAt s
  | .stormEnd w1c => Sys2Proof.Machine.execStormEnd w1c s
  | .spareTakeover c => Sys2Proof.Machine.execSpareTakeover c s
  | .rasDerateClear go t => Sys2Proof.Machine.execRasDerateClear go t s
  | .eccCe => Sys2Proof.Machine.execEccCe s
  | .eccUe => Sys2Proof.Machine.execEccUe s
  | .laneLoss => Sys2Proof.Machine.execLaneLoss s
  | .tileFault r => Sys2Proof.Machine.execTileFault r s
  | .programFail sb block => Sys2Proof.Machine.execProgramFail sb block s
  | .psRefuse r => Sys2Proof.Machine.execPsRefuse r s
  | .injectionDisarm w => Sys2Proof.Machine.execInjectionDisarm w s
  | .marginReading eyes lanes0 lanes1 supplies => Sys2Proof.Machine.execMarginReading eyes lanes0 lanes1 supplies s
  | .recordToNor => Sys2Proof.Machine.execRecordToNor s
  | .evrRdSeq w sel seq => Sys2Proof.Machine.execEvrRdSeq w sel seq s
  | .evrRdLoaded sel => Sys2Proof.Machine.execEvrRdLoaded sel s
  | .inputReturn mv => Sys2Proof.Machine.execInputReturn mv s
  | .rootOfTrustFault => Sys2Proof.Machine.execRootOfTrustFault s
  | .sensorCalibration running => Sys2Proof.Machine.execSensorCalibration running s
  | .ctxFlushComplete => Sys2Proof.Machine.execCtxFlushComplete s
  | .sanitizeComplete ok => Sys2Proof.Machine.execSanitizeComplete ok s
  | .formatComplete => Sys2Proof.Machine.execFormatComplete s
  | .d3hotExit p => Sys2Proof.Machine.execD3hotExit p s
  | .linkPowerStateChange p lstate => Sys2Proof.Machine.execLinkPowerStateChange p lstate s
  | .marginingCommand p => Sys2Proof.Machine.execMarginingCommand p s
  | .configurationRequest p => Sys2Proof.Machine.execConfigurationRequest p s
  | .swapRepeat p => Sys2Proof.Machine.execSwapRepeat p s
  | .nonYftFrame p pause => Sys2Proof.Machine.execNonYftFrame p pause s
  | .workerRejoin => Sys2Proof.Machine.execWorkerRejoin s
  | .derateBandChange c temp => Sys2Proof.Machine.execDerateBandChange c temp s

end Sys2Proof.Machine
end

