-- ==== Sys2Proof/Safety.lean ====
section
/-!
DEFINITION. What the claims call a run, and what they call safe: the fuses never fall, and the memories keep their
canonical form.
-/
namespace Sys2Proof

open Machine

/-- One step leads from s to t. -/
def StepsTo (s t : State) : Prop := step s = .next t

/-- Some number of steps leads from s to t. -/
inductive Reaches (s : State) : State → Prop where
  | refl : Reaches s s
  | tail {t u : State} : Reaches s t → StepsTo t u → Reaches s u

/-- The fuses only ever go forward (03_startup_and_trust.md R93, R102): no minimum security version falls, and no
revoked vendor key comes back. -/
def FusesKept (s t : State) : Prop :=
  s.mach.boot.fwMinSvn ≤ t.mach.boot.fwMinSvn ∧ s.mach.boot.trMinSvn ≤ t.mach.boot.trMinSvn ∧
    ∀ i : Nat, bitAt s.mach.boot.revoked i = true → bitAt t.mach.boot.revoked i = true

/-- What the fuses can hold (03_startup_and_trust.md R93): security versions of 64 and 16 fuses, four vendor keys. -/
def FuseBounds (b : Boot) : Prop := b.fwMinSvn ≤ 64 ∧ b.trMinSvn ≤ 16 ∧ b.revoked < 2 ^ 4

/-- Every memory of the module is in canonical form: addresses strictly rise and no entry is 0. -/
def MemoriesWf (m : Mach) : Prop :=
  Memory.wf m.mem.gddr = true ∧ (∀ p ∈ m.tl.tiles, Memory.wf p.2.sram = true) ∧
    (∀ p ∈ m.tl.clusters, Memory.wf p.2.sram = true)

/-- A command is done, with the result that a relation describes: it answers a next state that leaves the order number
and the queue, and the relation holds of the machine before and after. -/
def Does (c : Instr) (s : State) (r : Mach → Mach → Prop) : Prop :=
  ∃ m : Mach, exec c s = .next { s with mach := m } ∧ r s.mach m

/-- An NVMe command is served: its controller is ready, its queue exists, and no rule stops it (14 R502, R516 to R519). -/
def Served (m : Mach) (n : NvmeCtx) (k : NvmeKind) : Prop :=
  (m.port n.port.val).ctl.rdy = true ∧ m.nvmeQueue n = true ∧ m.nvmeStop n k = none

/-- The completion of an NVMe command. -/
def completion (n : NvmeCtx) (sct sc dw1 : Nat) (data : List Byte) : Out :=
  .nvme n.port.val n.qid n.cid.toNat sct sc dw1 data

/-- The machine with the frame of a packet counted. -/
def framed (m : Mach) (p : YftPkt) : Mach := m.addFld (Reg.fabFramesRx p.port.val) 63 0 1

/-- A packet passes steps 1 to 4 of 13 R481 in an unsealed queue, as the d-th after RX_BASE. -/
def PktNew (m : Mach) (typ : Nat) (p : YftPkt) (ref d : Nat) : Prop :=
  p.frameOk = true ∧ m.pktGood typ p = true ∧ m.pktLate p = false ∧ p.dstQueue ≠ 0 ∧ m.pktQueue p = some ref ∧
    judgePsn (m.qNat ref 0x50 4) (m.qNat ref 0x58 128) p.psn.toNat = .new d ∧ bitAt p.flags.toNat 0 = false ∧ m.qSealed ref = false

/-- Queue ref may take its next entry, which has the OP and the bytes e (13 R470, R472). -/
def EntryDue (v : Variant) (m : Mach) (ref op : Nat) (x : CtxSlot) (e : List Byte) : Prop :=
  m.queue? ref = some x ∧ e = m.devRead v (slotNat x 0x18 8 + slotNat x 0x24 4 % 2 ^ slotNat x 0x20 1 * 64) 64 ∧
    slotNat x 0x21 1 = 0 ∧ slotNat x 0x14 4 ≠ 0 ∧ slotNat x 0x24 4 ≠ slotNat x 0x28 4 ∧ leAt e 0 1 = op ∧
    (m.xq ref).entries.length < 64 ∧ m.waitOver ref e = true ∧ (m.node ≠ 0 ∨ op = 6)

/-- The entry of a pipeline command is taken, alone in its queue and with room for its completion (14 R523). -/
def PipeDue (m : Mach) (c : PipeCtx) (x : PipeQ) : Prop :=
  m.pipeQ c.port.val c.q.val = some x ∧ m.fetches = true ∧ x.sqHead ≠ x.sqTail ∧ x.started = [] ∧ x.waiting = [] ∧
    (x.posted + 1) % 2 ^ x.cqLog ≠ x.cqHead

/-- The queue of that command once the entry is taken. -/
def taken (m : Mach) (c : PipeCtx) (x : PipeQ) : Mach :=
  m.setPipe c.port.val c.q.val { x with sqHead := (x.sqHead + 1) % 2 ^ x.sqLog, started := [c.cid.toNat] }

/-- Machine b after the command's entry has completed with RESULT r and STATUS st. -/
def answered (b : Mach) (c : PipeCtx) (x : PipeQ) (r st : Nat) : Mach :=
  let h := (x.sqHead + 1) % 2 ^ x.sqLog
  (((b.setPipe c.port.val c.q.val { x with sqHead := h, started := [] }).countDenied st).setPipe c.port.val c.q.val
    { x with sqHead := h, started := [], posted := x.posted + 1 }).send
      (.pipe c.port.val c.q.val r h c.cid.toNat st (x.posted / 2 ^ x.cqLog % 2 = 0) false)

/-! ### Tiles -/

/-- Tile t becomes y; every other tile and every other part of the machine stays as it is. -/
def OnlyTile (t : Nat) (y : Tile) (m m' : Mach) : Prop :=
  m'.tile t = y ∧ (∀ u : Nat, u ≠ t → m'.tile u = m.tile u) ∧ m' = { m with tl := { m.tl with tiles := m'.tl.tiles } }

/-- The scalar core of tile t runs and the n bytes at its PC lie in the unit's code object (05 R163, R171). -/
def ScalarReady (m : Mach) (t n : Nat) : Prop :=
  (m.tile t).scalarFree = true ∧ (m.tile t).goodPc (m.tile t).pc n = true

/-- The vector unit is also idle: its queue is empty and it waits for nothing. -/
def VectorReady (m : Mach) (t n : Nat) : Prop :=
  ScalarReady m t n ∧ (m.tile t).vq = [] ∧ (m.tile t).waiting 1 = false

/-- The command completes and writes x to g[rd] (g0 keeps reading 0); PC moves by n and nothing else changes. -/
def SetsG (c : Instr) (s : State) (t : Nat) (rd : GReg) (x : U64) (n : Nat) : Prop :=
  ∃ y : Tile, Does c s (OnlyTile t y) ∧
    (∀ r : GReg, y.gr r = if r = 0 then 0 else if r = rd then x else (s.mach.tile t).gr r) ∧
    y = { s.mach.tile t with g := y.g, pc := (s.mach.tile t).pc + n }

/-- The command completes and PC becomes a; nothing else changes. -/
def SetsPc (c : Instr) (s : State) (t : Nat) (a : Nat) : Prop :=
  Does c s (OnlyTile t { s.mach.tile t with pc := a })

/-- The command completes and writes the active lanes (of w bits) of v[vd] with f, modulo 2^w; inactive lanes, every
other register and every other part of the tile but FSTAT, which becomes fl, and PC, which moves by n, keep their value. -/
def SetsLanes (c : Instr) (s : State) (t n w : Nat) (vd : VReg) (on : Nat → Bool) (f : Nat → Nat) (fl : Nat) : Prop :=
  ∃ y : Tile, Does c s (OnlyTile t y) ∧
    (∀ k : Nat, k < 512 / w →
      laneOf w (y.vr vd) k = if on k then f k % 2 ^ w else laneOf w ((s.mach.tile t).vr vd) k) ∧
    (∀ r : VReg, r ≠ vd → y.vr r = (s.mach.tile t).vr r) ∧
    y = { s.mach.tile t with v := y.v, fstat := fl, pc := (s.mach.tile t).pc + n }

/-- The command completes and writes x to p[pd] (p0 keeps reading all ones), with FSTAT and PC as in SetsLanes. -/
def SetsP (c : Instr) (s : State) (t n : Nat) (pd : PReg) (x : U64) (fl : Nat) : Prop :=
  ∃ y : Tile, Does c s (OnlyTile t y) ∧
    (∀ r : PReg, y.pr r = if r = 0 then BitVec.allOnes 64 else if r = pd then x else (s.mach.tile t).pr r) ∧
    y = { s.mach.tile t with p := y.p, fstat := fl, pc := (s.mach.tile t).pc + n }

/-- FSTAT with the flags of the active lanes added (05 R163, R174). -/
def flagsAfter (x : Tile) (n : Nat) (on : Nat → Bool) (f : Nat → Flags) : Nat :=
  (x.fstat ||| (((List.range n).filter on).map f).foldl (fun a b => a ||| b) 0) % 64

/-- Tile t runs unit u, whose entry e lies in its queue and has had no run that ended without DONE. -/
def FirstRun (m : Mach) (t : Nat) (u : WorkUnit) (e : QEntry) : Prop :=
  (m.tile t).unit = some u ∧ (m.tile t).running = true ∧ m.entryAt u.loc = some e ∧ e.runs = []

/-- The command raises an exception of the scalar core on tile t (05 R209 to R211): TILE_EXC takes the PC and CAUSE, the
program's state ends, the tile keeps the descriptors that have started, and the unit's entry is READY again. -/
def RaisesFirst (c : Instr) (s : State) (t cause code : Nat) (u : WorkUnit) (e : QEntry) : Prop :=
  let x := s.mach.tile t
  Does c s (fun m m' =>
    m' = ((m.setReg (Reg.tileExc t) (BitVec.ofNat 64 (x.pc % 2 ^ 32 * 2 ^ 32 + cause))).setTile t
      (x.endUnit true)).putEntry u.loc
        (some { e with state := .ready, runs := [⟨t, .exception cause x.pc code⟩], takenBy := none }))

end Sys2Proof
end

