-- ==== Sys2Proof/Certificates/Slice0/Obligations.lean ====
section
/-!
DEFINITION. The statements for the provers.
-/
open Sys2Proof Sys2Proof.Machine

/-- On a tile whose scalar core runs with PC in the code object, each of the 22 two-operand SALU operations
completes; rd takes the result that the table of R169 and R170 give (g0 keeps reading 0), PC moves past the
word, and no other register, tile or part of the machine changes. (R169; R170) -/
def Obligations.ScalarArithmetic : Prop :=
  ∀ (s : State) (t : TileId) (rd rs1 rs2 : GReg), ScalarReady s.mach t.val 4 →
    let a := (s.mach.tile t.val).gr rs1
    let b := (s.mach.tile t.val).gr rs2
    SetsG (.add t rd rs1 rs2) s t.val rd (a + b) 4 ∧
    SetsG (.sub t rd rs1 rs2) s t.val rd (a - b) 4 ∧
    SetsG (.andI t rd rs1 rs2) s t.val rd (a &&& b) 4 ∧
    SetsG (.orI t rd rs1 rs2) s t.val rd (a ||| b) 4 ∧
    SetsG (.xor t rd rs1 rs2) s t.val rd (a ^^^ b) 4 ∧
    SetsG (.shl t rd rs1 rs2) s t.val rd (a <<< (b.toNat % 64)) 4 ∧
    SetsG (.shr t rd rs1 rs2) s t.val rd (a >>> (b.toNat % 64)) 4 ∧
    SetsG (.sar t rd rs1 rs2) s t.val rd (a.sshiftRight (b.toNat % 64)) 4 ∧
    SetsG (.ror t rd rs1 rs2) s t.val rd (a.rotateRight (b.toNat % 64)) 4 ∧
    SetsG (.slt t rd rs1 rs2) s t.val rd (if a.toInt < b.toInt then 1 else 0) 4 ∧
    SetsG (.sltu t rd rs1 rs2) s t.val rd (if a.toNat < b.toNat then 1 else 0) 4 ∧
    SetsG (.minI t rd rs1 rs2) s t.val rd (if a.toInt < b.toInt then a else b) 4 ∧
    SetsG (.maxI t rd rs1 rs2) s t.val rd (if a.toInt < b.toInt then b else a) 4 ∧
    SetsG (.minu t rd rs1 rs2) s t.val rd (if a.toNat < b.toNat then a else b) 4 ∧
    SetsG (.maxu t rd rs1 rs2) s t.val rd (if a.toNat < b.toNat then b else a) 4 ∧
    SetsG (.mul t rd rs1 rs2) s t.val rd (a * b) 4 ∧
    SetsG (.mulh t rd rs1 rs2) s t.val rd (BitVec.ofInt 64 (a.toInt * b.toInt / 2 ^ 64)) 4 ∧
    SetsG (.mulhu t rd rs1 rs2) s t.val rd (BitVec.ofNat 64 (a.toNat * b.toNat / 2 ^ 64)) 4 ∧
    SetsG (.div t rd rs1 rs2) s t.val rd (if b = 0 then 0xFFFFFFFFFFFFFFFF#64 else BitVec.ofInt 64 (a.toInt.tdiv b.toInt)) 4 ∧
    SetsG (.divu t rd rs1 rs2) s t.val rd (if b = 0 then 0xFFFFFFFFFFFFFFFF#64 else BitVec.ofNat 64 (a.toNat / b.toNat)) 4 ∧
    SetsG (.rem t rd rs1 rs2) s t.val rd (if b = 0 then a else BitVec.ofInt 64 (a.toInt.tmod b.toInt)) 4 ∧
    SetsG (.remu t rd rs1 rs2) s t.val rd (if b = 0 then a else BitVec.ofNat 64 (a.toNat % b.toNat)) 4

/-- CLZ, CTZ, POPC and BSWAP (with the rs2 field 0), the CRC and GH64 steps, the immediate operations, SHI by its
mode bits, LUI (with the rs1 field 0) and LI complete, write the result to rd (g0 keeps reading 0), move PC
past the instruction and change nothing else. DIV and REM of -2^63 by -1 complete with -2^63 and 0; a divisor
of 0 gives all ones and the dividend. (05_falesk_instruction_set.md R167 to R169, R193;
05_falesk_instruction_set.md R170) -/
def Obligations.ScalarOneOperandAndHash : Prop :=
  (∀ (s : State) (t : TileId) (rd rs1 rs2 : GReg) (imm : BitVec 16) (long : BitVec 32), ScalarReady s.mach t.val 4 →
    let a := (s.mach.tile t.val).gr rs1
    let b := (s.mach.tile t.val).gr rs2
    SetsG (.clz t rd rs1 0) s t.val rd (BitVec.ofNat 64 (if a = 0 then 64 else 63 - Nat.log2 a.toNat)) 4 ∧
    SetsG (.ctz t rd rs1 0) s t.val rd (BitVec.ofNat 64 (((List.range 64).find? (fun i => a.getLsbD i)).getD 64)) 4 ∧
    SetsG (.popc t rd rs1 0) s t.val rd (BitVec.ofNat 64 ((List.range 64).countP (fun i => a.getLsbD i))) 4 ∧
    SetsG (.bswap t rd rs1 0) s t.val rd (BitVec.ofNat 64 (ofLe (leBytes 8 a.toNat).reverse)) 4 ∧
    SetsG (.crc32cb t rd rs1 rs2) s t.val rd (((crcState (a.setWidth 32) (leBytes 1 b.toNat)).setWidth 64)) 4 ∧
    SetsG (.crc32ch t rd rs1 rs2) s t.val rd (((crcState (a.setWidth 32) (leBytes 2 b.toNat)).setWidth 64)) 4 ∧
    SetsG (.crc32cw t rd rs1 rs2) s t.val rd (((crcState (a.setWidth 32) (leBytes 4 b.toNat)).setWidth 64)) 4 ∧
    SetsG (.crc32cd t rd rs1 rs2) s t.val rd (((crcState (a.setWidth 32) (leBytes 8 b.toNat)).setWidth 64)) 4 ∧
    SetsG (.ghinit t rd rs1 rs2) s t.val rd (ghInit a b) 4 ∧
    SetsG (.ghstep t rd rs1 rs2) s t.val rd (ghStep a b) 4 ∧
    SetsG (.ghfin t rd rs1 rs2) s t.val rd (ghFin a) 4 ∧
    SetsG (.addi t rd rs1 imm) s t.val rd (a + imm.signExtend 64) 4 ∧
    SetsG (.andi t rd rs1 imm) s t.val rd (a &&& imm.setWidth 64) 4 ∧
    SetsG (.ori t rd rs1 imm) s t.val rd (a ||| imm.setWidth 64) 4 ∧
    SetsG (.xori t rd rs1 imm) s t.val rd (a ^^^ imm.setWidth 64) 4 ∧
    SetsG (.slti t rd rs1 imm) s t.val rd (if a.toInt < (imm.signExtend 64).toInt then 1 else 0) 4 ∧
    SetsG (.sltiu t rd rs1 imm) s t.val rd (if a.toNat < (imm.signExtend 64).toNat then 1 else 0) 4 ∧
    (imm.toNat < 64 → SetsG (.shi t rd rs1 imm) s t.val rd (a <<< imm.toNat) 4) ∧
    (64 ≤ imm.toNat → imm.toNat < 128 → SetsG (.shi t rd rs1 imm) s t.val rd (a >>> (imm.toNat % 64)) 4) ∧
    (128 ≤ imm.toNat → imm.toNat < 192 → SetsG (.shi t rd rs1 imm) s t.val rd (a.sshiftRight (imm.toNat % 64)) 4) ∧
    (192 ≤ imm.toNat → imm.toNat < 256 → SetsG (.shi t rd rs1 imm) s t.val rd (a.rotateRight (imm.toNat % 64)) 4) ∧
    SetsG (.lui t rd 0 imm) s t.val rd (imm.signExtend 64 <<< 16) 4 ∧
    (ScalarReady s.mach t.val 8 → SetsG (.li t rd false long) s t.val rd (long.signExtend 64) 8) ∧
    (ScalarReady s.mach t.val 8 →
      SetsG (.li t rd true long) s t.val rd (BitVec.ofNat 64 (long.toNat * 2 ^ 32 + ((s.mach.tile t.val).gr rd).toNat % 2 ^ 32)) 8)) ∧
  (∀ (s : State) (t : TileId) (rd rs1 rs2 : GReg), ScalarReady s.mach t.val 4 →
    ((s.mach.tile t.val).gr rs1 = 0x8000000000000000#64 → (s.mach.tile t.val).gr rs2 = 0xFFFFFFFFFFFFFFFF#64 →
      SetsG (.div t rd rs1 rs2) s t.val rd 0x8000000000000000#64 4 ∧ SetsG (.rem t rd rs1 rs2) s t.val rd 0 4) ∧
    ((s.mach.tile t.val).gr rs2 = 0 →
      SetsG (.div t rd rs1 rs2) s t.val rd 0xFFFFFFFFFFFFFFFF#64 4 ∧ SetsG (.divu t rd rs1 rs2) s t.val rd 0xFFFFFFFFFFFFFFFF#64 4 ∧
      SetsG (.rem t rd rs1 rs2) s t.val rd ((s.mach.tile t.val).gr rs1) 4 ∧
      SetsG (.remu t rd rs1 rs2) s t.val rd ((s.mach.tile t.val).gr rs1) 4))

/-- With the branch in the code object and, where the condition holds, the target also, PC becomes the target or
moves by 4, and nothing else changes. With a good target both complete: rd reads PC + 4 (g0 keeps reading 0),
PC is the target, and nothing else changes. (R171) -/
def Obligations.BranchesAndJumps : Prop :=
  (∀ (s : State) (t : TileId) (rs1 rs2 : GReg) (off : BitVec 16), ScalarReady s.mach t.val 4 →
    let x := s.mach.tile t.val
    let a := x.gr rs1
    let b := x.gr rs2
    let target := ((x.pc : Int) + off.toInt * 4).toNat
    0 ≤ (x.pc : Int) + off.toInt * 4 → target < 2 ^ 64 →
    ((a = b) → x.goodPc target 4 = true → SetsPc (.beq t rs1 rs2 off) s t.val target) ∧
    (¬ (a = b) → SetsPc (.beq t rs1 rs2 off) s t.val (x.pc + 4)) ∧
    ((a ≠ b) → x.goodPc target 4 = true → SetsPc (.bne t rs1 rs2 off) s t.val target) ∧
    (¬ (a ≠ b) → SetsPc (.bne t rs1 rs2 off) s t.val (x.pc + 4)) ∧
    ((a.toInt < b.toInt) → x.goodPc target 4 = true → SetsPc (.blt t rs1 rs2 off) s t.val target) ∧
    (¬ (a.toInt < b.toInt) → SetsPc (.blt t rs1 rs2 off) s t.val (x.pc + 4)) ∧
    ((b.toInt ≤ a.toInt) → x.goodPc target 4 = true → SetsPc (.bge t rs1 rs2 off) s t.val target) ∧
    (¬ (b.toInt ≤ a.toInt) → SetsPc (.bge t rs1 rs2 off) s t.val (x.pc + 4)) ∧
    ((a.toNat < b.toNat) → x.goodPc target 4 = true → SetsPc (.bltu t rs1 rs2 off) s t.val target) ∧
    (¬ (a.toNat < b.toNat) → SetsPc (.bltu t rs1 rs2 off) s t.val (x.pc + 4)) ∧
    ((b.toNat ≤ a.toNat) → x.goodPc target 4 = true → SetsPc (.bgeu t rs1 rs2 off) s t.val target) ∧
    (¬ (b.toNat ≤ a.toNat) → SetsPc (.bgeu t rs1 rs2 off) s t.val (x.pc + 4))) ∧
  (∀ (s : State) (t : TileId) (rd rs1 : GReg) (off : BitVec 21) (imm : BitVec 16), ScalarReady s.mach t.val 4 →
    let x := s.mach.tile t.val
    let near := ((x.pc : Int) + off.toInt * 4).toNat
    let far := (x.gr rs1 + imm.signExtend 64).toNat
    let links (c : Instr) (target : Nat) : Prop :=
      ∃ y : Tile, Does c s (OnlyTile t.val y) ∧
        (∀ r : GReg, y.gr r = if r = 0 then 0 else if r = rd then BitVec.ofNat 64 (x.pc + 4) else x.gr r) ∧
        y = { x with g := y.g, pc := target }
    (0 ≤ (x.pc : Int) + off.toInt * 4 → near < 2 ^ 64 → x.goodPc near 4 = true → links (.jal t rd off) near) ∧
    (x.goodPc far 4 = true → links (.jalr t rd rs1 imm) far))

/-- On the first run of a unit, TRAP raises TRAP with its code, a write of the read-only CSRs, a reserved field
and a reserved DONE status raise ILLEGAL, and a jump outside the code object or a PC outside it raises TARGET:
TILE_EXC holds PC and CAUSE, the tile is free, and the entry is READY with the run noted.
(05_falesk_instruction_set.md R165, R171, R201, R209 to R211) -/
def Obligations.TrapsAndBadTargets : Prop :=
  ∀ (s : State) (t : TileId) (u : WorkUnit) (e : QEntry), (s.mach.tile t.val).scalarFree = true →
    FirstRun s.mach t.val u e →
    (∀ (rd rs1 : GReg) (imm : BitVec 16), (s.mach.tile t.val).goodPc (s.mach.tile t.val).pc 4 = false →
      RaisesFirst (.addi t rd rs1 imm) s t.val 5 0 u e) ∧
    ((s.mach.tile t.val).goodPc (s.mach.tile t.val).pc 4 = true →
      (∀ code : BitVec 16, RaisesFirst (.trap t code) s t.val 6 code.toNat u e) ∧
      (∀ rs : GReg, RaisesFirst (.csrw t 1 rs) s t.val 1 0 u e ∧ RaisesFirst (.csrw t 2 rs) s t.val 1 0 u e) ∧
      (∀ rd rs1 rs2 : GReg, rs2 ≠ 0 → RaisesFirst (.clz t rd rs1 rs2) s t.val 1 0 u e ∧
        RaisesFirst (.ctz t rd rs1 rs2) s t.val 1 0 u e ∧ RaisesFirst (.popc t rd rs1 rs2) s t.val 1 0 u e ∧
        RaisesFirst (.bswap t rd rs1 rs2) s t.val 1 0 u e) ∧
      (∀ (rd rs1 : GReg) (off : BitVec 13), RaisesFirst (.load t rd rs1 7 off) s t.val 1 0 u e) ∧
      (∀ (rd rs1 : GReg) (imm : BitVec 16),
        (s.mach.tile t.val).goodPc ((s.mach.tile t.val).gr rs1 + imm.signExtend 64).toNat 4 = false →
        RaisesFirst (.jalr t rd rs1 imm) s t.val 5 0 u e))

/-- With no access exception and no error in the words it meets, LOAD completes: rd takes the 1, 2, 4 or 8 bytes,
least significant first, zero-extended for W 0 to 3 and sign-extended for W 4 to 6; nothing else changes but
PC. With no access exception STORE completes; each byte stored reads as the byte of g[rd], every other byte of
memory reads as before, and the tile keeps its registers. A twin run of Caliper leaves every byte outside its
own SRAM as it was. (05_falesk_instruction_set.md R172; 17_health_faults_event_recorder.md R593) -/
def Obligations.ScalarLoadsAndStores : Prop :=
  (∀ (s : State) (t : TileId) (rd rs1 : GReg) (w : Fin 8) (off : BitVec 13), ScalarReady s.mach t.val 4 →
    (s.mach.tile t.val).vq = [] → w.val ≤ 6 →
    let a := ((s.mach.tile t.val).gr rs1 + off.signExtend 64).toNat
    let n := [1, 2, 4, 8, 1, 2, 4].getD w.val 1
    accessCause s.variant s.mach t.val a n n false = none →
    s.mach.ueHit s.variant (normAddr s.variant t.val a) n = none → s.mach.ceHits (normAddr s.variant t.val a) n = [] →
    let r := ofLe (s.mach.jobRead s.variant t.val a n)
    SetsG (.load t rd rs1 w off) s t.val rd
      (if w.val ≤ 3 then BitVec.ofNat 64 r
        else BitVec.ofNat 64 (if 2 ^ (8 * n - 1) ≤ r then r + (2 ^ 64 - 2 ^ (8 * n)) else r)) 4) ∧
  (∀ (s : State) (t : TileId) (rd rs1 : GReg) (w : Fin 8) (off : BitVec 13), ScalarReady s.mach t.val 4 →
    (s.mach.tile t.val).vq = [] → w.val ≤ 3 →
    let x := s.mach.tile t.val
    let a := (x.gr rs1 + off.signExtend 64).toNat
    let n := [1, 2, 4, 8].getD w.val 1
    accessCause s.variant s.mach t.val a n n true = none →
    Does (.store t rd rs1 w off) s (fun m m' =>
      (x.keepsAside = false → (∀ i : Nat, i < n →
        m'.locByte (locOf s.variant (some t.val) (a + i)) = BitVec.ofNat 8 ((x.gr rd).toNat / 256 ^ i)) ∧
        (∀ l : Loc, (∀ i : Nat, i < n → locOf s.variant (some t.val) (a + i) ≠ l) → m'.locByte l = m.locByte l)) ∧
      (x.keepsAside = true → ∀ l : Loc, (∀ o : Nat, l ≠ .tile t.val o) → m'.locByte l = m.locByte l) ∧
      (m'.tile t.val).g = x.g ∧ (m'.tile t.val).pc = x.pc + 4 ∧ m'.regs = m.regs ∧ m'.evr = m.evr ∧ m'.jobs = m.jobs))

/-- For the TYPEs FP32, FP16 and BF16 each VFP operation completes on a tile with an idle vector unit: an active
lane of vd takes the operation of the lanes of vs1 and vs2 in that format, an inactive lane keeps its value,
FSTAT takes the flags of the active lanes as well, and nothing else changes. ABS clears and NEG inverts the
sign bit. (05_falesk_instruction_set.md R174, R176) -/
def Obligations.VectorFloat : Prop :=
  ∀ (s : State) (t : TileId) (a : VArgs) (f : FpFmt), VectorReady s.mach t.val 4 →
    let x := s.mach.tile t.val
    let on := laneOn (x.pr a.pg) a.pn
    let w := typeWidth a.ty
    let p := fun k : Nat => laneOf w (x.vr a.vs1) k
    let q := fun k : Nat => laneOf w (x.vr a.vs2) k
    arithFmt a.ty = some f →
    SetsLanes (.vfpAdd t a) s t.val 4 w a.vd on (fun k => (fpAdd f (p k) (q k)).1)
      (flagsAfter x (512 / w) on (fun k => (fpAdd f (p k) (q k)).2)) ∧
    SetsLanes (.vfpSub t a) s t.val 4 w a.vd on (fun k => (fpSub f (p k) (q k)).1)
      (flagsAfter x (512 / w) on (fun k => (fpSub f (p k) (q k)).2)) ∧
    SetsLanes (.vfpMul t a) s t.val 4 w a.vd on (fun k => (fpMul f (p k) (q k)).1)
      (flagsAfter x (512 / w) on (fun k => (fpMul f (p k) (q k)).2)) ∧
    SetsLanes (.vfpDiv t a) s t.val 4 w a.vd on (fun k => (fpDiv f (p k) (q k)).1)
      (flagsAfter x (512 / w) on (fun k => (fpDiv f (p k) (q k)).2)) ∧
    (a.vs2 = 0 → SetsLanes (.sqrt t a) s t.val 4 w a.vd on (fun k => (fpSqrt f (p k)).1)
      (flagsAfter x (512 / w) on (fun k => (fpSqrt f (p k)).2))) ∧
    SetsLanes (.vfpMin t a) s t.val 4 w a.vd on (fun k => (fpMinMax f false (p k) (q k)).1)
      (flagsAfter x (512 / w) on (fun k => (fpMinMax f false (p k) (q k)).2)) ∧
    SetsLanes (.vfpMax t a) s t.val 4 w a.vd on (fun k => (fpMinMax f true (p k) (q k)).1)
      (flagsAfter x (512 / w) on (fun k => (fpMinMax f true (p k) (q k)).2)) ∧
    SetsLanes (.floor t a) s t.val 4 w a.vd on (fun k => (fpRint f .rdn (p k)).1)
      (flagsAfter x (512 / w) on (fun k => (fpRint f .rdn (p k)).2)) ∧
    SetsLanes (.ceil t a) s t.val 4 w a.vd on (fun k => (fpRint f .rup (p k)).1)
      (flagsAfter x (512 / w) on (fun k => (fpRint f .rup (p k)).2)) ∧
    SetsLanes (.trunc t a) s t.val 4 w a.vd on (fun k => (fpRint f .rtz (p k)).1)
      (flagsAfter x (512 / w) on (fun k => (fpRint f .rtz (p k)).2)) ∧
    SetsLanes (.rint t a) s t.val 4 w a.vd on (fun k => (fpRint f .rne (p k)).1)
      (flagsAfter x (512 / w) on (fun k => (fpRint f .rne (p k)).2)) ∧
    SetsLanes (.vfpAbs t a) s t.val 4 w a.vd on (fun k => p k % 2 ^ (w - 1)) (flagsAfter x (512 / w) on (fun _ => 0)) ∧
    SetsLanes (.neg t a) s t.val 4 w a.vd on (fun k => p k + 2 ^ (w - 1)) (flagsAfter x (512 / w) on (fun _ => 0))

/-- FMA, FMS, FNMA and FNMS take one fused operation per active lane with the two signs of R181; VDOT adds the
products of the narrow lanes to each active 32-bit lane; VCVT writes the register that the conversion gives,
with its flags. Nothing else changes. (05_falesk_instruction_set.md R181, R182, R188 to R190) -/
def Obligations.VectorFused : Prop :=
  ∀ (s : State) (t : TileId) (a : VArgs) (vs3 : VReg) (f : FpFmt) (fn : Fin 16) (g : CvtArgs) (rm : Rm), VectorReady s.mach t.val 4 →
    let x := s.mach.tile t.val
    let on := laneOn (x.pr a.pg) a.pn
    let w := typeWidth a.ty
    let p := fun k : Nat => laneOf w (x.vr a.vs1) k
    let q := fun k : Nat => laneOf w (x.vr a.vs2) k
    let r := fun k : Nat => laneOf w (x.vr vs3) k
    (VectorReady s.mach t.val 8 → arithFmt a.ty = some f →
    SetsLanes (.fma t a vs3) s t.val 8 w a.vd on (fun k => (fpFma f false false (p k) (q k) (r k)).1)
      (flagsAfter x (512 / w) on (fun k => (fpFma f false false (p k) (q k) (r k)).2)) ∧
    SetsLanes (.fms t a vs3) s t.val 8 w a.vd on (fun k => (fpFma f false true (p k) (q k) (r k)).1)
      (flagsAfter x (512 / w) on (fun k => (fpFma f false true (p k) (q k) (r k)).2)) ∧
    SetsLanes (.fnma t a vs3) s t.val 8 w a.vd on (fun k => (fpFma f true false (p k) (q k) (r k)).1)
      (flagsAfter x (512 / w) on (fun k => (fpFma f true false (p k) (q k) (r k)).2)) ∧
    SetsLanes (.fnms t a vs3) s t.val 8 w a.vd on (fun k => (fpFma f true true (p k) (q k) (r k)).1)
      (flagsAfter x (512 / w) on (fun k => (fpFma f true true (p k) (q k) (r k)).2))) ∧
    ((a.ty = 5 ∧ fn.val ≤ 1) ∨ (1 ≤ a.ty.val ∧ a.ty.val ≤ 4 ∧ fn = 0) →
      let d := fun k : Nat => dotLane (decide (fn = 1)) a.ty (laneOf 32 (x.vr a.vd) k)
        ((List.range (32 / w)).map (fun j => p (32 / w * k + j))) ((List.range (32 / w)).map (fun j => q (32 / w * k + j)))
      SetsLanes (.vdot t a fn) s t.val 4 32 a.vd on (fun k => (d k).1) (flagsAfter x 16 on (fun k => (d k).2))) ∧
    (VectorReady s.mach t.val 8 → cvtLegal g = true → cvtRm g.rm = some rm →
      ∃ y : Tile, Does (.vcvt t g) s (OnlyTile t.val y) ∧
        y.vr g.vd = (vcvt g rm (x.pr g.pg) (x.vr g.vd) (x.vr g.vs1)).1 ∧ (∀ u : VReg, u ≠ g.vd → y.vr u = x.vr u) ∧
        y = { x with
          v := y.v, pc := x.pc + 8, fstat := (x.fstat ||| (vcvt g rm (x.pr g.pg) (x.vr g.vd) (x.vr g.vs1)).2) % 64 })

/-- For INT8, INT16 and INT32 each VINT operation completes: active lanes take the result of R176, inactive lanes
keep their value. A saturating operation clamps to the range of its signedness and FSTAT takes SAT where an
active lane was outside; the others add no flag. (05_falesk_instruction_set.md R176) -/
def Obligations.VectorInteger : Prop :=
  ∀ (s : State) (t : TileId) (a : VArgs), VectorReady s.mach t.val 4 →
    let x := s.mach.tile t.val
    let on := laneOn (x.pr a.pg) a.pn
    let w := typeWidth a.ty
    let p := fun k : Nat => laneOf w (x.vr a.vs1) k
    let q := fun k : Nat => laneOf w (x.vr a.vs2) k
    let sp := fun k : Nat => signedOf w (p k)
    let sq := fun k : Nat => signedOf w (q k)
    let lo : Int := -(2 ^ (w - 1) : Int)
    let hi : Int := 2 ^ (w - 1) - 1
    let um : Int := 2 ^ w - 1
    let plain := flagsAfter x (512 / w) on (fun _ => 0)
    isIntType a.ty = true →
    SetsLanes (.vintAdd t a) s t.val 4 w a.vd on (fun k => p k + q k) plain ∧
    SetsLanes (.vintSub t a) s t.val 4 w a.vd on (fun k => p k + (2 ^ w - q k)) plain ∧
    SetsLanes (.vintMul t a) s t.val 4 w a.vd on (fun k => p k * q k) plain ∧
    SetsLanes (.madd t a) s t.val 4 w a.vd on (fun k => laneOf w (x.vr a.vd) k + p k * q k) plain ∧
    SetsLanes (.vintMin t a) s t.val 4 w a.vd on (fun k => if sp k ≤ sq k then p k else q k) plain ∧
    SetsLanes (.vintMax t a) s t.val 4 w a.vd on (fun k => if sp k ≤ sq k then q k else p k) plain ∧
    SetsLanes (.vintMinu t a) s t.val 4 w a.vd on (fun k => min (p k) (q k)) plain ∧
    SetsLanes (.vintMaxu t a) s t.val 4 w a.vd on (fun k => max (p k) (q k)) plain ∧
    SetsLanes (.mulhs t a) s t.val 4 w a.vd on (fun k => unsignedOf w (sp k * sq k / 2 ^ w)) plain ∧
    SetsLanes (.vintMulhu t a) s t.val 4 w a.vd on (fun k => p k * q k / 2 ^ w) plain ∧
    SetsLanes (.absdiffu t a) s t.val 4 w a.vd on (fun k => max (p k) (q k) - min (p k) (q k)) plain ∧
    SetsLanes (.adds t a) s t.val 4 w a.vd on (fun k => unsignedOf w (max lo (min hi (sp k + sq k))))
      (flagsAfter x (512 / w) on (fun k => if lo ≤ sp k + sq k ∧ sp k + sq k ≤ hi then 0 else Flags.sat)) ∧
    SetsLanes (.addus t a) s t.val 4 w a.vd on (fun k => unsignedOf w (max 0 (min um ((p k : Int) + q k))))
      (flagsAfter x (512 / w) on (fun k => if 0 ≤ (p k : Int) + q k ∧ (p k : Int) + q k ≤ um then 0 else Flags.sat)) ∧
    SetsLanes (.subs t a) s t.val 4 w a.vd on (fun k => unsignedOf w (max lo (min hi (sp k - sq k))))
      (flagsAfter x (512 / w) on (fun k => if lo ≤ sp k - sq k ∧ sp k - sq k ≤ hi then 0 else Flags.sat)) ∧
    SetsLanes (.subus t a) s t.val 4 w a.vd on (fun k => unsignedOf w (max 0 (min um ((p k : Int) - q k))))
      (flagsAfter x (512 / w) on (fun k => if 0 ≤ (p k : Int) - q k ∧ (p k : Int) - q k ≤ um then 0 else Flags.sat))

/-- For INT8, INT16 and INT32 each VBIT operation, and for every TYPE each VPERM operation, completes with the
lanes of R176 and R178: COMPRESS packs the active lanes of vs1 to the bottom and clears the rest, SEL takes
vs1 where active and vs2 elsewhere, VTBL looks bytes up in vs1 and vs2. (05_falesk_instruction_set.md R176,
R178, R179) -/
def Obligations.VectorBitsAndPermutes : Prop :=
  ∀ (s : State) (t : TileId) (a : VArgs) (vi : VReg), VectorReady s.mach t.val 4 →
    let x := s.mach.tile t.val
    let on := laneOn (x.pr a.pg) a.pn
    let w := typeWidth a.ty
    let n := 512 / w
    let p := fun k : Nat => laneOf w (x.vr a.vs1) k
    let q := fun k : Nat => laneOf w (x.vr a.vs2) k
    (isIntType a.ty = true →
    SetsLanes (.vbitAnd t a) s t.val 4 w a.vd on (fun k => p k &&& q k) x.fstat ∧
    SetsLanes (.vbitOr t a) s t.val 4 w a.vd on (fun k => p k ||| q k) x.fstat ∧
    SetsLanes (.vbitXor t a) s t.val 4 w a.vd on (fun k => p k ^^^ q k) x.fstat ∧
    SetsLanes (.andn t a) s t.val 4 w a.vd on (fun k => p k &&& (q k ^^^ (2 ^ w - 1))) x.fstat ∧
    SetsLanes (.vbitShl t a) s t.val 4 w a.vd on (fun k => p k * 2 ^ (q k % w)) x.fstat ∧
    SetsLanes (.vbitShr t a) s t.val 4 w a.vd on (fun k => p k / 2 ^ (q k % w)) x.fstat ∧
    SetsLanes (.vbitSar t a) s t.val 4 w a.vd on (fun k => unsignedOf w (signedOf w (p k) / 2 ^ (q k % w))) x.fstat ∧
    SetsLanes (.shli t a) s t.val 4 w a.vd on (fun k => p k * 2 ^ (a.vs2.val % w)) x.fstat ∧
    SetsLanes (.shri t a) s t.val 4 w a.vd on (fun k => p k / 2 ^ (a.vs2.val % w)) x.fstat ∧
    SetsLanes (.sari t a) s t.val 4 w a.vd on (fun k => unsignedOf w (signedOf w (p k) / 2 ^ (a.vs2.val % w))) x.fstat ∧
    SetsLanes (.vbitAbs t a) s t.val 4 w a.vd on (fun k => (signedOf w (p k)).natAbs) x.fstat ∧
    SetsLanes (.avgu t a) s t.val 4 w a.vd on (fun k => (p k + q k + 1) / 2) x.fstat) ∧
    SetsLanes (.rev t a) s t.val 4 w a.vd on (fun k => p (n - 1 - k)) x.fstat ∧
    SetsLanes (.ziplo t a) s t.val 4 w a.vd on (fun k => if k % 2 = 0 then p (k / 2) else q (k / 2)) x.fstat ∧
    SetsLanes (.ziphi t a) s t.val 4 w a.vd on (fun k => if k % 2 = 0 then p (n / 2 + k / 2) else q (n / 2 + k / 2)) x.fstat ∧
    SetsLanes (.unzipe t a) s t.val 4 w a.vd on (fun k => if 2 * k < n then p (2 * k) else q (2 * k - n)) x.fstat ∧
    SetsLanes (.unzipo t a) s t.val 4 w a.vd on (fun k => if 2 * k + 1 < n then p (2 * k + 1) else q (2 * k + 1 - n)) x.fstat ∧
    SetsLanes (.dup t a) s t.val 4 w a.vd on (fun _ => p 0) x.fstat ∧
    SetsLanes (.compress t a) s t.val 4 w a.vd (fun _ => true) (fun k => (((List.range n).filter on).map p).getD k 0) x.fstat ∧
    SetsLanes (.sel t a) s t.val 4 w a.vd (fun _ => true) (fun k => if on k then p k else q k) x.fstat ∧
    (VectorReady s.mach t.val 8 → a.ty = 0 →
      SetsLanes (.vtbl t a vi) s t.val 8 8 a.vd on (fun k =>
        let i := laneOf 8 (x.vr vi) k
        if i < 64 then laneOf 8 (x.vr a.vs1) i else if i < 128 then laneOf 8 (x.vr a.vs2) (i - 64) else 0) x.fstat)

/-- With vd[4:3] 0 and a TYPE of its column each VCMP completes: predicate vd[2:0] takes one bit per active lane,
0 elsewhere (p0 keeps reading all ones), and FSTAT takes NV where a signalling NaN was compared. On integer
types the comparisons are those of the signed or unsigned lanes. (05_falesk_instruction_set.md R176, R177) -/
def Obligations.VectorCompares : Prop :=
  ∀ (s : State) (t : TileId) (a : VArgs), VectorReady s.mach t.val 4 →
    let x := s.mach.tile t.val
    let on := laneOn (x.pr a.pg) a.pn
    let w := typeWidth a.ty
    let p := fun k : Nat => laneOf w (x.vr a.vs1) k
    let q := fun k : Nat => laneOf w (x.vr a.vs2) k
    let bits := fun f : Nat → Bool => predOf (512 / w) (fun k => on k && f k)
    a.vd.val < 8 →
    ((!isFp8 a.ty) = true → SetsP (.vcmpEq t a) s t.val 4 (Fin.ofNat 8 a.vd.val) (bits (fun k => (cmpLane .eq a.ty (p k) (q k)).1))
      (flagsAfter x (512 / w) on (fun k => (cmpLane .eq a.ty (p k) (q k)).2))) ∧
    ((!isFp8 a.ty) = true → SetsP (.vcmpNe t a) s t.val 4 (Fin.ofNat 8 a.vd.val) (bits (fun k => (cmpLane .ne a.ty (p k) (q k)).1))
      (flagsAfter x (512 / w) on (fun k => (cmpLane .ne a.ty (p k) (q k)).2))) ∧
    ((!isFp8 a.ty) = true → SetsP (.vcmpLt t a) s t.val 4 (Fin.ofNat 8 a.vd.val) (bits (fun k => (cmpLane .lt a.ty (p k) (q k)).1))
      (flagsAfter x (512 / w) on (fun k => (cmpLane .lt a.ty (p k) (q k)).2))) ∧
    ((!isFp8 a.ty) = true → SetsP (.vcmpLe t a) s t.val 4 (Fin.ofNat 8 a.vd.val) (bits (fun k => (cmpLane .le a.ty (p k) (q k)).1))
      (flagsAfter x (512 / w) on (fun k => (cmpLane .le a.ty (p k) (q k)).2))) ∧
    ((isIntType a.ty) = true → SetsP (.vcmpLtu t a) s t.val 4 (Fin.ofNat 8 a.vd.val) (bits (fun k => (cmpLane .ltu a.ty (p k) (q k)).1))
      (flagsAfter x (512 / w) on (fun k => (cmpLane .ltu a.ty (p k) (q k)).2))) ∧
    ((isIntType a.ty) = true → SetsP (.vcmpLeu t a) s t.val 4 (Fin.ofNat 8 a.vd.val) (bits (fun k => (cmpLane .leu a.ty (p k) (q k)).1))
      (flagsAfter x (512 / w) on (fun k => (cmpLane .leu a.ty (p k) (q k)).2))) ∧
    ((isArith a.ty) = true → SetsP (.unord t a) s t.val 4 (Fin.ofNat 8 a.vd.val) (bits (fun k => (cmpLane .unord a.ty (p k) (q k)).1))
      (flagsAfter x (512 / w) on (fun k => (cmpLane .unord a.ty (p k) (q k)).2))) ∧
    (isIntType a.ty = true → ∀ k : Nat, (cmpLane .ltu a.ty (p k) (q k)).1 = decide (p k < q k) ∧
      (cmpLane .leu a.ty (p k) (q k)).1 = decide (p k ≤ q k) ∧ (cmpLane .lt a.ty (p k) (q k)).1 = decide (signedOf w (p k) < signedOf w (q k)) ∧
      (cmpLane .eq a.ty (p k) (q k)).1 = decide (p k = q k))

/-- SUM, MIN, MAX and SUMW complete on an idle vector unit. Lane 0 of vd takes the lanes of vs1 combined in the
fixed order of R191, an inactive lane counting as the identity; every other lane is 0; no other register
changes and FSTAT takes the flags. On integer TYPEs SUM is the sum of the active lanes modulo the width, and
MIN and MAX bound every active lane. (05_falesk_instruction_set.md R176, R191) -/
def Obligations.VectorReductions : Prop :=
  ∀ (s : State) (t : TileId) (a : VArgs), VectorReady s.mach t.val 4 →
    let x := s.mach.tile t.val
    let on := laneOn (x.pr a.pg) a.pn
    let w := typeWidth a.ty
    let p := fun k : Nat => laneOf w (x.vr a.vs1) k
    let ls := fun (ident : Nat) (f : Nat → Nat) => (List.range (512 / w)).map (fun k => if on k then f (p k) else ident)
    let one := fun (c : Instr) (wr : Nat) (r : Nat × Flags) =>
      ∃ y : Tile, Does c s (OnlyTile t.val y) ∧ (∀ k : Nat, k < 512 / wr → laneOf wr (y.vr a.vd) k = if k = 0 then r.1 % 2 ^ wr else 0) ∧
        (∀ u : VReg, u ≠ a.vd → y.vr u = x.vr u) ∧ y = { x with v := y.v, fstat := (x.fstat ||| r.2) % 64, pc := x.pc + 4 }
    (∀ f : FpFmt, arithFmt a.ty = some f →
      one (.sumI t a) w (redLanes (fpAdd f) (ls 0 id)) ∧
      one (.vredMin t a) w (redLanes (fpMinMax f false) (ls (f.infinity false) id)) ∧
      one (.vredMax t a) w (redLanes (fpMinMax f true) (ls (f.infinity true) id))) ∧
    (∀ f : FpFmt, typeFmt a.ty = some f → a.ty ≠ 0 →
      let r := redLanes (fpAdd fp32) (ls 0 (fun z => (fpToFp f fp32 .rne false z).1))
      one (.sumw t a) 32 (r.1, r.2 ||| laneFlags (512 / w) (x.pr a.pg) a.pn (fun k => (fpToFp f fp32 .rne false (p k)).2))) ∧
    (isIntType a.ty = true →
      one (.sumI t a) w ((((List.range (512 / w)).filter on).map p).sum, 0) ∧
      (a.ty ≠ 7 → one (.sumw t a) 32 (unsignedOf 32 ((((List.range (512 / w)).filter on).map (fun k => signedOf w (p k))).sum), 0)) ∧
      (∃ r : Nat, one (.vredMin t a) w (r, 0) ∧ (r = 2 ^ (w - 1) - 1 ∨ ∃ k : Nat, k < 512 / w ∧ on k = true ∧ r = p k) ∧
        (∀ k : Nat, k < 512 / w → on k = true → signedOf w r ≤ signedOf w (p k))) ∧
      (∃ r : Nat, one (.vredMax t a) w (r, 0) ∧ (r = 2 ^ (w - 1) ∨ ∃ k : Nat, k < 512 / w ∧ on k = true ∧ r = p k) ∧
        (∀ k : Nat, k < 512 / w → on k = true → signedOf w (p k) ≤ signedOf w r)))

/-- On an idle vector unit the PRED operations write their predicate (p0 keeps reading all ones), GTOV, GBCAST and
VMOV their lanes, VHASH its active 64-bit lanes, and RNGCTR its active 32-bit lanes with the Philox words of
their counter group; FSTAT keeps its value and nothing else changes. VTOG reads lane g[rs2] modulo the lane
count, CSRR 0 reads FSTAT, 1 the cycle counter and 2 the fixed address of the unit descriptor, CSRW 0 writes
FSTAT, PRED moves the predicate or its count of set bits, and NOP only moves PC. A vector operation in the
queue, where it matters, holds the core instead. (05_falesk_instruction_set.md R193 to R195, R197, R198;
05_falesk_instruction_set.md R162, R163, R197, R198, R201) -/
def Obligations.PredicatesAndMoves : Prop :=
  (∀ (s : State) (t : TileId) (a : VArgs) (pd pa pb : PReg) (vd vs : VReg) (rs rl : GReg) (size : Fin 4),
    VectorReady s.mach t.val 4 →
    let x := s.mach.tile t.val
    let on := laneOn (x.pr a.pg) a.pn
    let w := 8 * 2 ^ size.val
    let p := fun k : Nat => laneOf 64 (x.vr a.vs1) k
    let q := fun k : Nat => laneOf 64 (x.vr a.vs2) k
    SetsP (.predAnd t pd pa pb) s t.val 4 pd (x.pr pa &&& x.pr pb) x.fstat ∧
    SetsP (.predOr t pd pa pb) s t.val 4 pd (x.pr pa ||| x.pr pb) x.fstat ∧
    SetsP (.predXor t pd pa pb) s t.val 4 pd (x.pr pa ^^^ x.pr pb) x.fstat ∧
    SetsP (.predAndn t pd pa pb) s t.val 4 pd (x.pr pa &&& ~~~ x.pr pb) x.fstat ∧
    SetsP (.notI t pd pa) s t.val 4 pd (~~~ x.pr pa) x.fstat ∧
    SetsP (.predFromG t pd rs) s t.val 4 pd (x.gr rs) x.fstat ∧
    SetsP (.predFirstN t pd rs) s t.val 4 pd (predOf 64 (fun k => decide (k < (x.gr rs).toNat))) x.fstat ∧
    SetsLanes (.gtov t vd rs rl size) s t.val 4 w vd (fun k => decide (k = (x.gr rl).toNat % (512 / w))) (fun _ => (x.gr rs).toNat) x.fstat ∧
    SetsLanes (.gbcast t vd rs size) s t.val 4 w vd (fun _ => true) (fun _ => (x.gr rs).toNat) x.fstat ∧
    SetsLanes (.vmov t vd vs) s t.val 4 8 vd (fun _ => true) (fun k => laneOf 8 (x.vr vs) k) x.fstat ∧
    (a.ty = 0 →
    SetsLanes (.vhashGhinit t a) s t.val 4 64 a.vd on (fun k => (ghInit (BitVec.ofNat 64 (p k)) (BitVec.ofNat 64 (q k))).toNat) x.fstat ∧
    SetsLanes (.vhashGhstep t a) s t.val 4 64 a.vd on (fun k => (ghStep (BitVec.ofNat 64 (p k)) (BitVec.ofNat 64 (q k))).toNat) x.fstat ∧
    SetsLanes (.vhashGhfin t a) s t.val 4 64 a.vd on (fun k => (ghFin (BitVec.ofNat 64 (p k))).toNat) x.fstat ∧
    SetsLanes (.vhashCrc32cd t a) s t.val 4 64 a.vd on (fun k => ((crcState (BitVec.ofNat 32 (p k)) (leBytes 8 (q k))).setWidth 64).toNat) x.fstat) ∧
    SetsLanes (.rngctr t a) s t.val 4 32 a.vd on (fun k => rngLane (x.gr a.vs2) (x.vr a.vs1) k) x.fstat) ∧
  (∀ (s : State) (t : TileId) (rd rs : GReg) (vs : VReg) (pa : PReg) (size : Fin 4), ScalarReady s.mach t.val 4 →
    let x := s.mach.tile t.val
    let w := 8 * 2 ^ size.val
    SetsG (.csrr t rd 1) s t.val rd (s.mach.reg (Reg.tilePerfCycles t.val)) 4 ∧
    SetsG (.csrr t rd 2) s t.val rd 0x5FFFFFFFFFC0#64 4 ∧
    SetsPc (.nopI t) s t.val (x.pc + 4) ∧
    (x.vq = [] →
      SetsG (.vtog t rd vs rs size) s t.val rd (BitVec.ofNat 64 (laneOf w (x.vr vs) ((x.gr rs).toNat % (512 / w)))) 4 ∧
      SetsG (.predToG t rd pa) s t.val rd (x.pr pa) 4 ∧
      SetsG (.predPopc t rd pa) s t.val rd (BitVec.ofNat 64 ((List.range 64).countP (fun i => (x.pr pa).getLsbD i))) 4 ∧
      SetsG (.csrr t rd 0) s t.val rd (BitVec.ofNat 64 x.fstat) 4 ∧
      Does (.csrw t 0 rs) s (OnlyTile t.val { x with fstat := (x.gr rs).toNat % 64, pc := x.pc + 4 })) ∧
    (x.vq ≠ [] →
      Does (.vtog t rd vs rs size) s (OnlyTile t.val { x with stalled := some (.vtog rd vs rs size) }) ∧
      Does (.predToG t rd pa) s (OnlyTile t.val { x with stalled := some (.predToG rd pa) }) ∧
      Does (.csrw t 0 rs) s (OnlyTile t.val { x with stalled := some (.csrw 0 rs) })))

/-- WAIT with a count and no earlier waiter takes one and goes on; otherwise its engine waits. SIGNAL without a
waiter adds 1, with one marks the first as served, and at 0xFFFF sets OVF. TRYWAIT reports 1 where it took a
count, else 0. FENCE and the release of a served waiter let it go on. The vector forms (e = 1) act on the
vector unit in the same way. For a waiter that a signal has served: the scalar core moves past its WAIT, the
vector unit drops the WAIT at the head of its queue, and a descriptor engine starts its head descriptor. The
count is as it was, and waiters of other engines stay. An engine that no signal has served is not released.
(06_synchronisation_and_work_stealing.md R214 to R217, R220; 05_falesk_instruction_set.md R199;
06_synchronisation_and_work_stealing.md R214, R215) -/
def Obligations.SyncObjects : Prop :=
  (∀ (s : State) (t : TileId) (k : SyncId) (e : Bool) (rd : GReg), VectorReady s.mach t.val 4 →
    let x := s.mach.tile t.val
    let n := x.sync[k]
    let queued := x.waits.any (fun w => w.obj = k && !w.served)
    let audits := s.mach.bit (Reg.tileAudit t.val) 16 && x.unfenced
    (n ≠ 0 → queued = false →
      Does (.wait t e k) s (OnlyTile t.val { x with sync := x.sync.set k (n - 1), pc := x.pc + 4 }) ∧
      ∃ y : Tile, Does (.trywait t false k rd) s (OnlyTile t.val y) ∧
        (∀ r : GReg, y.gr r = if r = 0 then 0 else if r = rd then 1 else x.gr r) ∧
        y = { x with g := y.g, sync := x.sync.set k (n - 1), pc := x.pc + 4 }) ∧
    (n = 0 ∨ queued = true →
      Does (.wait t false k) s (OnlyTile t.val { x with waits := x.waits ++ [⟨0, k, false⟩] }) ∧
      Does (.wait t true k) s (OnlyTile t.val
        { x with waits := x.waits ++ [⟨1, k, false⟩], vq := [⟨.wait k, x.pc⟩], pc := x.pc + 4 }) ∧
      SetsG (.trywait t false k rd) s t.val rd 0 4) ∧
    (audits = false → n < 0xFFFF → queued = false →
      Does (.signal t e k) s (OnlyTile t.val { x with sync := x.sync.set k (n + 1), pc := x.pc + 4 })) ∧
    (audits = false → n < 0xFFFF → queued = true →
      Does (.signal t e k) s (OnlyTile t.val { x with waits := serveFirst k x.waits, pc := x.pc + 4 })) ∧
    (audits = false → n = 0xFFFF →
      Does (.signal t e k) s (fun m m' => m'.tile t.val = { x with pc := x.pc + 4 } ∧
        m'.bit (Reg.tileSync t.val k.val) 16 = true ∧ (∀ r : Nat, r ≠ Reg.tileSync t.val k.val → m'.reg r = m.reg r))) ∧
    (∀ r w : Bool, (r || w) = true → Does (.fence t e r w) s (OnlyTile t.val
      { x with unfenced := if w then false else x.unfenced, pc := x.pc + 4 }))) ∧
  (∀ (s : State) (t : TileId), (s.mach.tile t.val).stalled = none →
    let x := s.mach.tile t.val
    let left := fun e : EngNo => x.waits.filter (fun w => w.eng ≠ e)
    let served := fun e : EngNo => x.waits.any (fun w => w.eng = e && w.served)
    let known := fun (e : EngId) (q : EngineQ) => ∀ d : List Byte, q.q.head? = some d → descKnownOp e d = true
    (served 0 = true → Does (.waitRelease t 0) s (OnlyTile t.val { x with waits := left 0, pc := x.pc + 4 })) ∧
    (∀ w : VqEntry, served 1 = true → x.vq = [w] →
      Does (.waitRelease t 1) s (OnlyTile t.val { x with waits := left 1, vq := [] })) ∧
    (served 2 = true → x.gq.q ≠ [] → known .gouge x.gq →
      Does (.waitRelease t 2) s (OnlyTile t.val { x with waits := left 2, gq := ⟨x.gq.q, true⟩ })) ∧
    (served 3 = true → x.aq.q ≠ [] → known .aes x.aq →
      Does (.waitRelease t 3) s (OnlyTile t.val { x with waits := left 3, aq := ⟨x.aq.q, true⟩ })) ∧
    (served 4 = true → x.dq.q ≠ [] → known .dma x.dq →
      Does (.waitRelease t 4) s (OnlyTile t.val { x with waits := left 4, dq := ⟨x.dq.q, true⟩ })) ∧
    (∀ e : EngNo, served e = false → Does (.waitRelease t e) s (fun m m' => m' = m)))

/-- With no access exception and no error in the words met: VLD MODE 0 loads the active bytes and MODE 1 to 4
broadcast one element; VGATHER loads 1, 2 or 4 bytes, zero-extended, into each active 32-bit lane; VCMX writes
the three output planes from its twelve FP32 coefficients and adds their flags. Inactive lanes keep their
value. With no access exception both complete; the tile keeps its registers. VST stores byte k of vd at its
address plus k for each active k. VSCATTER stores the low bytes of each active lane at its element address;
where no later active element touches a byte, the byte of its own lane stands. Every byte outside the active
bytes or elements reads as before. (05_falesk_instruction_set.md R175, R180, R183;
05_falesk_instruction_set.md R175, R180) -/
def Obligations.VectorLoadsAndStores : Prop :=
  (∀ (s : State) (t : TileId) (a : VArgs) (g : GatherArgs) (vd : VReg) (rs1 : GReg) (pg : PReg) (mode : Fin 8) (off : BitVec 10),
    VectorReady s.mach t.val 4 → s.mach.mem.badWords = [] → s.mach.mem.chansOut = [] → s.mach.mem.ceWords = [] →
    let m := s.mach
    let v := s.variant
    let x := m.tile t.val
    let n := [64, 1, 2, 4, 8].getD mode.val 64
    let addr := (x.gr rs1 + off.signExtend 64 * BitVec.ofNat 64 n).toNat
    let bs := m.jobRead v t.val addr n
    let k := [1, 2, 4].getD g.sz.val 4
    let ga := fun i : Nat => ((x.gr g.rs).toNat + laneOf 32 (x.vr g.vi) i * 2 ^ g.scale.val) % 2 ^ 64
    let gon := laneOn (x.pr g.pg) g.pn
    let w := typeWidth a.ty
    let ca := (x.gr a.vs2).toNat
    let co := (List.range 12).map (fun i => leAt (m.jobRead v t.val ca 64) (4 * i) 4)
    (mode = 0 → accessCause v m t.val addr 64 64 false = none →
      SetsLanes (.vld t vd rs1 pg mode off) s t.val 4 8 vd (laneOn (x.pr pg) false) (fun i => (bs.getD i 0).toNat) x.fstat) ∧
    (1 ≤ mode.val → mode.val ≤ 4 → accessCause v m t.val addr n n false = none →
      SetsLanes (.vld t vd rs1 pg mode off) s t.val 4 (8 * n) vd (laneOn (x.pr pg) false) (fun _ => ofLe bs) x.fstat) ∧
    (VectorReady m t.val 8 → g.sz.val ≤ 2 →
      (∀ i : Nat, i < 16 → gon i = true → accessCause v m t.val (ga i) k k false = none) →
      SetsLanes (.vgather t g) s t.val 8 32 g.vd gon (fun i => ofLe (m.jobRead v t.val (ga i) k)) x.fstat) ∧
    (∀ f : FpFmt, arithFmt a.ty = some f → a.ty.val ≤ 1 → a.vs1.val ≤ 29 → a.vd.val ≤ 29 → ca % 64 = 0 →
      inOwnTile v t.val ca 64 = true →
      let src := fun j i : Nat => laneOf w (x.vr (Fin.ofNat 32 (a.vs1.val + j))) i
      let r := fun j i : Nat => cmxLane f co j [src 0 i, src 1 i, src 2 i]
      let on := laneOn (x.pr a.pg) a.pn
      ∃ y : Tile, Does (.vcmx t a) s (OnlyTile t.val y) ∧
        (∀ j i : Nat, j < 3 → i < 512 / w → laneOf w (y.vr (Fin.ofNat 32 (a.vd.val + j))) i =
          if on i then (r j i).1 % 2 ^ w else laneOf w (x.vr (Fin.ofNat 32 (a.vd.val + j))) i) ∧
        (∀ u : VReg, (u.val < a.vd.val ∨ a.vd.val + 2 < u.val) → y.vr u = x.vr u) ∧
        y = { x with
          v := y.v, pc := x.pc + 4,
          fstat := (x.fstat ||| (List.range 3).foldl (fun z j => z ||| laneFlags (512 / w) (x.pr a.pg) a.pn (fun i => (r j i).2)) 0) % 64 })) ∧
  (∀ (s : State) (t : TileId) (g : GatherArgs) (vd : VReg) (rs1 : GReg) (pg : PReg) (off : BitVec 10),
    VectorReady s.mach t.val 4 → (s.mach.tile t.val).keepsAside = false →
    let v := s.variant
    let x := s.mach.tile t.val
    let addr := (x.gr rs1 + off.signExtend 64 * 64).toNat
    let k := [1, 2, 4].getD g.sz.val 4
    let ga := fun i : Nat => ((x.gr g.rs).toNat + laneOf 32 (x.vr g.vi) i * 2 ^ g.scale.val) % 2 ^ 64
    let gon := laneOn (x.pr g.pg) g.pn
    let place := fun a : Nat => locOf v (some t.val) a
    let kept := fun (m m' : Mach) (n : Nat) => (m'.tile t.val).g = x.g ∧ (m'.tile t.val).v = x.v ∧ (m'.tile t.val).p = x.p ∧
      (m'.tile t.val).pc = x.pc + n ∧ (m'.tile t.val).fstat = x.fstat ∧ m'.regs = m.regs ∧ m'.evr = m.evr ∧ m'.jobs = m.jobs
    (accessCause v s.mach t.val addr 64 64 true = none →
      Does (.vst t vd rs1 pg 0 off) s (fun m m' => kept m m' 4 ∧
        (∀ i : Nat, i < 64 → (x.pr pg).getLsbD i = true → m'.locByte (place (addr + i)) = BitVec.ofNat 8 (laneOf 8 (x.vr vd) i)) ∧
        (∀ l : Loc, (∀ i : Nat, i < 64 → (x.pr pg).getLsbD i = true → place (addr + i) ≠ l) → m'.locByte l = m.locByte l))) ∧
    (VectorReady s.mach t.val 8 → g.sz.val ≤ 2 →
      (∀ i : Nat, i < 16 → gon i = true → accessCause v s.mach t.val (ga i) k k true = none) →
      Does (.vscatter t g) s (fun m m' => kept m m' 8 ∧
        (∀ i b : Nat, i < 16 → gon i = true → b < k →
          (∀ j c : Nat, i < j → j < 16 → gon j = true → c < k → place (ga j + c) ≠ place (ga i + b)) →
          m'.locByte (place (ga i + b)) = BitVec.ofNat 8 (laneOf 32 (x.vr g.vd) i / 256 ^ b)) ∧
        (∀ l : Loc, (∀ i b : Nat, i < 16 → gon i = true → b < k → place (ga i + b) ≠ l) → m'.locByte l = m.locByte l))))

/-- With room in the queue and no vector operation pending: into an empty queue, a descriptor of a known operation
that waits for nothing starts at once, and one whose WAIT object has no count makes its engine wait; behind a
head that waits, it is appended. A full queue holds the scalar core. Nothing else changes but PC.
(04_tiles_clusters_regions.md R121 to R125; 05_falesk_instruction_set.md R200) -/
def Obligations.DescriptorQueues : Prop :=
  ∀ (s : State) (t : TileId) (vs : VReg), ScalarReady s.mach t.val 4 → (s.mach.tile t.val).vq = [] →
    let x := s.mach.tile t.val
    let d := vecBytes (x.vr vs)
    let queue := fun (c : Instr) (e : EngId) =>
      let q := x.engQ e
      let y := { x with pc := x.pc + 4 }
      (q = ⟨[], false⟩ → x.waiting e.no = false → descKnownOp e d = true → descWaitEn d = false →
        Does c s (OnlyTile t.val (y.setEngQ e ⟨[d], true⟩))) ∧
      (q = ⟨[], false⟩ → x.waiting e.no = false → descWaitEn d = true → x.sync[descWaitObj d] = 0 →
        Does c s (OnlyTile t.val
          (({ y with waits := x.waits ++ [⟨e.no, descWaitObj d, false⟩] } : Tile).setEngQ e ⟨[d], false⟩))) ∧
      (q.q ≠ [] → q.started = false → q.q.length < e.depth → x.waiting e.no = true →
        Does c s (OnlyTile t.val (y.setEngQ e ⟨q.q ++ [d], false⟩))) ∧
      (e.depth ≤ q.q.length → Does c s (OnlyTile t.val { x with stalled := some (.enq e vs) }))
    queue (.gq t vs) .gouge ∧ queue (.aq t vs) .aes ∧ queue (.dq t vs) .dma

/-- For each of the twelve operations: the only descriptor of its queue, started, with a good header and no error
in the words it reads, completes. The queue is empty; with STATUS_EN the status word holds the status and the
result of the operation; with SIGNAL_EN and no waiter the object has one count more. A reserved header value
gives ST_INVALID_FIELD with result 0 before any access. (04_tiles_clusters_regions.md R124 to R127;
05_falesk_instruction_set.md R202, R203) -/
def Obligations.DescriptorsComplete : Prop :=
  ∀ (s : State) (t : TileId) (d : List Byte), (s.mach.tile t.val).stalled = none → s.mach.mem.badWords = [] →
    s.mach.mem.chansOut = [] → s.mach.mem.ceWords = [] → s.mach.bit (Reg.tileAudit t.val) 16 = false →
    let x := s.mach.tile t.val
    let runs := fun (c : Instr) (e : EngId) (op : Nat) (f : Variant → Mach → Nat → List Byte → DescOut) =>
      x.engQ e = ⟨[d], true⟩ → descOp d = op →
      Does c s (fun m m' =>
        let r := if descBadHeader d then (⟨m, St.invalidField, 0, false⟩ : DescOut) else f s.variant m t.val d
        (m'.tile t.val).engQ e = ⟨[], false⟩ ∧
        (descBadHeader d = false → descStatusEn d = true →
          memNat (m'.tile t.val).sram (descStatusOff d) 4 = r.status % 2 ^ 32 ∧
          memNat (m'.tile t.val).sram (descStatusOff d + 4) 4 = r.result % 2 ^ 32) ∧
        (descStatusEn d = false → descSignalEn d = false → ∀ l : Loc, m'.locByte l = r.m.locByte l) ∧
        (descSignalEn d = true → x.sync[descSignalObj d] < 0xFFFF → x.waits = [] →
          (m'.tile t.val).sync[descSignalObj d] = x.sync[descSignalObj d] + 1) ∧
        (descSignalEn d = false → (m'.tile t.val).sync = x.sync))
    runs (.gougeHash t) .gouge 1 gougeHash ∧
    runs (.gougeLookup t) .gouge 2 gougeLookup ∧
    runs (.gougeLzexec t) .gouge 3 gougeLzexec ∧
    runs (.gougeHuff t) .gouge 4 gougeHuff ∧
    runs (.gougeTans t) .gouge 5 gougeTans ∧
    runs (.gougeStep t) .gouge 6 gougeStep ∧
    runs (.dmaCopy t) .dma 1 dmaCopy ∧
    runs (.dmaFill t) .dma 2 dmaFill ∧
    runs (.dmaCopy2d t) .dma 3 dmaCopy2d ∧
    runs (.dmaCount t) .dma 4 dmaCount ∧
    runs (.aesDecrypt t) .aes 1 aesDecrypt ∧
    runs (.aesEncrypt t) .aes 2 aesEncrypt

/-- For a descriptor of reserved fields 0, with CNT_EN 0, whose ranges are backed and allowed: FILL leaves byte i
of its pattern modulo 8 at DST + i, COPY the source as it was read before the first write, and no other byte
of memory changes. COUNT with a counter of GDDR7 holds one add until DONE, and memory is as it was.
(05_falesk_instruction_set.md R202, R203; 06_synchronisation_and_work_stealing.md R232) -/
def Obligations.DmaTransfers : Prop :=
  ∀ (s : State) (t : TileId) (d : List Byte), (s.mach.tile t.val).stalled = none → (s.mach.tile t.val).dq = ⟨[d], true⟩ →
    s.mach.mem.badWords = [] → s.mach.mem.chansOut = [] → s.mach.mem.ceWords = [] → descBadHeader d = false →
    descStatusEn d = false → descSignalEn d = false → (s.mach.tile t.val).keepsAside = false → d.length = 64 →
    let m := s.mach
    let v := s.variant
    let x := m.tile t.val
    let src := leAt d 0x08 8
    let dst := leAt d 0x10 8
    let len := leAt d 0x18 4
    let cnt := leAt d 0x20 8
    let place := fun a : Nat => locOf v (some t.val) a
    let fills := fun (c : Instr) (f : Nat → Byte) => Does c s (fun m m' =>
      (∀ i : Nat, i < len → m'.locByte (place (dst + i)) = f i) ∧
      (∀ l : Loc, (∀ i : Nat, i < len → place (dst + i) ≠ l) → m'.locByte l = m.locByte l) ∧
      (m'.tile t.val).dq = ⟨[], false⟩)
    (descOp d = 2 → descFlags d = 0 → descReserved0 d dmaFields = true → m.dmaWriteStatus v t.val dst len = 0 →
      fills (.dmaFill t) (fun i => d.getD (8 + i % 8) 0)) ∧
    (descOp d = 1 → descFlags d = 0 → descReserved0 d dmaFields = true → m.readStatus v t.val src len = 0 →
      m.dmaWriteStatus v t.val dst len = 0 → fills (.dmaCopy t) (fun i => m.jobByte t.val (place (src + i)))) ∧
    (descOp d = 3 → descFlags d = 0 → descReserved0 d dmaFields2d = true → leAt d 0x28 4 = 1 →
      overlap src len dst len = false → m.readStatus v t.val src len = 0 → m.dmaWriteStatus v t.val dst len = 0 →
      fills (.dmaCopy2d t) (fun i => m.jobByte t.val (place (src + i)))) ∧
    (descOp d = 4 → descFlags d = 1 → descReserved0 d dmaFields = true → cnt % 4 = 0 → cnt < gddrTop v → x.running = true →
      x.heldAdds = [] →
      Does (.dmaCount t) s (fun m m' => (m'.tile t.val).heldAdds = [(cnt, 1)] ∧ (∀ l : Loc, m'.locByte l = m.locByte l)))

/-- A tile that may take work and finds the oldest entry of its own cluster queue takes it: the entry is TAKEN,
every g, v and p register and sync count is 0, PC is the code object, and the entry lies at 0x7FFC0 of its
SRAM. DONE with status 0, CHECK_FAIL or CHECK_ABSENT on drained engines makes the entry DONE with that status
and the tile idle; a unit of the shipped kernels ends as they make its sample end, and the entry keeps what
they made. The detector of the tile ends a unit whose engines all wait, and the entry is READY again.
(06_synchronisation_and_work_stealing.md R218, R222 to R224, R229, R230, R235; 05_falesk_instruction_set.md
R161, R201; 09_decode_augment_cache.md R314) -/
def Obligations.UnitsTakenAndDone : Prop :=
  ∀ (s : State) (t : TileId) (rs : GReg) (u : WorkUnit) (e : QEntry),
    let m := s.mach
    let x := m.tile t.val
    (∀ l : QLoc, m.tileReady s.variant t.val = true → m.nextEntry (t.val / 16) = some l → m.entryAt l = some e →
      x.cfgPend = none → e.bytes.length = 64 →
      Does (.workUnitTake t) s (fun _ m' =>
        let y := m'.tile t.val
        m'.entryAt l = some { e with state := .taken, takenBy := some t.val } ∧
        y.unit = some ⟨e.bytes, l, e.part, (m.codeOf s.variant e.bytes).1, (m.codeOf s.variant e.bytes).2, e.slotLen⟩ ∧
        y.running = true ∧ y.pc = (m.codeOf s.variant e.bytes).1 ∧ (∀ r : GReg, y.gr r = 0) ∧ (∀ r : VReg, y.vr r = 0) ∧
        (∀ k : SyncId, y.sync[k] = 0) ∧ y.fstat = 0 ∧ y.waits = [] ∧
        (∀ i : Nat, i < 64 → memByte y.sram (0x7FFC0 + i) = e.bytes.getD i 0))) ∧
    (let st := (x.gr rs).toNat % 2 ^ 16
     ScalarReady m t.val 4 → x.unit = some u → u.part = .plain → x.heldAdds = [] → m.entryAt u.loc = some e → e.runs = [] →
      x.vq = [] → x.gq.q = [] → x.aq.q = [] → x.dq.q = [] → st = St.ok ∨ st = St.checkFail ∨ st = St.checkAbsent →
      (∀ k : KernelOut, e.kind = .kernel → m.runKernel s.variant e.bytes = some k → Does (.done t rs) s (fun _ m' =>
        m'.entryAt u.loc = some { e with state := .done, status := k.status, adds := [], held := some k } ∧
        (m'.tile t.val).unit = none ∧ (m'.tile t.val).running = false)) ∧
      (e.kind ≠ .kernel → Does (.done t rs) s (fun _ m' =>
        m'.entryAt u.loc = some { e with state := .done, status := st, adds := [] } ∧
        (m'.tile t.val).unit = none ∧ (m'.tile t.val).running = false ∧ (m'.tile t.val).waits = [] ∧
        (∀ k : SyncId, (m'.tile t.val).sync[k] = 0) ∧ (m'.tile t.val).g = x.g ∧ m'.evr = m.evr ∧ m'.regs = m.regs))) ∧
    (let blocked := engineBits x.blocked
     let waited := bitMask ((x.waits.filter (fun w => !w.served)).map (fun w => w.obj.val))
     FirstRun m t.val u e → m.bit (Reg.tileDlkCfg t.val) 5 = true → (∀ g : EngNo, x.quiet g = true) → blocked ≠ 0 →
      Does (.tileDeadlock t) s (fun _ m' =>
        m'.entryAt u.loc = some { e with state := .ready, runs := [⟨t.val, .deadlock blocked waited⟩], takenBy := none } ∧
        (m'.tile t.val).running = false ∧ (m'.tile t.val).gq.q = [] ∧ (m'.tile t.val).dq.q = [] ∧ m'.evr = m.evr ∧
        m'.bit (Reg.tileDlkStatus t.val) 31 = true ∧ m'.fld (Reg.tileDlkStatus t.val) 20 16 = blocked ∧
        m'.fld (Reg.tileDlkStatus t.val) 15 0 = waited % 2 ^ 16 ∧ m'.reg (Reg.tileExc t.val) = m.reg (Reg.tileExc t.val)))

/-- A WAITING entry whose counter has reached its value becomes READY and no other entry changes. A cluster queue
above SPILL_MARK moves its newest READY entry to the die queue. The cluster detector sets DLK_FIRED, disarms
itself and asks for an examination, which re-arms it where every job of a WAITING entry still has work. A
clock that runs moves at most 25 MHz towards its effective frequency. A table set loaded is added to the
cluster. (06_synchronisation_and_work_stealing.md R231, R238, R240, R241; 04_tiles_clusters_regions.md R145,
R147) -/
def Obligations.QueuesAndClocks : Prop :=
  ∀ (s : State) (c : ClusterId) (pos : Fin 4096) (j : JobSlot) (e : QEntry) (k : Nat),
    let m := s.mach
    let x := m.clus c.val
    (ringEntry x pos.val = some (k, e) → e.state = .waiting →
      (entryDepEn e.bytes = true →
        (m.counter (entryHome e.bytes) (entryDepCnt e.bytes) + 2 ^ 32 - entryDepVal e.bytes) % 2 ^ 32 < 2 ^ 31) →
      Does (.dependencyMet c pos) s (fun m m' => m' = m.setClus c.val { x with ring := mapSet x.ring k { e with state := .ready } })) ∧
    (m.fld (Reg.pipeClqCfg c.val) 12 0 < countState x.ring .ready →
      (x.ring.filter (fun p => p.2.state = .ready)).getLast? = some (k, e) → (m.dieQueue (c.val / 8)).length < 8192 →
      Does (.spill c) s (fun m m' => (m'.clus c.val).ring = mapErase x.ring k ∧
        (∃ n : Nat, mapFind (m.dieQueue (c.val / 8)) n = none ∧ m'.dieQueue (c.val / 8) = mapSet (m.dieQueue (c.val / 8)) n e) ∧
        (∀ b : Nat, b ≠ c.val → m'.clus b = m.clus b) ∧ (∀ t : Nat, m'.tile t = m.tile t) ∧ m'.regs = m.regs)) ∧
    (c.val < clusterCount s.variant → m.bit (Reg.pipeClqCfg c.val) 16 = true → x.armed = true → m.waitingJobs c.val ≠ [] →
      (∀ t ∈ m.dutyTiles s.variant c.val, m.blockedOnQueue t = true) →
      Does (.clusterDeadlock c) s (fun m m' => m'.bit (Reg.pipeClqStatus c.val) 31 = true ∧
        (m'.clus c.val).armed = false ∧ (m'.clus c.val).ring = x.ring ∧ c.val ∈ m'.tl.examine ∧ m'.jobs = m.jobs)) ∧
    (∀ yft planned : List JobSlot, c.val ∈ m.tl.examine →
      (∀ n ∈ m.waitingJobs c.val, m.hasWork n = true ∨ (∃ y ∈ yft ++ planned, y.val = n)) →
      Does (.deadlockExamine c yft planned) s (fun m m' => (m'.clus c.val).armed = true ∧ (m'.clus c.val).ring = x.ring ∧
        c.val ∉ m'.tl.examine ∧ m'.jobs = m.jobs)) ∧
    (m.clockRuns c.val = true →
      Does (.clockStep c) s (fun m m' =>
        let goal := min (m.fld (Reg.clkClTarget c.val) 10 0) x.limitMhz
        m' = m.setClus c.val { x with current := if x.current < goal then min goal (x.current + 25) else max goal (x.current - 25) })) ∧
    (j.val ∈ x.serves → j.val ∉ x.loaded →
      Does (.tableSetLoaded c j) s (fun _ m' => j.val ∈ (m'.clus c.val).loaded ∧ (m'.clus c.val).serves = x.serves ∧
        (m'.clus c.val).ring = x.ring ∧ (m'.clus c.val).sram = x.sram))

/-- For a die of the part: the die is out of service, none of its tiles runs a unit, its cluster queues and die
queue hold nothing, dies already out stay out, and boot state and flash are as they were. A die that the part
does not have changes nothing. (01_architecture.md R31; 06_synchronisation_and_work_stealing.md R237) -/
def Obligations.DieLoss : Prop :=
  ∀ (s : State) (d : DieId) (cause : BitVec 32),
    (d.val < dieCount s.variant → Does (.dieFault d cause) s (fun _ m' => d.val ∈ m'.tl.diesOut ∧
      (∀ t : Nat, t / 128 = d.val → (m'.tile t).running = false) ∧
      (∀ c : Nat, c / 8 = d.val → (m'.clus c).ring = []) ∧ m'.dieQueue d.val = [] ∧
      (∀ k ∈ s.mach.tl.diesOut, k ∈ m'.tl.diesOut) ∧ m'.boot = s.mach.boot ∧ m'.ftl = s.mach.ftl)) ∧
    (dieCount s.variant ≤ d.val → Does (.dieFault d cause) s (fun m m' => m' = m))

/-- HOT_SWAP_CLOSE closes the switch above lockout and else records SUPPLY kind 1; STANDBY_UP samples ADDR_SEL;
MOD_EN_RISE after 100 ms low with good inputs releases every latch and starts the coolant check, a shorter low
keeps the latches; a passed check starts the rails, the first failed one is recorded; RAILS_IN_REGULATION and
PWR_OK_RISE follow, the latter sampling the straps, starting the count from 0 and choosing the image.
STANDBY_LOST below 28 V clears every latch. (02_module_connectors_power_cooling.md R63, R64, R68 to R70, R76,
R621, R623; 03_startup_and_trust.md R99, R103) -/
def Obligations.PowerUpSequence : Prop :=
  ∀ (s : State) (sel : Fin 4) (mv lowMs minFlow maxInlet flow inlet : Nat) (straps : BitVec 11),
    let m := s.mach
    let p := m.power
    let code := strapsInEffect straps.toNat
    (uvLockout ≤ mv → Does (.hotSwapClose mv) s (fun m m' => m' = { m with power := { p with vin := mv, closed := true } })) ∧
    (mv < uvLockout → Does (.hotSwapClose mv) s (fun m m' => m'.power = { p with vin := mv } ∧
      m'.evr = (m.record 0x0082 (sourceOf 10 2) St.supply (payloadOf [(4, (m.reg Reg.glbSupply).toNat), (4, 1)])).evr)) ∧
    (p.closed = true → p.standby = false → Does (.standbyUp sel) s (fun m m' =>
      m' = { m with power := { p with standby := true, smbusAddr := 0x6A + sel.val, samples := [] } })) ∧
    (p.closed = false ∨ p.standby = true → Does (.standbyUp sel) s (fun m m' => m' = m)) ∧
    (100 ≤ lowMs → p.standby = true → p.rails = .off → uvLockout ≤ mv → mv < ovShutdown →
      Does (.modEnRise lowMs true mv) s (fun m m' => m' = { m with power := { p with
        modEn := true, vin := mv, emergLow := false, overvolt := false, latchEmerg := false, latchOv := false,
        latchOther := false, thermTrip := false, checkRunning := true } })) ∧
    (lowMs < 100 → p.latched = true → p.standby = true → uvLockout ≤ mv → mv < ovShutdown →
      Does (.modEnRise lowMs true mv) s (fun m m' => m' = { m with power := { p with
        modEn := true, vin := mv, emergLow := false, overvolt := false } })) ∧
    (p.checkRunning = true → 1200 ≤ minFlow → maxInlet ≤ 400 → Does (.coolantCheck minFlow maxInlet flow inlet) s (fun m m' =>
      m'.power = { p with rails := .ramping, checkRunning := false, checkFailing := false } ∧ m'.evr = m.evr)) ∧
    (p.checkRunning = true → p.checkFailing = false → (minFlow < 1200 ∨ 400 < maxInlet) →
      Does (.coolantCheck minFlow maxInlet flow inlet) s (fun _ m' =>
        m'.power = { p with checkFailing := true } ∧ m'.fld Reg.glbCoolant 15 0 = flow % 2 ^ 16)) ∧
    (p.rails = .ramping → Does (.railsInRegulation) s (fun m m' => m' = { m with power := { p with rails := .regulated } })) ∧
    (p.rails = .regulated → p.pwrOk = false → Does (.pwrOkRise straps) s (fun m m' =>
      m'.power = { p with pwrOk := true } ∧ m'.spn.count = 0 ∧ m'.spn.running = true ∧
      m'.fld Reg.glbStraps 10 0 = code ∧ m'.bit Reg.glbStraps 31 = strapsReserved straps.toNat ∧
      m'.boot.chosen = (chooseImage m.boot (bitsOf code 4 3)).chosen ∧
      m'.fld Reg.glbBootStatus 7 0 = if m'.boot.chosen.isSome then 2 else 0xFF)) ∧
    (mv < 28000 → Does (.standbyLost mv) s (fun _ m' => m'.power.standby = false ∧ m'.power.closed = false ∧
      m'.power.rails = .off ∧ m'.power.latched = false ∧ m'.power.thermTrip = false ∧ m'.power.offDue = none ∧
      m'.reg Reg.glbSupply = 0 ∧ m'.reg Reg.glbCoolant = 0 ∧ m'.evr.pre = []))

/-- MOD_EN_FALL writes cause 0x02 (none where the quiesce was complete); RAIL_FAULT, EMERG_OFF, OVERVOLTAGE and
JUNCTION_TRIP leave their cause to OFF_RECORD, which writes it; FLOW_LOSS_DEADLINE writes 0x04.
UNDERVOLTAGE_DETECT keeps the rails on the bulk until BULK_DEPLETED. INPUT_RETURN starts the check again.
After each power-down the count is 0 and the flash is unmounted; with the rails off EMERG_OFF and OVERVOLTAGE
only latch and record. (02_module_connectors_power_cooling.md R64, R67, R71 to R76, R78, R81) -/
def Obligations.PowerDownPaths : Prop :=
  ∀ (s : State) (rail : Fin 6) (die : Fin 5) (mv temp : Nat),
    let m := s.mach
    let p := m.power
    let down := fun m' : Mach => m'.power.rails = .off ∧ m'.power.pwrOk = false ∧ m'.power.wpLow = 0xF ∧ m'.power.quiesce = .none ∧
      m'.spn.count = 0 ∧ m'.spn.running = false ∧ m'.ftl.mounted = false ∧ m'.boot.fwMinSvn = m.boot.fwMinSvn ∧
      m'.power.standby = p.standby
    let due := fun (c : Nat) (m' : Mach) => m'.power.offRecs = p.offRecs ∧ m'.power.offDue = dueCause p.offDue c
    (p.rails ≠ .off →
      Does (.modEnFall) s (fun _ m' => down m' ∧ m'.power.modEn = false ∧ m'.power.latchOther = true ∧
        m'.power.offRecs = if p.quiesce = .ready then p.offRecs else ⟨2, false⟩ :: p.offRecs) ∧
      Does (.railFault rail) s (fun _ m' => down m' ∧ due 8 m' ∧ m'.power.latchOther = true) ∧
      Does (.emergOff) s (fun _ m' => down m' ∧ due 6 m' ∧ m'.power.latchEmerg = true) ∧
      (ovShutdown ≤ mv → Does (.overvoltage mv) s (fun _ m' => down m' ∧ due 7 m' ∧ m'.power.latchOv = true)) ∧
      (1150 ≤ temp → Does (.junctionTrip die temp) s (fun _ m' => down m' ∧ due 5 m' ∧ m'.power.thermTrip = true ∧
        m'.power.latchOther = true ∧ m'.power.flowTimer = false)) ∧
      (p.flowTimer = true → Does (.flowLossDeadline) s (fun _ m' => down m' ∧ m'.power.latchOther = true ∧
        m'.power.offRecs = ⟨4, false⟩ :: p.offRecs ∧ m'.reg Reg.glbCoolantTimer = 0)) ∧
      (mv < uvDetect → Does (.undervoltageDetect mv) s (fun _ m' => m'.power.rails = .bulk ∧ m'.power.pwrOk = false ∧
        m'.power.wpLow = 0xF ∧ m'.power.offRecs = p.offRecs ∧ m'.power.vin = mv))) ∧
    (p.rails = .bulk → Does (.bulkDepleted) s (fun _ m' => down m' ∧ m'.power.offRecs = p.offRecs)) ∧
    (p.rails = .off →
      Does (.emergOff) s (fun m m' => m'.power = { p with checkRunning := false, checkFailing := false, emergLow := true, latchEmerg := true } ∧
        m'.spn = m.spn ∧ m'.ftl = m.ftl) ∧
      (ovShutdown ≤ mv → Does (.overvoltage mv) s (fun m m' => m'.power = { p with
        checkRunning := false, checkFailing := false, vin := mv, overvolt := true, latchOv := true } ∧ m'.spn = m.spn ∧ m'.ftl = m.ftl)) ∧
      (uvLockout ≤ mv → mv < ovShutdown → p.modEn = true → p.standby = true → p.latched = false → p.emergLow = false →
        Does (.inputReturn mv) s (fun m m' => m' = { m with power := { p with vin := mv, overvolt := false, checkRunning := true } }))) ∧
    (∀ c : Nat, p.offDue = some c → p.standby = true → Does (.offRecord) s (fun m m' =>
      m'.power = { p with offRecs := ⟨c, false⟩ :: p.offRecs, offSinceBoot := true, offDue := none } ∧ m'.regs = m.regs ∧ m'.boot = m.boot))

/-- FLOW_LOSS_DETECT sets FLOW_LOSS, the 10,000 ms timer and the limit of 150 W on every cluster; FLOW_RECOVERY
lifts them. INLET_HIGH and INLET_CLEAR set and clear their bit. THROTTLE_START and END set and lift the
thermal limit of the clusters of the sensor. The 950 W limit is set and lifted on every cluster. SUPPLY_SAMPLE
shows the means of at most 100 samples. SENSOR_CALIBRATION marks the calibration.
(02_module_connectors_power_cooling.md R65, R78 to R80, R624; 04_tiles_clusters_regions.md R147;
16_power_states.md R577) -/
def Obligations.CoolantHeatAndPower : Prop :=
  ∀ (s : State) (flow mhz temp sensor mv dw : Nat) (b : Bool), s.mach.power.pwrOk = true → s.mach.power.standby = true →
    let m := s.mach
    let p := m.power
    let hot := 1050 - 50 * m.fld Reg.glbStraps 10 9
    let limits := fun (i : Nat) (x : Option Nat) (m' : Mach) => ∀ c : Nat, c < 32 → (m'.clus c).lim = (m.clus c).lim.set i x
    (flow < 900 → m.bit Reg.glbCoolant 29 = false → Does (.flowLossDetect flow false mhz) s (fun _ m' =>
      m'.bit Reg.glbCoolant 29 = true ∧ m'.fld Reg.glbCoolantTimer 13 0 = 10000 ∧ m'.fld Reg.glbCoolant 15 0 = flow ∧
      m'.power = { p with flowTimer := true, deadlinePassed := false, limit150 := true } ∧ limits 2 (some mhz) m')) ∧
    (1200 ≤ flow → m.bit Reg.glbCoolant 29 = true → Does (.flowRecovery flow) s (fun _ m' =>
      m'.bit Reg.glbCoolant 29 = false ∧ m'.reg Reg.glbCoolantTimer = 0 ∧ m'.power = { p with flowTimer := false, limit150 := false } ∧
      limits 2 none m')) ∧
    (400 < temp → temp < 4096 → Does (.inletHigh temp) s (fun _ m' => m'.bit Reg.glbCoolant 30 = true ∧ m'.fld Reg.glbCoolant 27 16 = temp ∧
      m'.power = p)) ∧
    (temp ≤ 400 → Does (.inletClear temp) s (fun m m' => m'.bit Reg.glbCoolant 30 = false ∧ m'.fld Reg.glbCoolant 27 16 = temp ∧
      m'.power = p ∧ m'.evr = m.evr)) ∧
    (hot ≤ temp → sensor ∉ p.throttled → Does (.throttleStart sensor temp mhz) s (fun _ m' =>
      m'.power = { p with throttled := sensor :: p.throttled } ∧
      ∀ c ∈ clustersOfSensor sensor, (m'.clus c).lim = (m.clus c).lim.set 0 (some mhz))) ∧
    (temp < hot → p.throttled = [sensor] → Does (.throttleEnd sensor temp) s (fun _ m' => m'.power = { p with throttled := [] } ∧
      ∀ c ∈ clustersOfSensor sensor, (m'.clus c).lim = (m.clus c).lim.set 0 none)) ∧
    (p.limit950 = false → Does (.powerLimitEngage mhz) s (fun _ m' => m'.power = { p with limit950 := true } ∧ limits 1 (some mhz) m')) ∧
    (p.limit950 = true → Does (.powerLimitRelease) s (fun _ m' => m'.power = { p with limit950 := false } ∧ limits 1 none m')) ∧
    (let l := ((mv, dw) :: p.samples).take 100
     Does (.supplySample mv dw) s (fun m m' => m'.power = { p with samples := l, vin := mv } ∧ m'.evr = m.evr ∧
      m'.fld Reg.glbSupply 15 0 = (l.map (fun q => q.1)).sum / l.length % 2 ^ 16 ∧
      m'.fld Reg.glbSupply 31 16 = (l.map (fun q => q.2)).sum / l.length % 2 ^ 16)) ∧
    Does (.sensorCalibration b) s (fun m m' => m' = { m with power := { p with calibrating := b } })

/-- SVC_REQ starts a quiesce that ends every live job; QUIESCE_COMPLETE writes off record 0x01 and drops WP#;
SVC_REQ_RELEASE withdraws that record and raises WP# again; a timeout only records. MOD_RESET of 1 us or more
writes 0x09 and boots again with count, rails and fuses kept; one below 900 ns does nothing. A read of the
standby set is answered, another register before boot completes is not; without the standby rail nothing
answers. (02_module_connectors_power_cooling.md R59 to R61, R67, R83, R84, R621; 03_startup_and_trust.md R106) -/
def Obligations.ServiceAndManagement : Prop :=
  ∀ (s : State) (lowNs heldMs : Nat) (off : BitVec 25) (r : List OffRec),
    let m := s.mach
    let p := m.power
    (p.pwrOk = true → p.quiesce = .none → Does (.svcReq) s (fun _ m' => m'.power = { p with svcReq := true, quiesce := .running } ∧
      (∀ (j : Nat) (x : Job), m'.job? j = some x → x.live = false))) ∧
    (p.quiesce = .running → Does (.quiesceComplete) s (fun _ m' => m'.power.quiesce = .ready ∧ m'.power.wpLow = 0xF ∧
      m'.power.offRecs = ⟨1, false⟩ :: p.offRecs ∧ m'.power.rails = p.rails)) ∧
    (p.quiesce = .ready → p.offRecs = ⟨1, false⟩ :: r → Does (.svcReqRelease) s (fun m m' => m' = { m with power := { p with
      svcReq := false, offRecs := ⟨1, true⟩ :: r, quiesce := .none, wpLow := m.wpMask } })) ∧
    (p.quiesce = .running → Does (.svcReqRelease) s (fun m m' => m' = { m with power := { p with svcReq := false, quiesce := .none } })) ∧
    (p.quiesce = .running → Does (.quiesceTimeout) s (fun m m' => m'.power = { p with quiesce := .overrun } ∧ m'.jobs = m.jobs ∧ m'.ftl = m.ftl)) ∧
    (5 ≤ heldMs → Does (.wakeIn heldMs) s (fun m m' => m' = { m with power := { p with wakeIn := true }, draws := m.draws + 1 })) ∧
    (1000 ≤ lowNs → p.pwrOk = true → Does (.modReset lowNs) s (fun m m' => m'.power.offRecs = ⟨9, false⟩ :: p.offRecs ∧
      m'.power.pwrOk = true ∧ m'.power.rails = p.rails ∧ m'.spn.count = m.spn.count ∧ m'.jobs.slots = [] ∧ m'.tl.tiles = [] ∧
      m'.reg Reg.glbStraps = m.reg Reg.glbStraps ∧ m'.boot.fwMinSvn = m.boot.fwMinSvn ∧ m'.boot.trMinSvn = m.boot.trMinSvn ∧
      m'.boot.revoked = m.boot.revoked ∧ m'.ks.keys = m.ks.keys)) ∧
    (lowNs < 900 → Does (.modReset lowNs) s (fun m m' => m' = m.draw)) ∧
    (p.standby = true → off.toNat ∈ standbySet (decide (m.fld Reg.glbBootStatus 7 0 = 0xFF)) → Does (.mgmtRequest (.read off)) s (fun m m' =>
      m' = m.send (.mgmt St.ok (leBytes 4 (regRead s.variant m off.toNat).toNat)))) ∧
    (p.standby = true → off.toNat ∉ standbySet (decide (m.fld Reg.glbBootStatus 7 0 = 0xFF)) → Does (.mgmtRequest (.read off)) s (fun m m' =>
      m' = m.send (.mgmt St.unitAbsent []))) ∧
    (∀ q : MgmtReq, p.standby = false → Does (.mgmtRequest q) s (fun m m' => m' = m))

/-- CORES_RELEASE at STAGE 0x02 adds 1 to the attempt count of the chosen slot, extends MEAS0 with the fuses,
releases cores 0 to 7, shows the image and its VERSION, and moves to STAGE 0x03; STAGE_READY at 0x07 confirms
the slot with count 0 and stops the watchdog. BOOT_WATCHDOG writes off record 0x0A and boots again with the
count and the fuses kept. ROOT_OF_TRUST_FAULT shows in GLB_CC_STATUS. At another STAGE the first two change
nothing. (03_startup_and_trust.md R98 to R101, R103, R106, R109; 01_architecture.md R33) -/
def Obligations.BootStages : Prop :=
  ∀ (s : State) (i : Nat), s.mach.boot.chosen = some i →
    let m := s.mach
    let b := m.boot
    let stage := fun m : Mach => m.fld Reg.glbBootStatus 7 0
    (stage m = 2 → i < 3 → b.meas.length = 8 → Does (.coresRelease) s (fun m m' => stage m' = 3 ∧ m'.fld Reg.glbBootStatus 11 8 = i ∧
      m'.fld Reg.glbCcStatus 7 0 = 0xFF ∧ m'.reg Reg.glbFwVersion = BitVec.ofNat 64 (b.image i).version ∧
      (i < 2 → (m'.boot.slot i).count = (b.slot i).count + 1) ∧ (i = 2 → m'.boot.slotA = b.slotA ∧ m'.boot.slotB = b.slotB) ∧
      m'.boot.measSeq = (b.measSeq + 3) % 2 ^ 32 ∧
      m'.boot.meas.getD 0 [] = shake256 (b.meas.getD 0 [] ++ leBytes 2 (Config.freeNat 10 0 % 2 ^ 16) ++
        sliceBytes (shake256 (Config.measuredConst 0 ++ leBytes 1 b.fwMinSvn ++ leBytes 1 b.trMinSvn ++ leBytes 1 b.revoked) 64) 0 64) 64 ∧
      m'.power.offSinceBoot = false ∧ m'.boot.fwMinSvn = b.fwMinSvn ∧ m'.spn = m.spn)) ∧
    (stage m ≠ 2 → Does (.coresRelease) s (fun m m' => m' = m)) ∧
    (stage m = 7 → Does (.stageReady) s (fun m m' => stage m' = 8 ∧ m'.boot.watchdog = false ∧
      (i < 2 → (m'.boot.slot i).state = .confirmed ∧ (m'.boot.slot i).count = 0 ∧ (m'.boot.slot i).image = (b.slot i).image) ∧
      m'.boot.chosen = some i ∧ m'.jobs = m.jobs ∧ m'.evr = m.evr)) ∧
    (stage m ≠ 7 → Does (.stageReady) s (fun m m' => m' = m)) ∧
    (b.watchdog = true → m.power.pwrOk = true → Does (.bootWatchdog) s (fun m m' =>
      m'.power.offRecs = ⟨0x0A, false⟩ :: m.power.offRecs ∧ m'.spn.count = m.spn.count ∧ m'.boot.fwMinSvn = b.fwMinSvn ∧
      m'.boot.revoked = b.revoked ∧ m'.boot.measLog = [] ∧ (stage m' = 2 ∨ stage m' = 0xFF))) ∧
    Does (.rootOfTrustFault) s (fun m m' => m'.bit Reg.glbCcStatus 17 = true ∧ m'.bit Reg.glbCcStatus 16 = false ∧
      m'.fld Reg.glbCcStatus 7 0 = m.fld Reg.glbCcStatus 7 0 ∧ m'.ks = m.ks)

/-- A served download into slot 1 or 2 of an image that is no Tool rest, or into slot 3 of one that is, stores it
PENDING with count 0 and completes; a wrong slot or type is refused with its NVMe status. Commit of a valid
image completes, with action 3 a live update starts, an image that fails its checks is refused. Each
LIVE_UPDATE_CORE that passes takes the next core; core 0 ends it with the slot CONFIRMED; a failure marks the
slot FAILED. SECURITY_SEND with 32 bytes keeps the nonce of its port and extends MEAS7 with it; another length
is ST_INVALID_FIELD. SECURITY_RECEIVE answers the signed report with the nonce that waits, which is then gone;
with none it is ST_INVALID_FIELD. SECURITY_PROTOCOL_LIST lists 0x00, 0xF1 and 0xF2. (03_startup_and_trust.md
R94 to R98, R112 to R115; 03_startup_and_trust.md R109, R111; 14_host_ports_and_command_queues.md R502) -/
def Obligations.FirmwareAndAttestation : Prop :=
  (∀ (s : State) (n : NvmeCtx) (slot : Fin 4) (action : Fin 8) (image : List Byte) (l : LiveUpdate) (r : Nat),
    let m := s.mach
    let b := m.boot
    let img := b.image (slot.val - 1)
    let place := if slot = 3 then 2 else 1
    let done := fun (m' : Mach) (sct sc : Nat) => m'.out = m.out ++ [completion n sct sc 0 []] ∧ m'.regs = m.regs ∧ m'.evr = m.evr
    let new := b.image l.slot
    (Served m n ⟨true, true, false, false⟩ → b.live = none →
      (slot = 1 ∨ slot = 2 → leAt image 6 2 ≠ 2 → Does (.firmwareImageDownload n slot image) s (fun _ m' => done m' 0 0 ∧
        m'.boot = b.setSlot (slot.val - 1) ⟨.pending, 0, .bytes image⟩)) ∧
      (slot = 3 → leAt image 6 2 = 2 → Does (.firmwareImageDownload n slot image) s (fun _ m' => done m' 0 0 ∧
        m'.boot = { b with toolRest := .bytes image })) ∧
      (slot = 0 → Does (.firmwareImageDownload n slot image) s (fun _ m' => done m' 1 6 ∧ m'.boot = b)) ∧
      ((slot = 3) ≠ (leAt image 6 2 = 2) → slot ≠ 0 → Does (.firmwareImageDownload n slot image) s (fun _ m' => done m' 1 7 ∧ m'.boot = b)) ∧
      (slot ≠ 0 → imageCheck b place img ≠ none → Does (.firmwareCommit n slot action) s (fun _ m' => done m' 1 7 ∧ m'.boot = b)) ∧
      (slot ≠ 0 → imageCheck b place img = none → action ≠ 3 → Does (.firmwareCommit n slot action) s (fun _ m' => done m' 0 0 ∧ m'.boot = b)) ∧
      (slot = 1 ∨ slot = 2 → imageCheck b 1 img = none → b.chosen = some r → r < 2 → img.liveCompat = (b.image r).liveCompat →
        Does (.firmwareCommit n slot 3) s (fun m m' =>
          m' = { m with boot := { b with live := some ⟨slot.val - 1, 7, [], n.port.val, n.cid.toNat⟩ } }))) ∧
    (b.live = some l →
      (l.core ≠ 0 → Does (.liveUpdateCore true) s (fun m m' => m'.boot.live = some { l with core := l.core - 1, updated := l.core :: l.updated } ∧
        m'.out = m.out ∧ m'.regs = m.regs ∧ m'.boot.chosen = b.chosen ∧ m'.boot.measSeq = (b.measSeq + 1) % 2 ^ 32)) ∧
      (l.core = 0 → l.slot < 2 → Does (.liveUpdateCore true) s (fun _ m' => m'.boot.live = none ∧ m'.boot.chosen = some l.slot ∧
        (m'.boot.slot l.slot).state = .confirmed ∧ (m'.boot.slot l.slot).count = 0 ∧ m'.reg Reg.glbFwVersion = BitVec.ofNat 64 new.version ∧
        m'.out.getLast? = some (.nvme (if l.port = 0 then 0 else 1) 0 (l.cid % 2 ^ 16) 0 0 0 []))) ∧
      (l.slot < 2 → Does (.liveUpdateCore false) s (fun _ m' => m'.boot.live = none ∧ m'.boot.chosen = b.chosen ∧
        (m'.boot.slot l.slot).state = .failed ∧ m'.reg Reg.glbFwVersion = m.reg Reg.glbFwVersion)))) ∧
  (∀ (s : State) (n : NvmeCtx) (data x : List Byte) (alloc : Nat), Served s.mach n ⟨false, true, false, false⟩ →
    let m := s.mach
    let b := m.boot
    (data.length = 32 → b.meas.length = 8 → Does (.securitySend n data) s (fun m m' => m'.boot.nonce n.port.val = some data ∧
      m'.boot.nonce (1 - n.port.val) = b.nonce (1 - n.port.val) ∧ m'.boot.measSeq = (b.measSeq + 1) % 2 ^ 32 ∧
      m'.boot.meas.getD 7 [] = shake256 (b.meas.getD 7 [] ++ leBytes 2 (Config.freeNat 10 7 % 2 ^ 16) ++ sliceBytes (shake256 data 64) 0 64) 64 ∧
      (∀ i : Nat, i ≠ 7 → m'.boot.meas.getD i [] = b.meas.getD i []) ∧ m'.out = m.out ++ [completion n 0 0 0 []] ∧ m'.regs = m.regs)) ∧
    (data.length ≠ 32 → Does (.securitySend n data) s (fun m m' => m'.boot = b ∧ m'.out = m.out ++ [completion n 0 2 St.invalidField []])) ∧
    (b.nonce n.port.val = some x → m.bit Reg.glbCcStatus 17 = false → Does (.securityReceive n alloc) s (fun m m' =>
      m' = ({ m with boot := b.setNonce n.port.val none }).send (completion n 0 0 0 ((m.attestation (capWords s.variant) x).take alloc)))) ∧
    (b.nonce n.port.val = none → Does (.securityReceive n alloc) s (fun m m' => m'.boot = b ∧
      m'.out = m.out ++ [completion n 0 2 St.invalidField []])) ∧
    Does (.securityProtocolList n) s (fun m m' => m' = m.send (completion n 0 0 0
      [0, 0, 0, 0, 0, 0, 0x00, 0x03, 0x00, 0xF1, 0xF2])))

/-- RECORD_TO_NOR leaves no record in the buffer where nothing was dropped. A write of EVR_RD_SEQ by its own port,
or by a control-complex core, starts a load from the area that AREA names; by the other port, or while BUSY,
it is discarded and recorded with reason 2. The load ends with the bytes of the record, or with STATE 1 or 2
and no bytes. (17_health_faults_event_recorder.md R614, R615, R617, R619, R629, R632) -/
def Obligations.RecorderCommands : Prop :=
  ∀ (s : State) (w : Writer) (p : Port) (seq : BitVec 32) (k : KeptRec),
    let m := s.mach
    let win := m.evr.win p.val
    let foreign := match w with | .port q => decide (q ≠ p) | _ => false
    (m.recorderOn = true → m.evr.dropRun = 0 → Does (.recordToNor) s (fun m m' => (∀ k ∈ m'.evr.kept, k.buffered = false) ∧
      m'.evr.nextSeq = m.evr.nextSeq ∧ m'.regs = m.regs)) ∧
    (win.busy = false → foreign = false → Does (.evrRdSeq w p seq) s (fun m m' =>
      m'.evr.win p.val = { win with seq := seq.toNat, busy := true, loadArea := win.area } ∧
      m'.evr.win (1 - p.val) = m.evr.win (1 - p.val) ∧ m'.evr.kept = m.evr.kept ∧ m'.regs = m.regs)) ∧
    (win.busy = true ∨ foreign = true → Does (.evrRdSeq w p seq) s (fun m m' =>
      m' = m.record 0x00A0 (writerSource w) St.notOwner
        (payloadOf [(4, Reg.evrRdSeq p.val), (4, seq.toNat % 2 ^ 32), (4, 2)]))) ∧
    (win.busy = true → m.evr.kept.find? (fun k => k.record.seq = win.seq && k.inArea win.loadArea) = some k →
      Does (.evrRdLoaded p) s (fun m m' => m'.evr.win p.val = { win with busy := false, state := 0, data := k.record.bytes } ∧
        m'.evr.kept = m.evr.kept)) ∧
    (win.busy = true → m.evr.kept.find? (fun k => k.record.seq = win.seq && k.inArea win.loadArea) = none →
      Does (.evrRdLoaded p) s (fun _ m' => (m'.evr.win p.val).busy = false ∧ (m'.evr.win p.val).data = [] ∧
        (m'.evr.win p.val).state = if (win.seq + 2 ^ 32 - m.evr.nextSeq) % 2 ^ 32 < 2 ^ 31 then 2 else 1)) ∧
    (win.busy = false → Does (.evrRdLoaded p) s (fun m m' => m' = m))

/-- For a register of 32 bits with one field and no effect of its own, written by a writer that reaches window 2:
RW takes the value, RO keeps its own, W1C clears the ones written, and RWC holds the value until COMMIT with
the register unchanged; no other register changes. Of a write of GLB_EMC_CFG with spreading strapped off, bits
[7:6] alone act: a permitted value is stored, the reserved value 3 is discarded and recorded with reason 1.
Where both ports write the register in one cycle, port 0 wins and port 1 is told. By a writer that reaches the
block: COMMIT with pending values adds one commit set of exactly those, and no register but the set list
changes; DISCARD drops the values that are not latched. At COMMIT_POINT the oldest set of a block without
further effect leaves the list, its permitted values are in their registers, and COMMIT_SEQ counts one more;
without a set nothing changes. (00_scope.md R10, R13, R14, R17; 02_module_connectors_power_cooling.md R89;
17_health_faults_event_recorder.md R629; 00_scope.md R13, R15, R16) -/
def Obligations.RegisterWritesAndCommits : Prop :=
  (∀ (s : State) (w : Writer) (off : BitVec 25) (val : BitVec 32) (r : RegDef) (f : FieldDef),
    let m := s.mach
    let v := s.variant
    let a := off.toNat
    let x := bitsOf val.toNat f.hi f.lo
    let old := m.fld a f.hi f.lo
    let c : Instr := .registerWrite [⟨w, off, 4, val.setWidth 64⟩]
    let others := fun m' : Mach => ∀ o : Nat, o ≠ a → m'.reg o = m.reg o
    (m.mayWrite w = true → a % 4 = 0 → regAt a = some r → r.width = 32 → r.fields = [f] → f.lo ≤ f.hi → f.hi < 32 →
    regPresent v a = true → m.pageWritable w a = true → a ≠ cfgctl (regBlock a) → m.writeSpecial v w a val.toNat = none →
    indexIn a (Reg.fabSpareCtl 0) 0x1000 2 = none → indexIn a (Reg.rasFdom 0) 4 4 = none → a ≠ Reg.glbEmcCfg →
    (f.acc = .rw → f.okVal x = true → Does c s (fun _ m' => m'.fld a f.hi f.lo = x ∧ others m')) ∧
    (f.acc = .ro → Does c s (fun m m' => m' = m)) ∧
    (f.acc = .w1c → Does c s (fun _ m' => others m' ∧
      ∀ i : Nat, i ≤ f.hi - f.lo → bitAt (m'.fld a f.hi f.lo) i = (bitAt old i && !bitAt x i))) ∧
    (f.acc = .rwc → Does c s (fun m m' => (∀ o : Nat, m'.reg o = m.reg o) ∧ m'.regs.latched = m.regs.latched ∧
      m'.regs.pend = m.regs.pend.filter (fun q => !(q.off = a && q.mask = FieldMask f)) ++ [⟨a, FieldMask f, x, writerSource w⟩])) ∧
    (f.acc = .rw → f.okVal x = true → w = .port 0 → m.mayWrite (.port 1) = true → ∀ loser : BitVec 32,
      Does (.registerWrite [⟨.port 1, off, 4, loser.setWidth 64⟩, ⟨.port 0, off, 4, val.setWidth 64⟩]) s (fun m m' =>
        m'.fld a f.hi f.lo = x ∧ others m' ∧ m'.out = m.out ++ [.arbLost a]))) ∧
    (m.mayWrite w = true → m.bit Reg.glbStraps 5 = false → Does (.registerWrite [⟨w, 0x54, 4, val.setWidth 64⟩]) s (fun m m' =>
      m' = if bitsOf val.toNat 7 6 = 3 then m.rejected (writerSource w) Reg.glbEmcCfg val.toNat 1 else m.setFld Reg.glbEmcCfg 7 6 (bitsOf val.toNat 7 6)))) ∧
  (∀ (s : State) (w : Writer) (blk : Nat) (c : CommitSet) (p : PendWrite) (f : FieldDef),
    let m := s.mach
    let mine := m.regs.pend.filter (fun q => regBlock q.off = blk)
    let rest := m.regs.pend.filter (fun q => regBlock q.off ≠ blk)
    (m.mayWrite w = true → regPresent s.variant blk = true → hasCfgctl blk = true → blk = regBlock blk → m.pageWritable w blk = true →
      (mine ≠ [] → Does (.commit w blk []) s (fun m m' =>
        m' = { m with regs := { m.regs with pend := rest, latched := m.regs.latched ++ [⟨blk, mine⟩] } })) ∧
      (mine = [] → Does (.commit w blk []) s (fun m m' => m' = m)) ∧
      Does (.discard w blk) s (fun m m' => m' = { m with regs := { m.regs with pend := rest } })) ∧
    (m.regs.latched.find? (fun c => c.blk = blk) = none → Does (.commitPoint blk) s (fun m m' => m' = m)) ∧
    (m.regs.latched.find? (fun c => c.blk = blk) = some c → blk ∉ [0x10000, 0x30000, 0xB0000, 0xC0000, 0xD0000] →
      c.writes = [p] → p.field = some f → f.okVal p.val = true → f.lo ≤ f.hi → f.hi < 64 → p.off ≠ cfgctl blk →
      Does (.commitPoint blk) s (fun m m' => m'.regs.latched = m.regs.latched.erase c ∧ m'.regs.pend = m.regs.pend ∧
        m'.fld p.off f.hi f.lo = p.val % 2 ^ (f.hi + 1 - f.lo) ∧
        m'.fld (cfgctl blk) 31 16 = (m.fld (cfgctl blk) 31 16 + 1) % 2 ^ 16 ∧
        (∀ o : Nat, o ≠ p.off → o ≠ cfgctl blk → m'.reg o = m.reg o))))

/-- A trigger in force starts a retraining where the limits leave room and else waits; a good end shows normal, or
degraded below 32 Gb/s, and counts; a first failure tries again; the last one takes the channel out of service
and fails every live job. Request bits are set for channels in service. HOST_LIMIT moves with no job held and
a permitted value, and is refused otherwise. GDDR7_READY leaves GDDR7 zero, the carve-outs in place and STAGE
0x05 (Tool rest keeps its STAGE). REFRESH changes nothing. (07_memory_buffer_pools_contexts.md R247, R254 to
R257, R626 to R628) -/
def Obligations.MemoryChannels : Prop :=
  ∀ (s : State) (w : Writer) (c : Fin 64) (trig : Fin 4) (dev : Fin 16) (bank : Nat) (bits val : U64),
    let m := s.mach
    let v := s.variant
    let st := Reg.memChStatus c.val
    let r := m.chanRate c.val
    let lim := val.toNat % 2 ^ 48
    let bad := lim % 2 ^ 30 ≠ 0 ∨ lim < 2 ^ 30 ∨ m.fld (Reg.memCarveBase 3) 47 0 < lim ∨ ∃ p ∈ m.mem.bootPools, p.2.1 < lim
    Does (.refresh dev bank) s (fun m m' => m' = m) ∧
    (c.val < gddrChannels v → m.mem.trained = true → m.triggerOn c.val trig.val = true → m.fld st 31 30 ≠ 1 → m.fld st 31 30 ≠ 3 →
      (m.mem.retraining.length < 4 → (∀ p ∈ m.mem.retraining, p.1 / 4 ≠ c.val / 4) → Does (.retrainStart c trig) s (fun _ m' =>
        m'.fld st 31 30 = 1 ∧ mapFind m'.mem.retraining c.val = some trig.val ∧ m'.bit Reg.memRetrainReq c.val = false ∧ m'.mem.gddr = m.mem.gddr)) ∧
      ((4 ≤ m.mem.retraining.length ∨ ∃ p ∈ m.mem.retraining, p.1 / 4 = c.val / 4) → Does (.retrainStart c trig) s (fun m m' =>
        m' = { m with mem := { m.mem with retrainWait := mapSet m.mem.retrainWait c.val trig.val } }))) ∧
    (∀ t : Nat, mapFind m.mem.retraining c.val = some t → m.mem.retrainWait = [] →
      (mapFind m.mem.trainFails c.val = none → Does (.retrainEnd c true) s (fun _ m' => mapFind m'.mem.retraining c.val = none ∧
        m'.fld st 31 30 = (if r < 32 then 2 else 0) ∧ m'.fld st 23 16 = r ∧ m'.fld st 15 0 = (m.fld st 15 0 + 1) % 2 ^ 16)) ∧
      (mapFind m.mem.trainFails c.val = none → Does (.retrainEnd c false) s (fun m m' =>
        m' = { m with mem := { m.mem with trainFails := mapSet m.mem.trainFails c.val 1 } })) ∧
      (mapFind m.mem.trainFails c.val = some ((retrainRates r).length - 1) → Does (.retrainEnd c false) s (fun _ m' =>
        m'.fld st 31 30 = 3 ∧ m'.mem.chansOut = m.mem.chansOut ++ [c.val] ∧ mapFind m'.mem.retraining c.val = none ∧
        (∀ (j : Nat) (x : Job), m'.job? j = some x → x.live = false)))) ∧
    ((∀ k : Nat, k < gddrChannels v → m.fld (Reg.memChStatus k) 31 30 ≠ 3) → Does (.memRetrainReq w bits) s (fun m m' => m'.evr = m.evr ∧
      (∀ k : Nat, k < gddrChannels v → m'.bit Reg.memRetrainReq k = (m.bit Reg.memRetrainReq k || bits.getLsbD k)) ∧
      (∀ o : Nat, o ≠ Reg.memRetrainReq → m'.reg o = m.reg o))) ∧
    (m.jobs.slots = [] → ¬ bad → Does (.memHostLimit w val) s (fun m m' => m' = m.setFld Reg.memHostLimit 47 0 lim)) ∧
    (m.jobs.slots = [] → bad → Does (.memHostLimit w val) s (fun m m' => m' = m.rejected (writerSource w) Reg.memHostLimit val.toNat 1)) ∧
    (m.jobs.slots ≠ [] → Does (.memHostLimit w val) s (fun m m' => m' = m.setBit 0x80FF8 8 true)) ∧
    (m.power.pwrOk = true → m.fld Reg.glbBootStatus 7 0 = 3 ∨ m.fld Reg.glbBootStatus 7 0 = 4 → Does .gddr7Ready s (fun m m' =>
      m'.mem.trained = true ∧ m'.mem.gddr = [] ∧ m'.mem.ctx = [] ∧ m'.mem.areas = [] ∧
      m'.fld Reg.glbBootStatus 7 0 = (if m.fld Reg.glbBootStatus 11 8 = 2 then m.fld Reg.glbBootStatus 7 0 else 5) ∧
      (∀ i : Nat, i < 4 → m'.reg (Reg.memCarveBase i) = BitVec.ofNat 64 (carveBase v m i) ∧
        m'.reg (Reg.memCarveSize i) = BitVec.ofNat 64 ((carveSizes m).getD i 0)) ∧ m'.ftl = m.ftl ∧ m'.boot = m.boot))

/-- A request of a size that a pool serves, for an owner that the unit may act for, takes the first handle of the
Chuck and marks its buffer; with nothing left a port gets ST_POOL_EMPTY; a size above every pool is
ST_INVALID_FIELD, a foreign owner ST_NOT_OWNER. A good FREE makes the buffer free under its next GEN and its
handle is in the pool again; a bad one changes no pool and sets BAD_FREE. A ring read lands behind the Chuck.
ENABLE fills the pool with READY set, DISABLE empties it, and a busy block refuses both. CTX_CREATE gives the
lowest free slot with its GEN, or ST_POOL_EMPTY; CTX_FREE of a valid reference frees the slot and moves GEN
on, of another is ST_BAD_HANDLE. A check-out of a cached slot that is free hits; of an uncached one with room
in its set misses and starts a fill; of one that is out waits. A check-in stores the new contents and makes
the way the most recent. FLUSH leaves no checked-in way dirty and sets BUSY, refused while BUSY; its end
clears BUSY. (07_memory_buffer_pools_contexts.md R258 to R269; 07_memory_buffer_pools_contexts.md R270 to
R277) -/
def Obligations.PoolsAndContexts : Prop :=
  (∀ (s : State) (w : Writer) (u : Requester) (owner size k : Nat) (pk : Fin 8) (h : U32) (count : BitVec 25) (first : Nat) (r l : List Nat)
      (rest : List (List Nat)),
    let m := s.mach
    let tag := m.mem.reqTag
    let p := m.pool k
    let q := m.pool pk.val
    let hk := handlePool h.toNat
    let i := handleIndex h.toNat
    let n := count.toNat
    let asked := { m with mem := { m.mem with reqTag := tag + 1 } }
    (poolFor size = some k → m.mayActFor u owner = true → p.ready = true → p.chuck = first :: r → Does (.alloc u owner size) s (fun _ m' =>
      m'.out = m.out ++ [.buffer tag St.ok first] ∧ (m'.pool k).chuck = r ∧
      (m'.pool k).buf (handleIndex first) = { p.buf (handleIndex first) with owner := owner, alloc := true } ∧
      (∀ j : Nat, j ≠ handleIndex first → (m'.pool k).buf j = p.buf j) ∧ (∀ j : Nat, j ≠ k → m'.pool j = m.pool j) ∧
      m'.fld (Reg.bpmPoolAllocs k) 63 0 = (m.fld (Reg.bpmPoolAllocs k) 63 0 + 1) % 2 ^ 64)) ∧
    (poolFor size = none → Does (.alloc u owner size) s (fun _ m' => m' = asked.send (.buffer tag St.invalidField 0))) ∧
    (poolFor size = some k → m.mayActFor u owner = false → Does (.alloc u owner size) s (fun _ m' => m' = asked.send (.buffer tag St.notOwner 0))) ∧
    (∀ port : Port, poolFor size = some k → m.mayActFor (.port port) owner = true → p.ready = true → p.chuck = [] → p.ringLeft = 0 → p.inFlight = [] →
      Does (.alloc (.port port) owner size) s (fun _ m' => m'.out = m.out ++ [.buffer tag St.poolEmpty 0] ∧
        m'.bit (Reg.bpmPoolChuck k) 31 = true ∧ m'.mem.pools = m.mem.pools)) ∧
    (m.freeStatus u owner h.toNat = St.ok → (m.pool hk).waiting = [] → Does (.free u owner h) s (fun _ m' =>
      let b := (m.pool hk).buf i
      let g := if b.gen = 31 then 1 else b.gen + 1
      m'.out = m.out ++ [.freed h.toNat St.ok] ∧ (m'.pool hk).buf i = { b with alloc := false, gen := g } ∧
      (handleOf hk i g ∈ (m'.pool hk).chuck ∨ handleOf hk i g ∈ (m'.pool hk).ring) ∧ (∀ j : Nat, j ≠ i → (m'.pool hk).buf j = (m.pool hk).buf j) ∧
      m'.regs = m.regs)) ∧
    (m.freeStatus u owner h.toNat ≠ St.ok → Does (.free u owner h) s (fun _ m' => m'.mem = m.mem ∧ m'.bit (Reg.bpmPoolChuck hk) 30 = true ∧
      m'.out = m.out ++ [.freed h.toNat (m.freeStatus u owner h.toNat)])) ∧
    (q.inFlight = l :: rest → q.waiting = [] → Does (.chuckRefill pk) s (fun _ m' =>
      m' = m.setPool pk.val { q with chuck := q.chuck ++ l, inFlight := rest })) ∧
    (m.bpmIdle = true → q.enabled = false → 1 ≤ n → n ≤ 2 ^ 24 → m.poolFits pk.val n = true → Does (.poolEnable w pk count) s (fun _ m' =>
      let y := m'.pool pk.val
      y.enabled = true ∧ y.ready = true ∧ y.count = n ∧ y.waiting = [] ∧ (∀ j : Nat, y.buf j = BufState.fresh) ∧
      y.chuck = (List.range (min 256 n)).map (fun j => pk.val * 2 ^ 29 + j * 32 + 1) ∧ y.ringLeft = n - min 256 n ∧
      m'.bit (Reg.bpmPoolCfg pk.val) 31 = true ∧ m'.fld (Reg.bpmPoolCfg pk.val) 24 0 = n ∧ (∀ j : Nat, j ≠ pk.val → m'.pool j = m.pool j))) ∧
    (m.bpmIdle = true → q.enabled = false → 1 ≤ n → n ≤ 2 ^ 24 → m.poolFits pk.val n = false → Does (.poolEnable w pk count) s (fun _ m' =>
      m'.mem = m.mem ∧ m'.fld (Reg.bpmPoolCfg pk.val) 24 0 = n)) ∧
    (m.bpmIdle = true → 1 ≤ n → n ≤ 2 ^ 24 → Does (.poolDisable w pk count) s (fun _ m' => m'.pool pk.val = Pool.reset ∧
      m'.bit (Reg.bpmPoolCfg pk.val) 31 = false ∧ m'.fld (Reg.bpmPoolCfg pk.val) 24 0 = n)) ∧
    (m.bpmIdle = false → Does (.poolEnable w pk count) s (fun m m' => m' = m.setBit 0x60FF8 8 true) ∧
      Does (.poolDisable w pk count) s (fun m m' => m' = m.setBit 0x60FF8 8 true))) ∧
  (∀ (s : State) (w : Writer) (kind : Fin 3) (owner : U16) (body b : List Byte) (ref : U32) (unit n : Nat) (slot : BitVec 18) (x : CtxWay) (unpin : Bool),
    let m := s.mach
    let rs := ref.toNat % 2 ^ 18
    let good := (m.slot rs).gen = bitsOf ref.toNat 31 18 ∧ (m.slot rs).kind ≠ 0
    let set := m.mem.ways.filter (fun y => y.slot % 1024 = rs % 1024)
    let k := slot.toNat
    (m.freeSlot = some n → Does (.ctxCreate kind owner body) s (fun m m' => m'.slot n = ⟨kind.val + 1, 0, (m.slot n).gen, owner.toNat, sliceBytes body 0 240⟩ ∧
      m'.out = m.out ++ [.ctx St.ok ((m.slot n).gen * 2 ^ 18 + n)] ∧ (∀ j : Nat, j ≠ n → m'.slot j = m.slot j) ∧ m'.regs = m.regs)) ∧
    (m.freeSlot = none → Does (.ctxCreate kind owner body) s (fun m m' => m' = m.send (.ctx St.poolEmpty 0))) ∧
    (good → Does (.ctxFree ref) s (fun m m' => m'.slot rs = { CtxSlot.free with gen := if (m.slot rs).gen = 16383 then 1 else (m.slot rs).gen + 1 } ∧
      (∀ j : Nat, j ≠ rs → m'.slot j = m.slot j) ∧ m'.out = m.out ++ [.ctx St.ok ref.toNat] ∧ (∀ y ∈ m'.mem.ways, y.slot ≠ rs))) ∧
    (¬ good → Does (.ctxFree ref) s (fun m m' => m' = m.send (.ctx St.badHandle ref.toNat)) ∧
      Does (.ctxCheckout unit ref unpin) s (fun m m' => m' = m.send (.ctx St.badHandle ref.toNat))) ∧
    (good → set.find? (fun y => y.slot = rs) = some x → x.out = none → Does (.ctxCheckout unit ref false) s (fun m m' =>
      (∃ y ∈ m'.mem.ways, y.slot = rs ∧ y.out = some unit) ∧ m'.mem.ctx = m.mem.ctx ∧
      m'.fld Reg.ctxHits 63 0 = (m.fld Reg.ctxHits 63 0 + 1) % 2 ^ 64)) ∧
    (good → set.find? (fun y => y.slot = rs) = some x → x.out ≠ none → Does (.ctxCheckout unit ref false) s (fun m m' =>
      m' = { m with mem := { m.mem with ctxWait := m.mem.ctxWait ++ [(rs, unit)] } })) ∧
    (good → set.find? (fun y => y.slot = rs) = none → set.length < 16 → Does (.ctxCheckout unit ref false) s (fun m m' =>
      m'.mem.ways = m.mem.ways ++ [⟨rs, false, false, some unit, true⟩] ∧ m'.mem.ctx = m.mem.ctx ∧
      m'.fld Reg.ctxMisses 63 0 = (m.fld Reg.ctxMisses 63 0 + 1) % 2 ^ 64)) ∧
    ((∃ y ∈ m.mem.ways, y.slot = k ∧ y.filling = true) → m.mem.badWords = [] → m.mem.chansOut = [] → Does (.ctxMissFill slot) s (fun m m' =>
      (∀ y ∈ m'.mem.ways, y.slot = k → y.filling = false) ∧ m'.mem.ctx = m.mem.ctx ∧ m'.regs = m.regs)) ∧
    (m.mem.ways.find? (fun y => y.slot = k && y.out = some unit) = some x → m.mem.flushLater = [] → m.mem.ctxWait = [] →
      Does (.ctxCheckin unit slot (some b) unpin) s (fun m m' => (m'.slot k).body = sliceBytes b 0 240 ∧ (m'.slot k).gen = (m.slot k).gen ∧
        m'.mem.ways.getLast? = some { x with out := none, dirty := true, pinned := x.pinned && !unpin } ∧ (∀ j : Nat, j ≠ k → m'.slot j = m.slot j))) ∧
    (m.mem.ctxFlushing = false → Does (.ctxFlush w) s (fun m m' => m'.mem.ctxFlushing = true ∧ m'.mem.ctx = m.mem.ctx ∧
      (∀ y ∈ m'.mem.ways, y.out = none → y.slot ∉ m'.mem.flushLater → y.dirty = false))) ∧
    (m.mem.ctxFlushing = true → Does (.ctxFlush w) s (fun m m' => m' = m.rejected (writerSource w) Reg.ctxFlush 1 4)) ∧
    (m.mem.flushLater = [] → Does .ctxFlushComplete s (fun m m' => m' = { m with mem := { m.mem with ctxFlushing := false } })))

/-- For a served admin command: a completion queue of 2 to 65,536 entries with a free number and a vector up to
263 is created, a submission queue on an existing completion queue likewise; deletes remove them, a completion
queue in use stays. Abort of a waiting event request completes it as aborted. Set Features keeps the value,
Get Features returns it; an eighth event request waits, a ninth does not. Log pages and Identify return the
bytes asked for. (14_host_ports_and_command_queues.md R501, R502, R504, R505, R508) -/
def Obligations.NvmeQueuesAndFeatures : Prop :=
  ∀ (s : State) (n : NvmeCtx) (qid size cqid vector off len : Nat) (ien : Bool) (cid : U16) (f lid : Byte) (val : U32) (host b : List Byte),
    Served s.mach n .admin →
    let m := s.mach
    let c := (m.port n.port.val).ctl
    let ctl := fun m' : Mach => (m'.port n.port.val).ctl
    let good := fun (c' : Ctl) (data : List Byte) (m' : Mach) => m' = (m.setCtl n.port.val c').send (completion n 0 0 0 data)
    (1 ≤ qid → qid ≤ 256 → 2 ≤ size → size ≤ 65536 →
      (mapFind c.cqs qid = none → vector ≤ 263 → Does (.createIoCq n qid size vector ien) s (fun _ m' =>
        good { c with cqs := mapSet c.cqs qid (size, vector, ien) } [] m')) ∧
      (mapFind c.sqs qid = none → mapFind c.cqs cqid ≠ none → Does (.createIoSq n qid size cqid) s (fun _ m' =>
        good { c with sqs := mapSet c.sqs qid (size, cqid) } [] m')) ∧
      (mapFind c.sqs qid ≠ none → Does (.createIoSq n qid size cqid) s (fun _ m' => (ctl m').sqs = c.sqs ∧
        m'.out = m.out ++ [completion n 1 1 0 []]))) ∧
    (mapFind c.sqs qid ≠ none → Does (.deleteIoSq n qid) s (fun _ m' => good { c with sqs := mapErase c.sqs qid } [] m')) ∧
    (mapFind c.cqs qid ≠ none → (∀ q ∈ c.sqs, q.2.2 ≠ qid) → Does (.deleteIoCq n qid) s (fun _ m' => good { c with cqs := mapErase c.cqs qid } [] m')) ∧
    (mapFind c.cqs qid ≠ none → (∃ q ∈ c.sqs, q.2.2 = qid) → Does (.deleteIoCq n qid) s (fun _ m' => (ctl m').cqs = c.cqs ∧
      m'.out = m.out ++ [completion n 1 0x0C 0 []])) ∧
    (cid.toNat ∈ c.aers → Does (.abort n 0 cid) s (fun _ m' => (ctl m').aers = c.aers.filter (fun x => x ≠ cid.toNat) ∧
      m'.out = m.out ++ [.nvme n.port.val 0 cid.toNat 0 7 0 [], completion n 0 0 0 (leBytes 4 0)])) ∧
    (cid.toNat ∉ c.aers ∨ qid ≠ 0 → Does (.abort n qid cid) s (fun m m' => m' = m.send (completion n 0 0 0 (leBytes 4 1)))) ∧
    (f = 0x01 ∨ f = 0x08 ∨ f = 0x0B → Does (.setFeatures n f val host) s (fun _ m' =>
      good { c with feats := mapSet c.feats f.toNat val.toNat } (leBytes 4 val.toNat) m')) ∧
    (f = 0x04 → n.port.val ≠ m.hif.owner → Does (.setFeatures n f val host) s (fun _ m' => (ctl m').feats = c.feats ∧
      m'.out = m.out ++ [completion n 7 5 St.notOwner []])) ∧
    Does (.setFeatures n 0x81 val host) s (fun _ m' => good { c with hostId := some (sliceBytes host 0 16) } [] m') ∧
    (∀ x : Nat, featureKnown f.toNat = true → f ≠ 0x81 → mapFind c.feats f.toNat = some x → Does (.getFeatures n f) s (fun m m' =>
      m' = m.send (completion n 0 0 0 (leBytes 4 x)))) ∧
    (c.aers.length < 8 → Does (.asyncEventRequest n) s (fun m m' => m' = m.setCtl n.port.val { c with aers := c.aers ++ [n.cid.toNat] })) ∧
    (8 ≤ c.aers.length → Does (.asyncEventRequest n) s (fun _ m' => (ctl m').aers = c.aers ∧ m'.out = m.out ++ [completion n 1 5 0 []])) ∧
    (m.logPage n.port.val lid.toNat = some b → Does (.getLogPage n lid off len) s (fun m m' =>
      m' = m.send (completion n 0 0 0 ((b.drop off).take len)))) ∧
    (m.logPage n.port.val lid.toNat = none → Does (.getLogPage n lid off len) s (fun m m' => m'.out = m.out ++ [completion n 1 9 0 []] ∧ m'.ftl = m.ftl)) ∧
    (∀ x : Ns, m.ns? val.toNat = some x → n.port.val ∈ x.attached → Does (.identify n 0 val) s (fun m m' => m' = m.send (completion n 0 0 0 x.identify))) ∧
    Does (.identify n 19 val) s (fun m m' => m' = m.send (completion n 0 0 0 (sliceBytes (leBytes 2 2 ++ leBytes 2 1 ++ leBytes 2 2) 0 4096)))

/-- For a served owner command: create takes the lowest free NSID, delete removes one or all, attach and detach
change the ports. With no job held a Sanitize or Format starts and shows in HIF_MAINT; Crypto Erase replaces
the media key and deallocates everything; Overwrite is ST_INVALID_FIELD. Their completions erase the units
and, for a Format, set the block size; a failed Sanitize leaves the failure mode, which Exit Failure Mode
ends. A permitted security version is fused and recorded, another is refused.
(14_host_ports_and_command_queues.md R502, R503, R506, R516 to R518) -/
def Obligations.NamespacesAndErasure : Prop :=
  ∀ (s : State) (n : NvmeCtx) (nsze : U64) (nsid : U32) (ports : List Port) (x : Ns) (ses : Fin 8) (lbaf : Fin 16) (iu kind val : Byte) (mt : Maint),
    let m := s.mach
    let ps := ports.map (fun p => p.val)
    let b := m.boot
    let lba := if lbaf = 0 then 4096 else 512
    let last := fun m' : Mach => m'.out.getLast? = some (completion n 0 0 0 [])
    (Served m n .owner →
      (lbaf.val ≤ 1 → iu.toNat ≤ 1 → kind.toNat ≤ 1 → nsze ≠ 0 → m.nsBytes + nsze.toNat * lba ≤ m.userBytes →
        (∃ i : Nat, 1 ≤ i ∧ i ≤ 256 ∧ m.ns? i = none) → Does (.namespaceCreate n nsze lbaf iu kind 0 false) s (fun m m' =>
          ∃ id : Nat, 1 ≤ id ∧ id ≤ 256 ∧ m.ns? id = none ∧ (∀ i : Nat, 1 ≤ i → i < id → m.ns? i ≠ none) ∧
            m' = (m.setNs id
              { nsze := nsze.toNat, lba := lba, iu := iu.toNat, kind := kind.toNat, key := 0, attached := [],
                sealedBy := none, usedBy := none, units := [], data := [], resv := Resv.reset }).send (completion n 0 0 0 (leBytes 4 id)))) ∧
      Does (.namespaceDelete n 0xFFFFFFFF) s (fun m m' => m' = ({ m with ftl := { m.ftl with nss := [] } }).send (completion n 0 0 0 [])) ∧
      (m.ns? nsid.toNat = some x →
        (nsid ≠ 0xFFFFFFFF → Does (.namespaceDelete n nsid) s (fun m m' => m'.ns? nsid.toNat = none ∧ last m' ∧
          (∀ i : Nat, i ≠ nsid.toNat → m'.ns? i = m.ns? i))) ∧
        ((∀ p ∈ ps, p ∉ x.attached) → Does (.namespaceAttach n nsid ports) s (fun m m' =>
          m' = (m.setNs nsid.toNat { x with attached := x.attached ++ ps }).send (completion n 0 0 0 []))) ∧
        ((∀ p ∈ ps, p ∈ x.attached) → Does (.namespaceDetach n nsid ports) s (fun m m' =>
          m' = (m.setNs nsid.toNat { x with attached := x.attached.filter (fun p => !ps.contains p) }).send (completion n 0 0 0 []))) ∧
        (m.jobs.slots = [] → ses.val ≤ 2 → lbaf.val ≤ 1 → Does (.formatNvm n nsid ses lbaf) s (fun m m' =>
          m' = { m with hif := { m.hif with maint := some ⟨.format nsid.toNat ses.val lba, 0, false, some n⟩ } }))) ∧
      (m.jobs.slots = [] →
        Does (.blockErase n) s (fun m m' => m'.hif.maint = some ⟨.blockErase, 0, false, none⟩ ∧ m'.hif.sanFailed = false ∧
          m'.ftl.mediaKey = m.ftl.mediaKey ∧ last m') ∧
        Does (.cryptoErase n) s (fun m m' => m'.hif.maint = some ⟨.cryptoErase, 0, false, none⟩ ∧ m'.hif.sanFailed = false ∧
          m'.ftl.mediaKey = m.ftl.mediaKey + 1 ∧ (∀ p ∈ m'.ftl.nss, p.2.units = [] ∧ p.2.data = []) ∧ last m')) ∧
      Does (.exitFailureMode n) s (fun m m' => m' = ({ m with hif := { m.hif with sanFailed := false } }).send (completion n 0 0 0 [])) ∧
      Does (.overwrite n) s (fun m m' => m'.out = m.out ++ [completion n 0 2 St.invalidField []] ∧ m'.ftl = m.ftl) ∧
      (b.fwMinSvn < val.toNat → val.toNat ≤ 64 → b.slotA.state = .confirmed → b.slotA.image.svn = val.toNat →
        Does (.raiseSecurityVersion n false val) s (fun m m' => m'.boot = { b with fwMinSvn := val.toNat } ∧ last m' ∧
          m'.evr = (m.record 0x00A2 (sourceOf 12 0) St.ok (payloadOf [(1, 0), (1, b.fwMinSvn), (1, val.toNat), (1, 0)])).evr)) ∧
      (val.toNat < b.fwMinSvn → Does (.raiseSecurityVersion n false val) s (fun m m' => m'.boot = b ∧ m'.evr = m.evr ∧
        m'.out = m.out ++ [completion n 0 2 St.invalidField []]))) ∧
    (m.hif.maint = some mt → m.formatRuns = false →
      Does (.sanitizeComplete true) s (fun m m' => m'.hif.maint = none ∧ m'.hif.sanDone = true ∧
        (∀ p ∈ m'.ftl.nss, p.2.units = [] ∧ p.2.data = [] ∧ p.2.sealedBy = none) ∧ (mt.kind = .blockErase → ∀ p ∈ m'.ftl.sbs, p.2.state = .free) ∧ m'.ks = m.ks) ∧
      Does (.sanitizeComplete false) s (fun m m' => m' = { m with hif := { m.hif with maint := none, sanFailed := true } })) ∧
    (∀ (i l : Nat), m.hif.maint = some ⟨.format i ses.val l, mt.percent, mt.resumed, none⟩ → m.ns? i = some x → i ≠ 0xFFFFFFFF →
      Does .formatComplete s (fun m m' => m'.hif.maint = none ∧ m'.out = m.out ∧ m'.ns? i = some
        { x with units := [], data := [], nsze := x.nsze * x.lba / l, lba := l, sealedBy := none } ∧ (∀ k : Nat, k ≠ i → m'.ns? k = m.ns? k)))

/-- Over the bus, at STAGE READY or TOOL_REST_READY, each of the six commands sends its answer, and a
Configuration Set of the SMBus frequency or the MCTP unit is what Get then returns; another identifier has
status 4. Before boot completes the answer is ST_UNIT_ABSENT. In band, Send keeps the answer of any of them,
which Receive returns. (14_host_ports_and_command_queues.md R507; 02_module_connectors_power_cooling.md R59) -/
def Obligations.NvmeManagement : Prop :=
  ∀ (s : State) (n : NvmeCtx) (k : Byte) (op : Byte) (arg val : U32),
    let m := s.mach
    let st := m.fld Reg.glbBootStatus 7 0
    let bus := fun (c : Instr) (r : Nat) (d : List Byte) => Does c s (fun m m' => m' = m.send (.mgmt r d))
    (st = 8 ∨ st = 0xFE →
      bus (.readNvmeMiDataStructure .bus k) 0 (openBytes 0x610 32) ∧ bus (.subsystemHealthStatusPoll .bus) 0 (openBytes 0x611 8) ∧
      bus (.controllerHealthStatusPoll .bus) 0 (openBytes 0x612 16) ∧ bus (.vpdRead .bus) 0 (openBytes 0x614 64) ∧
      (k = 1 ∨ k = 3 →
        Does (.configurationSet .bus k val) s (fun m m' => m' = (m.setCtl 0 { m.hif.p0.ctl with
          feats := mapSet m.hif.p0.ctl.feats (0x1000 + k.toNat) val.toNat }).send (.mgmt 0 [])) ∧
        (mapFind m.hif.p0.ctl.feats (0x1000 + k.toNat) = some val.toNat → bus (.configurationGet .bus k) 0 (leBytes 4 val.toNat))) ∧
      (k ≠ 1 → k ≠ 3 → bus (.configurationSet .bus k val) 4 [] ∧ bus (.configurationGet .bus k) 4 [])) ∧
    (st ≠ 8 → st ≠ 0xFE → bus (.readNvmeMiDataStructure .bus k) St.unitAbsent [] ∧ bus (.subsystemHealthStatusPoll .bus) St.unitAbsent [] ∧
      bus (.controllerHealthStatusPoll .bus) St.unitAbsent [] ∧ bus (.vpdRead .bus) St.unitAbsent [] ∧
      bus (.configurationSet .bus k val) St.unitAbsent [] ∧ bus (.configurationGet .bus k) St.unitAbsent []) ∧
    (Served m n .admin →
      (op ≠ 3 → Does (.nvmeMiSend n op arg val) s (fun m m' => m' = (m.setCtl n.port.val { (m.port n.port.val).ctl with
        mi := leBytes 1 (m.miResponse op.toNat arg.toNat).1 ++ (m.miResponse op.toNat arg.toNat).2 }).send (completion n 0 0 0 []))) ∧
      (op.toNat > 5 → (m.miResponse op.toNat arg.toNat) = (3, [])) ∧
      Does (.nvmeMiReceive n) s (fun m m' => m' = m.send (completion n 0 0 0 (m.port n.port.val).ctl.mi)))

/-- For a served I/O command on an attached namespace: a Read within the namespace returns its bytes, one past it
is ST_BOUNDS. A Write that finds room puts its units and bytes into the journal, completes nothing yet and
changes no contents; without room it waits. Write Zeroes and Dataset Management of whole units journal their
deallocation; Flush completes at once with nothing open, else behind it. A registrant with the right key
acquires and releases the reservation, a host without it conflicts. (14_host_ports_and_command_queues.md R503,
R509 to R512; 15_flash_translation.md R536, R537) -/
def Obligations.NvmeInputOutput : Prop :=
  ∀ (s : State) (n : NvmeCtx) (nsid : U32) (x : Ns) (slba : U64) (nlb cnt : Nat) (data h : List Byte) (a : ResvArgs),
    Served s.mach n .ioCmd → s.mach.ns? nsid.toNat = some x → n.port.val ∈ x.attached →
    let m := s.mach
    let off := slba.toNat * x.lba
    let ub := iuBytes x.iu
    let host := (m.port n.port.val).ctl.hostId
    let w : WaitWrite := ⟨.nvme n, nsid.toNat, off, data⟩
    let answers := fun (c : Instr) (sct sc dw1 : Nat) => Does c s (fun m m' => m'.out = m.out ++ [completion n sct sc dw1 []] ∧ m'.ftl = m.ftl)
    let journaled := fun (c : Instr) (l : List (MapChange × FlashDone)) => Does c s (fun m m' =>
      m' = { m with ftl := { m.ftl with pendJ := m.ftl.pendJ ++ l } })
    (off + nlb * x.lba ≤ x.nsze * x.lba → x.resv.conflicts host false = false → m.ioStop x false = none →
      m.rangeStatus x off (nlb * x.lba) [] = St.ok → Does (.nvmRead n nsid slba nlb [] []) s (fun m m' =>
        m' = m.send (completion n 0 0 0 (memRead x.data off (nlb * x.lba))))) ∧
    (x.nsze * x.lba < off + nlb * x.lba → answers (.nvmRead n nsid slba nlb [] []) 0 0x80 St.bounds) ∧
    (data.length % x.lba = 0 → data ≠ [] → off + data.length ≤ x.nsze * x.lba → x.resv.conflicts host true = false → m.readOnly = false →
      m.ioStop x true = none → partUnits x off data.length = [] → m.ftl.waiting = [] →
      (m.tryWrite w ≠ none → Does (.nvmWrite n nsid slba data []) s (fun m m' => m'.out = m.out ∧ m'.ftl.nss = m.ftl.nss ∧
        ∃ us : List (Nat × UnitRec), us.map (fun u => u.1) = unitsOf x off data.length ∧
          m'.ftl.pendJ = m.ftl.pendJ ++ [(.write nsid.toNat off data us, .nvme n)])) ∧
      (m.tryWrite w = none → Does (.nvmWrite n nsid slba data []) s (fun m m' => m' = { m with ftl := { m.ftl with waiting := [w] } }))) ∧
    (x.nsze * x.lba < off + data.length → data.length % x.lba = 0 → answers (.nvmWrite n nsid slba data []) 0 0x80 St.bounds) ∧
    (off % ub = 0 → nlb * x.lba = cnt * ub → 0 < cnt → slba.toNat + nlb ≤ x.nsze → x.resv.conflicts host true = false → m.ioStop x true = none →
      (m.readOnly = false → journaled (.writeZeroes n nsid slba nlb) [(.unmap nsid.toNat (off / ub) cnt, .nvme n)]) ∧
      journaled (.datasetManagement n nsid true [(slba.toNat, nlb)]) [(.unmap nsid.toNat (off / ub) cnt, .inner), (.unmap nsid.toNat 0 0, .nvme n)]) ∧
    answers (.datasetManagement n nsid false [(slba.toNat, nlb)]) 0 0 0 ∧
    (m.ftl.pendJ = [] → m.ftl.waiting = [] → answers (.flush n nsid) 0 0 0) ∧
    (m.ftl.pendJ ≠ [] → m.ftl.waiting = [] → m.regime ≠ 3 → Does (.flush n nsid) s (fun m m' => m'.out = m.out ∧
      m'.ftl.pendJ = m.ftl.pendJ ++ [(.write nsid.toNat 0 [] [], .nvme n)])) ∧
    (host = some h →
      (a.action = 0 → x.resv.keyOf h = none → Does (.reservationRegister n nsid a) s (fun m m' => m' = (m.setNs nsid.toNat { x with
        resv := { x.resv with regs := x.resv.regs.filter (fun y => y.1 ≠ h) ++ [(h, a.nrkey.toNat)], gen := x.resv.gen + 1 } }).send (completion n 0 0 0 []))) ∧
      (x.resv.keyOf h = some a.crkey.toNat → a.action = 0 → x.resv.holder = none → Does (.reservationAcquire n nsid a) s (fun m m' => m' = (m.setNs nsid.toNat { x with
        resv := { x.resv with holder := some h, rtype := a.rtype.val } }).send (completion n 0 0 0 []))) ∧
      (x.resv.keyOf h = some a.crkey.toNat → a.action = 0 → x.resv.holds h = true → x.resv.rtype = a.rtype.val →
        Does (.reservationRelease n nsid a) s (fun m m' => m' = (m.setNs nsid.toNat { x with
          resv := { x.resv with holder := none, rtype := 0 } }).send (completion n 0 0 0 []))) ∧
      (x.resv.keyOf h ≠ some a.crkey.toNat → answers (.reservationAcquire n nsid a) 0 0x83 0 ∧ answers (.reservationRelease n nsid a) 0 0x83 0)) ∧
    Does (.reservationReport n nsid) s (fun m m' => m' = m.send (completion n 0 0 0 x.resv.report))

/-- After NVM_WRITE of whole units with room, JOURNAL_PAGE_PROGRAM and NVM_READ of the same blocks, all three
complete; the Write completes with status 0 at the journal page, and the Read returns exactly the bytes
written. A Read of a range elsewhere of the namespace would return what it held: every other byte of its
contents is as before. (14_host_ports_and_command_queues.md R503, R509; 15_flash_translation.md R537, R542,
R555) -/
def Obligations.WriteThenRead : Prop :=
  ∀ (s : State) (n : NvmeCtx) (nsid : U32) (x : Ns) (slba : U64) (nlb : Nat) (data : List Byte),
    Served s.mach n .ioCmd → s.mach.ns? nsid.toNat = some x → n.port.val ∈ x.attached → x.key = 0 → x.usedBy = none → x.sealedBy = none →
    let m := s.mach
    let off := slba.toNat * x.lba
    data.length = nlb * x.lba → data ≠ [] → x.lba ≠ 0 → off + data.length ≤ x.nsze * x.lba → partUnits x off data.length = [] →
    x.resv.conflicts (m.port n.port.val).ctl.hostId true = false → x.resv.conflicts (m.port n.port.val).ctl.hostId false = false →
    m.readOnly = false → m.ftl.pendJ = [] → m.ftl.waiting = [] → m.ftl.deadDies = [] → m.tryWrite ⟨.nvme n, nsid.toNat, off, data⟩ ≠ none →
    ∃ t u : State, exec (.nvmWrite n nsid slba data []) s = .next t ∧ exec .journalPageProgram t = .next u ∧
      u.mach.out = m.out ++ [completion n 0 0 0 []] ∧
      exec (.nvmRead n nsid slba nlb [] []) u = .next { u with mach := u.mach.send (completion n 0 0 0 data) } ∧
      ∃ y : Ns, u.mach.ns? nsid.toNat = some y ∧ (∀ i : Nat, i < off ∨ off + data.length ≤ i → memByte y.data i = memByte x.data i) ∧
        (∀ k : Nat, k ≠ nsid.toNat → u.mach.ns? k = m.ns? k)

/-- A mount at STAGE 0x06 moves to 0x07, and one set of carriers is mounted under its ID; ADOPT_SEL chooses among
mixed sets and is refused otherwise. A fall of CARRIER_PG makes the channels of the carrier absent and closes
its superblocks, its rise with the same set brings them back. A read counts its ladder step, a failure at step
8 is recorded. A failed program closes, queues and retires. FOLD and GC_COLLECT journal the erase of their
superblock. Two failed recalibrations fail a channel. (15_flash_translation.md R538, R539, R544, R546, R551,
R555, R556, R558, R561 to R563, R568; 03_startup_and_trust.md R103, R116, R117) -/
def Obligations.FlashServices : Prop :=
  ∀ (s : State) (w : Writer) (info : MountInfo) (c : CarrierInfo) (n : Fin 4) (sel : Fin 16) (sb unit nsid i : Nat) (st : Fin 9) (half : Bool) (block val : U64)
      (cfg bits : U32) (ch : Fin 32) (die : Fin 32) (trig : Fin 4) (b : SBlk) (cr : Carrier),
    let m := s.mach
    let f := m.ftl
    let chan := fun (m : Mach) (k : Nat) => m.fld (Reg.flmChStatus k) 31 30
    (m.power.pwrOk = true → m.fld Reg.glbBootStatus 7 0 = 6 → Does (.ftlMount info) s (fun _ m' => m'.fld Reg.glbBootStatus 7 0 = 7 ∧
      m'.ftl.found = some info ∧ m'.ks.isOpen = true ∧ (info.carriers = [] → m'.ftl.mounted = false) ∧
      (info.carriers ≠ [] → i ≠ 0 → (∀ c ∈ info.carriers, c.setId = i) → m'.ftl.mounted = true ∧ m'.ftl.setId = i ∧ m'.ftl.pendJ = []))) ∧
    (m.bit Reg.glbAdopt 30 = true → f.found = some info → info.carriers.find? (fun c => bitAt sel.val c.conn.val) = some c → c.setId ≠ 0 →
      Does (.adoptSel w sel) s (fun _ m' => m'.ftl.mounted = true ∧ m'.ftl.setId = c.setId ∧ m'.bit Reg.glbAdopt 30 = false)) ∧
    (m.bit Reg.glbAdopt 30 = false → Does (.adoptSel w sel) s (fun m m' => m' = m.rejected (writerSource w) Reg.glbAdopt (sel.val * 2 ^ 8) 4)) ∧
    (mapFind f.carriers n.val = some cr → cr.mounted = true → cr.pg = true → Does (.carrierPgFall n) s (fun m m' =>
      mapFind m'.ftl.carriers n.val = some { cr with pg := false } ∧ (∀ k : Nat, k < 8 → chan m' (8 * n.val + k) = 2) ∧
      m'.power.wpLow = m.power.wpLow ||| 2 ^ n.val ∧ m'.bit Reg.flmStatus n.val = true ∧
      (∀ p ∈ m'.ftl.sbs, p.2.carrier = n.val → p.2.state ≠ .opened) ∧ m'.ftl.nss = f.nss)) ∧
    (m.power.pwrOk = true → f.mounted = true → c.setId = f.setId → Does (.carrierPgRise c) s (fun m m' =>
      mapFind m'.ftl.carriers c.conn.val = some ⟨c, true, true⟩ ∧ (∀ k : Nat, k < 8 → chan m' (8 * c.conn.val + k) = 0) ∧
      m'.bit Reg.flmStatus c.conn.val = false ∧ m'.ftl.nss = f.nss ∧ m'.evr = m.evr)) ∧
    (mapFind f.sbs sb = some b → st.val < 8 → Does (.flashRead sb st half nsid unit) s (fun m m' => m'.evr = m.evr ∧ m'.ftl.nss = f.nss ∧
      m'.fld (Reg.flmReadStep st.val) 63 0 = (m.fld (Reg.flmReadStep st.val) 63 0 + 1) % 2 ^ 64 ∧ (4 ≤ st.val ∨ half = true → sb ∈ m'.ftl.queued))) ∧
    (mapFind f.sbs sb = some b → Does (.flashRead sb 8 half nsid unit) s (fun m m' => sb ∈ m'.ftl.queued ∧
      m'.evr = (m.record 0x0041 (sourceOf 6 (b.carrier * 8)) St.mediaUnrecoverable (payloadOf [(4, nsid), (8, unit)])).evr)) ∧
    (mapFind f.sbs sb = some b → 0 < f.spares → Does (.flashProgramFail sb block) s (fun _ m' => sb ∈ m'.ftl.queued ∧ m'.ftl.spares = f.spares - 1 ∧
      m'.ftl.retired = f.retired + 1 ∧ m'.ftl.nss = f.nss ∧ ∃ y : SBlk, mapFind m'.ftl.sbs sb = some y ∧ y.state = .closed)) ∧
    (m.foldNext = some i → mapFind f.sbs i = some b → ((m.setSb i { b with state := .closed }).copyUnits (m.sbUnits i)) ≠ none →
      Does (.fold true) s (fun m m' => m'.ftl.pendJ.getLast? = some (.erase i, .inner) ∧ m'.ftl.nss = f.nss ∧ m'.out = m.out)) ∧
    (m.gcVictim = some i → m.copyUnits (m.sbUnits i) ≠ none → Does (.gcCollect [] false) s (fun m m' =>
      m'.ftl.pendJ.getLast? = some (.erase i, .inner) ∧ i ∉ m'.ftl.queued ∧ m'.ftl.nss = f.nss ∧ m'.out = m.out)) ∧
    (f.waiting = [] → Does .journalPageProgram s (fun _ m' => m'.ftl.pendJ = [] ∧ m'.ftl.waiting = [] ∧ m'.ftl.mediaKey = f.mediaKey)) ∧
    (f.mounted = true → f.pendJ = [] → f.waiting = [] → Does .checkpoint s (fun m m' => m'.ftl = { f with
      sinceCkpt := 0, lastCkpt := m.spn.count, seq := f.seq + 1, savedTime := (m.reg Reg.flmMediaTime).toNat } ∧
      m'.reg Reg.flmCkpt = BitVec.ofNat 64 (f.seq + 1) ∧ m'.out = m.out)) ∧
    (ch.val < nandChannels s.variant → f.mounted = true → chan m ch.val = 0 → trig ≠ 3 →
      Does (.channelRecal ch trig true) s (fun m m' => chan m' ch.val = 0 ∧ mapFind m'.ftl.recalFails ch.val = none ∧
        m'.fld (Reg.flmChStatus ch.val) 15 0 = (m.fld (Reg.flmChStatus ch.val) 15 0 + 1) % 2 ^ 16) ∧
      (mapFind f.recalFails ch.val = some 1 → Does (.channelRecal ch trig false) s (fun _ m' => chan m' ch.val = 3 ∧ m'.ftl.nss = f.nss))) ∧
    ((∀ k : Nat, k < 32 → chan m k ≤ 1) → Does (.flmRecalReq w bits) s (fun m m' => m'.evr = m.evr ∧ m'.ftl = f ∧
      ∀ k : Nat, k < nandChannels s.variant → m'.bit Reg.flmRecalReq k = (m.bit Reg.flmRecalReq k || bits.getLsbD k))) ∧
    Does (.dieFailure ch die) s (fun _ m' => (ch.val, die.val) ∈ m'.ftl.deadDies ∧ m'.ftl.nss = f.nss ∧
      ((ch.val, die.val) ∉ f.deadDies → ∀ p ∈ f.sbs, p.2.carrier = ch.val / 8 → p.2.die = die.val → p.2.state ≠ .free → p.1 ∈ m'.ftl.queued)) ∧
    (m.power.pwrOk = true → Does .mediaTimeTick s (fun m m' => m' = m.setFld Reg.flmMediaTime 63 0 (m.fld Reg.flmMediaTime 63 0 + 1))) ∧
    Does (.flmMediaTime w val) s (fun m m' => m'.reg Reg.flmMediaTime = val ∧ m'.bit Reg.flmStatus 30 = false ∧ m'.ftl = f ∧
      (m.reg Reg.flmMediaTime ≤ val → m'.evr = m.evr)) ∧
    (2 ≤ bitsOf cfg.toNat 15 8 → bitsOf cfg.toNat 15 8 ≤ 16 → 1 ≤ cfg.toNat % 256 → cfg.toNat % 256 ≤ 10 → Does (.flmStoredCfg w cfg) s (fun m m' =>
      m' = { m with ftl := { f with storedCfg := bitsOf cfg.toNat 15 8 * 256 + cfg.toNat % 256 } }))

/-- For a served owner command: create and import add a record under the lowest free KEY_ID with the next GEN, and
answer the handle; fields that break R372, a full store and a package that does not open are refused with
their status and leave the store. Narrow takes a subset of POLICY; revoke marks the record, clears every lane
cache and, where no job holds the key, leaves the rest; destroy needs a revoked, unheld, unbound key; list
answers every record without material. An unknown handle is ST_KEY_DENIED and counted. Each change raises the
key-store generation, in SEC_KS_GEN and in every mounted carrier. With an adoption choice pending, KEY_REQUEST
sets KEYS_PENDING and sends step 1. The source sends its nonce; a replacement that has asked answers one with
certificate and report. A report that passes every check makes the source send the store sealed under the
agreed key; one that does not ends the migration. A package for this set, not older than an adopted carrier
needs and that opens, replaces the store, clears KEYS_PENDING and sends a receipt; one for another set or too
old is denied and counted. A valid receipt erases the store of a predecessor that is not the manager.
(10_compression_and_sealed_data.md R370, R372, R373, R375; 03_startup_and_trust.md R119, R120) -/
def Obligations.KeyStoreAndMigration : Prop :=
  (∀ (s : State) (n : NvmeCtx) (policy : Byte) (flags : U16) (signer kem iv ct tag : List Byte) (h : U64) (k : KeyRec),
    Served s.mach n .owner →
    let m := s.mach
    let gen := m.ks.generation + 1
    let store := fun (m' : Mach) => m'.ks.generation = gen ∧ m'.reg Reg.secKsGen = BitVec.ofNat 64 gen ∧
      (∀ c ∈ m'.ftl.carriers, c.2.mounted = true → c.2.info.keyGen = gen)
    let ends := fun (m' : Mach) (sct sc dw1 : Nat) (d : List Byte) => m'.out = m.out ++ [completion n sct sc dw1 d]
    let kk := shake256 (Config.kemDecaps kem ++ "YLM-KEYIMP".toUTF8.toList.map (fun b => BitVec.ofNat 8 b.toNat)) 32
    let opened := gcmOpen kk iv (leBytes 1 policy.toNat ++ leBytes 2 flags.toNat ++ sliceBytes signer 0 32) ct tag
    let added := fun (m' : Mach) (mt : List Byte) => ∃ id g : Nat,
      1 ≤ id ∧ (∀ x ∈ m.ks.keys, x.id ≠ id) ∧ (∀ i : Nat, 1 ≤ i → i < id → ∃ x ∈ m.ks.keys, x.id = i) ∧
      g = mapGet (fun _ => 0) m.ks.gens id + 1 ∧
      m'.ks.keys = m.ks.keys ++ [⟨id, g, false, policy.toNat, flags.toNat, signer, 0, mt⟩] ∧ store m' ∧
      ends m' 0 0 0 (leBytes 8 (keyHandle id g))
    let ok := keyFieldsOk policy.toNat flags.toNat signer
    (m.ks.keys.length < 4096 → ok = true → Does (.keyCreate n policy flags signer) s (fun _ m' => ∃ mt : List Byte, mt.length = 32 ∧ added m' mt)) ∧
    (m.ks.keys.length < 4096 → ok = false → Does (.keyCreate n policy flags signer) s (fun _ m' => m'.ks = m.ks ∧ ends m' 0 2 St.invalidField [])) ∧
    (4096 ≤ m.ks.keys.length → Does (.keyCreate n policy flags signer) s (fun _ m' => m'.ks = m.ks ∧ ends m' 7 1 St.poolEmpty [])) ∧
    (m.ks.keys.length < 4096 → ok = true → Does (.keyImport n policy flags signer kem iv ct tag) s (fun _ m' => match opened with
      | some mat => if mat.length = 32 then added m' mat else m'.ks = m.ks ∧ ends m' 2 0x81 St.checkFail []
      | none => m'.ks = m.ks ∧ ends m' 2 0x81 St.checkFail [])) ∧
    Does (.keyList n) s (fun m m' => m' = m.send (completion n 0 0 0 (m.ks.keys.flatMap KeyRec.listed))) ∧
    (m.key? h.toNat = none → Does (.keyNarrow n h policy) s (fun _ m' => m'.ks = m.ks ∧ ends m' 2 0x86 St.keyDenied [] ∧
      m'.reg Reg.secDenied = (m.addFld Reg.secDenied 31 0 1).reg Reg.secDenied)) ∧
    (m.key? h.toNat = some k →
      (policy.toNat &&& k.policy = policy.toNat → Does (.keyNarrow n h policy) s (fun _ m' => store m' ∧ ends m' 0 0 0 [] ∧
        m'.ks.keys = m.ks.keys.map (fun x => if x.id = k.id then { k with policy := policy.toNat } else x))) ∧
      (policy.toNat &&& k.policy ≠ policy.toNat → Does (.keyNarrow n h policy) s (fun _ m' => m'.ks = m.ks ∧ ends m' 0 2 St.invalidField [])) ∧
      (m.holders k.handle = [] → Does (.keyRevoke n h) s (fun _ m' => store m' ∧ ends m' 0 0 0 [] ∧ m'.jobs = m.jobs ∧
        m'.ks.keys = m.ks.keys.map (fun x => if x.id = k.id then { k with revoked := true } else x) ∧
        (∀ p ∈ m'.tl.tiles, p.2.keyCache = []))) ∧
      Does (.keyRevoke n h) s (fun _ m' => m'.out.getLast? = some (completion n 0 0 0 [])) ∧
      (k.revoked = true → m.holders k.handle = [] → (∀ p ∈ m.ftl.nss, p.2.key ≠ k.handle) → Does (.keyDestroy n h) s (fun _ m' =>
        store m' ∧ ends m' 0 0 0 [] ∧ m'.ks.keys = m.ks.keys.filter (fun x => x.id ≠ k.id))) ∧
      (k.revoked = false → Does (.keyDestroy n h) s (fun _ m' => m'.ks = m.ks ∧ ends m' 2 0x86 St.keyDenied [])))) ∧
  (∀ (s : State) (source node : Nat) (nonce cert report receipt : List Byte) (p : MigPackage),
    let m := s.mach
    (m.fld Reg.glbAdopt 7 4 ≠ 0 → Does (.keyRequest source) s (fun m m' =>
      m' = ({ m.setBit Reg.glbAdopt 31 true with boot := { m.boot with migration := .requested } }).send (.migration 1 source []))) ∧
    Does (.migrationNonce (some node) nonce) s (fun m m' =>
      m' = ({ m with boot := { m.boot with migration := .offered nonce } }).send (.migration 2 node nonce)) ∧
    (m.boot.migration = .requested → Does (.migrationNonce none nonce) s (fun m m' =>
      m'.boot = { m.boot with migration := .reported nonce } ∧ m'.ks = m.ks ∧
      ∃ r : List Byte, m'.out = m.out ++ [.migration 3 0 (Config.certificate ++ r)] ∧ sliceBytes r 8 32 = sliceBytes nonce 0 32)) ∧
    (m.boot.migration = .offered nonce → Does (.migrationAttestation cert report node none) s (fun _ m' =>
      if m.reportAccepted cert report nonce = true then m'.boot.migration = .sent ∧ m'.ks = m.ks ∧
        let e := Config.kemEncaps (Config.certKey cert 1) m.draws
        ∃ iv : List Byte, iv.length = 12 ∧
          let r := gcmSeal (migKey e.2 nonce) iv [] (leBytes 8 m.ftl.setId ++ leBytes 8 m.ks.generation ++ m.ks.keys.flatMap KeyRec.bytes)
          m'.out = m.out ++ [.migration 5 node (e.1 ++ leBytes 8 m.ftl.setId ++ leBytes 8 m.ks.generation ++ iv ++ r.1 ++ r.2)]
      else m' = { m with boot := { m.boot with migration := .idle } })) ∧
    (m.boot.migration = .reported nonce → (p.setId ≠ m.ftl.setId ∨ p.generation < m.neededGen) →
      Does (.migrationPackage p) s (fun m m' => m' = m.addFld Reg.secDenied 31 0 1)) ∧
    (m.boot.migration = .reported nonce → p.setId = m.ftl.setId → m.neededGen ≤ p.generation → p.generation ≠ 0 →
      Does (.migrationPackage p) s (fun _ m' =>
        match gcmOpen (migKey (Config.kemDecaps p.ciphertext) nonce) (sliceBytes p.sealed 0 12) [] (sliceBytes p.sealed 12 (p.sealed.length - 28))
          (sliceBytes p.sealed (12 + (p.sealed.length - 28)) 16) with
        | none => m' = m
        | some b => if leAt b 0 8 = p.setId ∧ leAt b 8 8 = p.generation then
            m'.ks.generation = p.generation ∧ m'.boot.migration = .imported p.generation ∧
            m'.ks.keys = (List.range ((b.length - 16) / 84)).map (fun i => KeyRec.ofBytes (sliceBytes b (16 + 84 * i) 84)) ∧
            m'.reg Reg.secKsGen = BitVec.ofNat 64 p.generation ∧ m'.bit Reg.glbAdopt 31 = false ∧ m'.fld Reg.glbAdopt 7 4 = 0 ∧
            m'.out = m.out ++ [.migration 6 0 (Config.mldsaSign 0 (leBytes 8 p.setId ++ leBytes 8 p.generation))]
          else m' = m)) ∧
    (m.boot.migration = .sent → Does (.migrationReceipt receipt) s (fun m m' =>
      if Config.receiptValid receipt = true then
        let y : Mach := { m with boot := { m.boot with migration := .idle } }
        m' = if m.fld Reg.spnState 5 4 = 2 then y else { y with ks := { m.ks with keys := [], generation := 0 } }
      else m' = m)))

/-- A served Create with legal sizes, vector and bases and a free number makes an empty queue, and Delete removes
it. SQ_TAIL publishes entries that fit; from the wrong port, for no queue, or beyond the ring it is discarded,
counted in DB_ERR and recorded. CQ_HEAD moves the head and posts one waiting completion that then has room. A
fetched NOP moves SQ_HEAD and posts a completion with RESULT 0 and STATUS 0. HANDOVER by the owner and CLAIM
after 10 s of its link being down move the ownership and set CHANGED; another one is rejected.
(14_host_ports_and_command_queues.md R513, R514, R515, R521, R522, R523) -/
def Obligations.PipelineQueues : Prop :=
  ∀ (s : State) (n : NvmeCtx) (w p : Port) (q : Fin 512) (sqLog cqLog vector : Nat) (ien : Bool) (sqBase cqBase : U64) (t h : BitVec 12)
    (x : PipeQ) (c : PipeCtx) (k : PipeCpl) (d : Nat),
    let m := s.mach
    let bad := fun (off val reason : Nat) (m' : Mach) => m'.pipeQ p.val q.val = m.pipeQ p.val q.val ∧ m' =
      (m.addFld (Reg.hifDbErr w.val) 31 0 1).rejected (sourceOf 7 w.val) (doorbell p.val q.val + off) val reason
    (Served m n .admin →
      (4 ≤ sqLog → sqLog ≤ 12 → 4 ≤ cqLog → cqLog ≤ 12 → vector ≤ 263 → sqBase.toNat % 4096 = 0 → cqBase.toNat % 4096 = 0 →
        m.pipeQ n.port.val q.val = none → Does (.createPipelineQueue n q.val sqLog cqLog vector ien sqBase cqBase) s (fun _ m' =>
          m'.pipeQ n.port.val q.val = some ⟨m.hif.made + 1, sqLog, cqLog, vector, ien, sqBase.toNat, cqBase.toNat, 0, 0, 0, 0, [], []⟩ ∧
          m'.out = m.out ++ [completion n 0 0 0 []])) ∧
      (vector > 263 → Does (.createPipelineQueue n q.val sqLog cqLog vector ien sqBase cqBase) s (fun _ m' =>
        m'.pipeQ n.port.val q.val = m.pipeQ n.port.val q.val ∧ m'.out = m.out ++ [completion n 0 2 St.invalidField []])) ∧
      (m.pipeQ n.port.val q.val = some x → Does (.deletePipelineQueue n q.val) s (fun _ m' =>
        m'.pipeQ n.port.val q.val = none ∧ m'.out = m.out ++ [completion n 0 0 0 []]))) ∧
    (w ≠ p → Does (.sqTail w p q t) s (fun _ m' => bad 0 t.toNat 2 m') ∧ Does (.cqHead w p q h) s (fun _ m' => bad 4 h.toNat 2 m')) ∧
    (w = p → m.pipeQ p.val q.val = none → Does (.sqTail w p q t) s (fun _ m' => bad 0 t.toNat 4 m') ∧
      Does (.cqHead w p q h) s (fun _ m' => bad 4 h.toNat 4 m')) ∧
    (w = p → m.pipeQ p.val q.val = some x →
      let size := 2 ^ x.sqLog
      let used := (x.sqTail + size - x.sqHead) % size + (t.toNat + size - x.sqTail) % size
      (t.toNat < size → used ≤ size - 1 → Does (.sqTail w p q t) s (fun m m' => m' = m.setPipe p.val q.val { x with sqTail := t.toNat })) ∧
      (size ≤ t.toNat ∨ size - 1 < used → Does (.sqTail w p q t) s (fun _ m' => bad 0 t.toNat 3 m')) ∧
      (2 ^ x.cqLog ≤ h.toNat → Does (.cqHead w p q h) s (fun _ m' => bad 4 h.toNat 3 m')) ∧
      (h.toNat < 2 ^ x.cqLog → x.waiting = [] → Does (.cqHead w p q h) s (fun m m' => m' = m.setPipe p.val q.val { x with cqHead := h.toNat })) ∧
      (h.toNat < 2 ^ x.cqLog → x.waiting = [k] → (x.posted + 1) % 2 ^ x.cqLog ≠ h.toNat → Does (.cqHead w p q h) s (fun _ m' =>
        m'.pipeQ p.val q.val = some { x with cqHead := h.toNat, waiting := [], posted := x.posted + 1 } ∧
        m'.out = m.out ++ [.pipe p.val q.val k.result x.sqHead k.cid k.status (x.posted / 2 ^ x.cqLog % 2 = 0) k.fin]))) ∧
    (m.pipeQ c.port.val c.q.val = some x → m.fetches = true → x.sqHead ≠ x.sqTail → (c.fence = false ∨ x.started = []) →
      c.cid.toNat ∉ x.started → x.waiting = [] → (x.posted + 1) % 2 ^ x.cqLog ≠ x.cqHead → Does (.pipeNop c) s (fun _ m' =>
        m'.pipeQ c.port.val c.q.val = some { x with sqHead := (x.sqHead + 1) % 2 ^ x.sqLog, posted := x.posted + 1 } ∧
        m'.out = m.out ++ [.pipe c.port.val c.q.val 0 ((x.sqHead + 1) % 2 ^ x.sqLog) c.cid.toNat 0 (x.posted / 2 ^ x.cqLog % 2 = 0) false])) ∧
    (p.val = m.hif.owner → Does (.handover p false) s (fun m m' => m'.hif = { m.hif with owner := 1 - p.val } ∧ m'.bit Reg.hifAdmin 1 = true)) ∧
    (p.val ≠ m.hif.owner → Does (.handover p false) s (fun m m' => m' = m.rejected (sourceOf 7 p.val) Reg.hifAdmin 32 2)) ∧
    (p.val ≠ m.hif.owner → (m.port m.hif.owner).downSince = some d → d + 10000000000 ≤ m.spn.count →
      Does (.claim p) s (fun m m' => m'.hif = { m.hif with owner := p.val } ∧ m'.bit Reg.hifAdmin 1 = true)) ∧
    (p.val = m.hif.owner ∨ (m.port m.hif.owner).downSince = none → Does (.claim p) s (fun m m' => m' = m.rejected (sourceOf 7 p.val) Reg.hifAdmin 16 4))

/-- For a position the job wants and has not fetched, whose only home is this module: with no entry the miss is
counted; an entry that agrees in key, generation, frame and CRC is a hit, counted, that marks the segment
referenced and puts the payload into buffers of the job; one that does not agree is dropped, counted bad and
missed, and recorded where its CRC failed. An offer joins this home's ring, or goes to the other home. A ring
head that fits a STATIC cache's GDDR tier is counted inserted and then found under its key, judged a hit; one
that fits no tier is counted refused. Segments unlinked for 1 ms are freed. (09_decode_augment_cache.md R345,
R346, R347, R348, R349) -/
def Obligations.DecodedCache : Prop :=
  ∀ (s : State) (j : JobSlot) (epoch : U32) (pos len crc : Nat) (index : Option (Nat × Nat)) (found : List (Option DcRemote)) (bad : List Nat)
    (fb : Bool) (x : Job) (i : JobImage) (c : CacheSpec) (e : DcEntry) (r : List DcEntry) (payload : List Byte) (h : Nat),
    let m := s.mach
    (m.job? j.val = some x → x.image? = some i → i.cache = some c →
      let dig := decDigest (m.rawImage s.variant x.imageAddr x.imageLen) c.point
      let key := dcKey c dig (posSample i epoch.toNat pos)
      (x.wants i epoch.toNat pos = true → m.indexOf x i (posSample i epoch.toNat pos) index bad = some (len, crc) →
        ((∀ f ∈ x.fetched, f.1 ≠ (epoch.toNat, pos)) → x.homesOf i (posSample i epoch.toNat pos) = [x.m] → x.m ∉ x.lost →
          Does (.dcLookup j epoch pos index found bad fb) s (fun m m' => match m.dc.find key with
            | none => m' = m.addFld Reg.memDcMisses 63 0 1
            | some (k, g, e) => (g.flash = false ∨ fb = false) →
              let gone := (m.setDc (m.dc.drop key)).addFld Reg.memDcBad 63 0 1
              match judgeEntry key g.gen len crc e with
              | .hit =>
                let y := (m.setDc (m.dc.put k { g with referenced := true })).addFld Reg.memDcHits 63 0 1
                m' = match y.takeBufs (0x10 + j.val) e.payload.length with
                  | some (hs, z) => (z.fillBufs s.variant hs e.payload).setJob j.val { x with fetched := x.fetched ++ [((epoch.toNat, pos), ⟨hs, e.payload.length, none⟩)] }
                  | none => y
              | .stale => m' = gone.addFld Reg.memDcMisses 63 0 1
              | .badCrc => m' = (gone.notice 0x000A (sourceOf 9 j.val) (dcBucket key) St.checkFail).addFld Reg.memDcMisses 63 0 1)) ∧
        (entrySize payload.length ≤ segSize → x.homesOf i (posSample i epoch.toNat pos) = [h] →
          (h = x.m → Does (.dcOffer j epoch pos payload index bad) s (fun m m' => m' = m.setDc { m.dc with ring := m.dc.ring ++ [⟨key, 0, len, crc, payload, 0⟩] })) ∧
          (h ≠ x.m → Does (.dcOffer j epoch pos payload index bad) s (fun m m' =>
            m' = m.send (.offer h ⟨key, 0, 0, len, crc, payload, dcCrc key 0 len crc payload⟩))))) ∧
      (m.dc.job = some j.val → m.dc.ring = e :: r → entrySize e.payload.length ≤ segSize → e.key.length = 32 → c.clock = false →
        (m.dc.fits false (entrySize e.payload.length) = true → Does (.dcInsert none) s (fun _ m' => m'.dc.ring = r ∧
          m'.reg Reg.memDcInserts = (m.addFld Reg.memDcInserts 63 0 1).reg Reg.memDcInserts ∧
          ∃ (i' : Nat) (g' : DcSeg) (e' : DcEntry), m'.dc.find e.key = some (i', g', e') ∧ g'.flash = false ∧ e'.payload = e.payload ∧
            judgeEntry e.key g'.gen e.frameLen e.frameCrc e' = .hit)) ∧
        (m.dc.fits false (entrySize e.payload.length) = false → c.nsid = 0 → Does (.dcInsert none) s (fun m m' =>
          m' = (m.setDc { m.dc with ring := r }).addFld Reg.memDcRefused 63 0 1)))) ∧
    Does .segmentReuse s (fun m m' => m' = m.setDc { m.dc with segs := m'.dc.segs } ∧
      ∀ z : DcSeg, z ∈ m'.dc.segs ↔ z ∈ m.dc.segs ∧ ∀ t : Nat, z.unlinked = some t → m.spn.count < t + 1000000)

/-- On a powered, enabled port with an engine, link-up with the needed application clears both lane maps and
PARTNER and, in SPARE mode, sends SPARE_HELLO; without it the port reports the mismatch. Link-down marks every
path over the port bad. A degraded lane, a latched flag, REQ and the repeat after 1 s ask the partner for a
swap; REVERT asks for the reverse; a second lane is refused. SPARE_REQ is acknowledged, SPARE_ACK switches the
receiver and is answered SPARE_DONE, SPARE_DONE turns the lane off and counts the swap; after 1 ms with no
answer it is abandoned. Polls and sweeps fill the monitor and margin registers.
(13_fabric_and_remote_access.md R453, R454, R455, R457, R458, R460; R452; R466) -/
def Obligations.FabricLinks : Prop :=
  ∀ (s : State) (p : Port) (lane : Fin 9) (r : OeReading) (l : List (Nat × Nat × Nat)) (t : Nat) (w : Swap),
    let m := s.mach
    let v := s.variant
    let q := p.val
    let x := m.fabPort q
    let st := Reg.fabStatus q
    let ask := (m.setFab q { x with rx := some ⟨lane.val, false, false, m.spn.count⟩, abandoned := none }).send (.spare q spareReq lane.val)
    (q < fabPorts v → m.power.pwrOk = true → m.bit (Reg.fabCfg q) 0 = true → m.bit st 29 = true → m.linkUp q = false →
      (∀ k : Nat, k < 8 → m.laneOut q k = false) →
      (∀ c ∈ [Instr.linkUp p true, Instr.bringupRetry p true true], Does c s (fun _ m' =>
        m'.linkUp q = true ∧ m'.partner q = false ∧ m'.rxSpared q = 15 ∧ m'.txSpared q = 15 ∧ m'.bit st 28 = false ∧
        m'.fabPort q = { x with rx := none, tx := none, abandoned := none, txOff := none, downSince := none, upAt := m.spn.count } ∧
        m'.out = m.out ++ (if m.spareMode q = true then [.spare q spareHello 0] else []))) ∧
      Does (.linkUp p false) s (fun m m' => m' = m.setBit st 28 true)) ∧
    Does (.bringupRetry p false true) s (fun m m' => m' = m) ∧
    (m.linkUp q = true →
      Does (.linkDown p) s (fun _ m' => m'.linkUp q = false ∧ m'.partner q = false ∧ m'.rxSpared q = 15 ∧ m'.txSpared q = 15 ∧
        (m'.fabPort q).downSince = some m.spn.count ∧ m'.out = m.out ∧
        (∀ n ∈ m'.xp.nodes, ∀ a ∈ n.2.paths, a.2.port = q → a.2.good = false)) ∧
      (m.spareMode q = true → m.spn.count ≤ x.upAt + 100000000 → Does (.spareHello p) s (fun m m' => m' = m.setBit st 30 true)) ∧
      (m.spareMode q = true → m.partner q = true → lane.val ≤ 7 →
        (m.rxSpared q = 15 → x.rx = none →
          Does (.laneDegrade p lane) s (fun _ m' => m' = ask) ∧
          (m.bit st 29 = true → Does (.oeInterrupt p [lane.val]) s (fun _ m' => m' = ask)) ∧
          (x.abandoned = some (lane.val, t) → t + 1000000000 ≤ m.spn.count → Does (.swapRepeat p) s (fun _ m' => m' = ask)) ∧
          (m.fld (Reg.fabSpareCtl q) 23 20 = lane.val → Does (.req p) s (fun _ m' => m' = ask.setBit (Reg.fabSpareCtl q) 31 true))) ∧
        (m.rxSpared q ≠ 15 → Does (.laneDegrade p lane) s (fun m m' => m' = m.laneEvent q lane.val 2 0))) ∧
      (m.rxSpared q ≠ 15 → x.rx = none → Does (.revert p) s (fun m m' =>
        m' = (m.setFab q { x with rx := some ⟨m.rxSpared q, false, true, m.spn.count⟩ }).send (.spare q spareReq (m.rxSpared q)))) ∧
      (m.spareMode q = true → lane.val ≤ 7 →
        (m.txSpared q = 15 → Does (.spareReq p lane) s (fun m m' =>
          m' = (m.setFab q { x with tx := some ⟨lane.val, true, false, m.spn.count⟩ }).send (.spare q spareAck lane.val))) ∧
        (m.txSpared q = lane.val → Does (.spareReq p lane) s (fun m m' =>
          m' = (m.setFab q { x with tx := some ⟨lane.val, true, true, m.spn.count⟩, txOff := none }).send (.spare q spareAck lane.val)))) ∧
      (x.rx = some w → w.acked = false → w.lane < 8 → Does (.spareAck p) s (fun _ m' =>
        m'.rxSpared q = (if w.revert = true then 15 else w.lane) ∧ m'.fabPort q = { x with rx := none } ∧
        m'.bit (Reg.fabSpareCtl q) 31 = false ∧ m'.out = m.out ++ [.spare q spareDone w.lane])) ∧
      (x.tx = some w → w.lane < 8 → Does (.spareDone p) s (fun _ m' =>
        m'.txSpared q = (if w.revert = true then 15 else w.lane) ∧
        m'.fabPort q = { x with tx := none, txOff := if w.revert = true then none else some w.lane } ∧
        m'.fld (Reg.fabSwaps q) 63 0 = (m.fld (Reg.fabSwaps q) 63 0 + (if w.revert = true then 0 else 1)) % 2 ^ 64)) ∧
      (l.length ≤ 9 → Does (.marginSweep p l) s (fun _ m' => ∀ (k b h z : Nat), l[k]? = some (b, h, z) →
        m'.reg (Reg.fabLaneMargin q k) = BitVec.ofNat 64 (b % 2 ^ 8 * 2 ^ 24 + h % 2 ^ 12 * 2 ^ 12 + z % 2 ^ 12))) ∧
      (∀ pause : Bool, Does (.nonYftFrame p pause) s (fun m m' => m' =
        (m.addFld (Reg.fabFramesRx q) 63 0 1).addFld (if pause then Reg.fabPauseDisc q else Reg.fabOtherDisc q) 63 0 1))) ∧
    (x.rx = some w → w.since + 1000000 ≤ m.spn.count → Does (.spareAbandon p) s (fun m m' => m' =
      ((m.setFab q { x with rx := none, abandoned := if w.revert then none else some (w.lane, m.spn.count) }).setBit
        (Reg.fabSpareCtl q) 31 false).laneEvent q w.lane 5 0)) ∧
    (m.bit st 29 = true → r.lowRx = [] → Does (.cmisPoll p r) s (fun _ m' =>
      m'.reg (Reg.fabOeTemp q) = BitVec.ofNat 64 (r.vcc.toNat * 2 ^ 16 + r.temp.toNat) ∧
      (∀ (k : Nat) (c : U16 × U16), k < 9 → r.chans[k]? = some c →
        m'.reg (Reg.fabOeMon q k) = BitVec.ofNat 64 (c.1.toNat * 2 ^ 16 + c.2.toNat)) ∧ m'.evr = m.evr)) ∧
    Does (.oeRemoval p) s (fun _ m' => m'.bit st 29 = false ∧ m'.bit st 28 = false ∧ m'.linkUp q = false ∧ (m'.fabPort q).lowPower = true) ∧
    Does (.oeInsertion p) s (fun m m' => m' = (m.setBit st 29 true).setFab q
      { x with lowPower := !m.bit (Reg.fabCfg q) 0, resetDue := !m.bit (Reg.fabCfg q) 0 })

/-- A packet that fails step 1 counts in XPT_BAD alone, a late one in XPT_LATE, one for no queue in XPT_STRAY. A
new packet of an unsealed queue marks its place and counts as accepted: WRITE places its payload; READ_REQ
returns the bytes as READ_RESP; FETCH_ADD and CAS replace the word once and return the old value; READ_RESP
and ATOMIC_RESP place data for their entry, which completes when all of it has come; SEND takes a buffer of
the pool. A request that its key does not cover is answered with a NAK. ACK removes what it covers and
completes the entry; NAK completes it with its status, but a SEND without a buffer is kept for another try.
(13_fabric_and_remote_access.md R473, R475, R478, R481, R482) -/
def Obligations.YftReceive : Prop :=
  ∀ (s : State) (p : YftPkt) (typ ref d : Nat) (e : TxMsg) (k : TxPkt) (h : Nat) (r : List Nat) (bad : List Nat),
    let v := s.variant
    let m := framed s.mach p
    let cmd := if typ = 1 then Instr.write p else if typ = 2 then Instr.readReq p bad else if typ = 3 then Instr.readResp p
      else if typ = 4 then Instr.fetchAdd p else if typ = 5 then Instr.cas p else if typ = 6 then Instr.atomicResp p
      else if typ = 7 then Instr.send p else if typ = 8 then Instr.ack p else Instr.nak p
    let a := p.addr.toNat
    let len := p.msgLen.toNat
    let seq := p.msgSeq.toNat
    let got := m.markRx ref d
    let sig := fun (y : Mach) => if bitAt p.flags.toNat 1 = true then y.qAdd ref 0x30 1 else y
    let key := fun (n need : Nat) => m.xkeyStatus p.key.toNat a n need false (m.qSealed ref)
    let old := m.devRead v a 8
    let isAt := fun (z : TxMsg) (ops : List Nat) => z.index = seq ∧ leAt z.bytes 0 1 ∈ ops ∧ z.status = none
    (1 ≤ typ → typ ≤ 9 → p.frameOk = true →
      (m.pktGood typ p = false → Does cmd s (fun _ m' => m' = m.addFld Reg.xptBad 63 0 1)) ∧
      (m.pktGood typ p = true → m.pktLate p = true → m.pktQueue p = none → Does cmd s (fun _ m' => m' = m.addFld Reg.xptLate 63 0 1)) ∧
      (m.pktGood typ p = true → m.pktLate p = false → p.dstQueue ≠ 0 → m.pktQueue p = none →
        Does cmd s (fun _ m' => m' = m.addFld Reg.xptStray 63 0 1))) ∧
    (bitAt p.flags.toNat 3 = false → PktNew m typ p ref d →
      (typ = 1 → key len 1 = St.ok → Does cmd s (fun _ m' =>
        m' = ((got.devWrite v (a + p.off.toNat) p.payload).rxCount ref p []).2.countAccepted ref)) ∧
      (typ = 1 → key len 1 ≠ St.ok → Does cmd s (fun _ m' => m' = (got.countAccepted ref).sendNak ref seq (key len 1))) ∧
      (typ = 2 → key len 0 = St.ok → Does cmd s (fun _ m' =>
        let y := sig (got.countAccepted ref)
        m' = y.sendMsg ref 3 0 seq 0 0 len (cutData (y.qMtu ref) (y.devRead v a len)))) ∧
      (typ = 4 → key 8 2 = St.ok → Does cmd s (fun _ m' =>
        m' = (sig ((got.devWrite v a (leBytes 8 (ofLe old + ofLe p.payload))).countAccepted ref)).sendMsg ref 6 0 seq 0 0 8 [(0, old)])) ∧
      (typ = 5 → key 8 2 = St.ok → old = p.payload.take 8 → Does cmd s (fun _ m' =>
        m' = (sig ((got.devWrite v a (p.payload.drop 8)).countAccepted ref)).sendMsg ref 6 0 seq 0 0 8 [(0, old)])) ∧
      (typ = 5 → key 8 2 = St.ok → old ≠ p.payload.take 8 → Does cmd s (fun _ m' =>
        m' = (sig ((got.devWrite v a old).countAccepted ref)).sendMsg ref 6 0 seq 0 0 8 [(0, old)])) ∧
      (let y := got.countAccepted ref
       (y.xq ref).entries = [e] →
        (typ = 3 → isAt e [2] → Does cmd s (fun _ m' =>
          let n := e.got + p.payload.length
          let z := y.devWrite v (leAt e.bytes 8 8 + p.off.toNat) p.payload
          let w := z.setXq ref { y.xq ref with entries := [{ e with got := n, answered := true }] }
          m' = if leAt e.bytes 4 4 ≤ n then w.completeEntry v ref e.index St.ok else w)) ∧
        (typ = 6 → isAt e [3, 4] → Does cmd s (fun _ m' => m' = (y.devWrite v (leAt e.bytes 8 8) p.payload).completeEntry v ref e.index St.ok))) ∧
      (typ = 7 → mapFind (m.xq ref).rx seq = none → m.qNat ref 0x35 1 ≠ 0xFF → len ≤ bufSize (m.qNat ref 0x35 1) → ∀ q : Nat, poolFor len = some q →
        ((m.pool q).chuck = h :: r → (m.pool q).ready = true → len = p.payload.length → p.off = 0 → Does cmd s (fun _ m' =>
          let y := ({ m with mem := { m.mem with reqTag := m.mem.reqTag + 1 } }).takeBuf q (m.slot (refSlot ref)).owner m.mem.reqTag
          let z := (((y.markRx ref d).devWrite v (y.bufAddr h) p.payload).rxCount ref p [h]).2
          m' = (z.setXq ref { z.xq ref with inbox := (z.xq ref).inbox ++ [([h], len)] }).countAccepted ref)) ∧
        ((m.pool q).chuck = [] → Does cmd s (fun _ m' => m' = m.sendNak ref seq St.poolEmpty)))) ∧
    (p.frameOk = true → m.pktLate p = false → p.dstQueue ≠ 0 → m.pktQueue p = some ref → (m.xq ref).entries = [e] → isAt e [1] →
      (m.pktGood 8 p = true → (m.xq ref).pkts = [k] → k.sent.isSome = true → k.msgSeq = e.index → k.typ = 1 → ackCovers p.psn.toNat a k.psn = true →
        Does (.ack p) s (fun _ m' =>
          let y := m.setXq ref { m.xq ref with pkts := [] }
          let z := y.onPath (y.qNat ref 0x10 4) k.path (fun q => { q with timeouts := 0 })
          m' = (z.qPut ref 0x48 4 (z.qNat ref 0x44 4)).completeEntry v ref e.index St.ok)) ∧
      (m.pktGood 9 p = true → Does (.nak p) s (fun _ m' => m' = m.completeEntry v ref e.index (len % 2 ^ 16)))) ∧
    (p.frameOk = true → m.pktLate p = false → p.dstQueue ≠ 0 → m.pktQueue p = some ref → (m.xq ref).entries = [e] → isAt e [5] →
      m.pktGood 9 p = true → len % 2 ^ 16 = St.poolEmpty → (m.xq ref).pkts = [k] → k.msgSeq = seq → k.typ = 7 → k.sent.isSome = true →
      Does (.nak p) s (fun _ m' => m' = m.setXq ref { m.xq ref with pkts := [{ k with sent := some m.spn.count }] }))

/-- A due entry that passes its checks sends its message (WRITE, READ, FETCH_ADD, CAS, SEND), NOP completes, and
one that fails completes with its status. An ACK leaves 1 us after an accepted packet. A packet RTO_US old is
sent again with RETX, or at RETRY_LIMIT ends the queue. A probe makes a path good; a read not begun in time
fails. A doorbell, a delete and a consumed count of the owner take effect, from another writer they are
rejected; a drained queue ends its slot. Access keys are made and invalidated with their result registers.
YFT_QCREATE, YFT_QCONNECT and NODE_PATH complete with their result; TIME is answered.
(13_fabric_and_remote_access.md R466, R468, R470, R473, R477, R479, R480, R481, R483;
14_host_ports_and_command_queues.md R527) -/
def Obligations.YftSend : Prop :=
  ∀ (s : State) (q psn tail peer node : U32) (op : Nat) (x : CtxSlot) (b : List Byte) (z : TxPkt) (e : TxMsg) (w : Writer) (pt : Fin 64) (nb : NetPath)
    (pr : Peer) (kc : KeyCreate) (xk : XKey) (c : PipeCtx) (pq : PipeQ) (a : PathArgs) (qc : QCreate) (t2 t3 : U64) (t0 : Nat),
    let v := s.variant
    let m := s.mach
    let ref := q.toNat
    let head := slotNat x 0x24 4
    let cmd := if op = 1 then Instr.yftWrite q else if op = 2 then Instr.yftRead q else if op = 3 then Instr.yftFetchAdd q
      else if op = 4 then Instr.yftCas q else if op = 5 then Instr.yftSend q else Instr.yftNop q
    let y := (m.qAdd ref 0x24 1).setXq ref { m.xq ref with entries := (m.xq ref).entries ++ [⟨head, b, 0, none, false, none⟩] }
    let len := leAt b 4 4
    let fl := leAt b 1 1 / 8 % 2 * 2
    let data := cutData (y.qMtu ref) (y.devRead v (leAt b 8 8) len)
    (1 ≤ op → op ≤ 6 → EntryDue v m ref op x b →
      (y.entryStatus ref b ≠ St.ok → Does cmd s (fun _ m' => m' = y.completeEntry v ref head (y.entryStatus ref b))) ∧
      (y.entryStatus ref b = St.ok → Does cmd s (fun _ m' => m' =
        if op = 1 then y.sendMsg ref 1 fl head (leAt b 0x20 8) (leAt b 0x18 8) len data
        else if op = 2 then y.sendMsg ref 2 fl head (leAt b 0x20 8) (leAt b 0x18 8) len [(0, [])]
        else if op = 3 then y.sendMsg ref 4 fl head (leAt b 0x20 8) (leAt b 0x18 8) 8 [(0, sliceBytes b 0x30 8)]
        else if op = 4 then y.sendMsg ref 5 fl head (leAt b 0x20 8) (leAt b 0x18 8) 8 [(0, sliceBytes b 0x30 16)]
        else if op = 5 then y.sendMsg ref 7 fl head 0 0 len data
        else y.completeEntry v ref head St.ok))) ∧
    (m.queue? ref = some x →
      ((m.xq ref).unacked ≠ 0 → (m.xq ref).ackSince + 1000 ≤ m.spn.count → Does (.ackTimer q) s (fun m m' => m' = m.sendAck ref)) ∧
      ((m.xq ref).pkts = [z] → z.psn = psn.toNat → z.sent = some t0 → t0 + m.rtoNs ≤ m.spn.count →
        let u := m.pathTimeout (m.qNat ref 0x10 4) z.path
        (z.tries < m.retryLimit → ∀ (pa : Nat) (u' : Mach), u.nextPath (m.qNat ref 0x10 4) (u.qNat ref 0x22 1) = some (pa, u') →
          Does (.retransmit q psn) s (fun _ m' => m' =
            (((u'.setXq ref { m.xq ref with pkts := [{ z with sent := some m.spn.count, path := pa, tries := z.tries + 1 }] }).addFld Reg.xptRetx 63 0 1).qSat
              ref 0xD8).emitPkt ref pa z.typ (z.flags ||| 4) z.psn z.msgSeq z.key z.addr z.msgLen z.off z.payload)) ∧
        (m.retryLimit ≤ z.tries → z.typ = 3 → Does (.retransmit q psn) s (fun _ m' => m' = u.queueError v ref St.mediaUnrecoverable))) ∧
      ((m.xq ref).entries = [e] → leAt e.bytes 0 1 = 2 → e.status = none → e.answered = false → e.ackedAt = some t0 → e.index = psn.toNat →
        t0 + m.fld Reg.xptCfg 17 10 * 1000000 ≤ m.spn.count →
        Does (.readTimeout q psn) s (fun m m' => m' = m.completeEntry v ref e.index St.mediaUnrecoverable)) ∧
      (x.owner = writerOwner w →
        (slotNat x 0x21 1 = 0 → let adv := (tail.toNat + 2 ^ 32 - slotNat x 0x28 4) % 2 ^ 32
          (0 < adv → adv < 2 ^ 31 → (tail.toNat + 2 ^ 32 - slotNat x 0x2C 4) % 2 ^ 32 ≤ 2 ^ slotNat x 0x20 1 →
            Does (.xptDoorbell w q tail) s (fun m m' => m' = m.qPut ref 0x28 4 tail.toNat)) ∧
          (adv = 0 → Does (.xptDoorbell w q tail) s (fun m m' => m' = m.xptReject w Reg.xptDoorbell tail.toNat 3)) ∧
          Does (.xptQdelete w q) s (fun m m' => m' = (m.qPut ref 0x21 1 1).setXq ref { m.xq ref with drainSince := some m.spn.count })) ∧
        (reached32 tail.toNat (m.xq ref).consumed = true → reached32 (slotNat x 0x40 4) tail.toNat = true →
          Does (.xptCqConsumed w q tail) s (fun m m' => m' = m.setXq ref { m.xq ref with consumed := tail.toNat }))) ∧
      (x.owner ≠ writerOwner w →
        Does (.xptDoorbell w q tail) s (fun m m' => m' = m.xptReject w Reg.xptDoorbell tail.toNat 2) ∧
        Does (.xptQdelete w q) s (fun m m' => m' = m.xptReject w Reg.xptQdelete ref 2) ∧
        Does (.xptCqConsumed w q tail) s (fun m m' => m' = m.xptReject w Reg.xptCqConsumed tail.toNat 2)) ∧
      ((m.xq ref).drainSince = some t0 → t0 + 2 * m.lifeNs ≤ m.spn.count → Does (.queueDrainEnd q) s (fun m m' =>
        let u := m.queueError v ref St.mediaUnrecoverable
        m' = (({ u with xp := { u.xp with queues := mapErase u.xp.queues (refSlot ref) } }).ctxRelease v ref).2))) ∧
    (m.peer? node.toNat = some pr → mapFind pr.paths pt.val = some nb → nb.good = false → nb.badSince + 1000000 ≤ m.spn.count →
      Does (.pathProbe node pt true) s (fun m m' => m' = m.setPeer node.toNat
        { pr with paths := mapSet pr.paths pt.val { nb with good := true, timeouts := 0 } })) ∧
    (m.keyCreateStatus v kc = St.ok → m.xp.lastKey < 2 ^ 32 - 1 → Does (.keycmdCreate w kc) s (fun _ m' =>
      let id := m.xp.lastKey + 1
      let g := mapGet (fun _ => 1) m.xp.keyGens id
      m'.xp = { m.xp with keys := m.xp.keys ++ [⟨id, g, kc.ns, kc.base.toNat, kc.limit.toNat, kc.rights.val, writerOwner w, kc.poolCheck, kc.nsid.toNat, true⟩], lastKey := id } ∧
      m'.reg Reg.xptKeycmdResult = 0 ∧ (g < 2 ^ 32 → m'.reg Reg.xptKeycmdKey = BitVec.ofNat 64 (id * 2 ^ 32 + g)))) ∧
    (m.keyCreateStatus v kc ≠ St.ok → Does (.keycmdCreate w kc) s (fun _ m' => m'.xp = m.xp ∧
      m'.reg Reg.xptKeycmdResult = BitVec.ofNat 64 (m.keyCreateStatus v kc))) ∧
    (m.xp.keys.find? (fun k => k.id = q.toNat) = some xk →
      (xk.owner = writerOwner w → Does (.keycmdInvalidate w q) s (fun _ m' => m'.reg Reg.xptKeycmdResult = 0 ∧
        m'.xp = { m.xp with keys := m.xp.keys.filter (fun k => k.id ≠ q.toNat), keyGens := mapSet m.xp.keyGens q.toNat (nextKeyGen xk.gen) })) ∧
      (xk.owner ≠ writerOwner w → Does (.keycmdInvalidate w q) s (fun _ m' => m'.xp = m.xp ∧ m'.reg Reg.xptKeycmdResult = BitVec.ofNat 64 St.notOwner))) ∧
    (PipeDue m c pq →
      (qc.peerNode = 0 → m.inHost qc.ringBase.toNat (64 * 2 ^ qc.ringLog.toNat) = true → qc.cqLog = 0 → m.inHost qc.cqBase.toNat 0 = true →
        Does (.yftQcreate c qc) s (fun _ m' => m' = answered (taken m c pq) c pq 0 St.invalidField)) ∧
      (m.inHost qc.ringBase.toNat (64 * 2 ^ qc.ringLog.toNat) = true → qc.cqLog = 0 → m.inHost qc.cqBase.toNat 0 = true → qc.peerNode ≠ 0 →
        4 ≤ qc.ringLog.toNat → qc.ringLog.toNat ≤ 16 → 1 ≤ qc.paths.toNat → qc.paths.toNat ≤ 64 → qc.recvPool = 0xFF → qc.tclass.toNat < 512 →
        qc.ringBase.toNat % 4096 = 0 → ∀ (r : Nat) (u : Mach), (taken m c pq).ctxCreate v 3 (2 + c.port.val)
          (leBytes 4 qc.peerNode.toNat ++ leBytes 4 qc.peerQueue.toNat ++ leBytes 8 qc.ringBase.toNat ++ leBytes 1 qc.ringLog.toNat ++ [0] ++
            leBytes 1 qc.paths.toNat ++ [0] ++ leBytes 16 0 ++ leBytes 1 0 ++ leBytes 1 0xFF ++ leBytes 2 qc.tclass.toNat ++
            leBytes 8 qc.cqBase.toNat) = some (r, u) →
        Does (.yftQcreate c qc) s (fun _ m' => m' = answered (u.setXq r .fresh) c pq r St.ok)) ∧
      (m.queue? ref = some x → x.owner = 2 + c.port.val → slotNat x 0x14 4 = 0 → slotNat x 0x21 1 = 0 → peer ≠ 0 →
        Does (.yftQconnect c q peer) s (fun _ m' => m' = answered ((taken m c pq).qPut ref 0x14 4 peer.toNat) c pq 0 St.ok)) ∧
      (m.queue? ref = none → Does (.yftQconnect c q peer) s (fun _ m' => m' = answered (taken m c pq) c pq 0 St.badHandle)) ∧
      (c.port.val = m.hif.owner → a.node ≠ 0 → a.path.toNat < 64 → a.kind = 1 → a.port.toNat < fabPorts v → a.port.toNat < 2 → a.vlan = 0xFFFF →
        m.peer? a.node.toNat = some pr → Does (.nodePath c a) s (fun _ m' => m' = answered ((taken m c pq).setPeer a.node.toNat
          { pr with paths := mapSet pr.paths a.path.toNat ⟨a.port.toNat, false, 0xFFFF, a.udpSrc.toNat, sliceBytes a.mac 0 6, sliceBytes a.ip 0 16,
            m.linkUp a.port.toNat, 0, m.spn.count⟩ }) c pq 0 St.ok))) ∧
    (m.node ≠ 0 → node ≠ 0 → m.sync = 0 ∨ m.sync = 2 → Does (.time node t2 t3) s (fun m m' => m' = m.send (.time node.toNat t2.toNat t3.toNat)))

/-- A fetched JOB_START of one module inside the host area answers the slot or the status with which its image is
accepted or refused; outside it, ST_BOUNDS (ST_INVALID_FIELD with bits [63:48] set, log entry 68). At its
LAUNCH count a job runs. JOB_CANCEL by the owning port ends a live job as cancelled, by another port it is
ST_NOT_OWNER. AUG_READY within the ring moves on, else it is rejected. A running job's entry goes to a die as
READY where its wait is met, or to its own cluster; a DONE entry of no sample is removed. A fetch of another
owner's frame goes into buffers; a missing namespace fails the job where substitution is off. Release of an
ended job frees its slot, table, areas and channels; a live one stays. (08_jobs_shuffle_batches.md R280, R283,
R290, R312; 06_synchronisation_and_work_stealing.md R230; 12_spindle_count_and_determinism.md R438;
14_host_ports_and_command_queues.md R523, R525; 09_decode_augment_cache.md R338) -/
def Obligations.JobsAndUnits : Prop :=
  ∀ (s : State) (c : PipeCtx) (pq : PipeQ) (addr len : U64) (j : JobSlot) (slot : Byte) (x : Job) (i : JobImage) (t p : Nat) (w : Writer) (val : U32)
    (a : AugSpec) (toDie : Bool) (n : Fin 32) (bytes : List Byte) (slotLen : Nat) (e : QEntry) (rep : UnitReport) (epoch : U32) (pos ns k : Nat)
    (sh : ShardSpec) (f : List Byte) (crc : BitVec 32) (rows frees : List Nat),
    let v := s.variant
    let m := s.mach
    let b := taken m c pq
    let fin := fun (u : Mach) (r st : Nat) => u.pipeDone c.port.val c.q.val c.cid.toNat pq.serial r st
    (PipeDue m c pq →
      (m.inHost addr.toNat len.toNat = true → m.role ≠ 2 → (b.rawImage v addr.toNat len.toNat).parse.modules ≤ 1 →
        Does (.jobStart c addr len 0 0 0) s (fun _ m' =>
          let r := b.jobAccept v ⟨addr.toNat, len.toNat, .pipe c.port.val c.q.val c.cid.toNat pq.serial c.notifyEnd, 0, 0, 0, 0, [[0]], c.port.val = m.hif.owner⟩
          m' = if r.1 = St.ok then fin r.2.2 r.2.1 St.ok else fin r.2.2 0 r.1)) ∧
      (m.inHost addr.toNat len.toNat = false → (b.rawImage v addr.toNat len.toNat).parse.modules ≤ 1 → Does (.jobStart c addr len 0 0 0) s (fun _ m' => m' =
          answered b c pq 0 (if 2 ^ 48 ≤ addr.toNat then St.invalidField else St.bounds))) ∧
      (slot.toNat ≤ 15 → m.job? slot.toNat = some x → x.portOf = some p →
        (p = c.port.val → x.live = true → Does (.jobCancel c slot) s (fun _ m' => m' = answered (b.jobEnd slot.toNat 7 St.ok) c pq 0 St.ok ∧
          m'.job? slot.toNat = some { x with state := 7 })) ∧
        (p ≠ c.port.val → c.port.val ≠ m.hif.owner → Does (.jobCancel c slot) s (fun _ m' => m' = answered b c pq 0 St.notOwner))) ∧
      (15 < slot.toNat → Does (.jobCancel c slot) s (fun _ m' => m' = answered b c pq 0 St.invalidField))) ∧
    (m.job? j.val = some x →
      (x.state = 2 → x.launch = some t → countReached m.spn.count t = true → Does (.launch j) s (fun m m' =>
        m' = m.setJob j.val { x with state := 3 })) ∧
      (x.image? = some i → i.aug = some a → a.source = 0 →
        let ahead := (val.toNat + 2 ^ 32 - x.augReady) % 2 ^ 32
        let far := (val.toNat + 2 ^ 32 - x.augDone) % 2 ^ 32
        (0 < ahead → ahead < 2 ^ 31 → far ≤ a.ringEpochs ∨ 2 ^ 31 ≤ far → Does (.augReady w j val) s (fun m m' =>
          m' = m.setJob j.val { x with augReady := val.toNat })) ∧
        (ahead = 0 ∨ 2 ^ 31 ≤ ahead → Does (.augReady w j val) s (fun m m' =>
          m' = m.rejected (writerSource w) (Reg.pipeJobAugReady j.val) val.toNat 3))) ∧
      (x.image? = some i → x.state = 3 → i.first ≤ epoch.toNat → epoch.toNat < i.first + i.epochs → posModule i x.modules pos = x.m →
        x.result epoch.toNat pos = none → (∀ y ∈ x.fetched, y.1 ≠ (epoch.toNat, pos)) → shardOf i (posSample i epoch.toNat pos) = some (k, sh) →
        (sh.owner ≠ x.m → x.lost.contains sh.owner = false → frameLenOk f f.length = true →
          Does (.sampleFetch j epoch pos ns (some (.frame f crc)) []) s (fun m m' => m' = match m.takeBufs (0x10 + j.val) f.length with
            | some (hs, u) => (u.fillBufs v hs f).setJob j.val { x with fetched := x.fetched ++ [((epoch.toNat, pos), ⟨hs, f.length, some crc.toNat⟩)],
                                                                        cur := { x.cur with fetches := x.cur.fetches ++ [ns] } }
            | none => m)) ∧
        (sh.owner = x.m → m.ns? sh.nsid = none → i.policy.mediaSubst = false →
          Does (.sampleFetch j epoch pos ns none []) s (fun m m' => m' = m.jobFail j.val St.mediaUnrecoverable))) ∧
      (x.live = true → Does (.jobRelease j) s (fun m m' => m' = m)) ∧
      (x.state = 5 → x.image? = some i → Does (.jobRelease j) s (fun _ m' => m'.job? j.val = none ∧ mapFind m'.ks.tables j.val = none ∧
        (∀ y ∈ m'.mem.areas, y.job ≠ j.val) ∧ (∀ y ∈ m'.jobs.chans, y.2.job ≠ j.val)))) ∧
    (let y := sliceBytes bytes 0 64
     let met := m.depMet y
     m.job? (entryJob y) = some x → x.state = 3 → m.rowsStarted x rows = true →
      (toDie = true → met = true → n.val < dieCount v → m.tl.diesOut.contains n.val = false →
        Does (.entryPlace toDie n bytes slotLen rows frees .other) s (fun m m' =>
          m' = m.placeUnit true n.val ⟨.ready, y, slotLen, .plain, [], 0, none, rows, frees, .other, [], none⟩)) ∧
      (toDie = false → n.val < clusterCount v → m.tl.diesOut.contains (n.val / 8) = false → m.ps.regionsOff.contains (n.val / 4) = false → entryHome y = n.val →
        Does (.entryPlace toDie n bytes slotLen rows frees .other) s (fun m m' =>
          m' = m.placeUnit false n.val ⟨if met then .ready else .waiting, y, slotLen, .plain, [], 0, none, rows, frees, .other, [], none⟩))) ∧
    (let l := if toDie then QLoc.die n.val pos else QLoc.cluster n.val pos
     m.entryAt l = some e → e.state = .done → e.kind = .other → e.adds = [] → e.frees = [] → e.status = St.ok → m.spn.starts = [] →
      Does (.entryCollect toDie n pos rep) s (fun m m' => m' = m.putEntry l none))

/-- Work for a batch starts while the ring has a free area. A written, due and permitted batch leaves with its
trailer, its channel digest and count advance; one not due stays; one of a forbidden kind fails the job. An
unordered record leaves and its hash is added to the digest. CODEC takes a job slot or answers the status of
its check; a decompressed item that fits is written with its result entry and the request completes.
SESSION_START opens a session; a message is run command by command; OPEN, STEP and CLOSE without a grammar
make a sequence, apply a token and drop it, stale ones are refused and an ended one repeats its result; the
oldest output frame is written. (08_jobs_shuffle_batches.md R303, R304, R305, R307;
10_compression_and_sealed_data.md R362, R363, R364, R365, R376; 11_tokeniser_and_grammar.md R402, R403, R404,
R405, R407, R409, R411) -/
def Obligations.BatchesCodecSessions : Prop :=
  ∀ (s : State) (k : Fin 68) (h : Chan) (x : Job) (i : JobImage) (bs : BatchSpec) (cs : ChanSpec) (rs : List ModRow) (t pos : Nat) (epoch : U32) (it : Item)
    (c : PipeCtx) (pq : PipeQ) (addr : U64) (j : JobSlot) (jf : Nat) (cr : CodecReq) (out cmd f : List Byte) (cl hs : List Nat) (se : SessReq) (q ref stepNo tok : U32)
    (cx : CtxSlot) (fs : List (List Byte)) (sq : SeqRec) (inbox : List (List Nat × Nat)) (len : Nat),
    let v := s.variant
    let m := s.mach
    let b := taken m c pq
    let dig := fun (y : Mach) => y.getDigest (Reg.spnChDig k.val)
    (m.chan? k.val = some h → m.job? h.job = some x → h.ordered = true → x.state = 3 →
      (h.started < h.next + h.depth → Does (.batchStart k) s (fun m m' => m' = m.setChan k.val { h with started := h.started + 1 })) ∧
      (h.next + h.depth ≤ h.started → Does (.batchStart k) s (fun m m' => m' = m)) ∧
      (x.image? = some i → x.launch = some t → i.batch = some bs → i.chans[h.index]? = some cs → h.next < h.started → m.spn.starts = [] →
        let n := h.next * x.chans.length + h.index
        let due := dueCount cs t h.next
        let ready := max (rowsTime x rs) (h.lastEmit.getD 0)
        batchRows x i bs n = .rows rs →
        (countReached m.spn.count due = false → Does (.batchEmit k) s (fun m m' => m' = m)) ∧
        (countReached m.spn.count due = true → m.mayEmit h.job cs = false → Does (.batchEmit k) s (fun m m' =>
          m' = (m.addFld Reg.secPolicyRefused 31 0 1).jobFail h.job St.policy)) ∧
        (countReached m.spn.count due = true → m.mayEmit h.job cs = true → (countReached ready due = false ∨ ready = due) → Does (.batchEmit k) s (fun m m' =>
          let body := batchBody bs i.digest h.index h.next (n * bs.rows) rs
          let d := shake256 (dig m ++ body) 32
          let whole := sliceBytes body 0 bs.trailOff ++ batchTrailer due m.spn.count St.ok d
          let y := (m.batchBoundary h.job).devWrite v (x.areas.getD h.index 0 + h.next % h.depth * bs.size) whole
          let z := ((y.putDigest (Reg.spnChDig k.val) d).addFld (Reg.spnChCount k.val) 63 0 1).setChan k.val
            { h with next := h.next + 1, lastEmit := some m.spn.count }
          m' = ((z.deliver k.val cs h.next whole).jobProgress h.job).settleDigests)))) ∧
    (m.job? j.val = some x → x.image? = some i → x.state = 3 → x.emitted.contains (epoch.toNat, pos) = false → m.spn.starts = [] →
      i.chans[pos / x.modules % (max 1 i.chans.length)]? = some cs → cs.ordered = false → m.mayEmit j.val cs = true →
      (x.lanes.flatMap (fun s => s.2.items)).find? (fun a => a.epoch = epoch.toNat && a.pos = pos) = some it →
      x.chans.getD (pos / x.modules % (max 1 i.chans.length)) 0 = k.val →
      Does (.recordEmit j epoch pos) s (fun m m' =>
        let d := leBytes 32 (ofLe (dig m) + ofLe (shake256 (recordBytes it) 32))
        let y := ((m.putDigest (Reg.spnChDig k.val) d).addFld (Reg.spnChCount k.val) 63 0 1).setJob j.val { x with emitted := x.emitted ++ [(epoch.toNat, pos)] }
        m' = ((y.deliver k.val cs (m.reg (Reg.spnChCount k.val)).toNat (recordBytes it)).jobProgress j.val).settleDigests)) ∧
    (PipeDue m c pq → (m.inHost addr.toNat 64 = false →
        let st := if 2 ^ 48 ≤ addr.toNat then St.invalidField else St.bounds
        Does (.codec c addr) s (fun _ m' => m' = answered b c pq 0 st) ∧
        Does (.sessionStart c addr) s (fun _ m' => m' = answered b c pq 0 st)) ∧
      (m.inHost addr.toNat 64 = true →
        let blk := b.devRead v addr.toNat 64
        (b.codecStatus v addr.toNat blk ≠ St.ok → Does (.codec c addr) s (fun _ m' => m' =
          let u := if b.codecStatus v addr.toNat blk = St.policy then b.addFld Reg.secPolicyRefused 31 0 1 else b
          u.pipeDone c.port.val c.q.val c.cid.toNat pq.serial 0 (b.codecStatus v addr.toNat blk))) ∧
        (b.codecStatus v addr.toNat blk = St.ok → b.freeJob = some jf → Does (.codec c addr) s (fun _ m' => m'.hif = b.hif ∧
          ∃ y : Job, m'.job? jf = some y ∧ y.kind = .codec (b.codecReq v blk) ∧ y.state = 3)) ∧
        (b.freeJob = some jf → takeClusters (b.clustersFor v jf 0 0) 0 = some cl → m.xp.keys.length < 16384 → Does (.sessionStart c addr) s (fun _ m' =>
          if b.sessionStatus v blk = St.ok then ∃ y z, m'.job? jf = some y ∧ y.state = 3 ∧ y.kind = .session z ∧ z.seqs = [] ∧ z.inBase = leAt blk 0x1C 4 ∧
            z.inQueues = leAt blk 0x18 2 ∧ m'.xp.keys.length = m.xp.keys.length + 1
          else m' = answered b c pq 0 (b.sessionStatus v blk))))) ∧
    (m.job? j.val = some x → x.state = 3 → x.kind = .codec cr → cr.items = [(pos, len)] → cr.op = 1 → cr.abhar = false →
      backed v pos len = true → bitAt (m.jobAllowed j.val) 0 = true → out.length ≤ cr.dstLen →
      unpack [] cr.format cr.acceptAbsent codecOutMax (m.devRead v pos len) = .out out →
      Does (.codecComplete j) s (fun m m' =>
        let y := (((m.addFld Reg.cmpItems 63 0 1).addFld Reg.cmpNogain 63 0 0).addFld Reg.cmpCheckFail 63 0 0).addFld Reg.cmpCheckAbsent 63 0 0
        let pad := List.replicate (min (up16 out.length - out.length) (cr.dstLen - out.length)) 0
        m' = ((y.devWrite v cr.dst (out ++ pad)).devWrite v cr.results (leBytes 2 0 ++ [0, 0] ++ leBytes 4 out.length ++ leBytes 8 0)).codecEnd
          j.val x cr 5 St.ok)) ∧
    (m.job? j.val = some x → x.state = 3 → x.kind = .session se →
      let voc := tableAt (Config.tableSet se.tables) se.vocab
      let gives := fun (u : Mach) (rf : Nat) (r : SeqResult) (keep : Bool) => (u.giveResult v j.val rf r keep).getD m
      (m.queue? q.toNat = some cx → (m.xq q.toNat).inbox = (hs, len) :: inbox → se.inBase ≤ q.toNat → q.toNat < se.inBase + se.inQueues →
        Does (.sessionMessage j q) s (fun m m' =>
          let msg := m.devRead v (m.bufAddr (hs.headD 0)) len
          let y := hs.foldl (fun y h => y.freeBuf .control cx.owner h) (m.setXq q.toNat { m.xq q.toNat with inbox := inbox })
          let good := decide (16 ≤ msg.length) && leAt msg 0 4 = 0x53444953 && 1 ≤ leAt msg 4 4 && leAt msg 4 4 ≤ 65536 && zeroAt msg 8 8
          m' = match (if good then seqCommands (leAt msg 4 4) (msg.drop 16) else none) with
            | some l => l.foldl (fun y d => y.seqCommand v j.val d) y
            | none => y.addFld Reg.grmRefused 31 0 1)) ∧
      (8 ≤ leAt (sliceBytes cmd 0 64) 1 1 → Does (.openI j cmd) s (fun m m' => m' = m.refuseOpen (sliceBytes cmd 0 64) St.invalidField)) ∧
      (let d := sliceBytes cmd 0 64
       leAt d 1 1 = 0 → leAt d 2 2 = 0xFFFF → leAt d 4 2 = 0xFFFF → leAt d 6 2 = 0 → leAt d 0x10 8 % 64 = 0 → leAt d 0x20 4 = 256 → leAt d 0x24 4 = 0 →
       leAt d 0x28 4 = 0xFFFFFFFF → zeroAt d 0x2C 20 = true →
        (se.maxSeqs ≠ 0 → se.maxSeqs ≤ se.seqs.length → Does (.openI j cmd) s (fun m m' => m' = m.refuseOpen d St.poolEmpty)) ∧
        (se.maxSeqs = 0 → Does (.openI j cmd) s (fun m m' =>
          let body := leBytes 8 (leAt d 8 8) ++ leBytes 4 0 ++ leBytes 4 65536 ++ leBytes 2 0xFFFF ++ leBytes 2 0xFFFF ++ leBytes 4 0xFFFFFFFF ++
            leBytes 2 0 ++ leBytes 2 0 ++ leBytes 4 0 ++ leBytes 4 0 ++ leBytes 4 0 ++ leBytes 8 0 ++ leBytes 8 (leAt d 0x10 8) ++ leBytes 8 (leAt d 0x18 8) ++ leBytes 4 256
          m' = match m.ctxCreate v 2 (0x10 + j.val) body with
            | none => m.refuseOpen d St.poolEmpty
            | some (rf, u) =>
              let y := u.setSess j.val { se with seqs := se.seqs ++ [⟨rf, [], [], [], none, []⟩] }
              (y.giveResult v j.val rf (.of St.ok (fUnconstrained + (if 0xFFFFFFFF < vocabTokens voc then fComplete else 0)) [] []) true).getD m))) ∧
      (se.seq? ref.toNat = none → Does (.step j ref stepNo tok) s (fun m m' => m' = m.seqStale j.val ref.toNat) ∧
        Does (.closeI j ref) s (fun m m' => m' = m.seqStale j.val ref.toNat)) ∧
      (se.seq? ref.toNat = some sq →
        let y := m.slot (refSlot ref.toNat)
        (bitAt (seqFlags y) 4 = true →
          Does (.step j ref stepNo tok) s (fun m m' => m' = m.send (.result (slotNat y 0x48 8) (slotNat y 0x40 8) sq.last)) ∧
          Does (.closeI j ref) s (fun m m' => m' = m.dropSeq v j.val sq)) ∧
        (bitAt (seqFlags y) 4 = false → Does (.closeI j ref) s (fun m m' =>
          m' = match m.finishSeq v j.val ref.toNat (.of St.ok (fEnded + fClosed) sq.held []) with
            | none => m
            | some u => match ((u.job? j.val).bind Job.sess?).bind (fun z => z.seq? ref.toNat) with
              | some z => u.dropSeq v j.val z
              | none => u)) ∧
        (bitAt (seqFlags y) 4 = false → stepNo.toNat = slotNat y 0x18 4 → slotNat y 0x20 2 = 0xFFFF → slotNat y 0x22 2 = 0xFFFF →
          tok.toNat ≠ slotNat y 0x24 4 → stepNo.toNat + 1 < slotNat y 0x1C 4 → bitAt (seqFlags y) 3 = false → seqStack y = [] →
          Does (.step j ref stepNo tok) s (fun m m' =>
            let fl := fUnconstrained + (if slotNat y 0x24 4 < vocabTokens voc then fComplete else 0)
            if tok.toNat < vocabTokens voc then
              let bytes := sq.held ++ (if tokenSpecial voc tok.toNat && !bitAt (seqFlags y) 2 then [] else tokenBytes voc tok.toNat)
              let y1 := (m.setSlot (refSlot ref.toNat) (slotPut (slotPut y 0x18 4 (stepNo.toNat + 1)) 0x34 4 0)).addFld Reg.grmSteps 63 0 1
              let z := y1.slot (refSlot ref.toNat)
              let y2 := (y1.setSlot (refSlot ref.toNat) (slotPut (slotPut (slotPut z 0x2C 4 (slotNat y 0x2C 4)) 0x31 1 0) 0x30 1 0)).setSeq j.val { sq with held := [] }
              m' = ((y2.keepOutput v j.val ref.toNat bytes).bind (fun u => u.giveResult v j.val ref.toNat (.of St.ok fl bytes []) true)).getD m
            else m' = gives m ref.toNat (.of St.invalidField fl [] []) false))) ∧
      (se.writing = f :: fs → Does (.outputFrameWrite j) s (fun m m' =>
        let lba := match m.ns? se.outNsid with | some n => n.lba | none => 0
        m' = (m.setSess j.val { se with writing := fs, done := se.done + f.length }).flashWrite ⟨.inner, se.outNsid, se.outLba * lba + se.done, f⟩)))

/-- Training starts with power while the link is down; the ready configuration space brings the link up at its
rate and moves STAGE 0x03 to 0x04; requests before it are answered with Retry Status. A link in use takes its
power state, its LTR (the smaller value) and margining commands. CC.EN enables a ready function, 0 resets the
controller and its I/O queues; CSTS.RDY follows STAGE; D3hot also resets the controller until D0. PERSTn#, a
hot reset or a surprise down takes the link down, deletes its queues, ends its live jobs and drops its access
keys. Window 4 reads plain bytes and 0xFF elsewhere, writes plain bytes alone, and counts what it refuses.
(14_host_ports_and_command_queues.md R492, R493, R496, R498; 03_startup_and_trust.md R104, R105;
16_power_states.md R577) -/
def Obligations.HostPorts : Prop :=
  ∀ (s : State) (p : Port) (speed : Fin 7) (width : Fin 9) (flit : Bool) (l : Fin 5) (a b : U32) (off : U64) (len : Nat) (d : Byte),
    let m := s.mach
    let v := s.variant
    let q := p.val
    let x := m.port q
    let st := m.fld Reg.glbBootStatus 7 0
    (m.power.pwrOk = true → x.up = false → Does (.linkTraining p) s (fun m m' => m' = m.setPort q { x with perst := false, training := true, lstate := 4 })) ∧
    (x.training = true → Does (.configSpaceReady p speed width flit) s (fun _ m' =>
      m'.port q = { x with
        training := false, up := true, cfgReady := true, lstate := 0, speed := speed.val, width := width.val, flit := flit, ltr := none,
        downSince := none } ∧
      m'.fld Reg.glbBootStatus 7 0 = (if st = 3 then 4 else st))) ∧
    Does (.configurationRequest p) s (fun m m' => m' = m.send (.config q (!x.cfgReady))) ∧
    (x.up = true →
      Does (.linkPowerStateChange p l) s (fun m m' => m' = m.setPort q { x with lstate := l.val }) ∧
      Does (.marginingCommand p) s (fun m m' => m' = m.setPort q { x with marginWait := m.hif.margining }) ∧
      Does (.ltr p a b) s (fun m m' => m' = m.setPort q { x with ltr := some (min a.toNat b.toNat) }) ∧
      Does (.d3hot p) s (fun _ m' => m'.port q = { x with d3 := true, ctl := x.ctl.off }) ∧
      (∀ c ∈ [Instr.perstAssert p, Instr.hotReset p, Instr.surpriseDown p], Does c s (fun _ m' =>
        (m'.port q).up = false ∧ (m'.port q).cfgReady = false ∧ (m'.port q).pipes = [] ∧ (m'.port q).ctl = x.ctl.off ∧ (m'.port q).lstate = 5 ∧
        (∀ k ∈ m'.xp.keys, k.owner ≠ 2 + q) ∧ (∀ (j : Nat) (y : Job), m'.job? j = some y → y.live = true → y.ofPort q = false)))) ∧
    Does (.d3hotExit p) s (fun m m' => m' = m.setPort q { x with d3 := false }) ∧
    (x.up = true → x.cfgReady = true → x.d3 = false → x.ctl.en = false → Does (.ccEn p) s (fun m m' => m' = m.setPort q { x with ctl := { x.ctl with en := true } })) ∧
    Does (.ccDisable p) s (fun _ m' => m'.port q = { x with ctl := x.ctl.off } ∧ m'.jobs = m.jobs ∧ m'.mem = m.mem) ∧
    (x.ctl.en = true → st = 7 ∨ st = 8 → Does (.cstsRdy p) s (fun m m' => m' = m.setPort q { x with ctl := { x.ctl with rdy := true } })) ∧
    (x.ctl.en = true → st < 7 → m.fld Reg.glbBootStatus 11 8 ≠ 2 → Does (.cstsRdy p) s (fun m m' => m' = m)) ∧
    (x.serves = true →
      ((∀ i : Nat, i < len → (m.win4At v (off.toNat + i)).reads = true) → Does (.win4Read p off len) s (fun m m' =>
        m' = m.send (.readData q ((List.range len).map (fun i => memByte m.mem.gddr (off.toNat + i)))))) ∧
      ((m.win4At v off.toNat).reads = false → Does (.win4Read p off 1) s (fun m m' =>
        m' = (m.send (.readData q [0xFF])).win4Refused q off.toNat (m.win4At v off.toNat = .restricted))) ∧
      (m.win4At v off.toNat = .plain → Does (.win4Write p off [d]) s (fun m m' =>
        m' = ({ m with mem := { m.mem with gddr := memPut m.mem.gddr off.toNat d } }).written off.toNat 1 ∧ memByte m'.mem.gddr off.toNat = d)) ∧
      (m.win4At v off.toNat ≠ .plain → m.win4At v off.toNat ≠ .tier → Does (.win4Write p off [d]) s (fun m m' =>
        m' = m.win4Refused q off.toNat (m.win4At v off.toNat = .restricted))))

/-- Where R573 and the idle condition allow it, an idle cluster enters PS1 and leaves it on a READY entry; a
region enters PS2 with its tile SRAM lost, and leaves it with its wake bit set and its cycle counts 0; the
package enters PS3 and then PS4, which takes the fabric links down, and leaves them again. The first refuser
is recorded and the state is not tried for 1 ms. A re-sampled source and a known event start an exit;
PWR_WAKE_AT keeps its count; a slow cluster gets its tolerance limit, which is lifted when it is not.
(16_power_states.md R570, R573, R574, R576, R577, R578, R580, R581, R582, R583, R589) -/
def Obligations.PowerStates : Prop :=
  ∀ (s : State) (c : ClusterId) (r : Fin 8) (w k : Nat) (found : Fin 16) (wr : Writer) (val : U64) (e : Nat × Nat),
    let m := s.mach
    let v := s.variant
    let st := fun (n : Nat) => m.injRefuser n = none
    let refuse := fun (n u : Nat) => (m.noteRefuser false n u w).updPs (fun p => { p with notBefore := mapSet p.notBefore k (m.spn.count + 1000000) })
    (c.val < clusterCount v → m.clockRuns c.val = true → m.ps.pkg = 0 → m.clusterIdle c.val = true →
      m.qualifies 1 1000 (entryTime 1 (m.clus c.val).current) (m.regionEvents v (c.val / 4)) = true →
      Does (.ps1Enter c) s (fun m m' => m' = (m.setClus c.val { m.clus c.val with gated := true }).addFld (Reg.pwrEntries 1) 31 0 1)) ∧
    ((m.clus c.val).gated = true → (m.nextEntry c.val).isSome = true → Does (.ps1Exit c) s (fun m m' =>
      m' = m.setClus c.val { m.clus c.val with gated := false })) ∧
    (r.val < 2 * dieCount v → m.power.pwrOk = true → m.ps.pkg = 0 → m.ps.regionsOff.contains r.val = false → m.regionIdle r.val = true →
      m.mayTry 2 r.val = true → m.qualifies 2 (50000 + 20000 * m.ps.regionsOff.length) 15000 (m.regionEvents v r.val) = true → st 2 →
      (m.refusers 2 r.val = [] → Does (.ps2Enter r none) s (fun _ m' => m'.ps = { m.ps with regionsOff := m.ps.regionsOff ++ [r.val] } ∧
        (∀ t : Nat, t / 64 = r.val → (m'.tile t).sram = []) ∧ (∀ t : Nat, t / 64 ≠ r.val → m'.tile t = m.tile t) ∧
        m'.fld (Reg.pwrEntries 2) 31 0 = (m.fld (Reg.pwrEntries 2) 31 0 + 1) % 2 ^ 32)) ∧
      ((m.refusers 2 r.val).min? = some w → k = 16 + r.val → Does (.ps2Enter r none) s (fun _ m' => m' = refuse 2 r.val))) ∧
    (m.ps.pkg = 0 → r.val ∈ m.ps.regionsOff → Does (.ps2Exit r) s (fun _ m' => m'.ps = { m.ps with regionsOff := m.ps.regionsOff.filter (fun y => y ≠ r.val) } ∧
      (∀ i : Nat, i < 4 → m'.reg (Reg.clkClCycles (r.val * 4 + i)) = 0) ∧ m'.bit Reg.pwrRegionWoke r.val = true)) ∧
    (m.power.pwrOk = true → m.ps.pkg = 0 → (∀ y ∈ regionsPresent v, y ∈ m.ps.regionsOff ∨ y / 2 ∈ m.tl.diesOut) → m.mayTry 3 0 = true →
      m.qualifies 3 300000 12000 (m.packageEvents v) = true → st 3 →
      (m.refusers 3 0 = [] → Does (.ps3Enter none) s (fun m m' =>
        m' = ({ m with ps := { m.ps with pkg := 3, waking := false } }).addFld (Reg.pwrEntries 3) 31 0 1)) ∧
      ((m.refusers 3 0).min? = some w → k = 24 → Does (.ps3Enter none) s (fun _ m' => m' = refuse 3 0))) ∧
    (m.ps.pkg = 3 → Does (.ps3Exit []) s (fun m m' => m' = ({ m with ps := { m.ps with pkg := 0, waking := false } }).psEnforce v)) ∧
    (m.ps.pkg = 3 → m.ps.waking = false → m.mayTry 4 0 = true → m.qualifies 4 5000000 2000000 (m.packageEvents v) = true → st 4 →
      (m.refusers 4 0 = [] → Does (.ps4Enter none) s (fun _ m' => m'.ps = { m.ps with pkg := 4, waking := false } ∧ m'.mem.ways = [] ∧
        (∀ q : Nat, q < fabPorts v → m'.linkUp q = false ∧ (m'.fabPort q).lowPower = true))) ∧
      ((m.refusers 4 0).min? = some w → k = 32 → Does (.ps4Enter none) s (fun _ m' => m' = refuse 4 0))) ∧
    (m.ps.pkg = 4 → Does (.ps4Exit []) s (fun _ m' => m'.ps.pkg = 0 ∧ (∀ q ∈ m'.mem.pools, q.2.enabled = true → q.2.ready = true))) ∧
    (m.ps.pkg ≠ 0 →
      (found ≠ 0 → Does (.resample found) s (fun m m' =>
        m' = ((m.addFld Reg.pwrResample 31 16 1).setFld Reg.pwrResample 3 0 found.val).updPs (fun p => { p with waking := true }))) ∧
      (firstEvent (m.packageEvents v) = some e → e.1 ≤ m.spn.count + exitLatency m.ps.pkg 0 → Does .knownEventWake s (fun m m' =>
        m' = { m with ps := { m.ps with waking := true } }))) ∧
    (val ≠ 0 → countReached m.spn.count val.toNat = false → Does (.pwrWakeAt wr val) s (fun m m' => m' = (m.setReg Reg.pwrWakeAt val).psEnforce v)) ∧
    (val ≠ 0 → countReached m.spn.count val.toNat = true → Does (.pwrWakeAt wr val) s (fun _ m' => m'.reg Reg.pwrWakeAt = 0 ∧
      m'.ps.waking = (m.ps.waking || decide (m.ps.pkg ≠ 0)))) ∧
    (c.val < clusterCount v → m.bit Reg.pwrCfg 3 = true → m.clockRuns c.val = true → 8 ≤ m.blockedTiles c.val → Does (.idleSlowLimit c) s (fun m m' =>
      m' = m.setClus c.val { m.clus c.val with lim := (m.clus c.val).lim.set 4 (some (max 400 (m.clockTarget c.val - 25 * (m.tolerance / 1000)))) })) ∧
    (c.val < clusterCount v → m.bit Reg.pwrCfg 3 = false → Does (.idleSlowLimit c) s (fun m m' =>
      m' = m.setClus c.val { m.clus c.val with lim := (m.clus c.val).lim.set 4 none }))

/-- A passed suite is counted and kept, a failed one makes the tile suspect. Three passed suites end a suspicion,
a failed one or a hard fault retires the tile while no storm is due. The end of a storm frees its tiles as
suspects; a due spare takes over; a clear lifts a derating; a band change and a clear put the derating limit
into force. Armed injections flip bits of the target word, take a lane out of lock, fail a program or refuse a
state, and a disarm ends them. A low supply is marked; a scrub reports an uncorrectable word; the tile map
moves STAGE to 0x06 and Tool rest to 0xFE. After each, the score is the present one.
(17_health_faults_event_recorder.md R596, R597, R598, R599, R600, R601, R602, R604, R605, R608;
03_startup_and_trust.md R102, R103; 07_memory_buffer_pools_contexts.md R253) -/
def Obligations.TestsAndRetirement : Prop :=
  ∀ (s : State) (r : Fin 8) (t : TileId) (res a b : SuiteResult) (c : ClusterId) (i : Injection) (sb w : Nat) (block addr : U64) (wr : Writer) (mg : Margin) (temp : U16)
    (y : SBlk),
    let m := s.mach
    let v := s.variant
    let x := m.tile t.val
    let entry := fun (z : SuiteResult) => (⟨m.spn.count, (m.clus (t.val / 16)).current, bandOf z.temp.toNat, true⟩ : SuiteRec)
    let calm := m.storm = false ∧ m.retireWindow.length < m.fld Reg.rasRetireCfg 15 8
    (res.tile = t → t.val / 64 = r.val → m.testable v t.val = true → m.armed 4 = none →
      (res.failed = none → Does (.selftestSlot r [res]) s (fun m m' => m' = ((((m.setTile t.val { x with history := entry res :: x.history }).addFld
        Reg.rasSelftests 63 0 1).setFld (Reg.tileCaliper t.val) 31 30 1).setFld (Reg.tileCaliper t.val) 29 28 2).noteScore v)) ∧
      (res.failed ≠ none → Does (.selftestSlot r [res]) s (fun _ m' => (m'.tile t.val).suspect = true))) ∧
    (m.armed 4 = some i → i.target = t.val → m.testable v t.val = true → Does (.tileFault res) s (fun _ m' => (m'.tile t.val).suspect = true)) ∧
    (x.suspect = true → x.running = false → m.armed 4 = none → x.suspicions = [] → res.failed = none → a.failed = none →
      (b.failed = none → Does (.suspectConfirmation t [res, a, b] none) s (fun _ m' => (m'.tile t.val).suspect = false ∧
        (m'.tile t.val).suspicions = [m.spn.count] ∧ (m'.tile t.val).role = x.role)) ∧
      (b.failed ≠ none → calm → Does (.suspectConfirmation t [res, a, b] none) s (fun _ m' => (m'.tile t.val).role = .retired))) ∧
    (tilePresent v t.val = true → x.role ≠ .retired → m.power.pwrOk = true → x.unit = none → calm → Does (.hardFault t) s (fun _ m' =>
      (m'.tile t.val).role = .retired ∧ (m'.tile t.val).sram = [] ∧ m.spn.count ∈ m'.ras.retireTimes)) ∧
    (m.storm = true → Does (.stormEnd true) s (fun _ m' => m'.storm = false ∧ m'.ras.quarantine = [] ∧
      (∀ k ∈ m.ras.quarantine, (m'.tile k).suspect = true ∧ (m'.tile k).role ≠ .diagnostic))) ∧
    (m.dueTiles c.val = [t.val] → (m.tile (c.val * 16 + 15)).role = .spare → Does (.spareTakeover c) s (fun m m' =>
      m' = ((m.setTile t.val { x with handoverDue := false, dutyOf := none }).setTile (c.val * 16 + 15)
        { m.tile (c.val * 16 + 15) with role := .onDuty, dutyOf := x.dutyOf }).noteScore v)) ∧
    (m.dueTiles c.val = [] → Does (.spareTakeover c) s (fun m m' => m' = m.noteScore v ∧ m'.ras.score = m.healthScore v)) ∧
    (x.derate ≠ none → Does (.rasDerateClear true t) s (fun m m' =>
      let z := m.setTile t.val { x with derate := none }
      let u : Mach := { z with ras := { z.ras with norDerated := m.ras.norDerated.filter (fun p => p.1 ≠ t.val) } }
      m' = (u.applyDerate (t.val / 16)).noteScore v)) ∧
    (c.val < clusterCount v → Does (.derateBandChange c temp) s (fun m m' =>
      m' = (({ m with ras := { m.ras with bands := mapSet m.ras.bands c.val (bandOf temp.toNat) } }).applyDerate c.val).noteScore v)) ∧
    (m.armed 1 = some i → w = i.target % 2 ^ 48 / 8 * 8 → Does .eccCe s (fun _ m' => w ∈ m'.mem.ceWords ∧ w ∉ m'.mem.badWords ∧ m'.mem.gddr = m.mem.gddr)) ∧
    (m.armed 2 = some i → w = i.target % 2 ^ 48 / 8 * 8 → Does .eccUe s (fun _ m' => w ∈ m'.mem.badWords ∧ w ∉ m'.mem.ceWords ∧ m'.mem.gddr = m.mem.gddr)) ∧
    (m.armed 3 = some i → Does .laneLoss s (fun _ m' => m'.laneOut (bitsOf i.target 8 8) (i.target % 16) = true)) ∧
    (m.armed 5 = some i → mapFind m.ftl.sbs sb = some y → y.carrier = i.target % 32 / 8 → y.die = bitsOf i.target 9 5 →
      Does (.programFail sb block) s (fun m m' => m' = (m.injected.programFail true sb block.toNat).noteScore v)) ∧
    (m.armed 6 = some i → i.target % 8 = 3 → m.power.pwrOk = true → m.ps.pkg = 0 → (∀ k ∈ regionsPresent v, k ∈ m.ps.regionsOff ∨ k / 2 ∈ m.tl.diesOut) →
      m.mayTry 3 0 = true → m.qualifies 3 300000 12000 (m.packageEvents v) = true → m.refusers 3 0 = [] → Does (.psRefuse r) s (fun m m' =>
        m' = ((m.noteRefuser false 3 0 (bitsOf i.target 7 4)).updPs (fun p => { p with notBefore := mapSet p.notBefore 24 (m.spn.count + 1000000) })).injected)) ∧
    (m.mayInject wr = true → Does (.injectionDisarm wr) s (fun _ m' => m'.ras.inj = none ∧ m'.bit Reg.rasInjCtl 31 = false ∧ m'.fld Reg.rasInjCtl 3 0 = 0)) ∧
    (m.mayInject wr = false → Does (.injectionDisarm wr) s (fun m m' => m' = m.rejected (writerSource wr) Reg.rasInjCtl 0 2)) ∧
    (mg.index < 5 → Does (.marginReading [] [] [] [mg]) s (fun _ m' => m'.reg (Reg.rasSupply mg.index) =
      BitVec.ofNat 64 ((if mg.b.val < m.fld Reg.rasMarginCfg 7 0 then 2 ^ 31 else 0) + mg.a.val * 2 ^ 12 + mg.b.val))) ∧
    (m.mem.ceWords = [] → m.ueHit v (addr.toNat / 8 * 8) 8 = none → Does (.scrubRead addr) s (fun m m' => m' = m.noteScore v)) ∧
    (m.mem.ceWords = [] → m.ueHit v (addr.toNat / 8 * 8) 8 = some w → Does (.scrubRead addr) s (fun m m' => m' = (m.eccUe v false w St.ok 0).noteScore v)) ∧
    (m.power.pwrOk = true → m.fld Reg.glbBootStatus 7 0 = 5 → m.ras.norDerated = [] →
      (m.ras.norRetired = [] → Does (.tilesReady []) s (fun m m' => m' = (m.setFld Reg.glbBootStatus 7 0 6).noteScore v)) ∧
      (m.ras.norRetired = [t.val] → Does (.tilesReady []) s (fun _ m' => (m'.tile t.val).role = .retired ∧ m'.fld Reg.glbBootStatus 7 0 = 6))) ∧
    (m.power.pwrOk = true → m.fld Reg.glbBootStatus 11 8 = 2 → m.fld Reg.glbBootStatus 7 0 = 3 → m.mem.trained = true →
      Does .toolRestReady s (fun _ m' => m'.fld Reg.glbBootStatus 7 0 = 0xFE ∧ m'.boot = { m.boot with watchdog := false }))

/-- The manager's period timer sends SYNC with its stamp and the last t4; a joined worker answers, and with t4 the
earlier exchange is evaluated: the sixteenth of a window gives SPN_OFFSET and SPN_DELAY by R419, slews an
offset up to 1,000 ns, and locks after 16 windows at 20 ns. SYNC_REPLY keeps t4 and the delay. Silence for 64
periods is HOLDOVER, a bound over UNSYNC_NS is UNSYNC. SPN_SET steps a free count. HELLO is answered with a
nonce, a nonce with certificate and report, JOIN with WELCOME or REFUSE as the report is accepted; WELCOME
starts synchronisation, REFUSE ends the attempt; a new manager node is greeted, as on a return.
(12_spindle_count_and_determinism.md R419, R420, R421, R422, R426, R428, R436, R437) -/
def Obligations.SpindleAndJoining : Prop :=
  ∀ (s : State) (node : U32) (t1 t2 t3 t4 val : U64) (e1 e2 e3 est : Nat) (x : Member) (w : Writer) (cert report nonce : List Byte) (caps fdoms : List Nat) (tol : U32) (st : U16),
    let m := s.mach
    let n := node.toNat
    let mine := m.role = 1 ∧ n = m.fld Reg.spnMgrNode 31 0
    (m.role = 2 → m.member? n = some x →
      (x.joined = true → Does (.syncPeriod node t1) s (fun m m' =>
        m' = (m.setMember n { x with t1 := some t1.toNat, t4 := none }).tell n (.sync t1.toNat x.t4))) ∧
      (x.joined = true → x.t1 = some e1 → Does (.syncReply node t2 t3 t4) s (fun m m' =>
        m' = m.setMember n { x with t1 := none, t4 := some t4.toNat, delay := (pathDelay e1 t2.toNat t3.toNat t4.toNat).toNat, heard := m.spn.count })) ∧
      (x.joined = false → m.joinedCount < 1023 → Does (.join node cert report caps fdoms false t1 t2 t3 t4) s (fun m m' =>
        m' = if m.reportAccepted cert report x.nonce then
          (m.setMember n { x with ident := shake256 (Config.certKey cert 0) 32, caps := caps, fdoms := fdoms, joined := true, heard := m.spn.count }).tell n
            (.welcome (m.fld Reg.pwrToleranceNs 31 0))
        else ((m.setMember n { x with joined := false }).tell n (.refuse St.keyDenied)).joinRefused n St.keyDenied)) ∧
      (x.joined = false → 1023 ≤ m.joinedCount → Does (.join node cert report caps fdoms false t1 t2 t3 t4) s (fun m m' =>
        m' = if m.reportAccepted cert report x.nonce then (m.tell n (.refuse St.poolEmpty)).joinRefused n St.poolEmpty
        else ((m.setMember n { x with joined := false }).tell n (.refuse St.keyDenied)).joinRefused n St.keyDenied)) ∧
      (m.spn.fresh = true → m.anyJob = false → m.joinedCount < 1023 → 1000 < (theta t1.toNat t2.toNat t3.toNat t4.toNat m.asym).natAbs →
        Does (.join node cert report caps fdoms true t1 t2 t3 t4) s (fun _ m' => m.reportAccepted cert report x.nonce = true →
          m'.spn.count = unsignedOf 64 ((m.spn.count : Int) + theta t1.toNat t2.toNat t3.toNat t4.toNat m.asym) ∧ m'.spn.fresh = false ∧
          m'.bit Reg.spnState 31 = true))) ∧
    (m.role = 2 → Does (.hello node) s (fun _ m' => ∃ (k : List Byte) (y : Member), k.length = 32 ∧ m'.member? n = some y ∧ y.nonce = k ∧ y.joined = false ∧
      m'.out = m.out ++ [.ctl n (.nonce k)])) ∧
    (mine → m.spn.phase = .joined →
      (m.spn.exch = none → Does (.sync node t1 t2 t3 (some t4) est) s (fun m m' =>
        m' = (m.tell n .syncReply).updSpn (fun y => { y with exch := some (t1.toNat, t2.toNat, t3.toNat) }))) ∧
      (m.spn.exch = some (e1, e2, e3) → m.spn.seen = 15 → m.spn.window = [] → m.spn.delays = [] → countReached e3 e2 = true → countReached t4.toNat e1 = true →
        let th := theta e1 e2 e3 t4.toNat m.asym
        let dl := pathDelay e1 e2 e3 t4.toNat
        th.natAbs ≤ 1000 → Does (.sync node t1 t2 t3 (some t4) est) s (fun _ m' => m'.out = m.out ++ [.ctl n .syncReply] ∧
          m'.reg Reg.spnOffset = BitVec.ofNat 64 (sat32 th) ∧ m'.reg Reg.spnDelay = BitVec.ofNat 64 (sat32 dl) ∧ m'.spn.slewLeft = th ∧
          m'.spn.count = m.spn.count ∧ m'.spn.accepted = m.spn.accepted + 1 ∧ m'.fld Reg.spnErr 15 0 = min est 0xFFFF ∧
          (m.sync = 1 → m'.sync = if 15 ≤ m.spn.accepted ∧ est ≤ 20 then 2 else 1)))) ∧
    (mine → m.spn.phase ≠ .out → Does (.nonce node nonce) s (fun _ m' => m'.spn.phase = (if m.spn.phase = .joined then .joined else .applied) ∧
      m'.out = m.out ++ [.ctl n (.join Config.certificate (m.attestation (capWords s.variant) (sliceBytes nonce 0 32)) (capWords s.variant)
        ((List.range 4).map (fun k => (m.reg (Reg.rasFdom k)).toNat)) m.anyJob)])) ∧
    (mine → m.spn.phase = .applied → Does (.welcome node tol) s (fun _ m' => m'.spn.phase = .joined ∧ m'.sync = 1 ∧ m'.spn.accepted = 0 ∧
      m'.fld Reg.pwrToleranceNs 31 0 = tol.toNat)) ∧
    (mine → m.spn.phase ≠ .out → Does (.refuse node st) s (fun _ m' => m'.spn.phase = .out ∧ m'.sync = 4)) ∧
    (m.role = 1 → m.fld Reg.spnMgrNode 31 0 ≠ 0 → Does .workerRejoin s (fun _ m' => m'.spn.phase = .greeted ∧
      m'.out = m.out ++ [.ctl (m.fld Reg.spnMgrNode 31 0) .hello])) ∧
    (m.role = 1 → m.anyJob = false → node ≠ 0 → Does (.spnMgrNode w node) s (fun _ m' => m'.fld Reg.spnMgrNode 31 0 = n ∧ m'.spn.phase = .greeted ∧
      m'.spn.plans = [] ∧ m'.sync = 4 ∧
      m'.out = m.out ++ (if m.spn.phase = .joined then [.ctl (m.fld Reg.spnMgrNode 31 0) .leave] else []) ++ [.ctl n .hello])) ∧
    (m.anyJob = true → Does (.spnMgrNode w node) s (fun m m' => m' = m.cfgBusy 0x110000)) ∧
    (m.sync = 2 → m.spn.lastAccept + 64 * m.fld Reg.spnCfg 23 16 * 100000 ≤ m.spn.count → Does .holdoverEnter s (fun _ m' => m'.sync = 3 ∧ m'.spn.accepted = 0)) ∧
    (m.sync = 3 → m.fld Reg.spnCfg 15 0 < m.fld Reg.spnErr 15 0 → Does .unsyncEnter s (fun _ m' => m'.sync = 4 ∧ m'.spn.accepted = 0)) ∧
    (m.role ≠ 1 → m.anyJob = false → (∀ r ∈ m.spn.starts, r.phase = .over) → Does (.spnSet w val) s (fun m m' =>
      m' = ({ m with spn := { m.spn with count := val.toNat } }).setBit Reg.spnState 31 true)) ∧
    (m.role = 1 ∨ m.anyJob = true → Does (.spnSet w val) s (fun m m' => m' = m.rejected (writerSource w) Reg.spnSet val.toNat 4))

/-- PREPARE is answered with an attestation and a staging area, or refused where no room is left. A staged image
with another digest is refused with ST_CHECK_FAIL, one with the right digest is accepted and answered READY,
or refused with its status. The last READY sends GO with the launch count of R432; a refusal or 120 s of
silence sends CANCEL and ends the start. GO fixes the launch count, CANCEL ends the job. A REPORT keeps its
statistics. LEAVE, and 1 s of silence, take a worker out, and LOST goes to every other module, which treats
its samples as media failures. (12_spindle_count_and_determinism.md R429, R430, R431, R432, R433, R435) -/
def Obligations.ManagedStarts : Prop :=
  ∀ (s : State) (node planSeq : U32) (nonce digest image : List Byte) (len idx modules l : Nat) (children : List Nat) (homes : List (List Nat)) (p : PlanRec)
    (count launch : U64) (st : U16) (r : StartRec) (a b : StartMod) (x : Member) (j : Nat) (y : Job) (stats : List Nat) (k : Nat),
    let m := s.mach
    let v := s.variant
    let n := node.toNat
    let q := planSeq.toNat
    let heard := fun (z : Mach) => z.setMember n { x with heard := m.spn.count }
    (m.role = 1 → n = m.fld Reg.spnMgrNode 31 0 → m.spn.phase = .joined → m.spn.plans = [] → Does (.prepare node planSeq nonce digest len idx modules l children homes) s (fun m m' =>
      let z := m.tell n (m.application v nonce)
      m' = match z.carveArea 0x40 len with
        | some (base, u) => u.updSpn (fun sp => { sp with plans := [⟨q, digest, len, idx, modules, l, children, homes, base⟩] })
        | none => z.tell n (.refusePlan q St.poolEmpty))) ∧
    (m.spn.plans = [p] → p.planSeq = q →
      let mgr := m.fld Reg.spnMgrNode 31 0
      let bytes := sliceBytes image 0 p.len
      let z : Mach := { m with spn := { m.spn with plans := [] } }
      (shake256 bytes 32 ≠ p.digest → Does (.imageStaged planSeq image) s (fun _ m' => m' = (z.dropArea p.area).tell mgr (.refusePlan q St.checkFail))) ∧
      (shake256 bytes 32 = p.digest → Does (.imageStaged planSeq image) s (fun _ m' =>
        let u := p.children.foldl (fun u c => u.send (.stage c q bytes)) (z.devWrite v p.area bytes)
        let acc := u.jobAccept v ⟨p.area, p.len, .manager mgr, q, 0, p.m, p.l, p.homes, true⟩
        m' = if acc.1 = St.ok then
            (let e := acc.2.2
             ({ e with mem := { e.mem with areas := e.mem.areas.map (fun (f : Area) => if f.job = 0x40 && f.base = p.area then { f with job := acc.2.1 } else f) } }).sayReady acc.2.1)
          else (acc.2.2.dropArea p.area).tell mgr (.refusePlan q acc.1)))) ∧
    (m.role = 2 → m.spn.starts = [r] → r.planSeq = q → m.member? n = some x →
      (r.phase = .preparing → r.mods = [a] → a.node = some n → a.lost = false →
        (r.asked = 0 → Does (.ready node planSeq count) s (fun _ m' =>
          let go := upMicro (count.toNat + 2 * x.delay + 1000000) % 2 ^ 64
          let z := ((heard m).updSpn (fun sp => { sp with starts := [{ r with mods := [{ a with ready := some count.toNat }], phase := .launched }] })).tell n (.go q go)
          m' = z.pipeDone r.port r.q r.cid r.serial r.result St.ok)) ∧
        (st ≠ 0 → Does (.refusePlan node planSeq st) s (fun _ m' =>
          let z := ((heard m).updSpn (fun sp => { sp with starts := [{ r with mods := [{ a with refused := some st.toNat }], phase := .over }] })).tell n (.cancel q)
          m' = z.pipeDone r.port r.q r.cid r.serial r.result st.toNat)) ∧
        (a.ready = none → a.refused = none → countReached m.spn.count (r.sentAt + 120000000000) = true → Does (.prepareTimeout planSeq) s (fun _ m' =>
          let z := (m.updSpn (fun sp => { sp with starts := [{ r with phase := .over }] })).tell n (.cancel q)
          m' = z.pipeDone r.port r.q r.cid r.serial r.result St.unitAbsent))) ∧
      (r.phase = .launched → r.mods = [a] → a.node = some n → Does (.report node planSeq stats none) s (fun _ m' =>
        m' = (heard m).updSpn (fun sp => { sp with starts := [{ r with mods := [{ a with stats := stats }] }] })) ) ∧
      (r.phase ≠ .over → r.mods = [a, b] → a.node = some n → a.lost = false → b.node = some k → k ≠ n →
        let lost := ((m.setMember n { x with joined := false }).updSpn (fun sp => { sp with starts := [{ r with mods := [{ a with lost := true }, b] }] })).tell k (.lost q 0)
        Does (.leave node) s (fun _ m' => m' = lost) ∧
        (x.joined = true → x.heard + 1000000000 ≤ m.spn.count → Does (.workerSilent node) s (fun _ m' => m' = lost)))) ∧
    (m.planJob n q = some j → m.job? j = some y →
      (y.state = 2 → y.launch = none → countReached m.spn.count launch.toNat = false → Does (.go node planSeq launch) s (fun m m' =>
        m' = m.setJob j { y with launch := some launch.toNat })) ∧
      (y.state = 2 → y.launch = none → countReached m.spn.count launch.toNat = true → Does (.go node planSeq launch) s (fun m m' =>
        m' = (m.setJob j { y with state := 3, launch := some launch.toNat }).record 0x0073 (sourceOf 9 j) St.late (payloadOf [(8, launch.toNat), (8, m.spn.count)]))) ∧
      (n = m.fld Reg.spnMgrNode 31 0 → m.spn.plans = [] → Does (.cancel node planSeq) s (fun m m' => m' = m.jobEnd j 7 St.ok)) ∧
      (y.live = true → y.lost.contains k = false → Does (.lost node planSeq k) s (fun m m' => m' = m.setJob j { y with lost := y.lost ++ [k] })))

/-- For every command c and every state s: a step of s with c at the front of its queue is exec of c on s with the
rest of the queue. (14_host_ports_and_command_queues.md R523) -/
def Obligations.QueueStep : Prop :=
  ∀ (c : Instr) (r : List Instr) (s : State), step { s with pending := c :: r } = exec c { s with pending := r }

/-- With no command waiting a step completes and leaves the queue empty (that an empty queue lets one tick of 40
ns pass is the model's choice, log entry 1). With the rails up and the count running with no slew left, the
count advances by 40 modulo 2^64; with the count stopped it keeps its value; with the rails down the machine
stays as it is. (12_spindle_count_and_determinism.md R415) -/
def Obligations.IdleStep : Prop :=
  ∀ s : State, s.pending = [] → ∃ m : Mach, step s = .next { s with mach := m } ∧
    (s.mach.power.pwrOk = true → s.mach.spn.running = true → s.mach.spn.slewLeft = 0 → m.spn.count = (s.mach.spn.count + 40) % 2 ^ 64) ∧
    (s.mach.spn.running = false → m.spn.count = s.mach.spn.count) ∧
    (s.mach.power.pwrOk = false → m = s.mach)

/-- State.reset holds what R625 lists: slot A in state CONFIRMED with count 0 and a valid image, slot B EMPTY, a
valid Tool rest image, FW_MIN_SVN and TR_MIN_SVN at 0, no vendor key revoked, an empty key store.
(03_startup_and_trust.md R625) -/
def Obligations.FactoryState : Prop :=
  ∀ b : Boot, b = State.reset.mach.boot →
    b.slotA.state = .confirmed ∧ b.slotA.count = 0 ∧ imageCheck b 1 b.slotA.image = none ∧ b.slotB.state = .empty ∧
    imageCheck b 2 b.toolRest = none ∧ b.fwMinSvn = 0 ∧ b.trMinSvn = 0 ∧ (∀ i : Nat, bitAt b.revoked i = false) ∧
    State.reset.mach.ks.keys = []

/-- At State.reset the fuses are within their bounds, every memory is in canonical form, the queue is empty, and
the module is without power (that reset is the module before its first 54 V is the model's choice, log entry
3). (03_startup_and_trust.md R93, R625) -/
def Obligations.InvariantsAtReset : Prop :=
  FuseBounds State.reset.mach.boot ∧ MemoriesWf State.reset.mach ∧ State.reset.pending = [] ∧ State.reset.mach.power.pwrOk = false

/-- For every state and every step, whatever command it runs: FW_MIN_SVN and TR_MIN_SVN do not fall, a revoked
vendor key stays revoked, and where the fuses were within 64, 16 and four bits they still are.
(03_startup_and_trust.md R93, R102) -/
def Obligations.FusesNeverFall : Prop :=
  ∀ s t : State, StepsTo s t → FusesKept s t ∧ (FuseBounds s.mach.boot → FuseBounds t.mach.boot)

/-- For every state and every step, whatever command it runs: if device memory, every tile's SRAM and every
cluster's SRAM are in canonical form before the step, they are after it. So two memories that read alike are
equal. (01_architecture.md R44, R45) -/
def Obligations.MemoriesKept : Prop :=
  ∀ s t : State, StepsTo s t → MemoriesWf s.mach → MemoriesWf t.mach

/-- CAP_ID, CAP_COMPUTE, CAP_MEMORY, CAP_NAND and CAP_PORTS read the factory configuration in every state, and
after every step they read as before, whatever tile is retired or spare is used. (00_scope.md R8) -/
def Obligations.CapabilitiesConstant : Prop :=
  ∀ s t : State, StepsTo s t → ∀ k : Nat, k < 5 →
    regRead s.variant s.mach (Reg.capId + 4 * k) = BitVec.ofNat 64 ((capWords s.variant).getD k 0) ∧
    regRead t.variant t.mach (Reg.capId + 4 * k) = regRead s.variant s.mach (Reg.capId + 4 * k)

/-- No command stops the machine: exec answers a next state for every command in every state, with the order
number and the queue as they were. So from every state some number of steps leads to a state with an empty
queue and the same order number. (14_host_ports_and_command_queues.md R523) -/
def Obligations.QueueDrains : Prop :=
  (∀ (c : Instr) (s : State), ∃ m : Mach, exec c s = .next { s with mach := m }) ∧
    (∀ s : State, ∃ t : State, Reaches s t ∧ t.pending = [] ∧ t.variant = s.variant)

/-- For every job of N samples (1 to 2^48) and every epoch, pi maps positions 0 to N-1 into samples 0 to N-1 and
no two positions to one sample, with SHUFFLE FULL, BLOCKED or NONE; and a reserve sample lies below N.
(08_jobs_shuffle_batches.md R285 to R288) -/
def Obligations.ShufflePermutes : Prop :=
  ∀ (i : JobImage) (epoch : Nat), 1 ≤ i.n → i.n ≤ 2 ^ 48 → i.shuffle ≤ 2 →
    (∀ p : Nat, p < i.n → sampleAt i epoch p < i.n) ∧
    (∀ p q : Nat, p < i.n → q < i.n → sampleAt i epoch p = sampleAt i epoch q → p = q) ∧
    (∀ j : Nat, reserveAt i epoch j < i.n)

/-- When a record decodes, its frame carries the CRC of its index entry, which is the CRC-32C of header and body,
and is encrypted just when its shard is. An image is at most MAX_OUT bytes. A tensor has a defined element
type, no zero dimension, at most 2^28 elements and exactly their bytes. A text is well-formed UTF-8, at most
MAX_OUT bytes; where nothing is replaced or stripped it is the payload. A CBOR table is at most MAX_OUT bytes.
A frame whose stored CRC is not that of its index entry is content-corrupt by a check.
(09_decode_augment_cache.md R317, R318, R320, R321, R323, R330, R331) -/
def Obligations.RecordsDecodeWithinLimits : Prop :=
  ∀ (r : RecordIn),
    let n := leAt r.frame 4 4
    (∀ d : Decoded, processRecord r = .decoded d →
      leAt r.frame (12 + n) 4 = r.crc ∧ (crc32c (r.frame.take (12 + n))).toNat = r.crc ∧ bitAt (leAt r.frame 9 1) 3 = r.enc ∧
      (match d with
        | .image i => i.h * i.w * i.c * (if i.wide then 2 else 1) ≤ optOut r.opts
        | .tensor e sh data => e ≤ 0xA ∧ 0 ∉ sh ∧ sh.prod ≤ 2 ^ 28 ∧ data.length = sh.prod * (cvtWidth e / 8) ∧ data.length ≤ optOut r.opts
        | .text b => b.length ≤ optOut r.opts ∧ (utf8Units (b.length + 1) b).all (fun u => u.1) = true
        | .cbor t => t.length ≤ optOut r.opts)) ∧
    (leAt r.frame (12 + n) 4 ≠ r.crc → processRecord r = .corrupt true) ∧
    (∀ l : List Byte, (utf8Units (l.length + 1) l).all (fun u => u.1) = true → textKernel false false l = some l) ∧
    (∀ l : List Byte, (utf8Units (l.length + 1) l).all (fun u => u.1) = false → textKernel false false l = none)

/-- With tables whose byte map names each single byte, whose merges join the bytes of their two tokens, and
options without specials table, NFC table and BOS, the concatenated bytes of the token sequence of any text
are that text byte for byte. (11_tokeniser_and_grammar.md R381, R382, R384, R385, R389, R391) -/
def Obligations.DetokeniseGivesBack : Prop :=
  ∀ (ts : List (List Byte)) (o text : List Byte),
    let voc := tokVocab ts o
    (∀ b : Byte, tokenBytes voc (byteToken voc b) = [b]) →
    (∀ a b r : Nat, mergeRank (tokMerges ts o) a b = some r → tokenBytes voc (mergedToken (tokMerges ts o) r) = tokenBytes voc a ++ tokenBytes voc b) →
    leAt o 4 2 = 0xFFFF → leAt o 6 2 = 0xFFFF → leAt o 8 4 = 0xFFFFFFFF →
    (tokenise ts o text).flatMap (tokenBytes voc) = text
end

