-- ==== Sys2Proof/Laws/Maps.lean ====
section
/-!
SUPPORT. What the sparse maps and the memories of bytes do: a read after a write, and the canonical form kept by every
memory operation.
-/
namespace Sys2Proof

variable {α : Type}

theorem mapGet_of_keys_ne (d : Nat → α) (m : SMap α) (k : Nat) (h : ∀ p ∈ m, p.1 ≠ k) : mapGet d m k = d k := by
  induction m with
  | nil => rfl
  | cons p r ih =>
    obtain ⟨k', v⟩ := p
    simp only [mapGet]
    rw [if_neg (h (k', v) (by simp))]
    exact ih (fun q hq => h q (by simp [hq]))

theorem mapGet_erase_same (d : Nat → α) (m : SMap α) (k : Nat) : mapGet d (mapErase m k) k = d k :=
  mapGet_of_keys_ne d _ k (fun p hp => by simpa [mapErase] using (List.mem_filter.mp hp).2)

theorem mapGet_erase_other (d : Nat → α) (m : SMap α) {k j : Nat} (h : j ≠ k) :
    mapGet d (mapErase m k) j = mapGet d m j := by
  induction m with
  | nil => rfl
  | cons p r ih =>
    obtain ⟨k', v⟩ := p
    simp only [mapErase, List.filter_cons] at ih ⊢
    by_cases hk : k' = k
    · subst hk
      rw [if_neg (by simp), ih, mapGet, if_neg (Ne.symm h)]
    · rw [if_pos (by simpa using hk), mapGet, mapGet, ih]

theorem mapGet_insert_same (d : Nat → α) (m : SMap α) (k : Nat) (v : α) (h : ∀ p ∈ m, p.1 ≠ k) :
    mapGet d (mapInsert m k v) k = v := by
  induction m with
  | nil => simp [mapInsert, mapGet]
  | cons p r ih =>
    obtain ⟨k', v'⟩ := p
    simp only [mapInsert]
    split
    · simp [mapGet]
    · rw [mapGet, if_neg (h (k', v') (by simp))]
      exact ih (fun q hq => h q (by simp [hq]))

theorem mapGet_insert_other (d : Nat → α) (m : SMap α) {k j : Nat} (v : α) (h : j ≠ k) :
    mapGet d (mapInsert m k v) j = mapGet d m j := by
  induction m with
  | nil => simp [mapInsert, mapGet, Ne.symm h]
  | cons p r ih =>
    obtain ⟨k', v'⟩ := p
    simp only [mapInsert]
    split
    · simp [mapGet, Ne.symm h]
    · simp [mapGet, ih]

theorem mapErase_keys_ne (m : SMap α) (k : Nat) : ∀ p ∈ mapErase m k, p.1 ≠ k :=
  fun p hp => by simpa [mapErase] using (List.mem_filter.mp hp).2

/-- A read of the key that was written gives what was written. -/
@[simp] theorem mapGet_set_same (d : Nat → α) (m : SMap α) (k : Nat) (v : α) : mapGet d (mapSet m k v) k = v :=
  mapGet_insert_same d _ k v (mapErase_keys_ne m k)

/-- A write leaves every other key alone. -/
theorem mapGet_set_other (d : Nat → α) (m : SMap α) {k j : Nat} (v : α) (h : j ≠ k) :
    mapGet d (mapSet m k v) j = mapGet d m j := by
  rw [mapSet, mapGet_insert_other d _ v h, mapGet_erase_other d m h]

/-- What any key reads after a write. -/
theorem mapGet_set (d : Nat → α) (m : SMap α) (k j : Nat) (v : α) :
    mapGet d (mapSet m k v) j = if j = k then v else mapGet d m j := by
  by_cases h : j = k
  · subst h; simp
  · simp [h, mapGet_set_other d m v h]

theorem mapFind_eq_mapGet (m : SMap α) (k : Nat) :
    mapFind m k = mapGet (fun _ => none) (m.map (fun p => (p.1, some p.2))) k := by
  induction m with
  | nil => rfl
  | cons p r ih => obtain ⟨k', v⟩ := p; simp [mapFind, mapGet, ih]

theorem map_insert (m : SMap α) (k : Nat) (v : α) :
    (mapInsert m k v).map (fun p => (p.1, some p.2)) = mapInsert (m.map (fun p => (p.1, some p.2))) k (some v) := by
  induction m with
  | nil => rfl
  | cons p r ih =>
    obtain ⟨k', v'⟩ := p
    simp only [mapInsert, List.map_cons]
    split <;> simp [ih]

theorem map_erase (m : SMap α) (k : Nat) :
    (mapErase m k).map (fun p => (p.1, some p.2)) = mapErase (m.map (fun p => (p.1, some p.2))) k := by
  simp only [mapErase, List.filter_map]; rfl

/-- What the search for any key finds after a write. -/
theorem mapFind_set (m : SMap α) (k j : Nat) (v : α) :
    mapFind (mapSet m k v) j = if j = k then some v else mapFind m j := by
  rw [mapFind_eq_mapGet, mapFind_eq_mapGet, mapSet, map_insert, map_erase]
  exact mapGet_set _ _ k j (some v)

@[simp] theorem mapFind_set_same (m : SMap α) (k : Nat) (v : α) : mapFind (mapSet m k v) k = some v := by
  rw [mapFind_set, if_pos rfl]

theorem mapFind_erase (m : SMap α) (k j : Nat) :
    mapFind (mapErase m k) j = if j = k then none else mapFind m j := by
  rw [mapFind_eq_mapGet, mapFind_eq_mapGet, map_erase]
  by_cases h : j = k
  · subst h; rw [if_pos rfl]; exact mapGet_erase_same _ _ _
  · rw [if_neg h]; exact mapGet_erase_other _ _ h

/-! ### Order of keys -/

theorem mem_mapInsert (m : SMap α) (k : Nat) (v : α) (p : Nat × α) :
    p ∈ mapInsert m k v ↔ p = (k, v) ∨ p ∈ m := by
  induction m with
  | nil => simp [mapInsert]
  | cons q r ih =>
    obtain ⟨k', v'⟩ := q
    simp only [mapInsert]
    split
    · simp
    · simp only [List.mem_cons, ih]; tauto

theorem mapSorted_iff (m : SMap α) : mapSorted m = true ↔ m.Pairwise (fun a b => a.1 < b.1) := by
  simp [mapSorted]

theorem mapSorted_erase (m : SMap α) (k : Nat) (h : mapSorted m = true) : mapSorted (mapErase m k) = true := by
  rw [mapSorted_iff] at *
  exact h.filter _

theorem mapSorted_insert (m : SMap α) (k : Nat) (v : α) (h : mapSorted m = true) (hk : ∀ p ∈ m, p.1 ≠ k) :
    mapSorted (mapInsert m k v) = true := by
  rw [mapSorted_iff] at *
  induction m with
  | nil => simp [mapInsert]
  | cons q r ih =>
    obtain ⟨k', v'⟩ := q
    rw [List.pairwise_cons] at h
    simp only [mapInsert]
    split
    · rename_i hlt
      refine List.pairwise_cons.mpr ⟨fun p hp => ?_, List.pairwise_cons.mpr h⟩
      rcases List.mem_cons.mp hp with rfl | hp
      · exact hlt
      · exact Nat.lt_trans hlt (h.1 p hp)
    · rename_i hge
      refine List.pairwise_cons.mpr ⟨fun p hp => ?_, ih h.2 (fun p hp => hk p (by simp [hp]))⟩
      rcases (mem_mapInsert r k v p).mp hp with rfl | hp
      · have := hk (k', v') (by simp)
        simp only at this ⊢; omega
      · exact h.1 p hp

theorem mapSorted_set (m : SMap α) (k : Nat) (v : α) (h : mapSorted m = true) : mapSorted (mapSet m k v) = true :=
  mapSorted_insert _ k v (mapSorted_erase m k h) (mapErase_keys_ne m k)

/-- The second of two writes of a key stands. -/
theorem mapSet_set (m : SMap α) (k : Nat) (v w : α) : mapSet (mapSet m k v) k w = mapSet m k w := by
  have h : mapErase (mapInsert (mapErase m k) k v) k = mapErase m k := by
    have hn := mapErase_keys_ne m k
    generalize mapErase m k = l at *
    induction l with
    | nil => simp [mapInsert, mapErase]
    | cons q r ih =>
      obtain ⟨k', v'⟩ := q
      have hk : k' ≠ k := hn (k', v') (by simp)
      have hr : mapErase r k = r := by
        rw [mapErase, List.filter_eq_self]
        exact fun p hp => by simpa using hn p (by simp [hp])
      simp only [mapInsert]
      split
      · simp [mapErase, hk] at hr ⊢
        exact hr
      · have := ih (fun p hp => hn p (by simp [hp]))
        simp [mapErase, hk] at this ⊢
        exact this
  unfold mapSet
  rw [h]

/-! ### Memories -/

/-- A byte reads as what was written, and every other byte as before. -/
theorem memByte_put (m : Memory) (a j : Nat) (b : Byte) :
    memByte (memPut m a b) j = if j = a then b else memByte m j := by
  unfold memByte memPut
  split
  · rename_i hb
    by_cases h : j = a
    · subst h; rw [if_pos rfl, mapGet_erase_same, hb]; rfl
    · rw [if_neg h, mapGet_erase_other _ _ h]
  · exact mapGet_set _ m a j b

/-- Bytes read as what was written to them, and every byte outside as before. -/
theorem memByte_write (m : Memory) (a j : Nat) (bs : List Byte) :
    memByte (memWrite m a bs) j =
      if a ≤ j ∧ j < a + bs.length then bs.getD (j - a) 0 else memByte m j := by
  induction bs generalizing m a with
  | nil => rw [memWrite, if_neg (by simp only [List.length_nil]; omega)]
  | cons b r ih =>
    rw [memWrite, ih, memByte_put]
    simp only [List.length_cons]
    by_cases h1 : j = a
    · subst h1
      rw [if_neg (by omega), if_pos rfl, if_pos (by omega)]; simp
    · by_cases h2 : a + 1 ≤ j ∧ j < a + 1 + r.length
      · rw [if_pos h2, if_pos (by omega)]
        obtain ⟨n, rfl⟩ : ∃ n, j = a + 1 + n := ⟨j - (a + 1), by omega⟩
        have : a + 1 + n - a = n + 1 := by omega
        simp [this]
      · rw [if_neg h2, if_neg h1, if_neg (by omega)]

theorem memByte_zero (m : Memory) (a n j : Nat) :
    memByte (memZero m a n) j = if a ≤ j ∧ j < a + n then 0 else memByte m j := by
  unfold memByte memZero
  induction m with
  | nil => simp [mapGet, memDefault]
  | cons p r ih =>
    obtain ⟨k, v⟩ := p
    simp only [List.filter_cons]
    by_cases hk : a ≤ k ∧ k < a + n
    · simp only [hk, and_self, not_true, decide_false, Bool.false_eq_true, if_false, ih, mapGet]
      by_cases hj : a ≤ j ∧ j < a + n
      · simp [hj]
      · rw [if_neg hj, if_neg hj, if_neg (by rintro rfl; exact hj hk)]
    · simp only [hk, not_false_iff, decide_true, if_true, mapGet, ih]
      by_cases hj : a ≤ j ∧ j < a + n
      · rw [if_pos hj, if_pos hj, if_neg (by rintro rfl; exact hk hj)]
      · by_cases h : k = j <;> simp [h, hj]

theorem Memory.wf_iff (m : Memory) : Memory.wf m = true ↔ mapSorted m = true ∧ ∀ p ∈ m, p.2 ≠ 0 := by
  simp [Memory.wf]

/-- The empty memory is canonical. -/
@[simp] theorem Memory.wf_nil : Memory.wf ([] : Memory) = true := rfl

/-- Dropping cells keeps the canonical form. -/
theorem Memory.wf_filter (m : Memory) (f : Nat × Byte → Bool) (h : Memory.wf m = true) :
    Memory.wf (m.filter f : Memory) = true := by
  rw [Memory.wf_iff, mapSorted_iff] at *
  exact ⟨h.1.filter _, fun p hp => h.2 p (List.mem_filter.mp hp).1⟩

/-- Writing a byte keeps the canonical form. -/
theorem Memory.wf_put (m : Memory) (a : Nat) (b : Byte) (h : Memory.wf m = true) : Memory.wf (memPut m a b) = true := by
  unfold memPut
  split
  · exact Memory.wf_filter m _ h
  · rename_i hb
    rw [Memory.wf_iff] at *
    refine ⟨mapSorted_set m a b h.1, fun p hp => ?_⟩
    rcases (mem_mapInsert _ a b p).mp hp with rfl | hp
    · exact hb
    · exact h.2 p (List.mem_filter.mp hp).1

/-- Writing bytes keeps the canonical form. -/
theorem Memory.wf_write (m : Memory) (a : Nat) (bs : List Byte) (h : Memory.wf m = true) :
    Memory.wf (memWrite m a bs) = true := by
  induction bs generalizing m a with
  | nil => exact h
  | cons b r ih => exact ih _ _ (Memory.wf_put m a b h)

/-- Clearing a range keeps the canonical form. -/
theorem Memory.wf_zero (m : Memory) (a n : Nat) (h : Memory.wf m = true) : Memory.wf (memZero m a n) = true :=
  Memory.wf_filter m _ h

end Sys2Proof
end

