-- ==== Sys2Proof/Laws/State.lean ====
section
/-!
SUPPORT. What each small update of the machine leaves alone: one lemma per update and per part of Mach that it does not
touch, so that no later proof unfolds a record update.
-/
namespace Sys2Proof.Machine


/-! ### setReg -/

@[simp] theorem Mach.setReg_evr (m : Mach) (off : Nat) (x : U64) : (m.setReg off x).evr = m.evr := rfl
@[simp] theorem Mach.setReg_power (m : Mach) (off : Nat) (x : U64) : (m.setReg off x).power = m.power := rfl
@[simp] theorem Mach.setReg_boot (m : Mach) (off : Nat) (x : U64) : (m.setReg off x).boot = m.boot := rfl
@[simp] theorem Mach.setReg_spn (m : Mach) (off : Nat) (x : U64) : (m.setReg off x).spn = m.spn := rfl
@[simp] theorem Mach.setReg_tl (m : Mach) (off : Nat) (x : U64) : (m.setReg off x).tl = m.tl := rfl
@[simp] theorem Mach.setReg_mem (m : Mach) (off : Nat) (x : U64) : (m.setReg off x).mem = m.mem := rfl
@[simp] theorem Mach.setReg_jobs (m : Mach) (off : Nat) (x : U64) : (m.setReg off x).jobs = m.jobs := rfl
@[simp] theorem Mach.setReg_ras (m : Mach) (off : Nat) (x : U64) : (m.setReg off x).ras = m.ras := rfl
@[simp] theorem Mach.setReg_ps (m : Mach) (off : Nat) (x : U64) : (m.setReg off x).ps = m.ps := rfl
@[simp] theorem Mach.setReg_ks (m : Mach) (off : Nat) (x : U64) : (m.setReg off x).ks = m.ks := rfl
@[simp] theorem Mach.setReg_ftl (m : Mach) (off : Nat) (x : U64) : (m.setReg off x).ftl = m.ftl := rfl
@[simp] theorem Mach.setReg_hif (m : Mach) (off : Nat) (x : U64) : (m.setReg off x).hif = m.hif := rfl
@[simp] theorem Mach.setReg_xp (m : Mach) (off : Nat) (x : U64) : (m.setReg off x).xp = m.xp := rfl
@[simp] theorem Mach.setReg_out (m : Mach) (off : Nat) (x : U64) : (m.setReg off x).out = m.out := rfl
@[simp] theorem Mach.setReg_draws (m : Mach) (off : Nat) (x : U64) : (m.setReg off x).draws = m.draws := rfl

/-! ### setFld -/

@[simp] theorem Mach.setFld_evr (m : Mach) (off hi lo x : Nat) : (m.setFld off hi lo x).evr = m.evr := rfl
@[simp] theorem Mach.setFld_power (m : Mach) (off hi lo x : Nat) : (m.setFld off hi lo x).power = m.power := rfl
@[simp] theorem Mach.setFld_boot (m : Mach) (off hi lo x : Nat) : (m.setFld off hi lo x).boot = m.boot := rfl
@[simp] theorem Mach.setFld_spn (m : Mach) (off hi lo x : Nat) : (m.setFld off hi lo x).spn = m.spn := rfl
@[simp] theorem Mach.setFld_tl (m : Mach) (off hi lo x : Nat) : (m.setFld off hi lo x).tl = m.tl := rfl
@[simp] theorem Mach.setFld_mem (m : Mach) (off hi lo x : Nat) : (m.setFld off hi lo x).mem = m.mem := rfl
@[simp] theorem Mach.setFld_jobs (m : Mach) (off hi lo x : Nat) : (m.setFld off hi lo x).jobs = m.jobs := rfl
@[simp] theorem Mach.setFld_ras (m : Mach) (off hi lo x : Nat) : (m.setFld off hi lo x).ras = m.ras := rfl
@[simp] theorem Mach.setFld_ps (m : Mach) (off hi lo x : Nat) : (m.setFld off hi lo x).ps = m.ps := rfl
@[simp] theorem Mach.setFld_ks (m : Mach) (off hi lo x : Nat) : (m.setFld off hi lo x).ks = m.ks := rfl
@[simp] theorem Mach.setFld_ftl (m : Mach) (off hi lo x : Nat) : (m.setFld off hi lo x).ftl = m.ftl := rfl
@[simp] theorem Mach.setFld_hif (m : Mach) (off hi lo x : Nat) : (m.setFld off hi lo x).hif = m.hif := rfl
@[simp] theorem Mach.setFld_xp (m : Mach) (off hi lo x : Nat) : (m.setFld off hi lo x).xp = m.xp := rfl
@[simp] theorem Mach.setFld_out (m : Mach) (off hi lo x : Nat) : (m.setFld off hi lo x).out = m.out := rfl
@[simp] theorem Mach.setFld_draws (m : Mach) (off hi lo x : Nat) : (m.setFld off hi lo x).draws = m.draws := rfl

/-! ### setBit -/

@[simp] theorem Mach.setBit_evr (m : Mach) (off i : Nat) (b : Bool) : (m.setBit off i b).evr = m.evr := rfl
@[simp] theorem Mach.setBit_power (m : Mach) (off i : Nat) (b : Bool) : (m.setBit off i b).power = m.power := rfl
@[simp] theorem Mach.setBit_boot (m : Mach) (off i : Nat) (b : Bool) : (m.setBit off i b).boot = m.boot := rfl
@[simp] theorem Mach.setBit_spn (m : Mach) (off i : Nat) (b : Bool) : (m.setBit off i b).spn = m.spn := rfl
@[simp] theorem Mach.setBit_tl (m : Mach) (off i : Nat) (b : Bool) : (m.setBit off i b).tl = m.tl := rfl
@[simp] theorem Mach.setBit_mem (m : Mach) (off i : Nat) (b : Bool) : (m.setBit off i b).mem = m.mem := rfl
@[simp] theorem Mach.setBit_jobs (m : Mach) (off i : Nat) (b : Bool) : (m.setBit off i b).jobs = m.jobs := rfl
@[simp] theorem Mach.setBit_ras (m : Mach) (off i : Nat) (b : Bool) : (m.setBit off i b).ras = m.ras := rfl
@[simp] theorem Mach.setBit_ps (m : Mach) (off i : Nat) (b : Bool) : (m.setBit off i b).ps = m.ps := rfl
@[simp] theorem Mach.setBit_ks (m : Mach) (off i : Nat) (b : Bool) : (m.setBit off i b).ks = m.ks := rfl
@[simp] theorem Mach.setBit_ftl (m : Mach) (off i : Nat) (b : Bool) : (m.setBit off i b).ftl = m.ftl := rfl
@[simp] theorem Mach.setBit_hif (m : Mach) (off i : Nat) (b : Bool) : (m.setBit off i b).hif = m.hif := rfl
@[simp] theorem Mach.setBit_xp (m : Mach) (off i : Nat) (b : Bool) : (m.setBit off i b).xp = m.xp := rfl
@[simp] theorem Mach.setBit_out (m : Mach) (off i : Nat) (b : Bool) : (m.setBit off i b).out = m.out := rfl
@[simp] theorem Mach.setBit_draws (m : Mach) (off i : Nat) (b : Bool) : (m.setBit off i b).draws = m.draws := rfl

/-! ### addFld -/

@[simp] theorem Mach.addFld_evr (m : Mach) (off hi lo n : Nat) : (m.addFld off hi lo n).evr = m.evr := rfl
@[simp] theorem Mach.addFld_power (m : Mach) (off hi lo n : Nat) : (m.addFld off hi lo n).power = m.power := rfl
@[simp] theorem Mach.addFld_boot (m : Mach) (off hi lo n : Nat) : (m.addFld off hi lo n).boot = m.boot := rfl
@[simp] theorem Mach.addFld_spn (m : Mach) (off hi lo n : Nat) : (m.addFld off hi lo n).spn = m.spn := rfl
@[simp] theorem Mach.addFld_tl (m : Mach) (off hi lo n : Nat) : (m.addFld off hi lo n).tl = m.tl := rfl
@[simp] theorem Mach.addFld_mem (m : Mach) (off hi lo n : Nat) : (m.addFld off hi lo n).mem = m.mem := rfl
@[simp] theorem Mach.addFld_jobs (m : Mach) (off hi lo n : Nat) : (m.addFld off hi lo n).jobs = m.jobs := rfl
@[simp] theorem Mach.addFld_ras (m : Mach) (off hi lo n : Nat) : (m.addFld off hi lo n).ras = m.ras := rfl
@[simp] theorem Mach.addFld_ps (m : Mach) (off hi lo n : Nat) : (m.addFld off hi lo n).ps = m.ps := rfl
@[simp] theorem Mach.addFld_ks (m : Mach) (off hi lo n : Nat) : (m.addFld off hi lo n).ks = m.ks := rfl
@[simp] theorem Mach.addFld_ftl (m : Mach) (off hi lo n : Nat) : (m.addFld off hi lo n).ftl = m.ftl := rfl
@[simp] theorem Mach.addFld_hif (m : Mach) (off hi lo n : Nat) : (m.addFld off hi lo n).hif = m.hif := rfl
@[simp] theorem Mach.addFld_xp (m : Mach) (off hi lo n : Nat) : (m.addFld off hi lo n).xp = m.xp := rfl
@[simp] theorem Mach.addFld_out (m : Mach) (off hi lo n : Nat) : (m.addFld off hi lo n).out = m.out := rfl
@[simp] theorem Mach.addFld_draws (m : Mach) (off hi lo n : Nat) : (m.addFld off hi lo n).draws = m.draws := rfl

/-! ### satFld -/

@[simp] theorem Mach.satFld_evr (m : Mach) (off hi lo n : Nat) : (m.satFld off hi lo n).evr = m.evr := rfl
@[simp] theorem Mach.satFld_power (m : Mach) (off hi lo n : Nat) : (m.satFld off hi lo n).power = m.power := rfl
@[simp] theorem Mach.satFld_boot (m : Mach) (off hi lo n : Nat) : (m.satFld off hi lo n).boot = m.boot := rfl
@[simp] theorem Mach.satFld_spn (m : Mach) (off hi lo n : Nat) : (m.satFld off hi lo n).spn = m.spn := rfl
@[simp] theorem Mach.satFld_tl (m : Mach) (off hi lo n : Nat) : (m.satFld off hi lo n).tl = m.tl := rfl
@[simp] theorem Mach.satFld_mem (m : Mach) (off hi lo n : Nat) : (m.satFld off hi lo n).mem = m.mem := rfl
@[simp] theorem Mach.satFld_jobs (m : Mach) (off hi lo n : Nat) : (m.satFld off hi lo n).jobs = m.jobs := rfl
@[simp] theorem Mach.satFld_ras (m : Mach) (off hi lo n : Nat) : (m.satFld off hi lo n).ras = m.ras := rfl
@[simp] theorem Mach.satFld_ps (m : Mach) (off hi lo n : Nat) : (m.satFld off hi lo n).ps = m.ps := rfl
@[simp] theorem Mach.satFld_ks (m : Mach) (off hi lo n : Nat) : (m.satFld off hi lo n).ks = m.ks := rfl
@[simp] theorem Mach.satFld_ftl (m : Mach) (off hi lo n : Nat) : (m.satFld off hi lo n).ftl = m.ftl := rfl
@[simp] theorem Mach.satFld_hif (m : Mach) (off hi lo n : Nat) : (m.satFld off hi lo n).hif = m.hif := rfl
@[simp] theorem Mach.satFld_xp (m : Mach) (off hi lo n : Nat) : (m.satFld off hi lo n).xp = m.xp := rfl
@[simp] theorem Mach.satFld_out (m : Mach) (off hi lo n : Nat) : (m.satFld off hi lo n).out = m.out := rfl
@[simp] theorem Mach.satFld_draws (m : Mach) (off hi lo n : Nat) : (m.satFld off hi lo n).draws = m.draws := rfl

/-! ### send -/

@[simp] theorem Mach.send_regs (m : Mach) (o : Out) : (m.send o).regs = m.regs := rfl
@[simp] theorem Mach.send_evr (m : Mach) (o : Out) : (m.send o).evr = m.evr := rfl
@[simp] theorem Mach.send_power (m : Mach) (o : Out) : (m.send o).power = m.power := rfl
@[simp] theorem Mach.send_boot (m : Mach) (o : Out) : (m.send o).boot = m.boot := rfl
@[simp] theorem Mach.send_spn (m : Mach) (o : Out) : (m.send o).spn = m.spn := rfl
@[simp] theorem Mach.send_tl (m : Mach) (o : Out) : (m.send o).tl = m.tl := rfl
@[simp] theorem Mach.send_mem (m : Mach) (o : Out) : (m.send o).mem = m.mem := rfl
@[simp] theorem Mach.send_jobs (m : Mach) (o : Out) : (m.send o).jobs = m.jobs := rfl
@[simp] theorem Mach.send_ras (m : Mach) (o : Out) : (m.send o).ras = m.ras := rfl
@[simp] theorem Mach.send_ps (m : Mach) (o : Out) : (m.send o).ps = m.ps := rfl
@[simp] theorem Mach.send_ks (m : Mach) (o : Out) : (m.send o).ks = m.ks := rfl
@[simp] theorem Mach.send_ftl (m : Mach) (o : Out) : (m.send o).ftl = m.ftl := rfl
@[simp] theorem Mach.send_hif (m : Mach) (o : Out) : (m.send o).hif = m.hif := rfl
@[simp] theorem Mach.send_xp (m : Mach) (o : Out) : (m.send o).xp = m.xp := rfl
@[simp] theorem Mach.send_draws (m : Mach) (o : Out) : (m.send o).draws = m.draws := rfl

/-! ### draw -/

@[simp] theorem Mach.draw_regs (m : Mach) : (m.draw).regs = m.regs := rfl
@[simp] theorem Mach.draw_evr (m : Mach) : (m.draw).evr = m.evr := rfl
@[simp] theorem Mach.draw_power (m : Mach) : (m.draw).power = m.power := rfl
@[simp] theorem Mach.draw_boot (m : Mach) : (m.draw).boot = m.boot := rfl
@[simp] theorem Mach.draw_spn (m : Mach) : (m.draw).spn = m.spn := rfl
@[simp] theorem Mach.draw_tl (m : Mach) : (m.draw).tl = m.tl := rfl
@[simp] theorem Mach.draw_mem (m : Mach) : (m.draw).mem = m.mem := rfl
@[simp] theorem Mach.draw_jobs (m : Mach) : (m.draw).jobs = m.jobs := rfl
@[simp] theorem Mach.draw_ras (m : Mach) : (m.draw).ras = m.ras := rfl
@[simp] theorem Mach.draw_ps (m : Mach) : (m.draw).ps = m.ps := rfl
@[simp] theorem Mach.draw_ks (m : Mach) : (m.draw).ks = m.ks := rfl
@[simp] theorem Mach.draw_ftl (m : Mach) : (m.draw).ftl = m.ftl := rfl
@[simp] theorem Mach.draw_hif (m : Mach) : (m.draw).hif = m.hif := rfl
@[simp] theorem Mach.draw_xp (m : Mach) : (m.draw).xp = m.xp := rfl
@[simp] theorem Mach.draw_out (m : Mach) : (m.draw).out = m.out := rfl

/-! ### setTile -/

@[simp] theorem Mach.setTile_regs (m : Mach) (t : Nat) (x : Tile) : (m.setTile t x).regs = m.regs := rfl
@[simp] theorem Mach.setTile_evr (m : Mach) (t : Nat) (x : Tile) : (m.setTile t x).evr = m.evr := rfl
@[simp] theorem Mach.setTile_power (m : Mach) (t : Nat) (x : Tile) : (m.setTile t x).power = m.power := rfl
@[simp] theorem Mach.setTile_boot (m : Mach) (t : Nat) (x : Tile) : (m.setTile t x).boot = m.boot := rfl
@[simp] theorem Mach.setTile_spn (m : Mach) (t : Nat) (x : Tile) : (m.setTile t x).spn = m.spn := rfl
@[simp] theorem Mach.setTile_mem (m : Mach) (t : Nat) (x : Tile) : (m.setTile t x).mem = m.mem := rfl
@[simp] theorem Mach.setTile_jobs (m : Mach) (t : Nat) (x : Tile) : (m.setTile t x).jobs = m.jobs := rfl
@[simp] theorem Mach.setTile_ras (m : Mach) (t : Nat) (x : Tile) : (m.setTile t x).ras = m.ras := rfl
@[simp] theorem Mach.setTile_ps (m : Mach) (t : Nat) (x : Tile) : (m.setTile t x).ps = m.ps := rfl
@[simp] theorem Mach.setTile_ks (m : Mach) (t : Nat) (x : Tile) : (m.setTile t x).ks = m.ks := rfl
@[simp] theorem Mach.setTile_ftl (m : Mach) (t : Nat) (x : Tile) : (m.setTile t x).ftl = m.ftl := rfl
@[simp] theorem Mach.setTile_hif (m : Mach) (t : Nat) (x : Tile) : (m.setTile t x).hif = m.hif := rfl
@[simp] theorem Mach.setTile_xp (m : Mach) (t : Nat) (x : Tile) : (m.setTile t x).xp = m.xp := rfl
@[simp] theorem Mach.setTile_out (m : Mach) (t : Nat) (x : Tile) : (m.setTile t x).out = m.out := rfl
@[simp] theorem Mach.setTile_draws (m : Mach) (t : Nat) (x : Tile) : (m.setTile t x).draws = m.draws := rfl

/-! ### setClus -/

@[simp] theorem Mach.setClus_regs (m : Mach) (c : Nat) (x : Cluster) : (m.setClus c x).regs = m.regs := rfl
@[simp] theorem Mach.setClus_evr (m : Mach) (c : Nat) (x : Cluster) : (m.setClus c x).evr = m.evr := rfl
@[simp] theorem Mach.setClus_power (m : Mach) (c : Nat) (x : Cluster) : (m.setClus c x).power = m.power := rfl
@[simp] theorem Mach.setClus_boot (m : Mach) (c : Nat) (x : Cluster) : (m.setClus c x).boot = m.boot := rfl
@[simp] theorem Mach.setClus_spn (m : Mach) (c : Nat) (x : Cluster) : (m.setClus c x).spn = m.spn := rfl
@[simp] theorem Mach.setClus_mem (m : Mach) (c : Nat) (x : Cluster) : (m.setClus c x).mem = m.mem := rfl
@[simp] theorem Mach.setClus_jobs (m : Mach) (c : Nat) (x : Cluster) : (m.setClus c x).jobs = m.jobs := rfl
@[simp] theorem Mach.setClus_ras (m : Mach) (c : Nat) (x : Cluster) : (m.setClus c x).ras = m.ras := rfl
@[simp] theorem Mach.setClus_ps (m : Mach) (c : Nat) (x : Cluster) : (m.setClus c x).ps = m.ps := rfl
@[simp] theorem Mach.setClus_ks (m : Mach) (c : Nat) (x : Cluster) : (m.setClus c x).ks = m.ks := rfl
@[simp] theorem Mach.setClus_ftl (m : Mach) (c : Nat) (x : Cluster) : (m.setClus c x).ftl = m.ftl := rfl
@[simp] theorem Mach.setClus_hif (m : Mach) (c : Nat) (x : Cluster) : (m.setClus c x).hif = m.hif := rfl
@[simp] theorem Mach.setClus_xp (m : Mach) (c : Nat) (x : Cluster) : (m.setClus c x).xp = m.xp := rfl
@[simp] theorem Mach.setClus_out (m : Mach) (c : Nat) (x : Cluster) : (m.setClus c x).out = m.out := rfl
@[simp] theorem Mach.setClus_draws (m : Mach) (c : Nat) (x : Cluster) : (m.setClus c x).draws = m.draws := rfl

/-! ### setDieQueue -/

@[simp] theorem Mach.setDieQueue_regs (m : Mach) (d : Nat) (q : SMap QEntry) : (m.setDieQueue d q).regs = m.regs := rfl
@[simp] theorem Mach.setDieQueue_evr (m : Mach) (d : Nat) (q : SMap QEntry) : (m.setDieQueue d q).evr = m.evr := rfl
@[simp] theorem Mach.setDieQueue_power (m : Mach) (d : Nat) (q : SMap QEntry) : (m.setDieQueue d q).power = m.power := rfl
@[simp] theorem Mach.setDieQueue_boot (m : Mach) (d : Nat) (q : SMap QEntry) : (m.setDieQueue d q).boot = m.boot := rfl
@[simp] theorem Mach.setDieQueue_spn (m : Mach) (d : Nat) (q : SMap QEntry) : (m.setDieQueue d q).spn = m.spn := rfl
@[simp] theorem Mach.setDieQueue_mem (m : Mach) (d : Nat) (q : SMap QEntry) : (m.setDieQueue d q).mem = m.mem := rfl
@[simp] theorem Mach.setDieQueue_jobs (m : Mach) (d : Nat) (q : SMap QEntry) : (m.setDieQueue d q).jobs = m.jobs := rfl
@[simp] theorem Mach.setDieQueue_ras (m : Mach) (d : Nat) (q : SMap QEntry) : (m.setDieQueue d q).ras = m.ras := rfl
@[simp] theorem Mach.setDieQueue_ps (m : Mach) (d : Nat) (q : SMap QEntry) : (m.setDieQueue d q).ps = m.ps := rfl
@[simp] theorem Mach.setDieQueue_ks (m : Mach) (d : Nat) (q : SMap QEntry) : (m.setDieQueue d q).ks = m.ks := rfl
@[simp] theorem Mach.setDieQueue_ftl (m : Mach) (d : Nat) (q : SMap QEntry) : (m.setDieQueue d q).ftl = m.ftl := rfl
@[simp] theorem Mach.setDieQueue_hif (m : Mach) (d : Nat) (q : SMap QEntry) : (m.setDieQueue d q).hif = m.hif := rfl
@[simp] theorem Mach.setDieQueue_xp (m : Mach) (d : Nat) (q : SMap QEntry) : (m.setDieQueue d q).xp = m.xp := rfl
@[simp] theorem Mach.setDieQueue_out (m : Mach) (d : Nat) (q : SMap QEntry) : (m.setDieQueue d q).out = m.out := rfl
@[simp] theorem Mach.setDieQueue_draws (m : Mach) (d : Nat) (q : SMap QEntry) : (m.setDieQueue d q).draws = m.draws := rfl

/-! ### setPort -/

@[simp] theorem Mach.setPort_regs (m : Mach) (p : Nat) (x : PortSt) : (m.setPort p x).regs = m.regs := by unfold Mach.setPort; split <;> rfl
@[simp] theorem Mach.setPort_evr (m : Mach) (p : Nat) (x : PortSt) : (m.setPort p x).evr = m.evr := by unfold Mach.setPort; split <;> rfl
@[simp] theorem Mach.setPort_power (m : Mach) (p : Nat) (x : PortSt) : (m.setPort p x).power = m.power := by unfold Mach.setPort; split <;> rfl
@[simp] theorem Mach.setPort_boot (m : Mach) (p : Nat) (x : PortSt) : (m.setPort p x).boot = m.boot := by unfold Mach.setPort; split <;> rfl
@[simp] theorem Mach.setPort_spn (m : Mach) (p : Nat) (x : PortSt) : (m.setPort p x).spn = m.spn := by unfold Mach.setPort; split <;> rfl
@[simp] theorem Mach.setPort_tl (m : Mach) (p : Nat) (x : PortSt) : (m.setPort p x).tl = m.tl := by unfold Mach.setPort; split <;> rfl
@[simp] theorem Mach.setPort_mem (m : Mach) (p : Nat) (x : PortSt) : (m.setPort p x).mem = m.mem := by unfold Mach.setPort; split <;> rfl
@[simp] theorem Mach.setPort_jobs (m : Mach) (p : Nat) (x : PortSt) : (m.setPort p x).jobs = m.jobs := by unfold Mach.setPort; split <;> rfl
@[simp] theorem Mach.setPort_ras (m : Mach) (p : Nat) (x : PortSt) : (m.setPort p x).ras = m.ras := by unfold Mach.setPort; split <;> rfl
@[simp] theorem Mach.setPort_ps (m : Mach) (p : Nat) (x : PortSt) : (m.setPort p x).ps = m.ps := by unfold Mach.setPort; split <;> rfl
@[simp] theorem Mach.setPort_ks (m : Mach) (p : Nat) (x : PortSt) : (m.setPort p x).ks = m.ks := by unfold Mach.setPort; split <;> rfl
@[simp] theorem Mach.setPort_ftl (m : Mach) (p : Nat) (x : PortSt) : (m.setPort p x).ftl = m.ftl := by unfold Mach.setPort; split <;> rfl
@[simp] theorem Mach.setPort_xp (m : Mach) (p : Nat) (x : PortSt) : (m.setPort p x).xp = m.xp := by unfold Mach.setPort; split <;> rfl
@[simp] theorem Mach.setPort_out (m : Mach) (p : Nat) (x : PortSt) : (m.setPort p x).out = m.out := by unfold Mach.setPort; split <;> rfl
@[simp] theorem Mach.setPort_draws (m : Mach) (p : Nat) (x : PortSt) : (m.setPort p x).draws = m.draws := by unfold Mach.setPort; split <;> rfl

/-! ### setCtl -/

@[simp] theorem Mach.setCtl_regs (m : Mach) (p : Nat) (c : Ctl) : (m.setCtl p c).regs = m.regs := by simp [Mach.setCtl]
@[simp] theorem Mach.setCtl_evr (m : Mach) (p : Nat) (c : Ctl) : (m.setCtl p c).evr = m.evr := by simp [Mach.setCtl]
@[simp] theorem Mach.setCtl_power (m : Mach) (p : Nat) (c : Ctl) : (m.setCtl p c).power = m.power := by simp [Mach.setCtl]
@[simp] theorem Mach.setCtl_boot (m : Mach) (p : Nat) (c : Ctl) : (m.setCtl p c).boot = m.boot := by simp [Mach.setCtl]
@[simp] theorem Mach.setCtl_spn (m : Mach) (p : Nat) (c : Ctl) : (m.setCtl p c).spn = m.spn := by simp [Mach.setCtl]
@[simp] theorem Mach.setCtl_tl (m : Mach) (p : Nat) (c : Ctl) : (m.setCtl p c).tl = m.tl := by simp [Mach.setCtl]
@[simp] theorem Mach.setCtl_mem (m : Mach) (p : Nat) (c : Ctl) : (m.setCtl p c).mem = m.mem := by simp [Mach.setCtl]
@[simp] theorem Mach.setCtl_jobs (m : Mach) (p : Nat) (c : Ctl) : (m.setCtl p c).jobs = m.jobs := by simp [Mach.setCtl]
@[simp] theorem Mach.setCtl_ras (m : Mach) (p : Nat) (c : Ctl) : (m.setCtl p c).ras = m.ras := by simp [Mach.setCtl]
@[simp] theorem Mach.setCtl_ps (m : Mach) (p : Nat) (c : Ctl) : (m.setCtl p c).ps = m.ps := by simp [Mach.setCtl]
@[simp] theorem Mach.setCtl_ks (m : Mach) (p : Nat) (c : Ctl) : (m.setCtl p c).ks = m.ks := by simp [Mach.setCtl]
@[simp] theorem Mach.setCtl_ftl (m : Mach) (p : Nat) (c : Ctl) : (m.setCtl p c).ftl = m.ftl := by simp [Mach.setCtl]
@[simp] theorem Mach.setCtl_xp (m : Mach) (p : Nat) (c : Ctl) : (m.setCtl p c).xp = m.xp := by simp [Mach.setCtl]
@[simp] theorem Mach.setCtl_out (m : Mach) (p : Nat) (c : Ctl) : (m.setCtl p c).out = m.out := by simp [Mach.setCtl]
@[simp] theorem Mach.setCtl_draws (m : Mach) (p : Nat) (c : Ctl) : (m.setCtl p c).draws = m.draws := by simp [Mach.setCtl]

/-! ### setJob -/

@[simp] theorem Mach.setJob_regs (m : Mach) (j : Nat) (x : Job) : (m.setJob j x).regs = m.regs := rfl
@[simp] theorem Mach.setJob_evr (m : Mach) (j : Nat) (x : Job) : (m.setJob j x).evr = m.evr := rfl
@[simp] theorem Mach.setJob_power (m : Mach) (j : Nat) (x : Job) : (m.setJob j x).power = m.power := rfl
@[simp] theorem Mach.setJob_boot (m : Mach) (j : Nat) (x : Job) : (m.setJob j x).boot = m.boot := rfl
@[simp] theorem Mach.setJob_spn (m : Mach) (j : Nat) (x : Job) : (m.setJob j x).spn = m.spn := rfl
@[simp] theorem Mach.setJob_tl (m : Mach) (j : Nat) (x : Job) : (m.setJob j x).tl = m.tl := rfl
@[simp] theorem Mach.setJob_mem (m : Mach) (j : Nat) (x : Job) : (m.setJob j x).mem = m.mem := rfl
@[simp] theorem Mach.setJob_ras (m : Mach) (j : Nat) (x : Job) : (m.setJob j x).ras = m.ras := rfl
@[simp] theorem Mach.setJob_ps (m : Mach) (j : Nat) (x : Job) : (m.setJob j x).ps = m.ps := rfl
@[simp] theorem Mach.setJob_ks (m : Mach) (j : Nat) (x : Job) : (m.setJob j x).ks = m.ks := rfl
@[simp] theorem Mach.setJob_ftl (m : Mach) (j : Nat) (x : Job) : (m.setJob j x).ftl = m.ftl := rfl
@[simp] theorem Mach.setJob_hif (m : Mach) (j : Nat) (x : Job) : (m.setJob j x).hif = m.hif := rfl
@[simp] theorem Mach.setJob_xp (m : Mach) (j : Nat) (x : Job) : (m.setJob j x).xp = m.xp := rfl
@[simp] theorem Mach.setJob_out (m : Mach) (j : Nat) (x : Job) : (m.setJob j x).out = m.out := rfl
@[simp] theorem Mach.setJob_draws (m : Mach) (j : Nat) (x : Job) : (m.setJob j x).draws = m.draws := rfl

/-! ### setNs -/

@[simp] theorem Mach.setNs_regs (m : Mach) (n : Nat) (x : Ns) : (m.setNs n x).regs = m.regs := rfl
@[simp] theorem Mach.setNs_evr (m : Mach) (n : Nat) (x : Ns) : (m.setNs n x).evr = m.evr := rfl
@[simp] theorem Mach.setNs_power (m : Mach) (n : Nat) (x : Ns) : (m.setNs n x).power = m.power := rfl
@[simp] theorem Mach.setNs_boot (m : Mach) (n : Nat) (x : Ns) : (m.setNs n x).boot = m.boot := rfl
@[simp] theorem Mach.setNs_spn (m : Mach) (n : Nat) (x : Ns) : (m.setNs n x).spn = m.spn := rfl
@[simp] theorem Mach.setNs_tl (m : Mach) (n : Nat) (x : Ns) : (m.setNs n x).tl = m.tl := rfl
@[simp] theorem Mach.setNs_mem (m : Mach) (n : Nat) (x : Ns) : (m.setNs n x).mem = m.mem := rfl
@[simp] theorem Mach.setNs_jobs (m : Mach) (n : Nat) (x : Ns) : (m.setNs n x).jobs = m.jobs := rfl
@[simp] theorem Mach.setNs_ras (m : Mach) (n : Nat) (x : Ns) : (m.setNs n x).ras = m.ras := rfl
@[simp] theorem Mach.setNs_ps (m : Mach) (n : Nat) (x : Ns) : (m.setNs n x).ps = m.ps := rfl
@[simp] theorem Mach.setNs_ks (m : Mach) (n : Nat) (x : Ns) : (m.setNs n x).ks = m.ks := rfl
@[simp] theorem Mach.setNs_hif (m : Mach) (n : Nat) (x : Ns) : (m.setNs n x).hif = m.hif := rfl
@[simp] theorem Mach.setNs_xp (m : Mach) (n : Nat) (x : Ns) : (m.setNs n x).xp = m.xp := rfl
@[simp] theorem Mach.setNs_out (m : Mach) (n : Nat) (x : Ns) : (m.setNs n x).out = m.out := rfl
@[simp] theorem Mach.setNs_draws (m : Mach) (n : Nat) (x : Ns) : (m.setNs n x).draws = m.draws := rfl

/-! ### setSb -/

@[simp] theorem Mach.setSb_regs (m : Mach) (i : Nat) (x : SBlk) : (m.setSb i x).regs = m.regs := rfl
@[simp] theorem Mach.setSb_evr (m : Mach) (i : Nat) (x : SBlk) : (m.setSb i x).evr = m.evr := rfl
@[simp] theorem Mach.setSb_power (m : Mach) (i : Nat) (x : SBlk) : (m.setSb i x).power = m.power := rfl
@[simp] theorem Mach.setSb_boot (m : Mach) (i : Nat) (x : SBlk) : (m.setSb i x).boot = m.boot := rfl
@[simp] theorem Mach.setSb_spn (m : Mach) (i : Nat) (x : SBlk) : (m.setSb i x).spn = m.spn := rfl
@[simp] theorem Mach.setSb_tl (m : Mach) (i : Nat) (x : SBlk) : (m.setSb i x).tl = m.tl := rfl
@[simp] theorem Mach.setSb_mem (m : Mach) (i : Nat) (x : SBlk) : (m.setSb i x).mem = m.mem := rfl
@[simp] theorem Mach.setSb_jobs (m : Mach) (i : Nat) (x : SBlk) : (m.setSb i x).jobs = m.jobs := rfl
@[simp] theorem Mach.setSb_ras (m : Mach) (i : Nat) (x : SBlk) : (m.setSb i x).ras = m.ras := rfl
@[simp] theorem Mach.setSb_ps (m : Mach) (i : Nat) (x : SBlk) : (m.setSb i x).ps = m.ps := rfl
@[simp] theorem Mach.setSb_ks (m : Mach) (i : Nat) (x : SBlk) : (m.setSb i x).ks = m.ks := rfl
@[simp] theorem Mach.setSb_hif (m : Mach) (i : Nat) (x : SBlk) : (m.setSb i x).hif = m.hif := rfl
@[simp] theorem Mach.setSb_xp (m : Mach) (i : Nat) (x : SBlk) : (m.setSb i x).xp = m.xp := rfl
@[simp] theorem Mach.setSb_out (m : Mach) (i : Nat) (x : SBlk) : (m.setSb i x).out = m.out := rfl
@[simp] theorem Mach.setSb_draws (m : Mach) (i : Nat) (x : SBlk) : (m.setSb i x).draws = m.draws := rfl

/-! ### setPool -/

@[simp] theorem Mach.setPool_regs (m : Mach) (k : Nat) (x : Pool) : (m.setPool k x).regs = m.regs := rfl
@[simp] theorem Mach.setPool_evr (m : Mach) (k : Nat) (x : Pool) : (m.setPool k x).evr = m.evr := rfl
@[simp] theorem Mach.setPool_power (m : Mach) (k : Nat) (x : Pool) : (m.setPool k x).power = m.power := rfl
@[simp] theorem Mach.setPool_boot (m : Mach) (k : Nat) (x : Pool) : (m.setPool k x).boot = m.boot := rfl
@[simp] theorem Mach.setPool_spn (m : Mach) (k : Nat) (x : Pool) : (m.setPool k x).spn = m.spn := rfl
@[simp] theorem Mach.setPool_tl (m : Mach) (k : Nat) (x : Pool) : (m.setPool k x).tl = m.tl := rfl
@[simp] theorem Mach.setPool_jobs (m : Mach) (k : Nat) (x : Pool) : (m.setPool k x).jobs = m.jobs := rfl
@[simp] theorem Mach.setPool_ras (m : Mach) (k : Nat) (x : Pool) : (m.setPool k x).ras = m.ras := rfl
@[simp] theorem Mach.setPool_ps (m : Mach) (k : Nat) (x : Pool) : (m.setPool k x).ps = m.ps := rfl
@[simp] theorem Mach.setPool_ks (m : Mach) (k : Nat) (x : Pool) : (m.setPool k x).ks = m.ks := rfl
@[simp] theorem Mach.setPool_ftl (m : Mach) (k : Nat) (x : Pool) : (m.setPool k x).ftl = m.ftl := rfl
@[simp] theorem Mach.setPool_hif (m : Mach) (k : Nat) (x : Pool) : (m.setPool k x).hif = m.hif := rfl
@[simp] theorem Mach.setPool_xp (m : Mach) (k : Nat) (x : Pool) : (m.setPool k x).xp = m.xp := rfl
@[simp] theorem Mach.setPool_out (m : Mach) (k : Nat) (x : Pool) : (m.setPool k x).out = m.out := rfl
@[simp] theorem Mach.setPool_draws (m : Mach) (k : Nat) (x : Pool) : (m.setPool k x).draws = m.draws := rfl

/-! ### setSlot -/

@[simp] theorem Mach.setSlot_regs (m : Mach) (k : Nat) (x : CtxSlot) : (m.setSlot k x).regs = m.regs := rfl
@[simp] theorem Mach.setSlot_evr (m : Mach) (k : Nat) (x : CtxSlot) : (m.setSlot k x).evr = m.evr := rfl
@[simp] theorem Mach.setSlot_power (m : Mach) (k : Nat) (x : CtxSlot) : (m.setSlot k x).power = m.power := rfl
@[simp] theorem Mach.setSlot_boot (m : Mach) (k : Nat) (x : CtxSlot) : (m.setSlot k x).boot = m.boot := rfl
@[simp] theorem Mach.setSlot_spn (m : Mach) (k : Nat) (x : CtxSlot) : (m.setSlot k x).spn = m.spn := rfl
@[simp] theorem Mach.setSlot_tl (m : Mach) (k : Nat) (x : CtxSlot) : (m.setSlot k x).tl = m.tl := rfl
@[simp] theorem Mach.setSlot_jobs (m : Mach) (k : Nat) (x : CtxSlot) : (m.setSlot k x).jobs = m.jobs := rfl
@[simp] theorem Mach.setSlot_ras (m : Mach) (k : Nat) (x : CtxSlot) : (m.setSlot k x).ras = m.ras := rfl
@[simp] theorem Mach.setSlot_ps (m : Mach) (k : Nat) (x : CtxSlot) : (m.setSlot k x).ps = m.ps := rfl
@[simp] theorem Mach.setSlot_ks (m : Mach) (k : Nat) (x : CtxSlot) : (m.setSlot k x).ks = m.ks := rfl
@[simp] theorem Mach.setSlot_ftl (m : Mach) (k : Nat) (x : CtxSlot) : (m.setSlot k x).ftl = m.ftl := rfl
@[simp] theorem Mach.setSlot_hif (m : Mach) (k : Nat) (x : CtxSlot) : (m.setSlot k x).hif = m.hif := rfl
@[simp] theorem Mach.setSlot_xp (m : Mach) (k : Nat) (x : CtxSlot) : (m.setSlot k x).xp = m.xp := rfl
@[simp] theorem Mach.setSlot_out (m : Mach) (k : Nat) (x : CtxSlot) : (m.setSlot k x).out = m.out := rfl
@[simp] theorem Mach.setSlot_draws (m : Mach) (k : Nat) (x : CtxSlot) : (m.setSlot k x).draws = m.draws := rfl

/-! ### setKey -/

@[simp] theorem Mach.setKey_regs (m : Mach) (k : KeyRec) : (m.setKey k).regs = m.regs := rfl
@[simp] theorem Mach.setKey_evr (m : Mach) (k : KeyRec) : (m.setKey k).evr = m.evr := rfl
@[simp] theorem Mach.setKey_power (m : Mach) (k : KeyRec) : (m.setKey k).power = m.power := rfl
@[simp] theorem Mach.setKey_boot (m : Mach) (k : KeyRec) : (m.setKey k).boot = m.boot := rfl
@[simp] theorem Mach.setKey_spn (m : Mach) (k : KeyRec) : (m.setKey k).spn = m.spn := rfl
@[simp] theorem Mach.setKey_tl (m : Mach) (k : KeyRec) : (m.setKey k).tl = m.tl := rfl
@[simp] theorem Mach.setKey_mem (m : Mach) (k : KeyRec) : (m.setKey k).mem = m.mem := rfl
@[simp] theorem Mach.setKey_jobs (m : Mach) (k : KeyRec) : (m.setKey k).jobs = m.jobs := rfl
@[simp] theorem Mach.setKey_ras (m : Mach) (k : KeyRec) : (m.setKey k).ras = m.ras := rfl
@[simp] theorem Mach.setKey_ps (m : Mach) (k : KeyRec) : (m.setKey k).ps = m.ps := rfl
@[simp] theorem Mach.setKey_ftl (m : Mach) (k : KeyRec) : (m.setKey k).ftl = m.ftl := rfl
@[simp] theorem Mach.setKey_hif (m : Mach) (k : KeyRec) : (m.setKey k).hif = m.hif := rfl
@[simp] theorem Mach.setKey_xp (m : Mach) (k : KeyRec) : (m.setKey k).xp = m.xp := rfl
@[simp] theorem Mach.setKey_out (m : Mach) (k : KeyRec) : (m.setKey k).out = m.out := rfl
@[simp] theorem Mach.setKey_draws (m : Mach) (k : KeyRec) : (m.setKey k).draws = m.draws := rfl

/-! ### setFab -/

@[simp] theorem Mach.setFab_regs (m : Mach) (p : Nat) (x : FabPort) : (m.setFab p x).regs = m.regs := by unfold Mach.setFab; split <;> rfl
@[simp] theorem Mach.setFab_evr (m : Mach) (p : Nat) (x : FabPort) : (m.setFab p x).evr = m.evr := by unfold Mach.setFab; split <;> rfl
@[simp] theorem Mach.setFab_power (m : Mach) (p : Nat) (x : FabPort) : (m.setFab p x).power = m.power := by unfold Mach.setFab; split <;> rfl
@[simp] theorem Mach.setFab_boot (m : Mach) (p : Nat) (x : FabPort) : (m.setFab p x).boot = m.boot := by unfold Mach.setFab; split <;> rfl
@[simp] theorem Mach.setFab_spn (m : Mach) (p : Nat) (x : FabPort) : (m.setFab p x).spn = m.spn := by unfold Mach.setFab; split <;> rfl
@[simp] theorem Mach.setFab_tl (m : Mach) (p : Nat) (x : FabPort) : (m.setFab p x).tl = m.tl := by unfold Mach.setFab; split <;> rfl
@[simp] theorem Mach.setFab_mem (m : Mach) (p : Nat) (x : FabPort) : (m.setFab p x).mem = m.mem := by unfold Mach.setFab; split <;> rfl
@[simp] theorem Mach.setFab_jobs (m : Mach) (p : Nat) (x : FabPort) : (m.setFab p x).jobs = m.jobs := by unfold Mach.setFab; split <;> rfl
@[simp] theorem Mach.setFab_ras (m : Mach) (p : Nat) (x : FabPort) : (m.setFab p x).ras = m.ras := by unfold Mach.setFab; split <;> rfl
@[simp] theorem Mach.setFab_ps (m : Mach) (p : Nat) (x : FabPort) : (m.setFab p x).ps = m.ps := by unfold Mach.setFab; split <;> rfl
@[simp] theorem Mach.setFab_ks (m : Mach) (p : Nat) (x : FabPort) : (m.setFab p x).ks = m.ks := by unfold Mach.setFab; split <;> rfl
@[simp] theorem Mach.setFab_ftl (m : Mach) (p : Nat) (x : FabPort) : (m.setFab p x).ftl = m.ftl := by unfold Mach.setFab; split <;> rfl
@[simp] theorem Mach.setFab_hif (m : Mach) (p : Nat) (x : FabPort) : (m.setFab p x).hif = m.hif := by unfold Mach.setFab; split <;> rfl
@[simp] theorem Mach.setFab_out (m : Mach) (p : Nat) (x : FabPort) : (m.setFab p x).out = m.out := by unfold Mach.setFab; split <;> rfl
@[simp] theorem Mach.setFab_draws (m : Mach) (p : Nat) (x : FabPort) : (m.setFab p x).draws = m.draws := by unfold Mach.setFab; split <;> rfl

/-! ### setPeer -/

@[simp] theorem Mach.setPeer_regs (m : Mach) (n : Nat) (x : Peer) : (m.setPeer n x).regs = m.regs := rfl
@[simp] theorem Mach.setPeer_evr (m : Mach) (n : Nat) (x : Peer) : (m.setPeer n x).evr = m.evr := rfl
@[simp] theorem Mach.setPeer_power (m : Mach) (n : Nat) (x : Peer) : (m.setPeer n x).power = m.power := rfl
@[simp] theorem Mach.setPeer_boot (m : Mach) (n : Nat) (x : Peer) : (m.setPeer n x).boot = m.boot := rfl
@[simp] theorem Mach.setPeer_spn (m : Mach) (n : Nat) (x : Peer) : (m.setPeer n x).spn = m.spn := rfl
@[simp] theorem Mach.setPeer_tl (m : Mach) (n : Nat) (x : Peer) : (m.setPeer n x).tl = m.tl := rfl
@[simp] theorem Mach.setPeer_mem (m : Mach) (n : Nat) (x : Peer) : (m.setPeer n x).mem = m.mem := rfl
@[simp] theorem Mach.setPeer_jobs (m : Mach) (n : Nat) (x : Peer) : (m.setPeer n x).jobs = m.jobs := rfl
@[simp] theorem Mach.setPeer_ras (m : Mach) (n : Nat) (x : Peer) : (m.setPeer n x).ras = m.ras := rfl
@[simp] theorem Mach.setPeer_ps (m : Mach) (n : Nat) (x : Peer) : (m.setPeer n x).ps = m.ps := rfl
@[simp] theorem Mach.setPeer_ks (m : Mach) (n : Nat) (x : Peer) : (m.setPeer n x).ks = m.ks := rfl
@[simp] theorem Mach.setPeer_ftl (m : Mach) (n : Nat) (x : Peer) : (m.setPeer n x).ftl = m.ftl := rfl
@[simp] theorem Mach.setPeer_hif (m : Mach) (n : Nat) (x : Peer) : (m.setPeer n x).hif = m.hif := rfl
@[simp] theorem Mach.setPeer_out (m : Mach) (n : Nat) (x : Peer) : (m.setPeer n x).out = m.out := rfl
@[simp] theorem Mach.setPeer_draws (m : Mach) (n : Nat) (x : Peer) : (m.setPeer n x).draws = m.draws := rfl

/-! ### recordAs -/

@[simp] theorem Mach.recordAs_power (m : Mach) (inj : Bool) (typ src status : Nat) (pl : List Byte) : (m.recordAs inj typ src status pl).power = m.power := by
  simp only [Mach.recordAs]; repeat' split
  all_goals rfl
@[simp] theorem Mach.recordAs_boot (m : Mach) (inj : Bool) (typ src status : Nat) (pl : List Byte) : (m.recordAs inj typ src status pl).boot = m.boot := by
  simp only [Mach.recordAs]; repeat' split
  all_goals rfl
@[simp] theorem Mach.recordAs_spn (m : Mach) (inj : Bool) (typ src status : Nat) (pl : List Byte) : (m.recordAs inj typ src status pl).spn = m.spn := by
  simp only [Mach.recordAs]; repeat' split
  all_goals rfl
@[simp] theorem Mach.recordAs_tl (m : Mach) (inj : Bool) (typ src status : Nat) (pl : List Byte) : (m.recordAs inj typ src status pl).tl = m.tl := by
  simp only [Mach.recordAs]; repeat' split
  all_goals rfl
@[simp] theorem Mach.recordAs_mem (m : Mach) (inj : Bool) (typ src status : Nat) (pl : List Byte) : (m.recordAs inj typ src status pl).mem = m.mem := by
  simp only [Mach.recordAs]; repeat' split
  all_goals rfl
@[simp] theorem Mach.recordAs_jobs (m : Mach) (inj : Bool) (typ src status : Nat) (pl : List Byte) : (m.recordAs inj typ src status pl).jobs = m.jobs := by
  simp only [Mach.recordAs]; repeat' split
  all_goals rfl
@[simp] theorem Mach.recordAs_ras (m : Mach) (inj : Bool) (typ src status : Nat) (pl : List Byte) : (m.recordAs inj typ src status pl).ras = m.ras := by
  simp only [Mach.recordAs]; repeat' split
  all_goals rfl
@[simp] theorem Mach.recordAs_ps (m : Mach) (inj : Bool) (typ src status : Nat) (pl : List Byte) : (m.recordAs inj typ src status pl).ps = m.ps := by
  simp only [Mach.recordAs]; repeat' split
  all_goals rfl
@[simp] theorem Mach.recordAs_ks (m : Mach) (inj : Bool) (typ src status : Nat) (pl : List Byte) : (m.recordAs inj typ src status pl).ks = m.ks := by
  simp only [Mach.recordAs]; repeat' split
  all_goals rfl
@[simp] theorem Mach.recordAs_ftl (m : Mach) (inj : Bool) (typ src status : Nat) (pl : List Byte) : (m.recordAs inj typ src status pl).ftl = m.ftl := by
  simp only [Mach.recordAs]; repeat' split
  all_goals rfl
@[simp] theorem Mach.recordAs_hif (m : Mach) (inj : Bool) (typ src status : Nat) (pl : List Byte) : (m.recordAs inj typ src status pl).hif = m.hif := by
  simp only [Mach.recordAs]; repeat' split
  all_goals rfl
@[simp] theorem Mach.recordAs_xp (m : Mach) (inj : Bool) (typ src status : Nat) (pl : List Byte) : (m.recordAs inj typ src status pl).xp = m.xp := by
  simp only [Mach.recordAs]; repeat' split
  all_goals rfl
@[simp] theorem Mach.recordAs_out (m : Mach) (inj : Bool) (typ src status : Nat) (pl : List Byte) : (m.recordAs inj typ src status pl).out = m.out := by
  simp only [Mach.recordAs]; repeat' split
  all_goals rfl
@[simp] theorem Mach.recordAs_draws (m : Mach) (inj : Bool) (typ src status : Nat) (pl : List Byte) : (m.recordAs inj typ src status pl).draws = m.draws := by
  simp only [Mach.recordAs]; repeat' split
  all_goals rfl

/-! ### record -/

@[simp] theorem Mach.record_power (m : Mach) (typ src status : Nat) (pl : List Byte) : (m.record typ src status pl).power = m.power := by simp [Mach.record]
@[simp] theorem Mach.record_boot (m : Mach) (typ src status : Nat) (pl : List Byte) : (m.record typ src status pl).boot = m.boot := by simp [Mach.record]
@[simp] theorem Mach.record_spn (m : Mach) (typ src status : Nat) (pl : List Byte) : (m.record typ src status pl).spn = m.spn := by simp [Mach.record]
@[simp] theorem Mach.record_tl (m : Mach) (typ src status : Nat) (pl : List Byte) : (m.record typ src status pl).tl = m.tl := by simp [Mach.record]
@[simp] theorem Mach.record_mem (m : Mach) (typ src status : Nat) (pl : List Byte) : (m.record typ src status pl).mem = m.mem := by simp [Mach.record]
@[simp] theorem Mach.record_jobs (m : Mach) (typ src status : Nat) (pl : List Byte) : (m.record typ src status pl).jobs = m.jobs := by simp [Mach.record]
@[simp] theorem Mach.record_ras (m : Mach) (typ src status : Nat) (pl : List Byte) : (m.record typ src status pl).ras = m.ras := by simp [Mach.record]
@[simp] theorem Mach.record_ps (m : Mach) (typ src status : Nat) (pl : List Byte) : (m.record typ src status pl).ps = m.ps := by simp [Mach.record]
@[simp] theorem Mach.record_ks (m : Mach) (typ src status : Nat) (pl : List Byte) : (m.record typ src status pl).ks = m.ks := by simp [Mach.record]
@[simp] theorem Mach.record_ftl (m : Mach) (typ src status : Nat) (pl : List Byte) : (m.record typ src status pl).ftl = m.ftl := by simp [Mach.record]
@[simp] theorem Mach.record_hif (m : Mach) (typ src status : Nat) (pl : List Byte) : (m.record typ src status pl).hif = m.hif := by simp [Mach.record]
@[simp] theorem Mach.record_xp (m : Mach) (typ src status : Nat) (pl : List Byte) : (m.record typ src status pl).xp = m.xp := by simp [Mach.record]
@[simp] theorem Mach.record_out (m : Mach) (typ src status : Nat) (pl : List Byte) : (m.record typ src status pl).out = m.out := by simp [Mach.record]
@[simp] theorem Mach.record_draws (m : Mach) (typ src status : Nat) (pl : List Byte) : (m.record typ src status pl).draws = m.draws := by simp [Mach.record]

/-! ### notice -/

@[simp] theorem Mach.notice_power (m : Mach) (code src arg status : Nat) : (m.notice code src arg status).power = m.power := by simp [Mach.notice]
@[simp] theorem Mach.notice_boot (m : Mach) (code src arg status : Nat) : (m.notice code src arg status).boot = m.boot := by simp [Mach.notice]
@[simp] theorem Mach.notice_spn (m : Mach) (code src arg status : Nat) : (m.notice code src arg status).spn = m.spn := by simp [Mach.notice]
@[simp] theorem Mach.notice_tl (m : Mach) (code src arg status : Nat) : (m.notice code src arg status).tl = m.tl := by simp [Mach.notice]
@[simp] theorem Mach.notice_mem (m : Mach) (code src arg status : Nat) : (m.notice code src arg status).mem = m.mem := by simp [Mach.notice]
@[simp] theorem Mach.notice_jobs (m : Mach) (code src arg status : Nat) : (m.notice code src arg status).jobs = m.jobs := by simp [Mach.notice]
@[simp] theorem Mach.notice_ras (m : Mach) (code src arg status : Nat) : (m.notice code src arg status).ras = m.ras := by simp [Mach.notice]
@[simp] theorem Mach.notice_ps (m : Mach) (code src arg status : Nat) : (m.notice code src arg status).ps = m.ps := by simp [Mach.notice]
@[simp] theorem Mach.notice_ks (m : Mach) (code src arg status : Nat) : (m.notice code src arg status).ks = m.ks := by simp [Mach.notice]
@[simp] theorem Mach.notice_ftl (m : Mach) (code src arg status : Nat) : (m.notice code src arg status).ftl = m.ftl := by simp [Mach.notice]
@[simp] theorem Mach.notice_hif (m : Mach) (code src arg status : Nat) : (m.notice code src arg status).hif = m.hif := by simp [Mach.notice]
@[simp] theorem Mach.notice_xp (m : Mach) (code src arg status : Nat) : (m.notice code src arg status).xp = m.xp := by simp [Mach.notice]
@[simp] theorem Mach.notice_out (m : Mach) (code src arg status : Nat) : (m.notice code src arg status).out = m.out := by simp [Mach.notice]
@[simp] theorem Mach.notice_draws (m : Mach) (code src arg status : Nat) : (m.notice code src arg status).draws = m.draws := by simp [Mach.notice]

/-! ### rejected -/

@[simp] theorem Mach.rejected_power (m : Mach) (src off val reason : Nat) : (m.rejected src off val reason).power = m.power := by simp [Mach.rejected]
@[simp] theorem Mach.rejected_boot (m : Mach) (src off val reason : Nat) : (m.rejected src off val reason).boot = m.boot := by simp [Mach.rejected]
@[simp] theorem Mach.rejected_spn (m : Mach) (src off val reason : Nat) : (m.rejected src off val reason).spn = m.spn := by simp [Mach.rejected]
@[simp] theorem Mach.rejected_tl (m : Mach) (src off val reason : Nat) : (m.rejected src off val reason).tl = m.tl := by simp [Mach.rejected]
@[simp] theorem Mach.rejected_mem (m : Mach) (src off val reason : Nat) : (m.rejected src off val reason).mem = m.mem := by simp [Mach.rejected]
@[simp] theorem Mach.rejected_jobs (m : Mach) (src off val reason : Nat) : (m.rejected src off val reason).jobs = m.jobs := by simp [Mach.rejected]
@[simp] theorem Mach.rejected_ras (m : Mach) (src off val reason : Nat) : (m.rejected src off val reason).ras = m.ras := by simp [Mach.rejected]
@[simp] theorem Mach.rejected_ps (m : Mach) (src off val reason : Nat) : (m.rejected src off val reason).ps = m.ps := by simp [Mach.rejected]
@[simp] theorem Mach.rejected_ks (m : Mach) (src off val reason : Nat) : (m.rejected src off val reason).ks = m.ks := by simp [Mach.rejected]
@[simp] theorem Mach.rejected_ftl (m : Mach) (src off val reason : Nat) : (m.rejected src off val reason).ftl = m.ftl := by simp [Mach.rejected]
@[simp] theorem Mach.rejected_hif (m : Mach) (src off val reason : Nat) : (m.rejected src off val reason).hif = m.hif := by simp [Mach.rejected]
@[simp] theorem Mach.rejected_xp (m : Mach) (src off val reason : Nat) : (m.rejected src off val reason).xp = m.xp := by simp [Mach.rejected]
@[simp] theorem Mach.rejected_out (m : Mach) (src off val reason : Nat) : (m.rejected src off val reason).out = m.out := by simp [Mach.rejected]
@[simp] theorem Mach.rejected_draws (m : Mach) (src off val reason : Nat) : (m.rejected src off val reason).draws = m.draws := by simp [Mach.rejected]

/-! ### nvmePost -/

@[simp] theorem Mach.nvmePost_regs (m : Mach) (n : NvmeCtx) (sct sc dw1 : Nat) (data : List Byte) : (m.nvmePost n sct sc dw1 data).regs = m.regs := by
  simp only [Mach.nvmePost]; split <;> simp
@[simp] theorem Mach.nvmePost_evr (m : Mach) (n : NvmeCtx) (sct sc dw1 : Nat) (data : List Byte) : (m.nvmePost n sct sc dw1 data).evr = m.evr := by
  simp only [Mach.nvmePost]; split <;> simp
@[simp] theorem Mach.nvmePost_power (m : Mach) (n : NvmeCtx) (sct sc dw1 : Nat) (data : List Byte) : (m.nvmePost n sct sc dw1 data).power = m.power := by
  simp only [Mach.nvmePost]; split <;> simp
@[simp] theorem Mach.nvmePost_boot (m : Mach) (n : NvmeCtx) (sct sc dw1 : Nat) (data : List Byte) : (m.nvmePost n sct sc dw1 data).boot = m.boot := by
  simp only [Mach.nvmePost]; split <;> simp
@[simp] theorem Mach.nvmePost_spn (m : Mach) (n : NvmeCtx) (sct sc dw1 : Nat) (data : List Byte) : (m.nvmePost n sct sc dw1 data).spn = m.spn := by
  simp only [Mach.nvmePost]; split <;> simp
@[simp] theorem Mach.nvmePost_tl (m : Mach) (n : NvmeCtx) (sct sc dw1 : Nat) (data : List Byte) : (m.nvmePost n sct sc dw1 data).tl = m.tl := by
  simp only [Mach.nvmePost]; split <;> simp
@[simp] theorem Mach.nvmePost_mem (m : Mach) (n : NvmeCtx) (sct sc dw1 : Nat) (data : List Byte) : (m.nvmePost n sct sc dw1 data).mem = m.mem := by
  simp only [Mach.nvmePost]; split <;> simp
@[simp] theorem Mach.nvmePost_jobs (m : Mach) (n : NvmeCtx) (sct sc dw1 : Nat) (data : List Byte) : (m.nvmePost n sct sc dw1 data).jobs = m.jobs := by
  simp only [Mach.nvmePost]; split <;> simp
@[simp] theorem Mach.nvmePost_ras (m : Mach) (n : NvmeCtx) (sct sc dw1 : Nat) (data : List Byte) : (m.nvmePost n sct sc dw1 data).ras = m.ras := by
  simp only [Mach.nvmePost]; split <;> simp
@[simp] theorem Mach.nvmePost_ps (m : Mach) (n : NvmeCtx) (sct sc dw1 : Nat) (data : List Byte) : (m.nvmePost n sct sc dw1 data).ps = m.ps := by
  simp only [Mach.nvmePost]; split <;> simp
@[simp] theorem Mach.nvmePost_ks (m : Mach) (n : NvmeCtx) (sct sc dw1 : Nat) (data : List Byte) : (m.nvmePost n sct sc dw1 data).ks = m.ks := by
  simp only [Mach.nvmePost]; split <;> simp
@[simp] theorem Mach.nvmePost_ftl (m : Mach) (n : NvmeCtx) (sct sc dw1 : Nat) (data : List Byte) : (m.nvmePost n sct sc dw1 data).ftl = m.ftl := by
  simp only [Mach.nvmePost]; split <;> simp
@[simp] theorem Mach.nvmePost_xp (m : Mach) (n : NvmeCtx) (sct sc dw1 : Nat) (data : List Byte) : (m.nvmePost n sct sc dw1 data).xp = m.xp := by
  simp only [Mach.nvmePost]; split <;> simp
@[simp] theorem Mach.nvmePost_draws (m : Mach) (n : NvmeCtx) (sct sc dw1 : Nat) (data : List Byte) : (m.nvmePost n sct sc dw1 data).draws = m.draws := by
  simp only [Mach.nvmePost]; split <;> simp

/-! ### nvmeDone -/

@[simp] theorem Mach.nvmeDone_evr (m : Mach) (n : NvmeCtx) (code : Nat) (data : List Byte) : (m.nvmeDone n code data).evr = m.evr := by
  simp only [Mach.nvmeDone]; split <;> simp
@[simp] theorem Mach.nvmeDone_power (m : Mach) (n : NvmeCtx) (code : Nat) (data : List Byte) : (m.nvmeDone n code data).power = m.power := by
  simp only [Mach.nvmeDone]; split <;> simp
@[simp] theorem Mach.nvmeDone_boot (m : Mach) (n : NvmeCtx) (code : Nat) (data : List Byte) : (m.nvmeDone n code data).boot = m.boot := by
  simp only [Mach.nvmeDone]; split <;> simp
@[simp] theorem Mach.nvmeDone_spn (m : Mach) (n : NvmeCtx) (code : Nat) (data : List Byte) : (m.nvmeDone n code data).spn = m.spn := by
  simp only [Mach.nvmeDone]; split <;> simp
@[simp] theorem Mach.nvmeDone_tl (m : Mach) (n : NvmeCtx) (code : Nat) (data : List Byte) : (m.nvmeDone n code data).tl = m.tl := by
  simp only [Mach.nvmeDone]; split <;> simp
@[simp] theorem Mach.nvmeDone_mem (m : Mach) (n : NvmeCtx) (code : Nat) (data : List Byte) : (m.nvmeDone n code data).mem = m.mem := by
  simp only [Mach.nvmeDone]; split <;> simp
@[simp] theorem Mach.nvmeDone_jobs (m : Mach) (n : NvmeCtx) (code : Nat) (data : List Byte) : (m.nvmeDone n code data).jobs = m.jobs := by
  simp only [Mach.nvmeDone]; split <;> simp
@[simp] theorem Mach.nvmeDone_ras (m : Mach) (n : NvmeCtx) (code : Nat) (data : List Byte) : (m.nvmeDone n code data).ras = m.ras := by
  simp only [Mach.nvmeDone]; split <;> simp
@[simp] theorem Mach.nvmeDone_ps (m : Mach) (n : NvmeCtx) (code : Nat) (data : List Byte) : (m.nvmeDone n code data).ps = m.ps := by
  simp only [Mach.nvmeDone]; split <;> simp
@[simp] theorem Mach.nvmeDone_ks (m : Mach) (n : NvmeCtx) (code : Nat) (data : List Byte) : (m.nvmeDone n code data).ks = m.ks := by
  simp only [Mach.nvmeDone]; split <;> simp
@[simp] theorem Mach.nvmeDone_ftl (m : Mach) (n : NvmeCtx) (code : Nat) (data : List Byte) : (m.nvmeDone n code data).ftl = m.ftl := by
  simp only [Mach.nvmeDone]; split <;> simp
@[simp] theorem Mach.nvmeDone_xp (m : Mach) (n : NvmeCtx) (code : Nat) (data : List Byte) : (m.nvmeDone n code data).xp = m.xp := by
  simp only [Mach.nvmeDone]; split <;> simp
@[simp] theorem Mach.nvmeDone_draws (m : Mach) (n : NvmeCtx) (code : Nat) (data : List Byte) : (m.nvmeDone n code data).draws = m.draws := by
  simp only [Mach.nvmeDone]; split <;> simp

/-! ### nvmeStd -/

@[simp] theorem Mach.nvmeStd_regs (m : Mach) (n : NvmeCtx) (sct sc : Nat) : (m.nvmeStd n sct sc).regs = m.regs := by simp [Mach.nvmeStd]
@[simp] theorem Mach.nvmeStd_evr (m : Mach) (n : NvmeCtx) (sct sc : Nat) : (m.nvmeStd n sct sc).evr = m.evr := by simp [Mach.nvmeStd]
@[simp] theorem Mach.nvmeStd_power (m : Mach) (n : NvmeCtx) (sct sc : Nat) : (m.nvmeStd n sct sc).power = m.power := by simp [Mach.nvmeStd]
@[simp] theorem Mach.nvmeStd_boot (m : Mach) (n : NvmeCtx) (sct sc : Nat) : (m.nvmeStd n sct sc).boot = m.boot := by simp [Mach.nvmeStd]
@[simp] theorem Mach.nvmeStd_spn (m : Mach) (n : NvmeCtx) (sct sc : Nat) : (m.nvmeStd n sct sc).spn = m.spn := by simp [Mach.nvmeStd]
@[simp] theorem Mach.nvmeStd_tl (m : Mach) (n : NvmeCtx) (sct sc : Nat) : (m.nvmeStd n sct sc).tl = m.tl := by simp [Mach.nvmeStd]
@[simp] theorem Mach.nvmeStd_mem (m : Mach) (n : NvmeCtx) (sct sc : Nat) : (m.nvmeStd n sct sc).mem = m.mem := by simp [Mach.nvmeStd]
@[simp] theorem Mach.nvmeStd_jobs (m : Mach) (n : NvmeCtx) (sct sc : Nat) : (m.nvmeStd n sct sc).jobs = m.jobs := by simp [Mach.nvmeStd]
@[simp] theorem Mach.nvmeStd_ras (m : Mach) (n : NvmeCtx) (sct sc : Nat) : (m.nvmeStd n sct sc).ras = m.ras := by simp [Mach.nvmeStd]
@[simp] theorem Mach.nvmeStd_ps (m : Mach) (n : NvmeCtx) (sct sc : Nat) : (m.nvmeStd n sct sc).ps = m.ps := by simp [Mach.nvmeStd]
@[simp] theorem Mach.nvmeStd_ks (m : Mach) (n : NvmeCtx) (sct sc : Nat) : (m.nvmeStd n sct sc).ks = m.ks := by simp [Mach.nvmeStd]
@[simp] theorem Mach.nvmeStd_ftl (m : Mach) (n : NvmeCtx) (sct sc : Nat) : (m.nvmeStd n sct sc).ftl = m.ftl := by simp [Mach.nvmeStd]
@[simp] theorem Mach.nvmeStd_xp (m : Mach) (n : NvmeCtx) (sct sc : Nat) : (m.nvmeStd n sct sc).xp = m.xp := by simp [Mach.nvmeStd]
@[simp] theorem Mach.nvmeStd_draws (m : Mach) (n : NvmeCtx) (sct sc : Nat) : (m.nvmeStd n sct sc).draws = m.draws := by simp [Mach.nvmeStd]

end Sys2Proof.Machine
end

