-- ==== Sys2Proof/Laws/Access.lean ====
section
/-!
SUPPORT. Reads after updates of the machine's keyed parts: registers, tiles, clusters, ports, jobs, pools, namespaces.
-/
namespace Sys2Proof.Machine

theorem Mach.reg_setReg (m : Mach) (off o : Nat) (x : U64) :
    (m.setReg off x).reg o = if o = off then x else m.reg o := mapGet_set _ _ _ _ _

@[simp] theorem Mach.reg_setReg_same (m : Mach) (off : Nat) (x : U64) : (m.setReg off x).reg off = x := by
  simp [Mach.reg_setReg]

/-- A register reads the same in machines with equal register files. -/
theorem Mach.reg_congr {m m' : Mach} (h : m'.regs = m.regs) (o : Nat) : m'.reg o = m.reg o := by
  simp [Mach.reg, h]

theorem Mach.tile_setTile (m : Mach) (t u : Nat) (x : Tile) :
    (m.setTile t x).tile u = if u = t then x else m.tile u := mapGet_set _ _ _ _ _

@[simp] theorem Mach.tile_setTile_same (m : Mach) (t : Nat) (x : Tile) : (m.setTile t x).tile t = x := by
  simp [Mach.tile_setTile]

theorem Mach.tile_congr {m m' : Mach} (h : m'.tl = m.tl) (t : Nat) : m'.tile t = m.tile t := by simp [Mach.tile, h]

theorem Mach.clus_congr {m m' : Mach} (h : m'.tl = m.tl) (c : Nat) : m'.clus c = m.clus c := by simp [Mach.clus, h]

theorem Mach.clus_setClus (m : Mach) (c d : Nat) (x : Cluster) :
    (m.setClus c x).clus d = if d = c then x else m.clus d := mapGet_set _ _ _ _ _

@[simp] theorem Mach.clus_setTile (m : Mach) (t c : Nat) (x : Tile) : (m.setTile t x).clus c = m.clus c := rfl

@[simp] theorem Mach.tile_setClus (m : Mach) (t c : Nat) (x : Cluster) : (m.setClus c x).tile t = m.tile t := rfl

@[simp] theorem Mach.tile_setReg (m : Mach) (t off : Nat) (x : U64) : (m.setReg off x).tile t = m.tile t := rfl

theorem Mach.port_setPort (m : Mach) (p q : Port) (x : PortSt) :
    (m.setPort p.val x).port q.val = if q = p then x else m.port q.val := by
  match p, q with
  | 0, 0 => rfl
  | 0, 1 => rfl
  | 1, 0 => rfl
  | 1, 1 => rfl

/-! ### Tile registers -/

theorem Tile.gr_setG (t : Tile) (rd r : GReg) (x : U64) :
    (t.setG rd x).gr r = if r = 0 then 0 else if r = rd then x else t.gr r := by
  unfold Tile.setG Tile.gr
  by_cases h0 : r = 0
  · simp [h0]
  · by_cases hd : rd = 0
    · subst hd; simp [h0]
    · by_cases h : r = rd
      · subst h; simp [h0]
      · have : rd.val ≠ r.val := fun e => h (Fin.ext e.symm)
        simp [h0, hd, h]
        rw [Vector.getElem_set_ne _ _ this]

theorem Tile.vr_setV (t : Tile) (vd r : VReg) (x : V512) :
    (t.setV vd x).vr r = if r = vd then x else t.vr r := by
  unfold Tile.setV Tile.vr
  by_cases h : r = vd
  · subst h; simp
  · have : vd.val ≠ r.val := fun e => h (Fin.ext e.symm)
    simp [h]; rw [Vector.getElem_set_ne _ _ this]

theorem Tile.pr_setP (t : Tile) (pd r : PReg) (x : U64) :
    (t.setP pd x).pr r = if r = 0 then BitVec.allOnes 64 else if r = pd then x else t.pr r := by
  unfold Tile.setP Tile.pr
  by_cases h0 : r = 0
  · simp [h0]
  · by_cases hd : pd = 0
    · subst hd; simp [h0]
    · by_cases h : r = pd
      · subst h; simp [h0]
      · have : pd.val ≠ r.val := fun e => h (Fin.ext e.symm)
        simp [h0, hd, h]
        rw [Vector.getElem_set_ne _ _ this]

end Sys2Proof.Machine
end

