-- ==== Sys2Proof/Laws/Kernels.lean ====
section
/-!
SUPPORT. What the shipped kernels keep: UTF-8 units, the pieces of the pre-split, merges, and DONE of a unit that runs them.
-/
namespace Sys2Proof.Machine

/-- Units of UTF-8 are the bytes they were cut from (09 R331). -/
theorem utf8Units_flat : ∀ (f : Nat) (l : List Byte), l.length < f → (utf8Units f l).flatMap (fun u => u.2) = l
  | 0, _, h => by omega
  | f + 1, [], _ => rfl
  | f + 1, b :: r, h => by
    have hk : 1 ≤ (utf8Unit (b :: r)).2 := by
      simp only [utf8Unit]; split
      · simp
      · split <;> simp
    have : (((b :: r).drop (utf8Unit (b :: r)).2).length) < f := by
      simp only [List.length_drop, List.length_cons] at *; omega
    simp only [utf8Units, List.flatMap_cons, utf8Units_flat f _ this, List.take_append_drop]

/-- So are the units of the pre-split (11 R385). -/
theorem splitUnits_flat (l : List Byte) : (splitUnits l).flatMap (fun u => u.2) = l := by
  unfold splitUnits
  rw [List.flatMap_assoc]
  conv => rhs; rw [← utf8Units_flat (l.length + 1) l (by omega)]
  congr 1; funext u
  split
  · simp
  · simp [List.flatMap_map]

/-- Pieces lose and add no byte (11 R385). -/
theorem presplitFrom_flat (t : List Byte) : ∀ (us : List (Bool × List Byte)) (cur : List Byte) (k run : Nat),
    (presplitFrom t cur k run us).flatten = cur ++ us.flatMap (fun u => u.2)
  | [], cur, k, run => by
    unfold presplitFrom; split
    · simp_all
    · simp
  | u :: r, cur, k, run => by
    unfold presplitFrom
    simp only []
    split
    · rw [presplitFrom_flat]; simp_all
    · split
      · simp [presplitFrom_flat]
      · simp [presplitFrom_flat, List.append_assoc]

/-- The best pair is a pair of neighbours with that rank (11 R389). -/
theorem bestPair_spec (t : List Byte) : ∀ (l : List Nat) (i r j : Nat), bestPair t i l = some (r, j) →
    ∃ k a b, j = i + k ∧ l.drop k = a :: b :: l.drop (k + 2) ∧ mergeRank t a b = some r
  | [], i, r, j, h => by simp [bestPair] at h
  | [a], i, r, j, h => by simp [bestPair] at h
  | a :: b :: l, i, r, j, h => by
    simp only [bestPair] at h
    have ih := bestPair_spec t (b :: l) (i + 1)
    split at h
    · rename_i x y hx hy
      split at h
      · simp only [Option.some.injEq, Prod.mk.injEq] at h
        obtain ⟨rfl, rfl⟩ := h
        exact ⟨0, a, b, rfl, rfl, hx⟩
      · obtain ⟨k, a', b', e, d, m⟩ := ih r j (by rw [hy, h])
        exact ⟨k + 1, a', b', by omega, by simpa using d, m⟩
    · rename_i x hx hy
      simp only [Option.some.injEq, Prod.mk.injEq] at h
      obtain ⟨rfl, rfl⟩ := h
      exact ⟨0, a, b, rfl, rfl, hx⟩
    · obtain ⟨k, a', b', e, d, m⟩ := ih r j (by simpa using h)
      exact ⟨k + 1, a', b', by omega, by simpa using d, m⟩

/-- Where merges join the bytes of their tokens, a merged piece spells what it spelled (11 R389). -/
theorem mergeLoop_flat (voc t : List Byte)
    (hm : ∀ a b r : Nat, mergeRank t a b = some r → tokenBytes voc (mergedToken t r) = tokenBytes voc a ++ tokenBytes voc b) :
    ∀ (f : Nat) (l : List Nat), (mergeLoop t f l).flatMap (tokenBytes voc) = l.flatMap (tokenBytes voc)
  | 0, l => rfl
  | f + 1, l => by
    unfold mergeLoop
    split
    · rfl
    · rename_i r i h
      obtain ⟨k, a, b, e, d, m⟩ := bestPair_spec t l 0 r i h
      obtain rfl : i = k := by omega
      rw [mergeLoop_flat voc t hm f]
      conv => rhs; rw [← List.take_append_drop i l, d]
      simp [hm a b r m]

/-- DONE of a unit that runs the job's own code is that code's. -/
theorem finishUnit_own {v : Variant} {m : Mach} {t st : Nat} {u : WorkUnit} {e : QEntry} (hu : (m.tile t).unit = some u)
    (he : m.entryAt u.loc = some e) (hk : e.kind ≠ .kernel) : m.finishUnit v t st = m.unitDone v t st := by
  simp only [Mach.finishUnit, hu, he, if_neg hk]

/-- DONE of a unit that runs the shipped kernels ends as they do, and its entry keeps their output. -/
theorem finishUnit_kernel {v : Variant} {m : Mach} {t st : Nat} {u : WorkUnit} {e : QEntry} {k : KernelOut} (hu : (m.tile t).unit = some u)
    (he : m.entryAt u.loc = some e) (hk : e.kind = .kernel) (hr : m.runKernel v e.bytes = some k) :
    m.finishUnit v t st =
      (((m.jobWrite v t (entrySlot e.bytes) ((k.out.getD []).take u.slotLen)).putEntry u.loc (some { e with held := some k })).unitDone v t
        k.status) := by
  simp only [Mach.finishUnit, hu, he, if_pos hk, hr]

end Sys2Proof.Machine
end

