-- ==== Sys2Proof/Laws/Lanes.lean ====
section
/-!
SUPPORT. Reads after writes of lanes: a lane of a vector made of lanes, of a merge under a predicate, and the flags that
active lanes add.
-/
namespace Sys2Proof.Machine

/-- Digits below 2^w add up to less than 2^(w n). -/
theorem laneSum_lt (w : Nat) (f : Nat → Nat) (n : Nat) :
    ((List.range n).map (fun i => f i % 2 ^ w * 2 ^ (w * i))).sum < 2 ^ (w * n) := by
  induction n with
  | zero => simp
  | succ n ih =>
    rw [List.range_succ, List.map_append, List.sum_append, Nat.mul_succ, Nat.pow_add]
    simp only [List.map_cons, List.map_nil, List.sum_cons, List.sum_nil, Nat.add_zero]
    have h : f n % 2 ^ w < 2 ^ w := Nat.mod_lt _ (by positivity)
    have : (f n % 2 ^ w + 1) * 2 ^ (w * n) ≤ 2 ^ w * 2 ^ (w * n) := Nat.mul_le_mul_right _ h
    nlinarith

/-- A digit of such a sum is the digit that was put there. -/
theorem laneSum_digit (w : Nat) (f : Nat → Nat) (n i : Nat) (h : i < n) :
    ((List.range n).map (fun i => f i % 2 ^ w * 2 ^ (w * i))).sum / 2 ^ (w * i) % 2 ^ w = f i % 2 ^ w := by
  induction n with
  | zero => omega
  | succ n ih =>
    rw [List.range_succ, List.map_append, List.sum_append]
    simp only [List.map_cons, List.map_nil, List.sum_cons, List.sum_nil, Nat.add_zero]
    have hlt := laneSum_lt w f n
    rcases Nat.lt_succ_iff_lt_or_eq.mp h with hi | rfl
    · have e : w * n = w * i + w + w * (n - i - 1) := by
        obtain ⟨k, rfl⟩ : ∃ k, n = i + 1 + k := ⟨n - i - 1, by omega⟩
        have : i + 1 + k - i - 1 = k := by omega
        rw [this]; ring
      rw [e, Nat.pow_add, Nat.pow_add, show f n % 2 ^ w * (2 ^ (w * i) * 2 ^ w * 2 ^ (w * (n - i - 1))) =
        2 ^ (w * i) * (2 ^ w * (f n % 2 ^ w * 2 ^ (w * (n - i - 1)))) by ring,
        Nat.add_mul_div_left _ _ (by positivity), Nat.add_mul_mod_self_left]
      exact ih hi
    · rw [Nat.add_mul_div_right _ _ (by positivity), Nat.div_eq_of_lt hlt, Nat.zero_add, Nat.mod_mod]

/-- Lane i of a vector made of lanes. -/
theorem laneOf_ofLanes {w : Nat} (f : Nat → Nat) {i : Nat} (h : i < 512 / w) : laneOf w (ofLanes w f) i = f i % 2 ^ w := by
  have hlt : ((List.range (512 / w)).map (fun i => f i % 2 ^ w * 2 ^ (w * i))).sum < 2 ^ 512 :=
    lt_of_lt_of_le (laneSum_lt w f (512 / w)) (Nat.pow_le_pow_right (by norm_num) (Nat.mul_div_le 512 w))
  unfold laneOf ofLanes
  rw [BitVec.toNat_ofNat, Nat.mod_eq_of_lt hlt, laneSum_digit w f _ i h]

theorem laneOf_lt (w : Nat) (v : V512) (i : Nat) : laneOf w v i < 2 ^ w := Nat.mod_lt _ (by positivity)

/-- Lane i of a merge: the new value where the lane is active, else the old one (R174). -/
theorem laneOf_mergeLanes {w : Nat} (p : U64) (pn : Bool) (old : V512) (f : Nat → Nat) {i : Nat} (h : i < 512 / w) :
    laneOf w (mergeLanes w p pn old f) i = if laneOn p pn i then f i % 2 ^ w else laneOf w old i := by
  unfold mergeLanes
  rw [laneOf_ofLanes _ h]
  split
  · rfl
  · exact Nat.mod_eq_of_lt (laneOf_lt w old i)

theorem foldl_or (l : List Nat) (a : Nat) : l.foldl (fun x y => x ||| y) a = a ||| l.foldl (fun x y => x ||| y) 0 := by
  induction l generalizing a with
  | nil => simp
  | cons b r ih => rw [List.foldl_cons, List.foldl_cons, ih, ih (0 ||| b)]; simp [Nat.or_assoc]

/-- The flags of the active lanes, as a list of theirs alone. -/
theorem laneFlags_eq (n : Nat) (p : U64) (pn : Bool) (f : Nat → Flags) :
    laneFlags n p pn f = (((List.range n).filter (laneOn p pn)).map f).foldl (fun a b => a ||| b) 0 := by
  unfold laneFlags
  suffices h : ∀ (l : List Nat) (a : Nat), l.foldl (fun a i => if laneOn p pn i then a ||| f i else a) a =
      ((l.filter (laneOn p pn)).map f).foldl (fun a b => a ||| b) a from h _ _
  intro l
  induction l with
  | nil => intro a; rfl
  | cons i r ih =>
    intro a
    rw [List.foldl_cons, ih, List.filter_cons]
    split <;> simp_all

end Sys2Proof.Machine
end

