-- ==== Sys2Proof/Laws/Tiles.lean ====
section
/-!
SUPPORT. What the issue of an instruction does, one lemma per form: the instructions of the scalar core that run at once,
and the vector operations that find the vector unit idle.
-/
namespace Sys2Proof.Machine

/-- A ready scalar core issues what nothing holds back. -/
theorem Mach.tileInstr_ready {v : Variant} {m : Mach} {t : Nat} {i : Tile → TInstr}
    (h : ScalarReady m t (i (m.tile t)).size) (hs : (m.tile t).mustStall (i (m.tile t)) = false) :
    m.tileInstr v t i = m.issueNow v t (i (m.tile t)) := by
  simp [Mach.tileInstr, Mach.issue, h.1, h.2, hs]

/-- A tile replaced is the only thing changed. -/
theorem onlyTile_setTile (m : Mach) (t : Nat) (y : Tile) : OnlyTile t y m (m.setTile t y) :=
  ⟨Mach.tile_setTile_same m t y, fun u hu => by simp [Mach.tile_setTile, hu], rfl⟩

/-- An instruction that writes g[rd] and moves PC on. -/
theorem setsG_of {c : Instr} {s : State} {t : Nat} {rd : GReg} {x : U64} {n : Nat}
    (h : exec c s = .next { s with mach := s.mach.setTile t (((s.mach.tile t).setG rd x).advance n) }) :
    SetsG c s t rd x n := by
  refine ⟨_, ⟨_, h, onlyTile_setTile _ _ _⟩, fun r => ?_, ?_⟩
  · exact Tile.gr_setG _ _ _ _
  · unfold Tile.setG Tile.advance; split <;> rfl

/-- An instruction that moves PC alone. -/
theorem setsPc_of {c : Instr} {s : State} {t a : Nat}
    (h : exec c s = .next { s with mach := s.mach.setTile t { s.mach.tile t with pc := a } }) : SetsPc c s t a :=
  ⟨_, h, onlyTile_setTile _ _ _⟩

/-- The operations of the vector queue that touch registers and FSTAT alone. -/
def VOp.regOnly : VOp → Bool
  | .wait _ => false
  | .vld .. => false
  | .vst .. => false
  | .gather .. => false
  | .scatter .. => false
  | .cmx .. => false
  | .signal _ => false
  | .fence .. => false
  | _ => true

@[simp] theorem Tile.setV_vq (x : Tile) (r : VReg) (v : V512) : (x.setV r v).vq = x.vq := rfl
@[simp] theorem Tile.setV_waits (x : Tile) (r : VReg) (v : V512) : (x.setV r v).waits = x.waits := rfl
@[simp] theorem Tile.addFlags_vq (x : Tile) (f : Flags) : (x.addFlags f).vq = x.vq := rfl
@[simp] theorem Tile.addFlags_waits (x : Tile) (f : Flags) : (x.addFlags f).waits = x.waits := rfl
@[simp] theorem Tile.setP_vq (x : Tile) (r : PReg) (v : U64) : (x.setP r v).vq = x.vq := by unfold Tile.setP; split <;> rfl
@[simp] theorem Tile.setP_waits (x : Tile) (r : PReg) (v : U64) : (x.setP r v).waits = x.waits := by
  unfold Tile.setP; split <;> rfl

/-- A register operation of the vector queue leaves the queue and the waits. -/
theorem vecReg_queue (x : Tile) (op : VOp) : (vecReg x op).vq = x.vq ∧ (vecReg x op).waits = x.waits := by
  unfold vecReg
  split <;> try exact ⟨rfl, rfl⟩
  all_goals try dsimp only
  all_goals first
    | exact ⟨rfl, rfl⟩
    | (split <;> exact ⟨rfl, rfl⟩)
    | exact ⟨by simp, by simp⟩

theorem Mach.setTile_setTile (m : Mach) (t : Nat) (x y : Tile) : (m.setTile t x).setTile t y = m.setTile t y := by
  unfold Mach.setTile
  simp only
  congr 2
  exact mapSet_set _ _ _ _

theorem vecCause_reg {v : Variant} {m : Mach} {t : Nat} {op : VOp} (h : op.regOnly = true) : vecCause v m t op = none := by
  cases op <;> first | rfl | simp [VOp.regOnly] at h

theorem vecReads_reg {x : Tile} {op : VOp} (h : op.regOnly = true) : vecReads x op = [] := by
  cases op <;> first | rfl | simp [VOp.regOnly] at h

theorem Mach.vecRun_reg {v : Variant} {m : Mach} {t : Nat} {e : VqEntry} (h : e.op.regOnly = true) :
    m.vecRun v t e = m.setTile t (vecReg (m.tile t) e.op) := by
  obtain ⟨op, pc⟩ := e
  cases op <;> first | rfl | simp [VOp.regOnly] at h

/-- The head of the vector queue, a register operation, runs. -/
theorem Mach.vecDrain_reg {v : Variant} {m : Mach} {t n : Nat} {e : VqEntry} {r : List VqEntry} (hw : (m.tile t).waiting 1 = false)
    (hq : (m.tile t).vq = e :: r) (h : e.op.regOnly = true) :
    Mach.vecDrain v (n + 1) m t = Mach.vecDrain v n (m.setTile t (vecReg { m.tile t with vq := r } e.op)) t := by
  have hr := Mach.vecRun_reg (v := v) (m := m.setTile t { m.tile t with vq := r }) (t := t) h
  rw [Mach.tile_setTile_same, Mach.setTile_setTile] at hr
  rw [Mach.vecDrain]
  simp only [hw, hq, vecCause_reg h, vecReads_reg h, List.findSome?_nil, List.foldl_nil, hr]
  obtain ⟨op, pc⟩ := e
  cases op <;> first | rfl | simp [VOp.regOnly] at h

theorem Mach.vecDrain_nil {v : Variant} {m : Mach} {t n : Nat} (hq : (m.tile t).vq = []) : Mach.vecDrain v n m t = m := by
  cases n with
  | zero => rfl
  | succ n => rw [Mach.vecDrain]; simp [hq]

/-- A register operation that finds the vector unit idle runs at once. -/
theorem Mach.vecNow {v : Variant} {m : Mach} {t : Nat} {op : VOp} (h : VectorReady m t (TInstr.vec op).size)
    (hop : op.regOnly = true) :
    m.issueNow v t (.vec op) = m.setTile t (vecReg { m.tile t with pc := (m.tile t).pc + (TInstr.vec op).size } op) := by
  obtain ⟨-, hq, hw⟩ := h
  simp only [Mach.issueNow]
  rw [Mach.vecDrain_reg (e := ⟨op, (m.tile t).pc⟩) (r := []) (by rw [Mach.tile_setTile_same]; exact hw)
    (by rw [Mach.tile_setTile_same]; simp [Tile.advance, hq]) hop, Mach.tile_setTile_same, Mach.setTile_setTile, Mach.vecDrain_nil]
  · congr 1
    simp only [Tile.advance]
    rw [← hq]
  · rw [Mach.tile_setTile_same, (vecReg_queue _ _).1]

/-- An operation that writes lanes of one register, with FSTAT as it then stands. -/
theorem setsLanes_of {c : Instr} {s : State} {t n w : Nat} {vd : VReg} {on : Nat → Bool} {f : Nat → Nat} {fl : Nat} {y : V512}
    {z : Tile} (h : exec c s = .next { s with mach := s.mach.setTile t z })
    (hz : z = { s.mach.tile t with v := (s.mach.tile t).v.set vd y, fstat := fl, pc := (s.mach.tile t).pc + n })
    (hy : ∀ k : Nat, k < 512 / w → laneOf w y k = if on k then f k % 2 ^ w else laneOf w ((s.mach.tile t).vr vd) k) :
    SetsLanes c s t n w vd on f fl := by
  have hv := Tile.vr_setV (s.mach.tile t) vd
  subst hz
  refine ⟨_, ⟨_, h, onlyTile_setTile _ _ _⟩, fun k hk => ?_, fun r hr => ?_, rfl⟩
  · have e := hv vd y
    rw [if_pos rfl] at e
    rw [← hy k hk]
    exact congrArg (fun z => laneOf w z k) e
  · have e := hv r y
    rw [if_neg hr] at e
    exact e

/-- An operation that merges active lanes into a register and adds their flags. -/
theorem setsLanes_merge {c : Instr} {s : State} {t n w : Nat} {vd : VReg} {p : U64} {pn : Bool} {f : Nat → Nat} {g : Nat → Flags}
    {z : Tile} (h : exec c s = .next { s with mach := s.mach.setTile t z })
    (hz : z = (({ s.mach.tile t with pc := (s.mach.tile t).pc + n } : Tile).setV vd
      (mergeLanes w p pn ((s.mach.tile t).vr vd) f)).addFlags (laneFlags (512 / w) p pn g)) :
    SetsLanes c s t n w vd (laneOn p pn) f (flagsAfter (s.mach.tile t) (512 / w) (laneOn p pn) g) :=
  setsLanes_of h (by rw [hz, flagsAfter, ← laneFlags_eq]; rfl) (fun _ hk => laneOf_mergeLanes p pn _ f hk)

/-- The same of an operation that adds no flags. -/
theorem setsLanes_plain {c : Instr} {s : State} {t n w : Nat} {vd : VReg} {p : U64} {pn : Bool} {f : Nat → Nat}
    {z : Tile} (h : exec c s = .next { s with mach := s.mach.setTile t z })
    (hz : z = ({ s.mach.tile t with pc := (s.mach.tile t).pc + n } : Tile).setV vd (mergeLanes w p pn ((s.mach.tile t).vr vd) f)) :
    SetsLanes c s t n w vd (laneOn p pn) f (s.mach.tile t).fstat :=
  setsLanes_of h (by rw [hz]; rfl) (fun _ hk => laneOf_mergeLanes p pn _ f hk)

/-- The same of an operation that writes every lane. -/
theorem setsLanes_all {c : Instr} {s : State} {t n w : Nat} {vd : VReg} {f : Nat → Nat}
    {z : Tile} (h : exec c s = .next { s with mach := s.mach.setTile t z })
    (hz : z = ({ s.mach.tile t with pc := (s.mach.tile t).pc + n } : Tile).setV vd (ofLanes w f)) :
    SetsLanes c s t n w vd (fun _ => true) f (s.mach.tile t).fstat :=
  setsLanes_of h (by rw [hz]; rfl) (fun _ hk => by simp [laneOf_ofLanes f hk])

/-- An instruction command whose instruction is a register operation of an idle vector unit. -/
theorem onTile_vec {s : State} {t : TileId} {i : Tile → TInstr} {op : VOp} (hi : i (s.mach.tile t.val) = .vec op)
    (h : VectorReady s.mach t.val (TInstr.vec op).size) (hop : op.regOnly = true) :
    onTile t i s = .next { s with
      mach := s.mach.setTile t.val (vecReg { s.mach.tile t.val with pc := (s.mach.tile t.val).pc + (TInstr.vec op).size } op) } := by
  simp only [onTile, act]
  rw [Mach.tileInstr_ready (i := i) (by rw [hi]; exact h.1) (by rw [hi]; simp [Tile.mustStall, h.2.1]), hi, Mach.vecNow h hop]

/-- An engine's queue settles at once where its head waits, or is of a known operation. -/
theorem Mach.settle_stop {v : Variant} {m : Mach} {t n : Nat} {e : EngId} {x : Tile} (hx : (m.tile t).startHead e = x)
    (h : ∀ (d : List Byte) (r : List (List Byte)), (x.engQ e).q = d :: r → (x.engQ e).started = true → descKnownOp e d = true) :
    Mach.settle v (n + 1) m t e = m.setTile t x := by
  rw [Mach.settle, hx]
  split
  · rename_i d r hq
    rw [if_neg]
    intro hc
    simp only [Bool.and_eq_true, Bool.not_eq_true'] at hc
    rw [h d r hq hc.1] at hc
    cases hc.2
  · rfl

@[simp] theorem Tile.engQ_setEngQ (x : Tile) (e : EngId) (q : EngineQ) : (x.setEngQ e q).engQ e = q := by cases e <;> rfl

@[simp] theorem Tile.setEngQ_setEngQ (x : Tile) (e : EngId) (q r : EngineQ) : (x.setEngQ e q).setEngQ e r = x.setEngQ e r := by
  cases e <;> rfl

@[simp] theorem Tile.waiting_setEngQ (x : Tile) (e : EngId) (q : EngineQ) (k : EngNo) :
    (x.setEngQ e q).waiting k = x.waiting k := by cases e <;> rfl

end Sys2Proof.Machine
end

