-- ==== Sys2Proof/Tests/Slice0.lean ====
section
/-!
SUPPORT. The model's own tests: ill-formed commands that the check refuses, worked examples of the spec, and for each
statement states and operands that meet its hypotheses.
-/
namespace Sys2Proof.Tests

open Sys2Proof Sys2Proof.Machine

set_option Elab.async false

/-! ### Well-formed commands: an ill-formed term for each check -/

def bytes (n : Nat) : List Byte := List.replicate n 0
def pkt (n t : Nat) : YftPkt := ⟨0, true, 1, 0, 0, 0, 0, 0, 0, 0, 0, 0, 0, 0, 0, 0, 0, 0, bytes n, bytes t, 0⟩
def host0 : NvmeCtx := ⟨0, 0, 7⟩
def carrier (c : Fin 4) : CarrierInfo := ⟨c, 3, 4, 1, 64, 64, 3000, 1, 0, []⟩

theorem test_wf_register_write :
    (Instr.registerWrite []).wellFormed = false ∧ (Instr.registerWrite [⟨.port 0, 0, 3, 0⟩]).wellFormed = false ∧
    (Instr.registerWrite [⟨.port 0, 0, 1, 256⟩]).wellFormed = false ∧ (Instr.registerWrite [⟨.port 0, 0, 1, 255⟩]).wellFormed = true := by
  decide
theorem test_wf_control_words :
    (Instr.commit .mgmt 0x10004 []).wellFormed = false ∧ (Instr.commit .mgmt 0x10000 [⟨.mgmt, 0, 5, 0⟩]).wellFormed = false ∧
    (Instr.discard .mgmt 0x120000).wellFormed = false ∧ (Instr.commitPoint 0x1200000).wellFormed = false ∧
    (Instr.commitPoint 0x11FF000).wellFormed = true := by decide
theorem test_wf_mount : (Instr.ftlMount ⟨[carrier 1, carrier 1], 0, 0, 0, [], 0, 0, []⟩).wellFormed = false ∧
    (Instr.ftlMount ⟨[carrier 0, carrier 1], 0, 0, 0, [], 0, 0, []⟩).wellFormed = true := by decide
theorem test_wf_window4 : (Instr.win4Read 0 0 0).wellFormed = false ∧ (Instr.win4Write 0 0 []).wellFormed = false := by decide
theorem test_wf_images : (Instr.firmwareImageDownload host0 1 []).wellFormed = false ∧ (Instr.migrationNonce none (bytes 31)).wellFormed = false ∧
    (Instr.nonce 1 (bytes 33)).wellFormed = false := by decide
theorem test_wf_entries : (Instr.entryPlace true 0 (bytes 63) 0 [] [] .other).wellFormed = false ∧
    (Instr.deadlockExamine 0 [3, 3] []).wellFormed = false ∧ (Instr.deadlockExamine 0 [] [3, 3]).wellFormed = false ∧
    (Instr.openI 0 (bytes 65)).wellFormed = false := by decide
theorem test_wf_buffers : (Instr.alloc .control 65536 64).wellFormed = false ∧ (Instr.free .control 65536 0).wellFormed = false ∧
    (Instr.ctxCreate 0 0 (bytes 241)).wellFormed = false ∧ (Instr.ctxCheckin 0 0 (some (bytes 241)) false).wellFormed = false ∧
    (Instr.dcOffer 0 0 0 [] none []).wellFormed = false := by decide +kernel
theorem test_wf_prepare : (Instr.prepare 1 1 (bytes 31) (bytes 64) 0 0 1 1 [] []).wellFormed = false ∧
    (Instr.prepare 1 1 (bytes 32) (bytes 32) 0 0 1 1 [] []).wellFormed = false ∧
    (Instr.prepare 1 1 (bytes 32) (bytes 64) 0 1 1 1 [] []).wellFormed = false ∧
    (Instr.prepare 1 1 (bytes 32) (bytes 64) 0 0 1 1 [] []).wellFormed = true := by decide
theorem test_wf_fabric : (Instr.oeInterrupt 0 [1, 1]).wellFormed = false ∧ (Instr.write (pkt 4097 0)).wellFormed = false ∧
    (Instr.readReq (pkt 0 15) []).wellFormed = false ∧ (Instr.readResp (pkt 4097 0)).wellFormed = false ∧ (Instr.fetchAdd (pkt 0 1)).wellFormed = false ∧
    (Instr.cas (pkt 0 1)).wellFormed = false ∧ (Instr.atomicResp (pkt 0 1)).wellFormed = false ∧ (Instr.send (pkt 4097 0)).wellFormed = false ∧
    (Instr.ack (pkt 0 1)).wellFormed = false ∧ (Instr.nak (pkt 0 1)).wellFormed = false ∧ (Instr.nak (pkt 4096 16)).wellFormed = true := by
  decide +kernel
theorem test_wf_nvme : (Instr.namespaceAttach host0 1 [0, 0]).wellFormed = false ∧ (Instr.namespaceDetach host0 1 [1, 1]).wellFormed = false ∧
    (Instr.nvmWrite host0 1 0 [] []).wellFormed = false ∧ (Instr.nvmRead host0 1 0 0 [] []).wellFormed = false ∧
    (Instr.writeZeroes host0 1 0 0).wellFormed = false := by decide
theorem test_wf_self_test : (Instr.selftestSlot 0 [⟨64, none, 0, 0⟩]).wellFormed = false ∧
    (Instr.suspectConfirmation 1 [⟨2, none, 0, 0⟩] none).wellFormed = false := by decide

/-! ### Worked examples of the spec -/

/-- 08, the worked example of R288: round 0 of position 0 with the all-zero seed gives 0x6627E8D5, of whose low ten bits
the new right half, 213, is made; the smallest even width for 1,000,000 values is 20. -/
theorem test_feistel_round0 : roundFn 0 0 0 0 0 0 = 0x6627E8D5 ∧ roundFn 0 0 0 0 0 0 % 2 ^ 10 = 213 ∧ evenWidth 1000000 = 20 := by decide +kernel

/-! ### What the statements assume can be met -/

/-- A YLM-5120 with no command waiting. -/
def st0 (m : Mach) : State := ⟨.ylm5120, [], m⟩

/-- The machine as it leaves the factory. -/
abbrev mm : Mach := Mach.factory

/-- The same with its rails up. -/
def onM : Mach := { mm with power := { mm.power with pwrOk := true } }

/-- The bytes of a work-unit entry: job, home cluster, DEP_EN. -/
def entB (job home den : Nat) : List Byte := leBytes 4 job ++ bytes 2 ++ leBytes 1 home ++ leBytes 1 den ++ bytes 56

/-- An entry in a state. -/
def entIn (st : EntState) (job home den : Nat) : QEntry := ⟨st, entB job home den, 16, .plain, [], 0, none, [], [], .other, [], none⟩
def ring0 (m : Mach) (r : SMap QEntry) : Mach := m.setClus 0 { Cluster.reset with ring := r, ringNext := 8, serves := [3], loaded := [3] }

/-- A port whose function serves a host, with one pair of I/O queues. -/
def up : PortSt := { PortSt.reset with
  perst := false, up := true, cfgReady := true, lstate := 0, downSince := none,
  ctl := { Ctl.reset with en := true, rdy := true, sqs := [(1, 64, 1)], cqs := [(1, 64, 0, true)] } }

/-- The module is READY and serves both hosts; port 0 is the administrative owner. -/
def hostM : Mach := ({ onM with hif := { onM.hif with p0 := up, p1 := up } }).setFld Reg.glbBootStatus 7 0 8

/-- Machines with a part changed. -/
def onPower (m : Mach) (f : Power → Power) : Mach := { m with power := f m.power }
def onBoot (m : Mach) (f : Boot → Boot) : Mach := { m with boot := f m.boot }


/-- A codec request and a job that carries it. -/
def codec0 : CodecReq := ⟨0, 1, 0, false, false, false, 0, [], 0, 0, 0, 0, 0, false⟩
def job0 (k : JobKind) : Job := ⟨4, 0, false, 1, 0, 0, k, .pipe 0 1 7 0 false, 0, 1, 1, none, 0, none, [], [], [], [], [], [], .zero, none,
  0, 0, 0, 0, 0, [], [], []⟩
def onJobs (m : Mach) (f : Jobs → Jobs) : Mach := { m with jobs := f m.jobs }
def onMem (m : Mach) (f : MemState → MemState) : Mach := { m with mem := f m.mem }
def onFtl (m : Mach) (f : Flash → Flash) : Mach := { m with ftl := f m.ftl }
def onHif (m : Mach) (f : HostIf → HostIf) : Mach := { m with hif := f m.hif }

/-- Superblocks, a namespace of four blocks on port 0, and the READY module with one mounted carrier that holds them. -/
def sblk (k : SbKind) (s : SbState) (u : Nat) : SBlk := ⟨k, 0, 0, s, u, 0, 0, 0, 0, 0⟩
def ns1 : Ns := ⟨4, 4096, 0, 0, 0, [0], none, none, [], [], Resv.reset⟩
def flashM : Mach := (onFtl hostM (fun f => { f with
  carriers := [(0, ⟨carrier 0, true, true⟩)], setId := 1, mounted := true, nss := [(1, ns1)],
  sbs := [(0, sblk .native .free 0), (1, sblk .native .free 0), (2, sblk .native .free 0), (3, sblk .slc .free 0)] })).setReg Reg.flmGcCfg 0x0201

/-- A pipeline queue with one entry to take, and machines where it lies on port 0. -/
def pq0 : PipeQ := ⟨1, 4, 4, 0, false, 0, 0x1000, 0, 1, 0, 0, [], []⟩
def ctx0 : PipeCtx := ⟨0, 1, 7, false, false⟩
def onPipe (m : Mach) (x : PipeQ) : Mach := m.setPipe 0 1 x
def pipeM : Mach := (onPipe hostM pq0).setFld Reg.memHostLimit 47 0 0x40000000

/-- A job of an image of one sample, whose shard another module holds, with the decoded cache. -/
def shard0 : ShardSpec := ⟨1, 1, false, 0, 1, 0, 0⟩
def img0 : JobImage := ⟨false, 5, 1, 0, 2, 0, 0, 1, 2, [shard0], none, [], ⟨false, false, false, 0, 0⟩, 0, 0, 0, none,
  some ⟨bytes 16, 0x400000, 0, 0, false, 1⟩, bytes 32⟩
def imgJob : Job := { job0 (.image img0) with state := 3, homes := [[0], [0]] }
def withJob (m : Mach) (x : Job) : Mach := onJobs m (fun j => { j with slots := [(0, x)] })

def late (m : Mach) : Mach := { m with spn := { m.spn with count := 10000000000 } }

/-- A queue of port 0 to queue 3 of node 9, with its slot's bytes and what it holds. -/
def qBody (peer head tail : Nat) : List Byte :=
  leBytes 4 9 ++ leBytes 4 peer ++ leBytes 8 0x1000 ++ [4, 0, 1, 0] ++ leBytes 4 head ++ leBytes 4 tail ++ bytes 9 ++ [0] ++ bytes 202
def qMach (x : XQueue) (b : List Byte) : Mach :=
  (onMem (({ hostM with xp := { hostM.xp with queues := [(0, x)], keys := [⟨1, 1, false, 0, 0x10000, 7, 2, false, 0, true⟩], nodes := [(9, ⟨[(0, ⟨0, false, 0, 0, [], [], true, 0, 0⟩)], 0⟩)] } }).setFld Reg.fabNodeId 31 0 5)
    (fun s => { s with ctx := [(0, ⟨3, 0, 1, 2, b⟩)], pools := [(0, { Pool.reset with enabled := true, ready := true, count := 2, fresh := 2, chuck := [1] })] })).setReg
    Reg.xptCfg 0x30640064
/-- A fabric port with its engine present, enabled, in SPARE mode; up with an engaged partner; with a part changed. -/
def fabOff : Mach := ((onM.setBit (Reg.fabCfg 0) 0 true).setBit (Reg.fabStatus 0) 29 true).setBit (Reg.fabStatus 0) 0 true
def fabUp : Mach := ((((fabOff.setBit (Reg.fabStatus 0) 31 true).setBit (Reg.fabStatus 0) 30 true).setFld (Reg.fabStatus 0) 23 20 15).setFld (Reg.fabStatus 0) 19 16 15)
def fabX (f : FabPort → FabPort) : Mach := (fabUp.setFab 0 (f (fabUp.fabPort 0)))
def q0 : Mach := qMach .fresh (qBody 3 0 0)
def sealPkt (p : YftPkt) (typ : Nat) : YftPkt := { p with crc := crc32c (pktHeader p typ ++ p.payload ++ p.tag) }
def mkPkt (typ n : Nat) (key addr : U64) : YftPkt :=
  sealPkt { pkt n 0 with srcNode := 9, dstNode := 5, srcQueue := 3, dstQueue := 0x40000, key := key, addr := addr, msgLen := BitVec.ofNat 32 n } typ
def key1 : U64 := 0x100000001
def txEnt (op : Nat) (f : List Byte) : TxMsg := ⟨0, leBytes 1 op ++ f, 0, none, false, none⟩
def xqe (e : TxMsg) (k : List TxPkt) : XQueue := { XQueue.fresh with entries := [e], pkts := k }
def tx0 (typ : Nat) (t : Option Nat) : TxPkt := ⟨0, typ, 0, 0, 0, 0, 16, 0, bytes 16, t, 0, 0⟩
theorem sealed_good {m : Mach} {typ : Nat} {p : YftPkt} (h : (p.frameOk && p.version.val = 1 && p.flags.toNat < 16 && p.path.toNat < 64 && p.rsv = 0 &&
    m.node ≠ 0 && p.dstNode.toNat = m.node && (!(typ = 3 || typ = 6) || (p.key = 0 && p.addr = 0)) &&
    payloadOk typ p.payload.length p.off.toNat p.msgLen.toNat && p.tag.length = (if bitAt p.flags.toNat 0 then 16 else 0)) = true) :
    m.pktGood typ (sealPkt p typ) = true := by
  have e : decide ((sealPkt p typ).crc = crc32c (pktHeader (sealPkt p typ) typ ++ (sealPkt p typ).payload ++ (sealPkt p typ).tag)) = true :=
    decide_eq_true rfl
  unfold Mach.pktGood
  dsimp only
  rw [e, Bool.and_true]
  exact h
theorem bad_version {m : Mach} {typ : Nat} {p : YftPkt} (h : p.version.val ≠ 1) : m.pktGood typ p = false := by
  unfold Mach.pktGood
  simp [h]
def nextOf (m : Mach) (o : Option (Nat × Mach)) : Mach := match o with | some x => x.2 | none => m

/-- The ring entry of that queue in device memory. -/
def wrEntry (op : Nat) : List Byte := leBytes 1 op ++ [0, 0, 0] ++ leBytes 4 16 ++ leBytes 8 0x2000 ++ leBytes 8 0x100000001 ++ bytes 40
def qEnt (op : Nat) : Mach := onMem (qMach .fresh (qBody 3 0 1)) (fun s => { s with gddr := memWrite s.gddr 0x1000 (wrEntry op) })
def qPipe (m : Mach) : Mach := (onPipe m pq0).setFld Reg.memHostLimit 47 0 0x40000000
def qc0 : QCreate := ⟨9, 3, 0x1000, 0, 4, 0, 1, 255, 0⟩
def withPool0 (m : Mach) : Mach := onMem m (fun s => { s with pools := [] })

/-- States and operands that meet the hypotheses of FabricLinks, for each of its clauses. -/
theorem meets_FabricLinks :
    (∃ (s : State) (p : Port) (c : Instr),
      ↑p < fabPorts s.variant ∧ s.mach.power.pwrOk = true ∧ s.mach.bit (Reg.fabCfg ↑p) 0 = true ∧ s.mach.bit (Reg.fabStatus ↑p) 29 = true ∧
        s.mach.linkUp ↑p = false ∧ (∀ k < 8, s.mach.laneOut (↑p) k = false) ∧ c ∈ [Instr.linkUp p true, Instr.bringupRetry p true true]) ∧
    (∃ (s : State) (p : Port),
      s.mach.linkUp ↑p = true ∧ s.mach.spareMode ↑p = true ∧ s.mach.spn.count ≤ (s.mach.fabPort ↑p).upAt + 100000000) ∧
    (∃ (s : State) (p : Port) (lane : Fin 9),
      s.mach.linkUp ↑p = true ∧ s.mach.spareMode ↑p = true ∧ s.mach.partner ↑p = true ∧ ↑lane ≤ 7 ∧ s.mach.rxSpared ↑p = 15 ∧
        (s.mach.fabPort ↑p).rx = none ∧ s.mach.bit (Reg.fabStatus ↑p) 29 = true) ∧
    (∃ (s : State) (p : Port) (lane : Fin 9) (t : ℕ),
      s.mach.linkUp ↑p = true ∧ s.mach.spareMode ↑p = true ∧ s.mach.partner ↑p = true ∧ ↑lane ≤ 7 ∧ s.mach.rxSpared ↑p = 15 ∧
        (s.mach.fabPort ↑p).rx = none ∧ (s.mach.fabPort ↑p).abandoned = some (↑lane, t) ∧ t + 1000000000 ≤ s.mach.spn.count) ∧
    (∃ (s : State) (p : Port) (lane : Fin 9),
      s.mach.linkUp ↑p = true ∧ s.mach.spareMode ↑p = true ∧ s.mach.partner ↑p = true ∧ ↑lane ≤ 7 ∧ s.mach.rxSpared ↑p = 15 ∧
        (s.mach.fabPort ↑p).rx = none ∧ s.mach.fld (Reg.fabSpareCtl ↑p) 23 20 = ↑lane) ∧
    (∃ (s : State) (p : Port) (lane : Fin 9),
      s.mach.linkUp ↑p = true ∧ s.mach.spareMode ↑p = true ∧ s.mach.partner ↑p = true ∧ ↑lane ≤ 7 ∧ s.mach.rxSpared ↑p ≠ 15) ∧
    (∃ (s : State) (p : Port),
      s.mach.linkUp ↑p = true ∧ s.mach.rxSpared ↑p ≠ 15 ∧ (s.mach.fabPort ↑p).rx = none) ∧
    (∃ (s : State) (p : Port) (lane : Fin 9),
      s.mach.linkUp ↑p = true ∧ s.mach.spareMode ↑p = true ∧ ↑lane ≤ 7 ∧ s.mach.txSpared ↑p = 15) ∧
    (∃ (s : State) (p : Port) (lane : Fin 9),
      s.mach.linkUp ↑p = true ∧ s.mach.spareMode ↑p = true ∧ ↑lane ≤ 7 ∧ s.mach.txSpared ↑p = ↑lane) ∧
    (∃ (s : State) (p : Port) (w : Swap),
      s.mach.linkUp ↑p = true ∧ (s.mach.fabPort ↑p).rx = some w ∧ w.acked = false ∧ w.lane < 8) ∧
    (∃ (s : State) (p : Port) (w : Swap),
      s.mach.linkUp ↑p = true ∧ (s.mach.fabPort ↑p).tx = some w ∧ w.lane < 8) ∧
    (∃ (s : State) (p : Port) (l : List (ℕ × ℕ × ℕ)),
      s.mach.linkUp ↑p = true ∧ l.length ≤ 9) ∧
    (∃ (s : State) (p : Port) (w : Swap),
      (s.mach.fabPort ↑p).rx = some w ∧ w.since + 1000000 ≤ s.mach.spn.count) ∧
    (∃ (s : State) (p : Port) (r : OeReading),
      s.mach.bit (Reg.fabStatus ↑p) 29 = true ∧ r.lowRx = []) :=
  ⟨⟨st0 fabOff, 0, .linkUp 0 true, by decide +kernel⟩,
    ⟨st0 fabUp, 0, by decide +kernel⟩,
    ⟨st0 fabUp, 0, 2, by decide +kernel⟩,
    ⟨st0 (late (fabX (fun x => { x with abandoned := some (2, 5) }))), 0, 2, 5, by decide +kernel⟩,
    ⟨st0 (fabUp.setFld (Reg.fabSpareCtl 0) 23 20 2), 0, 2, by decide +kernel⟩,
    ⟨st0 (fabUp.setFld (Reg.fabStatus 0) 23 20 2), 0, 3, by decide +kernel⟩,
    ⟨st0 (fabUp.setFld (Reg.fabStatus 0) 23 20 2), 0, by decide +kernel⟩,
    ⟨st0 fabUp, 0, 2, by decide +kernel⟩,
    ⟨st0 (fabUp.setFld (Reg.fabStatus 0) 19 16 2), 0, 2, by decide +kernel⟩,
    ⟨st0 (fabX (fun x => { x with rx := some ⟨2, false, false, 0⟩ })), 0, ⟨2, false, false, 0⟩, by decide +kernel⟩,
    ⟨st0 (fabX (fun x => { x with tx := some ⟨2, true, false, 0⟩ })), 0, ⟨2, true, false, 0⟩, by decide +kernel⟩,
    ⟨st0 fabUp, 0, [(40, 3, 3)], by decide +kernel⟩,
    ⟨st0 (late (fabX (fun x => { x with rx := some ⟨2, false, false, 0⟩ }))), 0, ⟨2, false, false, 0⟩, by decide +kernel⟩,
    ⟨st0 fabOff, 0, ⟨3, 4, [(1, 2)], []⟩, by decide +kernel⟩⟩

/-- States and operands that meet the hypotheses of YftReceive, for each of its clauses. -/
theorem meets_YftReceive :
    (∃ (s : State) (p : YftPkt) (typ : ℕ),
      1 ≤ typ ∧ typ ≤ 9 ∧ p.frameOk = true ∧ (framed s.mach p).pktGood typ p = false) ∧
    (∃ (s : State) (p : YftPkt) (typ : ℕ),
      1 ≤ typ ∧ typ ≤ 9 ∧ p.frameOk = true ∧ (framed s.mach p).pktGood typ p = true ∧ (framed s.mach p).pktLate p = true ∧ (framed s.mach
        p).pktQueue p = none) ∧
    (∃ (s : State) (p : YftPkt) (typ : ℕ),
      1 ≤ typ ∧ typ ≤ 9 ∧ p.frameOk = true ∧ (framed s.mach p).pktGood typ p = true ∧ (framed s.mach p).pktLate p = false ∧ p.dstQueue ≠ 0 ∧
        (framed s.mach p).pktQueue p = none) ∧
    (∃ (s : State) (p : YftPkt) (typ : ℕ) (ref : ℕ) (d : ℕ),
      bitAt (BitVec.toNat p.flags) 3 = false ∧ PktNew (framed s.mach p) typ p ref d ∧ typ = 1 ∧ (framed s.mach p).xkeyStatus (BitVec.toNat
        p.key) (BitVec.toNat p.addr) (BitVec.toNat p.msgLen) 1 false ((framed s.mach p).qSealed ref) = St.ok) ∧
    (∃ (s : State) (p : YftPkt) (typ : ℕ) (ref : ℕ) (d : ℕ),
      bitAt (BitVec.toNat p.flags) 3 = false ∧ PktNew (framed s.mach p) typ p ref d ∧ typ = 1 ∧ (framed s.mach p).xkeyStatus (BitVec.toNat
        p.key) (BitVec.toNat p.addr) (BitVec.toNat p.msgLen) 1 false ((framed s.mach p).qSealed ref) ≠ St.ok) ∧
    (∃ (s : State) (p : YftPkt) (typ : ℕ) (ref : ℕ) (d : ℕ),
      bitAt (BitVec.toNat p.flags) 3 = false ∧ PktNew (framed s.mach p) typ p ref d ∧ typ = 2 ∧ (framed s.mach p).xkeyStatus (BitVec.toNat
        p.key) (BitVec.toNat p.addr) (BitVec.toNat p.msgLen) 0 false ((framed s.mach p).qSealed ref) = St.ok) ∧
    (∃ (s : State) (p : YftPkt) (typ : ℕ) (ref : ℕ) (d : ℕ),
      bitAt (BitVec.toNat p.flags) 3 = false ∧ PktNew (framed s.mach p) typ p ref d ∧ typ = 4 ∧ (framed s.mach p).xkeyStatus (BitVec.toNat
        p.key) (BitVec.toNat p.addr) 8 2 false ((framed s.mach p).qSealed ref) = St.ok) ∧
    (∃ (s : State) (p : YftPkt) (typ : ℕ) (ref : ℕ) (d : ℕ),
      bitAt (BitVec.toNat p.flags) 3 = false ∧ PktNew (framed s.mach p) typ p ref d ∧ typ = 5 ∧ (framed s.mach p).xkeyStatus (BitVec.toNat
        p.key) (BitVec.toNat p.addr) 8 2 false ((framed s.mach p).qSealed ref) = St.ok ∧ Mach.devRead s.variant (framed s.mach p)
        (BitVec.toNat p.addr) 8 = List.take 8 p.payload) ∧
    (∃ (s : State) (p : YftPkt) (typ : ℕ) (ref : ℕ) (d : ℕ),
      bitAt (BitVec.toNat p.flags) 3 = false ∧ PktNew (framed s.mach p) typ p ref d ∧ typ = 5 ∧ (framed s.mach p).xkeyStatus (BitVec.toNat
        p.key) (BitVec.toNat p.addr) 8 2 false ((framed s.mach p).qSealed ref) = St.ok ∧ Mach.devRead s.variant (framed s.mach p)
        (BitVec.toNat p.addr) 8 ≠ List.take 8 p.payload) ∧
    (∃ (s : State) (p : YftPkt) (typ : ℕ) (ref : ℕ) (d : ℕ) (e : TxMsg),
      bitAt (BitVec.toNat p.flags) 3 = false ∧ PktNew (framed s.mach p) typ p ref d ∧ ((((framed s.mach p).markRx ref d).countAccepted
        ref).xq ref).entries = [e] ∧ typ = 3 ∧ e.index = BitVec.toNat p.msgSeq ∧ leAt e.bytes 0 1 ∈ [2] ∧ e.status = none) ∧
    (∃ (s : State) (p : YftPkt) (typ : ℕ) (ref : ℕ) (d : ℕ) (e : TxMsg),
      bitAt (BitVec.toNat p.flags) 3 = false ∧ PktNew (framed s.mach p) typ p ref d ∧ ((((framed s.mach p).markRx ref d).countAccepted
        ref).xq ref).entries = [e] ∧ typ = 6 ∧ e.index = BitVec.toNat p.msgSeq ∧ leAt e.bytes 0 1 ∈ [3, 4] ∧ e.status = none) ∧
    (∃ (s : State) (p : YftPkt) (typ : ℕ) (ref : ℕ) (d : ℕ) (h : ℕ) (r : List ℕ) (q : ℕ),
      bitAt (BitVec.toNat p.flags) 3 = false ∧ PktNew (framed s.mach p) typ p ref d ∧ typ = 7 ∧ mapFind ((framed s.mach p).xq ref).rx
        (BitVec.toNat p.msgSeq) = none ∧ (framed s.mach p).qNat ref 53 1 ≠ 255 ∧ BitVec.toNat p.msgLen ≤ bufSize ((framed s.mach p).qNat ref
        53 1) ∧ poolFor (BitVec.toNat p.msgLen) = some q ∧ ((framed s.mach p).pool q).chuck = h :: r ∧ ((framed s.mach p).pool q).ready =
        true ∧ BitVec.toNat p.msgLen = p.payload.length ∧ p.off = 0) ∧
    (∃ (s : State) (p : YftPkt) (typ : ℕ) (ref : ℕ) (d : ℕ) (q : ℕ),
      bitAt (BitVec.toNat p.flags) 3 = false ∧ PktNew (framed s.mach p) typ p ref d ∧ typ = 7 ∧ mapFind ((framed s.mach p).xq ref).rx
        (BitVec.toNat p.msgSeq) = none ∧ (framed s.mach p).qNat ref 53 1 ≠ 255 ∧ BitVec.toNat p.msgLen ≤ bufSize ((framed s.mach p).qNat ref
        53 1) ∧ poolFor (BitVec.toNat p.msgLen) = some q ∧ ((framed s.mach p).pool q).chuck = []) ∧
    (∃ (s : State) (p : YftPkt) (ref : ℕ) (e : TxMsg) (k : TxPkt),
      p.frameOk = true ∧ (framed s.mach p).pktLate p = false ∧ p.dstQueue ≠ 0 ∧ (framed s.mach p).pktQueue p = some ref ∧ ((framed s.mach
        p).xq ref).entries = [e] ∧ e.index = BitVec.toNat p.msgSeq ∧ leAt e.bytes 0 1 ∈ [1] ∧ e.status = none ∧ (framed s.mach p).pktGood 8
        p = true ∧ ((framed s.mach p).xq ref).pkts = [k] ∧ k.sent.isSome = true ∧ k.msgSeq = e.index ∧ k.typ = 1 ∧ ackCovers (BitVec.toNat
        p.psn) (BitVec.toNat p.addr) k.psn = true) ∧
    (∃ (s : State) (p : YftPkt) (ref : ℕ) (e : TxMsg),
      p.frameOk = true ∧ (framed s.mach p).pktLate p = false ∧ p.dstQueue ≠ 0 ∧ (framed s.mach p).pktQueue p = some ref ∧ ((framed s.mach
        p).xq ref).entries = [e] ∧ e.index = BitVec.toNat p.msgSeq ∧ leAt e.bytes 0 1 ∈ [1] ∧ e.status = none ∧ (framed s.mach p).pktGood 9
        p = true) ∧
    (∃ (s : State) (p : YftPkt) (ref : ℕ) (e : TxMsg) (k : TxPkt),
      p.frameOk = true ∧ (framed s.mach p).pktLate p = false ∧ p.dstQueue ≠ 0 ∧ (framed s.mach p).pktQueue p = some ref ∧ ((framed s.mach
        p).xq ref).entries = [e] ∧ e.index = BitVec.toNat p.msgSeq ∧ leAt e.bytes 0 1 ∈ [5] ∧ e.status = none ∧ (framed s.mach p).pktGood 9
        p = true ∧ BitVec.toNat p.msgLen % 2 ^ 16 = St.poolEmpty ∧ ((framed s.mach p).xq ref).pkts = [k] ∧ k.msgSeq = BitVec.toNat p.msgSeq
        ∧ k.typ = 7 ∧ k.sent.isSome = true) :=
  ⟨⟨st0 q0, { pkt 0 0 with version := 0 }, 2, by decide +kernel, by decide +kernel, by decide +kernel, bad_version (by decide)⟩,
    ⟨st0 q0, sealPkt { mkPkt 1 16 0 0 with sent := 0x1000000000000, dstQueue := 0x80000 } 1, 1, by decide +kernel, by decide +kernel, by decide +kernel, sealed_good (by decide +kernel), by decide +kernel⟩,
    ⟨st0 q0, sealPkt { mkPkt 1 16 0 0 with dstQueue := 0x80000 } 1, 1, by decide +kernel, by decide +kernel, by decide +kernel, sealed_good (by decide +kernel), by decide +kernel⟩,
    ⟨st0 q0, mkPkt 1 16 key1 0x100, 1, 0x40000, 0, by decide +kernel, (by unfold PktNew; exact ⟨by decide +kernel, sealed_good (by decide +kernel), by decide +kernel⟩), by decide +kernel⟩,
    ⟨st0 q0, mkPkt 1 16 0 0x100, 1, 0x40000, 0, by decide +kernel, (by unfold PktNew; exact ⟨by decide +kernel, sealed_good (by decide +kernel), by decide +kernel⟩), by decide +kernel⟩,
    ⟨st0 q0, sealPkt { mkPkt 2 0 key1 0x100 with msgLen := 16 } 2, 2, 0x40000, 0, by decide +kernel, (by unfold PktNew; exact ⟨by decide +kernel, sealed_good (by decide +kernel), by decide +kernel⟩), by decide +kernel⟩,
    ⟨st0 q0, mkPkt 4 8 key1 0x100, 4, 0x40000, 0, by decide +kernel, (by unfold PktNew; exact ⟨by decide +kernel, sealed_good (by decide +kernel), by decide +kernel⟩), by decide +kernel⟩,
    ⟨st0 q0, mkPkt 5 16 key1 0x100, 5, 0x40000, 0, by decide +kernel, (by unfold PktNew; exact ⟨by decide +kernel, sealed_good (by decide +kernel), by decide +kernel⟩), by decide +kernel⟩,
    ⟨st0 q0, sealPkt { mkPkt 5 16 key1 0x100 with payload := 1 :: bytes 15 } 5, 5, 0x40000, 0, by decide +kernel, (by unfold PktNew; exact ⟨by decide +kernel, sealed_good (by decide +kernel), by decide +kernel⟩), by decide +kernel⟩,
    ⟨st0 (qMach (xqe (txEnt 2 []) []) (qBody 3 1 1)), mkPkt 3 16 0 0, 3, 0x40000, 0, txEnt 2 [], by decide +kernel, (by unfold PktNew; exact ⟨by decide +kernel, sealed_good (by decide +kernel), by decide +kernel⟩), by decide +kernel⟩,
    ⟨st0 (qMach (xqe (txEnt 3 []) []) (qBody 3 1 1)), mkPkt 6 8 0 0, 6, 0x40000, 0, txEnt 3 [], by decide +kernel, (by unfold PktNew; exact ⟨by decide +kernel, sealed_good (by decide +kernel), by decide +kernel⟩), by decide +kernel⟩,
    ⟨st0 q0, mkPkt 7 16 0 0, 7, 0x40000, 0, 1, [], 0, by decide +kernel, (by unfold PktNew; exact ⟨by decide +kernel, sealed_good (by decide +kernel), by decide +kernel⟩), by decide +kernel⟩,
    ⟨st0 (withPool0 q0), mkPkt 7 16 0 0, 7, 0x40000, 0, 0, by decide +kernel, (by unfold PktNew; exact ⟨by decide +kernel, sealed_good (by decide +kernel), by decide +kernel⟩), by decide +kernel⟩,
    ⟨st0 (qMach (xqe (txEnt 1 []) [tx0 1 (some 0)]) (qBody 3 1 1)), sealPkt { mkPkt 8 0 0 0 with psn := 1 } 8, 0x40000, txEnt 1 [], tx0 1 (some 0), by decide +kernel⟩,
    ⟨st0 (qMach (xqe (txEnt 1 []) []) (qBody 3 1 1)), mkPkt 9 0 0 0, 0x40000, txEnt 1 [], by decide +kernel⟩,
    ⟨st0 (qMach (xqe (txEnt 5 []) [tx0 7 (some 0)]) (qBody 3 1 1)), sealPkt { mkPkt 9 0 0 0 with msgLen := BitVec.ofNat 32 St.poolEmpty } 9, 0x40000, txEnt 5 [], tx0 7 (some 0), by decide +kernel⟩⟩

/-- States and operands that meet the hypotheses of YftSend, for each of its clauses. -/
theorem meets_YftSend :
    (∃ (s : State) (q : U32) (op : ℕ) (x : CtxSlot) (b : List Byte),
      1 ≤ op ∧ op ≤ 6 ∧ EntryDue s.variant s.mach (BitVec.toNat q) op x b ∧
        ((s.mach.qAdd (BitVec.toNat q) 36 1).setXq (BitVec.toNat q) (have __src := s.mach.xq (BitVec.toNat q); { entries := (s.mach.xq (BitVec.toNat q)).entries ++ [{ index := slotNat x 36 4, bytes := b, got := 0, ackedAt := none, answered := false, status := none }], pkts := __src.pkts, rx := __src.rx, unacked := __src.unacked, ackSince := __src.ackSince, consumed := __src.consumed, drainSince := __src.drainSince, inbox := __src.inbox })).entryStatus (BitVec.toNat q) b ≠ St.ok) ∧
    (∃ (s : State) (q : U32) (op : ℕ) (x : CtxSlot) (b : List Byte),
      1 ≤ op ∧ op ≤ 6 ∧ EntryDue s.variant s.mach (BitVec.toNat q) op x b ∧
        ((s.mach.qAdd (BitVec.toNat q) 36 1).setXq (BitVec.toNat q) (have __src := s.mach.xq (BitVec.toNat q); { entries := (s.mach.xq (BitVec.toNat q)).entries ++ [{ index := slotNat x 36 4, bytes := b, got := 0, ackedAt := none, answered := false, status := none }], pkts := __src.pkts, rx := __src.rx, unacked := __src.unacked, ackSince := __src.ackSince, consumed := __src.consumed, drainSince := __src.drainSince, inbox := __src.inbox })).entryStatus (BitVec.toNat q) b = St.ok) ∧
    (∃ (s : State) (q : U32) (x : CtxSlot),
      s.mach.queue? (BitVec.toNat q) = some x ∧ (s.mach.xq (BitVec.toNat q)).unacked ≠ 0 ∧ (s.mach.xq (BitVec.toNat q)).ackSince + 1000 ≤
        s.mach.spn.count) ∧
    (∃ (s : State) (q : U32) (psn : U32) (x : CtxSlot) (z : TxPkt) (t0 : ℕ) (pa : ℕ) (u' : Mach),
      s.mach.queue? (BitVec.toNat q) = some x ∧ (s.mach.xq (BitVec.toNat q)).pkts = [z] ∧ z.psn = BitVec.toNat psn ∧ z.sent = some t0 ∧ t0 +
        s.mach.rtoNs ≤ s.mach.spn.count ∧ z.tries < s.mach.retryLimit ∧ (s.mach.pathTimeout (s.mach.qNat (BitVec.toNat q) 16 4)
        z.path).nextPath (s.mach.qNat (BitVec.toNat q) 16 4) ((s.mach.pathTimeout (s.mach.qNat (BitVec.toNat q) 16 4) z.path).qNat
        (BitVec.toNat q) 34 1) = some (pa, u')) ∧
    (∃ (s : State) (q : U32) (psn : U32) (x : CtxSlot) (z : TxPkt) (t0 : ℕ),
      s.mach.queue? (BitVec.toNat q) = some x ∧ (s.mach.xq (BitVec.toNat q)).pkts = [z] ∧ z.psn = BitVec.toNat psn ∧ z.sent = some t0 ∧ t0 +
        s.mach.rtoNs ≤ s.mach.spn.count ∧ s.mach.retryLimit ≤ z.tries ∧ z.typ = 3) ∧
    (∃ (s : State) (q : U32) (psn : U32) (x : CtxSlot) (e : TxMsg) (t0 : ℕ),
      s.mach.queue? (BitVec.toNat q) = some x ∧ (s.mach.xq (BitVec.toNat q)).entries = [e] ∧ leAt e.bytes 0 1 = 2 ∧ e.status = none ∧
        e.answered = false ∧ e.ackedAt = some t0 ∧ e.index = BitVec.toNat psn ∧ t0 + s.mach.fld Reg.xptCfg 17 10 * 1000000 ≤
        s.mach.spn.count) ∧
    (∃ (s : State) (q : U32) (tail : U32) (x : CtxSlot) (w : Writer),
      s.mach.queue? (BitVec.toNat q) = some x ∧ x.owner = writerOwner w ∧ slotNat x 33 1 = 0 ∧ 0 < (BitVec.toNat tail + 2 ^ 32 - slotNat x
        40 4) % 2 ^ 32 ∧ (BitVec.toNat tail + 2 ^ 32 - slotNat x 40 4) % 2 ^ 32 < 2 ^ 31 ∧ (BitVec.toNat tail + 2 ^ 32 - slotNat x 44 4) % 2
        ^ 32 ≤ 2 ^ slotNat x 32 1) ∧
    (∃ (s : State) (q : U32) (tail : U32) (x : CtxSlot) (w : Writer),
      s.mach.queue? (BitVec.toNat q) = some x ∧ x.owner = writerOwner w ∧ slotNat x 33 1 = 0 ∧ (BitVec.toNat tail + 2 ^ 32 - slotNat x 40 4)
        % 2 ^ 32 = 0) ∧
    (∃ (s : State) (q : U32) (tail : U32) (x : CtxSlot) (w : Writer),
      s.mach.queue? (BitVec.toNat q) = some x ∧ x.owner = writerOwner w ∧ reached32 (BitVec.toNat tail) (s.mach.xq (BitVec.toNat
        q)).consumed = true ∧ reached32 (slotNat x 64 4) (BitVec.toNat tail) = true) ∧
    (∃ (s : State) (q : U32) (x : CtxSlot) (w : Writer),
      s.mach.queue? (BitVec.toNat q) = some x ∧ x.owner ≠ writerOwner w) ∧
    (∃ (s : State) (q : U32) (x : CtxSlot) (t0 : ℕ),
      s.mach.queue? (BitVec.toNat q) = some x ∧ (s.mach.xq (BitVec.toNat q)).drainSince = some t0 ∧ t0 + 2 * s.mach.lifeNs ≤
        s.mach.spn.count) ∧
    (∃ (s : State) (node : U32) (pt : Fin 64) (nb : NetPath) (pr : Peer),
      s.mach.peer? (BitVec.toNat node) = some pr ∧ mapFind pr.paths ↑pt = some nb ∧ nb.good = false ∧ nb.badSince + 1000000 ≤
        s.mach.spn.count) ∧
    (∃ (s : State) (kc : KeyCreate),
      Mach.keyCreateStatus s.variant s.mach kc = St.ok ∧ s.mach.xp.lastKey < 2 ^ 32 - 1) ∧
    (∃ (s : State) (kc : KeyCreate),
      Mach.keyCreateStatus s.variant s.mach kc ≠ St.ok) ∧
    (∃ (s : State) (q : U32) (w : Writer) (xk : XKey),
      List.find? (fun k => decide (k.id = BitVec.toNat q)) s.mach.xp.keys = some xk ∧ xk.owner = writerOwner w) ∧
    (∃ (s : State) (q : U32) (w : Writer) (xk : XKey),
      List.find? (fun k => decide (k.id = BitVec.toNat q)) s.mach.xp.keys = some xk ∧ xk.owner ≠ writerOwner w) ∧
    (∃ (s : State) (c : PipeCtx) (pq : PipeQ) (qc : QCreate),
      PipeDue s.mach c pq ∧ qc.peerNode = 0 ∧ s.mach.inHost (BitVec.toNat qc.ringBase) (64 * 2 ^ BitVec.toNat qc.ringLog) = true ∧ qc.cqLog
        = 0 ∧ s.mach.inHost (BitVec.toNat qc.cqBase) 0 = true) ∧
    (∃ (s : State) (c : PipeCtx) (pq : PipeQ) (qc : QCreate) (r : ℕ) (u : Mach),
      PipeDue s.mach c pq ∧ s.mach.inHost (BitVec.toNat qc.ringBase) (64 * 2 ^ BitVec.toNat qc.ringLog) = true ∧ qc.cqLog = 0 ∧
        s.mach.inHost (BitVec.toNat qc.cqBase) 0 = true ∧ qc.peerNode ≠ 0 ∧ 4 ≤ BitVec.toNat qc.ringLog ∧ BitVec.toNat qc.ringLog ≤ 16 ∧ 1 ≤
        BitVec.toNat qc.paths ∧ BitVec.toNat qc.paths ≤ 64 ∧ qc.recvPool = 255 ∧ BitVec.toNat qc.tclass < 512 ∧ BitVec.toNat qc.ringBase %
        4096 = 0 ∧ Mach.ctxCreate s.variant (taken s.mach c pq) 3 (2 + ↑c.port) (leBytes 4 (BitVec.toNat qc.peerNode) ++ leBytes 4
        (BitVec.toNat qc.peerQueue) ++ leBytes 8 (BitVec.toNat qc.ringBase) ++ leBytes 1 (BitVec.toNat qc.ringLog) ++ [0] ++ leBytes 1
        (BitVec.toNat qc.paths) ++ [0] ++ leBytes 16 0 ++ leBytes 1 0 ++ leBytes 1 255 ++ leBytes 2 (BitVec.toNat qc.tclass) ++ leBytes 8
        (BitVec.toNat qc.cqBase)) = some (r, u)) ∧
    (∃ (s : State) (q : U32) (peer : U32) (x : CtxSlot) (c : PipeCtx) (pq : PipeQ),
      PipeDue s.mach c pq ∧ s.mach.queue? (BitVec.toNat q) = some x ∧ x.owner = 2 + ↑c.port ∧ slotNat x 20 4 = 0 ∧ slotNat x 33 1 = 0 ∧ peer
        ≠ 0) ∧
    (∃ (s : State) (q : U32) (c : PipeCtx) (pq : PipeQ),
      PipeDue s.mach c pq ∧ s.mach.queue? (BitVec.toNat q) = none) ∧
    (∃ (s : State) (pr : Peer) (c : PipeCtx) (pq : PipeQ) (a : PathArgs),
      PipeDue s.mach c pq ∧ ↑c.port = s.mach.hif.owner ∧ a.node ≠ 0 ∧ BitVec.toNat a.path < 64 ∧ a.kind = 1 ∧ BitVec.toNat a.port < fabPorts
        s.variant ∧ BitVec.toNat a.port < 2 ∧ a.vlan = 65535 ∧ s.mach.peer? (BitVec.toNat a.node) = some pr) ∧
    (∃ (s : State) (node : U32),
      s.mach.node ≠ 0 ∧ node ≠ 0 ∧ (s.mach.sync = 0 ∨ s.mach.sync = 2)) :=
  ⟨⟨st0 (qEnt 3), 0x40000, 3, ⟨3, 0, 1, 2, qBody 3 0 1⟩, wrEntry 3, by unfold EntryDue; decide +kernel⟩,
    ⟨st0 (qEnt 2), 0x40000, 2, ⟨3, 0, 1, 2, qBody 3 0 1⟩, wrEntry 2, by unfold EntryDue; decide +kernel⟩,
    ⟨st0 (late (qMach { XQueue.fresh with unacked := 1 } (qBody 3 0 0))), 0x40000, ⟨3, 0, 1, 2, qBody 3 0 0⟩, by decide +kernel⟩,
    ⟨st0 (late (qMach (xqe (txEnt 1 []) [tx0 1 (some 0)]) (qBody 3 0 0))), 0x40000, 0, ⟨3, 0, 1, 2, qBody 3 0 0⟩, tx0 1 (some 0), 0, 0, nextOf mm (((late (qMach (xqe (txEnt 1 []) [tx0 1 (some 0)]) (qBody 3 0 0))).pathTimeout 9 0).nextPath 9 1), by decide +kernel⟩,
    ⟨st0 (late (qMach (xqe (txEnt 2 []) [{ tx0 3 (some 0) with tries := 9 }]) (qBody 3 0 0))), 0x40000, 0, ⟨3, 0, 1, 2, qBody 3 0 0⟩, { tx0 3 (some 0) with tries := 9 }, 0, by decide +kernel⟩,
    ⟨st0 (late (qMach (xqe { txEnt 2 [] with ackedAt := some 0 } []) (qBody 3 0 0))), 0x40000, 0, ⟨3, 0, 1, 2, qBody 3 0 0⟩, { txEnt 2 [] with ackedAt := some 0 }, 0, by decide +kernel⟩,
    ⟨st0 q0, 0x40000, 1, ⟨3, 0, 1, 2, qBody 3 0 0⟩, .port 0, by decide +kernel⟩,
    ⟨st0 q0, 0x40000, 0, ⟨3, 0, 1, 2, qBody 3 0 0⟩, .port 0, by decide +kernel⟩,
    ⟨st0 q0, 0x40000, 0, ⟨3, 0, 1, 2, qBody 3 0 0⟩, .port 0, by decide +kernel⟩,
    ⟨st0 q0, 0x40000, ⟨3, 0, 1, 2, qBody 3 0 0⟩, .port 1, by decide +kernel⟩,
    ⟨st0 (late (qMach { XQueue.fresh with drainSince := some 0 } (qBody 3 0 0))), 0x40000, ⟨3, 0, 1, 2, qBody 3 0 0⟩, 0, by decide +kernel⟩,
    ⟨st0 (late (q0.setPeer 9 ⟨[(0, ⟨0, false, 0, 0, [], [], false, 3, 0⟩)], 0⟩)), 9, 0, ⟨0, false, 0, 0, [], [], false, 3, 0⟩, ⟨[(0, ⟨0, false, 0, 0, [], [], false, 3, 0⟩)], 0⟩, by decide +kernel⟩,
    ⟨st0 hostM, ⟨0, 0x1000, 0, false, 1, false⟩, by decide +kernel⟩,
    ⟨st0 hostM, ⟨0x1000, 0x1000, 0, false, 1, false⟩, by decide +kernel⟩,
    ⟨st0 q0, 1, .port 0, ⟨1, 1, false, 0, 0x10000, 7, 2, false, 0, true⟩, by decide +kernel⟩,
    ⟨st0 q0, 1, .port 1, ⟨1, 1, false, 0, 0x10000, 7, 2, false, 0, true⟩, by decide +kernel⟩,
    ⟨st0 (qPipe q0), ctx0, pq0, { qc0 with peerNode := 0 }, by unfold PipeDue; decide +kernel⟩,
    ⟨st0 (qPipe q0), ctx0, pq0, qc0, 0x40001, nextOf mm (Mach.ctxCreate .ylm5120 (taken (qPipe q0) ctx0 pq0) 3 2 (leBytes 4 9 ++ leBytes 4 3 ++ leBytes 8 0x1000 ++ leBytes 1 4 ++ [0] ++ leBytes 1 1 ++ [0] ++ leBytes 16 0 ++ leBytes 1 0 ++ leBytes 1 255 ++ leBytes 2 0 ++ leBytes 8 0)), by unfold PipeDue; decide +kernel⟩,
    ⟨st0 (qPipe (qMach .fresh (qBody 0 0 0))), 0x40000, 3, ⟨3, 0, 1, 2, qBody 0 0 0⟩, ctx0, pq0, by unfold PipeDue; decide +kernel⟩,
    ⟨st0 (qPipe q0), 0x40001, ctx0, pq0, by unfold PipeDue; decide +kernel⟩,
    ⟨st0 (qPipe q0), ⟨[(0, ⟨0, false, 0, 0, [], [], true, 0, 0⟩)], 0⟩, ctx0, pq0, ⟨9, 0, 1, 0, 65535, 0, bytes 6, bytes 16⟩, by unfold PipeDue; decide +kernel⟩,
    ⟨st0 q0, 9, by decide +kernel⟩⟩
def other (x : Job) : Job := { x with state := 5 }
def imgA : JobImage := { img0 with aug := some ⟨0, 0, 4, 0, 0, [], [], []⟩ }
def jobA : Job := { imgJob with kind := .image imgA }
def imgL : JobImage := { img0 with shards := [⟨1, 0, false, 0, 1, 0, 0⟩] }
def jobL : Job := { imgJob with kind := .image imgL }
def jobP : Job := { job0 (.codec codec0) with state := 3 }
def withEntry (st : EntState) : Mach := ring0 hostM [(3, entIn st 0 0 0)]

/-- A batch of one row of four elements on module channel 0, and an unordered record on channel 64. -/
def chanO : ChanSpec := ⟨1, true, 0, 2, 0, 0, 0, 0, 0, 0, 0, 0⟩
def batch1 : BatchSpec := ⟨false, 0, 0, 1, 4, 0, 0xFFFFFFFF, [4]⟩
def imgB (l : Nat) (o : Bool) : JobImage := { img0 with modules := 1, epochs := 1, batch := some batch1, chans := [{ chanO with ordered := o, lead := l }] }
def item0 : Item := ⟨0, 0, 0, none, false, bytes 16, 0⟩
def jobB (l : Nat) (o : Bool) : Job := { job0 (.image (imgB l o)) with state := 3, launch := some 0, chans := [if o then 0 else 64], lanes := [(0, ⟨1, 0, 0, false, [item0]⟩)] }
def chan0 (st : Nat) : Chan := ⟨0, 0, true, 2, 0, st, none, 0, 0⟩
def batchM (l : Nat) (o : Bool) (st : Nat) : Mach := onJobs (withJob hostM (jobB l o)) (fun j => { j with chans := [(0, chan0 st)] })
def keyNo : KeyRec := ⟨1, 1, false, 0, 0, bytes 32, 0, bytes 32⟩
def locked (m : Mach) : Mach := { m with ks := { m.ks with isOpen := true, keys := [keyNo], tables := [(0, [some keyNo.handle])] } }

/-- A codec request of one item in host memory, and a generation session with one sequence. -/
def codecBlk : List Byte := leBytes 4 0x43454443 ++ leBytes 2 1 ++ [1, 1, 0, 0] ++ leBytes 2 0 ++ leBytes 4 1 ++ leBytes 8 0x2000 ++ leBytes 8 0x4000 ++
  leBytes 8 64 ++ leBytes 8 0x3000 ++ bytes 16
def codecM : Mach := onMem pipeM (fun s => { s with gddr := memWrite (memWrite s.gddr 0x1000 codecBlk) 0x2000 (leBytes 8 0x5000 ++ leBytes 8 16) })
def codecR : CodecReq := { codec0 with op := 1, format := 2, acceptAbsent := true, items := [(0x5000, 9)], dst := 0x4000, dstLen := 64, results := 0x3000 }
def deflM : Mach := onMem hostM (fun s => { s with gddr := memWrite s.gddr 0x5000 [1, 4, 0, 0xFB, 0xFF, 1, 2, 3, 4] })
def jobC : Job := { job0 (.codec codecR) with state := 3 }
def seq0 : SeqRec := ⟨0x40000, [], [], [], none, []⟩
def sess (n : Nat) (l : List SeqRec) (w : List (List Byte)) : SessReq := ⟨256, [], 0x40000, 1, n, 1, 0, 16, 0, 0, w, 0, l⟩
def jobS (s : SessReq) : Job := { job0 (.session s) with state := 3 }
def seqBody (fl : Nat) : List Byte := bytes 8 ++ leBytes 4 3 ++ leBytes 4 9 ++ [255, 255, 255, 255] ++ leBytes 4 7 ++ leBytes 2 fl ++ bytes 214
def seqM (s : SessReq) (fl : Nat) : Mach := onMem (withJob hostM (jobS s)) (fun x => { x with ctx := [(0, ⟨5, 0, 1, 0x10, seqBody fl⟩)] })
def openC (mode : Nat) : List Byte := [0, BitVec.ofNat 8 mode] ++ [255, 255, 255, 255] ++ bytes 26 ++ leBytes 4 256 ++ leBytes 4 0 ++ leBytes 4 0xFFFFFFFF ++ bytes 20

/-- States and operands that meet the hypotheses of JobsAndUnits, for each of its clauses. -/
theorem meets_JobsAndUnits :
    (∃ (s : State) (c : PipeCtx) (pq : PipeQ) (addr : U64) (len : U64),
      PipeDue s.mach c pq ∧ s.mach.inHost (BitVec.toNat addr) (BitVec.toNat len) = true ∧ s.mach.role ≠ 2 ∧ (Mach.rawImage s.variant (taken
        s.mach c pq) (BitVec.toNat addr) (BitVec.toNat len)).parse.modules ≤ 1) ∧
    (∃ (s : State) (c : PipeCtx) (pq : PipeQ) (addr : U64) (len : U64),
      PipeDue s.mach c pq ∧ s.mach.inHost (BitVec.toNat addr) (BitVec.toNat len) = false ∧ (Mach.rawImage s.variant (taken s.mach c pq)
        (BitVec.toNat addr) (BitVec.toNat len)).parse.modules ≤ 1) ∧
    (∃ (s : State) (c : PipeCtx) (pq : PipeQ) (slot : Byte) (x : Job) (p : ℕ),
      PipeDue s.mach c pq ∧ BitVec.toNat slot ≤ 15 ∧ s.mach.job? (BitVec.toNat slot) = some x ∧ x.portOf = some p ∧ p = ↑c.port ∧ x.live =
        true) ∧
    (∃ (s : State) (c : PipeCtx) (pq : PipeQ) (slot : Byte) (x : Job) (p : ℕ),
      PipeDue s.mach c pq ∧ BitVec.toNat slot ≤ 15 ∧ s.mach.job? (BitVec.toNat slot) = some x ∧ x.portOf = some p ∧ p ≠ ↑c.port ∧ ↑c.port ≠
        s.mach.hif.owner) ∧
    (∃ (s : State) (c : PipeCtx) (pq : PipeQ) (slot : Byte),
      PipeDue s.mach c pq ∧ 15 < BitVec.toNat slot) ∧
    (∃ (s : State) (j : JobSlot) (x : Job) (t : ℕ),
      s.mach.job? ↑j = some x ∧ x.state = 2 ∧ x.launch = some t ∧ countReached s.mach.spn.count t = true) ∧
    (∃ (s : State) (j : JobSlot) (x : Job) (i : JobImage) (val : U32) (a : AugSpec),
      s.mach.job? ↑j = some x ∧ x.image? = some i ∧ i.aug = some a ∧ a.source = 0 ∧ 0 < (BitVec.toNat val + 2 ^ 32 - x.augReady) % 2 ^ 32 ∧
        (BitVec.toNat val + 2 ^ 32 - x.augReady) % 2 ^ 32 < 2 ^ 31 ∧ ((BitVec.toNat val + 2 ^ 32 - x.augDone) % 2 ^ 32 ≤ a.ringEpochs ∨ 2 ^
        31 ≤ (BitVec.toNat val + 2 ^ 32 - x.augDone) % 2 ^ 32)) ∧
    (∃ (s : State) (j : JobSlot) (x : Job) (i : JobImage) (val : U32) (a : AugSpec),
      s.mach.job? ↑j = some x ∧ x.image? = some i ∧ i.aug = some a ∧ a.source = 0 ∧ ((BitVec.toNat val + 2 ^ 32 - x.augReady) % 2 ^ 32 = 0 ∨
        2 ^ 31 ≤ (BitVec.toNat val + 2 ^ 32 - x.augReady) % 2 ^ 32)) ∧
    (∃ (s : State) (j : JobSlot) (x : Job) (i : JobImage) (epoch : U32) (pos : ℕ) (k : ℕ) (sh : ShardSpec) (f : List Byte),
      s.mach.job? ↑j = some x ∧ x.image? = some i ∧ x.state = 3 ∧ i.first ≤ BitVec.toNat epoch ∧ BitVec.toNat epoch < i.first + i.epochs ∧
        posModule i x.modules pos = x.m ∧ x.result (BitVec.toNat epoch) pos = none ∧ (∀ y ∈ x.fetched, y.1 ≠ (BitVec.toNat epoch, pos)) ∧
        shardOf i (posSample i (BitVec.toNat epoch) pos) = some (k, sh) ∧ sh.owner ≠ x.m ∧ x.lost.contains sh.owner = false ∧ frameLenOk f
        f.length = true) ∧
    (∃ (s : State) (j : JobSlot) (x : Job) (i : JobImage) (epoch : U32) (pos : ℕ) (k : ℕ) (sh : ShardSpec),
      s.mach.job? ↑j = some x ∧ x.image? = some i ∧ x.state = 3 ∧ i.first ≤ BitVec.toNat epoch ∧ BitVec.toNat epoch < i.first + i.epochs ∧
        posModule i x.modules pos = x.m ∧ x.result (BitVec.toNat epoch) pos = none ∧ (∀ y ∈ x.fetched, y.1 ≠ (BitVec.toNat epoch, pos)) ∧
        shardOf i (posSample i (BitVec.toNat epoch) pos) = some (k, sh) ∧ sh.owner = x.m ∧ s.mach.ns? sh.nsid = none ∧ i.policy.mediaSubst =
        false) ∧
    (∃ (s : State) (j : JobSlot) (x : Job),
      s.mach.job? ↑j = some x ∧ x.live = true) ∧
    (∃ (s : State) (j : JobSlot) (x : Job) (i : JobImage),
      s.mach.job? ↑j = some x ∧ x.state = 5 ∧ x.image? = some i) ∧
    (∃ (s : State) (x : Job) (toDie : Bool) (n : Fin 32) (bytes : List Byte) (rows : List ℕ),
      s.mach.job? (entryJob (sliceBytes bytes 0 64)) = some x ∧ x.state = 3 ∧ s.mach.rowsStarted x rows = true ∧ toDie = true ∧
        s.mach.depMet (sliceBytes bytes 0 64) = true ∧ ↑n < dieCount s.variant ∧ s.mach.tl.diesOut.contains ↑n = false) ∧
    (∃ (s : State) (x : Job) (toDie : Bool) (n : Fin 32) (bytes : List Byte) (rows : List ℕ),
      s.mach.job? (entryJob (sliceBytes bytes 0 64)) = some x ∧ x.state = 3 ∧ s.mach.rowsStarted x rows = true ∧ toDie = false ∧ ↑n <
        clusterCount s.variant ∧ s.mach.tl.diesOut.contains (↑n / 8) = false ∧ s.mach.ps.regionsOff.contains (↑n / 4) = false ∧ entryHome
        (sliceBytes bytes 0 64) = ↑n) ∧
    (∃ (s : State) (toDie : Bool) (n : Fin 32) (e : QEntry) (pos : ℕ),
      s.mach.entryAt (if toDie = true then QLoc.die (↑n) pos else QLoc.cluster (↑n) pos) = some e ∧ e.state = EntState.done ∧ e.kind =
        UnitKind.other ∧ e.adds = [] ∧ e.frees = [] ∧ e.status = St.ok ∧ s.mach.spn.starts = []) :=
  ⟨⟨st0 pipeM, ctx0, pq0, 0x1000, 64, by unfold PipeDue; decide +kernel⟩,
    ⟨st0 pipeM, ctx0, pq0, 0x40000000, 64, by unfold PipeDue; decide +kernel⟩,
    ⟨st0 (withJob pipeM (job0 (.codec codec0))), ctx0, pq0, 0, job0 (.codec codec0), 0, by unfold PipeDue; decide +kernel⟩,
    ⟨st0 (withJob (hostM.setPipe 1 1 pq0) (job0 (.codec codec0))), ⟨1, 1, 7, false, false⟩, pq0, 0, job0 (.codec codec0), 0, by unfold PipeDue; decide +kernel⟩,
    ⟨st0 pipeM, ctx0, pq0, 16, by unfold PipeDue; decide +kernel⟩,
    ⟨st0 (withJob hostM { jobP with state := 2, launch := some 0 }), 0, { jobP with state := 2, launch := some 0 }, 0, by decide +kernel⟩,
    ⟨st0 (withJob hostM jobA), 0, jobA, imgA, 1, ⟨0, 0, 4, 0, 0, [], [], []⟩, by decide +kernel⟩,
    ⟨st0 (withJob hostM jobA), 0, jobA, imgA, 0, ⟨0, 0, 4, 0, 0, [], [], []⟩, by decide +kernel⟩,
    ⟨st0 (withJob hostM imgJob), 0, imgJob, img0, 0, 0, 0, shard0, bytes 16, by decide +kernel⟩,
    ⟨st0 (withJob hostM jobL), 0, jobL, imgL, 0, 0, 0, ⟨1, 0, false, 0, 1, 0, 0⟩, by decide +kernel⟩,
    ⟨st0 (withJob hostM jobP), 0, jobP, by decide +kernel⟩,
    ⟨st0 (withJob hostM (other imgJob)), 0, other imgJob, img0, by decide +kernel⟩,
    ⟨st0 (withJob hostM jobP), jobP, true, 0, entB 0 0 0, [], by decide +kernel⟩,
    ⟨st0 (withJob hostM jobP), jobP, false, 0, entB 0 0 0, [], by decide +kernel⟩,
    ⟨st0 (withEntry .done), false, 0, { entIn .done 0 0 0 with status := St.ok }, 3, by decide +kernel⟩⟩

/-- States and operands that meet the hypotheses of BatchesCodecSessions, for each of its clauses. -/
theorem meets_BatchesCodecSessions :
    (∃ (s : State) (k : Fin 68) (h : Chan) (x : Job),
      s.mach.chan? ↑k = some h ∧ s.mach.job? h.job = some x ∧ h.ordered = true ∧ x.state = 3 ∧ h.started < h.next + h.depth) ∧
    (∃ (s : State) (k : Fin 68) (h : Chan) (x : Job),
      s.mach.chan? ↑k = some h ∧ s.mach.job? h.job = some x ∧ h.ordered = true ∧ x.state = 3 ∧ h.next + h.depth ≤ h.started) ∧
    (∃ (s : State) (k : Fin 68) (h : Chan) (x : Job) (i : JobImage) (bs : BatchSpec) (cs : ChanSpec) (rs : List ModRow) (t : ℕ),
      s.mach.chan? ↑k = some h ∧ s.mach.job? h.job = some x ∧ h.ordered = true ∧ x.state = 3 ∧ x.image? = some i ∧ x.launch = some t ∧
        i.batch = some bs ∧ i.chans[h.index]? = some cs ∧ h.next < h.started ∧ s.mach.spn.starts = [] ∧ batchRows x i bs (h.next *
        x.chans.length + h.index) = BatchRows.rows rs ∧ countReached s.mach.spn.count (dueCount cs t h.next) = false) ∧
    (∃ (s : State) (k : Fin 68) (h : Chan) (x : Job) (i : JobImage) (bs : BatchSpec) (cs : ChanSpec) (rs : List ModRow) (t : ℕ),
      s.mach.chan? ↑k = some h ∧ s.mach.job? h.job = some x ∧ h.ordered = true ∧ x.state = 3 ∧ x.image? = some i ∧ x.launch = some t ∧
        i.batch = some bs ∧ i.chans[h.index]? = some cs ∧ h.next < h.started ∧ s.mach.spn.starts = [] ∧ batchRows x i bs (h.next *
        x.chans.length + h.index) = BatchRows.rows rs ∧ countReached s.mach.spn.count (dueCount cs t h.next) = true ∧ s.mach.mayEmit h.job
        cs = false) ∧
    (∃ (s : State) (k : Fin 68) (h : Chan) (x : Job) (i : JobImage) (bs : BatchSpec) (cs : ChanSpec) (rs : List ModRow) (t : ℕ),
      s.mach.chan? ↑k = some h ∧ s.mach.job? h.job = some x ∧ h.ordered = true ∧ x.state = 3 ∧ x.image? = some i ∧ x.launch = some t ∧
        i.batch = some bs ∧ i.chans[h.index]? = some cs ∧ h.next < h.started ∧ s.mach.spn.starts = [] ∧ batchRows x i bs (h.next *
        x.chans.length + h.index) = BatchRows.rows rs ∧ countReached s.mach.spn.count (dueCount cs t h.next) = true ∧ s.mach.mayEmit h.job
        cs = true ∧ (countReached (max (rowsTime x rs) (h.lastEmit.getD 0)) (dueCount cs t h.next) = false ∨ max (rowsTime x rs)
        (h.lastEmit.getD 0) = dueCount cs t h.next)) ∧
    (∃ (s : State) (k : Fin 68) (x : Job) (i : JobImage) (cs : ChanSpec) (pos : ℕ) (epoch : U32) (it : Item) (j : JobSlot),
      s.mach.job? ↑j = some x ∧ x.image? = some i ∧ x.state = 3 ∧ x.emitted.contains (BitVec.toNat epoch, pos) = false ∧ s.mach.spn.starts =
        [] ∧ i.chans[pos / x.modules % max 1 i.chans.length]? = some cs ∧ cs.ordered = false ∧ s.mach.mayEmit (↑j) cs = true ∧ List.find?
        (fun a => decide (a.epoch = BitVec.toNat epoch) && decide (a.pos = pos)) (List.flatMap (fun s => s.2.items) x.lanes) = some it ∧
        x.chans.getD (pos / x.modules % max 1 i.chans.length) 0 = ↑k) ∧
    (∃ (s : State) (c : PipeCtx) (pq : PipeQ) (addr : U64),
      PipeDue s.mach c pq ∧ s.mach.inHost (BitVec.toNat addr) 64 = false) ∧
    (∃ (s : State) (c : PipeCtx) (pq : PipeQ) (addr : U64),
      PipeDue s.mach c pq ∧ s.mach.inHost (BitVec.toNat addr) 64 = true ∧ Mach.codecStatus s.variant (taken s.mach c pq) (BitVec.toNat addr)
        (Mach.devRead s.variant (taken s.mach c pq) (BitVec.toNat addr) 64) ≠ St.ok) ∧
    (∃ (s : State) (c : PipeCtx) (pq : PipeQ) (addr : U64) (jf : ℕ),
      PipeDue s.mach c pq ∧ s.mach.inHost (BitVec.toNat addr) 64 = true ∧ Mach.codecStatus s.variant (taken s.mach c pq) (BitVec.toNat addr)
        (Mach.devRead s.variant (taken s.mach c pq) (BitVec.toNat addr) 64) = St.ok ∧ (taken s.mach c pq).freeJob = some jf) ∧
    (∃ (s : State) (c : PipeCtx) (pq : PipeQ) (addr : U64) (jf : ℕ) (cl : List ℕ),
      PipeDue s.mach c pq ∧ s.mach.inHost (BitVec.toNat addr) 64 = true ∧ (taken s.mach c pq).freeJob = some jf ∧ takeClusters
        (Mach.clustersFor s.variant (taken s.mach c pq) jf 0 0) 0 = some cl ∧ s.mach.xp.keys.length < 16384) ∧
    (∃ (s : State) (x : Job) (pos : ℕ) (j : JobSlot) (cr : CodecReq) (out : List Byte) (len : ℕ),
      s.mach.job? ↑j = some x ∧ x.state = 3 ∧ x.kind = JobKind.codec cr ∧ cr.items = [(pos, len)] ∧ cr.op = 1 ∧ cr.abhar = false ∧ backed
        s.variant pos len = true ∧ bitAt (s.mach.jobAllowed ↑j) 0 = true ∧ out.length ≤ cr.dstLen ∧ unpack [] cr.format cr.acceptAbsent
        codecOutMax (Mach.devRead s.variant s.mach pos len) = CodecOut.out out) ∧
    (∃ (s : State) (x : Job) (j : JobSlot) (hs : List ℕ) (se : SessReq) (q : U32) (cx : CtxSlot) (inbox : List (List ℕ × ℕ)) (len : ℕ),
      s.mach.job? ↑j = some x ∧ x.state = 3 ∧ x.kind = JobKind.session se ∧ s.mach.queue? (BitVec.toNat q) = some cx ∧ (s.mach.xq
        (BitVec.toNat q)).inbox = (hs, len) :: inbox ∧ se.inBase ≤ BitVec.toNat q ∧ BitVec.toNat q < se.inBase + se.inQueues) ∧
    (∃ (s : State) (x : Job) (j : JobSlot) (cmd : List Byte) (se : SessReq),
      s.mach.job? ↑j = some x ∧ x.state = 3 ∧ x.kind = JobKind.session se ∧ 8 ≤ leAt (sliceBytes cmd 0 64) 1 1) ∧
    (∃ (s : State) (x : Job) (j : JobSlot) (cmd : List Byte) (se : SessReq),
      s.mach.job? ↑j = some x ∧ x.state = 3 ∧ x.kind = JobKind.session se ∧ leAt (sliceBytes cmd 0 64) 1 1 = 0 ∧ leAt (sliceBytes cmd 0 64)
        2 2 = 65535 ∧ leAt (sliceBytes cmd 0 64) 4 2 = 65535 ∧ leAt (sliceBytes cmd 0 64) 6 2 = 0 ∧ leAt (sliceBytes cmd 0 64) 16 8 % 64 = 0
        ∧ leAt (sliceBytes cmd 0 64) 32 4 = 256 ∧ leAt (sliceBytes cmd 0 64) 36 4 = 0 ∧ leAt (sliceBytes cmd 0 64) 40 4 = 4294967295 ∧
        zeroAt (sliceBytes cmd 0 64) 44 20 = true ∧ se.maxSeqs ≠ 0 ∧ se.maxSeqs ≤ se.seqs.length) ∧
    (∃ (s : State) (x : Job) (j : JobSlot) (cmd : List Byte) (se : SessReq),
      s.mach.job? ↑j = some x ∧ x.state = 3 ∧ x.kind = JobKind.session se ∧ leAt (sliceBytes cmd 0 64) 1 1 = 0 ∧ leAt (sliceBytes cmd 0 64)
        2 2 = 65535 ∧ leAt (sliceBytes cmd 0 64) 4 2 = 65535 ∧ leAt (sliceBytes cmd 0 64) 6 2 = 0 ∧ leAt (sliceBytes cmd 0 64) 16 8 % 64 = 0
        ∧ leAt (sliceBytes cmd 0 64) 32 4 = 256 ∧ leAt (sliceBytes cmd 0 64) 36 4 = 0 ∧ leAt (sliceBytes cmd 0 64) 40 4 = 4294967295 ∧
        zeroAt (sliceBytes cmd 0 64) 44 20 = true ∧ se.maxSeqs = 0) ∧
    (∃ (s : State) (x : Job) (j : JobSlot) (se : SessReq) (ref : U32),
      s.mach.job? ↑j = some x ∧ x.state = 3 ∧ x.kind = JobKind.session se ∧ se.seq? (BitVec.toNat ref) = none) ∧
    (∃ (s : State) (x : Job) (j : JobSlot) (se : SessReq) (ref : U32) (sq : SeqRec),
      s.mach.job? ↑j = some x ∧ x.state = 3 ∧ x.kind = JobKind.session se ∧ se.seq? (BitVec.toNat ref) = some sq ∧ bitAt (seqFlags
        (s.mach.slot (refSlot (BitVec.toNat ref)))) 4 = true) ∧
    (∃ (s : State) (x : Job) (j : JobSlot) (se : SessReq) (ref : U32) (stepNo : U32) (tok : U32) (sq : SeqRec),
      s.mach.job? ↑j = some x ∧ x.state = 3 ∧ x.kind = JobKind.session se ∧ se.seq? (BitVec.toNat ref) = some sq ∧ bitAt (seqFlags
        (s.mach.slot (refSlot (BitVec.toNat ref)))) 4 = false ∧ BitVec.toNat stepNo = slotNat (s.mach.slot (refSlot (BitVec.toNat ref))) 24
        4 ∧ slotNat (s.mach.slot (refSlot (BitVec.toNat ref))) 32 2 = 65535 ∧ slotNat (s.mach.slot (refSlot (BitVec.toNat ref))) 34 2 =
        65535 ∧ BitVec.toNat tok ≠ slotNat (s.mach.slot (refSlot (BitVec.toNat ref))) 36 4 ∧ BitVec.toNat stepNo + 1 < slotNat (s.mach.slot
        (refSlot (BitVec.toNat ref))) 28 4 ∧ bitAt (seqFlags (s.mach.slot (refSlot (BitVec.toNat ref)))) 3 = false ∧ seqStack (s.mach.slot
        (refSlot (BitVec.toNat ref))) = []) ∧
    (∃ (s : State) (x : Job) (j : JobSlot) (f : List Byte) (se : SessReq) (fs : List (List Byte)),
      s.mach.job? ↑j = some x ∧ x.state = 3 ∧ x.kind = JobKind.session se ∧ se.writing = f :: fs) :=
  ⟨⟨st0 (batchM 0 true 0), 0, chan0 0, jobB 0 true, by decide +kernel⟩,
    ⟨st0 (batchM 0 true 2), 0, chan0 2, jobB 0 true, by decide +kernel⟩,
    ⟨st0 (batchM 5 true 1), 0, chan0 1, jobB 5 true, imgB 5 true, batch1, { chanO with lead := 5 }, [.real [⟨item0, 0, 4, false⟩]], 0, by decide +kernel⟩,
    ⟨st0 (locked (batchM 0 true 1)), 0, chan0 1, jobB 0 true, imgB 0 true, batch1, { chanO with lead := 0 }, [.real [⟨item0, 0, 4, false⟩]], 0, by decide +kernel⟩,
    ⟨st0 (batchM 0 true 1), 0, chan0 1, jobB 0 true, imgB 0 true, batch1, { chanO with lead := 0 }, [.real [⟨item0, 0, 4, false⟩]], 0, by decide +kernel⟩,
    ⟨st0 (batchM 0 false 0), 64, jobB 0 false, imgB 0 false, { chanO with ordered := false }, 0, 0, item0, 0, by decide +kernel⟩,
    ⟨st0 pipeM, ctx0, pq0, 0x40000000, by unfold PipeDue; decide +kernel⟩,
    ⟨st0 pipeM, ctx0, pq0, 0x1000, by unfold PipeDue; decide +kernel⟩,
    ⟨st0 codecM, ctx0, pq0, 0x1000, 0, by unfold PipeDue; decide +kernel⟩,
    ⟨st0 codecM, ctx0, pq0, 0x1000, 0, (takeClusters (Mach.clustersFor .ylm5120 (taken codecM ctx0 pq0) 0 0 0) 0).getD [], by unfold PipeDue; decide +kernel⟩,
    ⟨st0 (withJob deflM jobC), jobC, 0x5000, 0, codecR, [1, 2, 3, 4], 9, by decide +kernel⟩,
    ⟨st0 (withJob (qMach { XQueue.fresh with inbox := [([1], 64)] } (qBody 3 0 0)) (jobS (sess 0 [] []))), jobS (sess 0 [] []), 0, [1], sess 0 [] [], 0x40000, ⟨3, 0, 1, 2, qBody 3 0 0⟩, [], 64, by decide +kernel⟩,
    ⟨st0 (seqM (sess 0 [] []) 0), jobS (sess 0 [] []), 0, openC 8, sess 0 [] [], by decide +kernel⟩,
    ⟨st0 (seqM (sess 1 [seq0] []) 0), jobS (sess 1 [seq0] []), 0, openC 0, sess 1 [seq0] [], by decide +kernel⟩,
    ⟨st0 (seqM (sess 0 [] []) 0), jobS (sess 0 [] []), 0, openC 0, sess 0 [] [], by decide +kernel⟩,
    ⟨st0 (seqM (sess 0 [] []) 0), jobS (sess 0 [] []), 0, sess 0 [] [], 0x40000, by decide +kernel⟩,
    ⟨st0 (seqM (sess 0 [seq0] []) 16), jobS (sess 0 [seq0] []), 0, sess 0 [seq0] [], 0x40000, seq0, by decide +kernel⟩,
    ⟨st0 (seqM (sess 0 [seq0] []) 0), jobS (sess 0 [seq0] []), 0, sess 0 [seq0] [], 0x40000, 3, 5, seq0, by decide +kernel⟩,
    ⟨st0 (seqM (sess 0 [] [bytes 16]) 0), jobS (sess 0 [] [bytes 16]), 0, bytes 16, sess 0 [] [bytes 16], [], by decide +kernel⟩⟩
/-- The frame of the text "hi", and its record under kernel 0x100. -/
def frameHi : List Byte := leBytes 4 0x52484241 ++ leBytes 4 7 ++ [1, 0, 4, 0, 0xA2, 0x01, 0x04, 0x02, 0x62, 0x68, 0x69] ++ leBytes 4 0x5CF19507 ++ bytes 9
def recHi : RecordIn := ⟨frameHi, 0x5CF19507, leBytes 2 0x100 ++ bytes 62, false, [], false, []⟩

/-- A vocabulary whose token b is the byte b, with no merges, and options that name no more. -/
def vocabHead : List Byte := leBytes 4 magicVocab ++ leBytes 2 1 ++ leBytes 2 1 ++ leBytes 4 256 ++ leBytes 4 256 ++ bytes 48
def vocabMap : List Byte := (List.range 256).flatMap (leBytes 4)
def vocabRecs : List Byte := (List.range 256).flatMap (fun i => leBytes 4 i ++ [1, 0, 0, 0])
def vocabPool : List Byte := (List.range 256).flatMap (fun i => [BitVec.ofNat 8 i])
def vocab256 : List Byte := vocabHead ++ (vocabMap ++ (vocabRecs ++ vocabPool))
def tokOpts : List Byte := [0, 0, 1, 0, 255, 255, 255, 255, 255, 255, 255, 255] ++ bytes 52

theorem flatMap_slice {n : Nat} {f : Nat → List Byte} (hf : ∀ x, (f x).length = n) (p : List Byte) (k : Nat) :
    ∀ (l : List Nat) (i : Nat), l[i]? = some k → ((l.flatMap f ++ p).drop (n * i)).take n = f k
  | [], i, h => by simp at h
  | a :: l, 0, h => by
    obtain rfl : a = k := by simpa using h
    simp [← hf a, List.append_assoc]
  | a :: l, i + 1, h => by
    have h' : l[i]? = some k := by simpa using h
    have e : n * (i + 1) = (f a).length + n * i := by rw [hf, Nat.mul_succ, Nat.add_comm]
    rw [List.flatMap_cons, List.append_assoc, e, List.drop_append, List.drop_of_length_le (by omega), Nat.add_sub_cancel_left, List.nil_append]
    exact flatMap_slice hf p k l i h'

theorem part_slice {n : Nat} {f : Nat → List Byte} (hf : ∀ x, (f x).length = n) {a : List Byte} {o : Nat} (ha : a.length = o) (p : List Byte) {k : Nat}
    (hk : k < 256) : sliceBytes (a ++ ((List.range 256).flatMap f ++ p)) (o + n * k) n = f k := by
  have e : ((a ++ ((List.range 256).flatMap f ++ p)).drop (o + n * k)).take n = f k := by
    rw [← ha, List.drop_append, List.drop_of_length_le (by omega), Nat.add_sub_cancel_left, List.nil_append]
    exact flatMap_slice hf p k _ k (by simp [hk])
  simp only [sliceBytes]
  rw [e, hf, Nat.sub_self, List.replicate_zero, List.append_nil]

theorem small_values : ∀ k < 256, ofLe (leBytes 4 k) = k ∧ bitsOf (ofLe (leBytes 4 k ++ [1, 0, 0, 0])) 31 0 = k ∧
    bitsOf (ofLe (leBytes 4 k ++ [1, 0, 0, 0])) 39 32 = 1 := by decide +kernel
theorem leBytes_len : ∀ n x : Nat, (leBytes n x).length = n
  | 0, _ => rfl
  | n + 1, x => by rw [leBytes, List.length_cons, leBytes_len]

theorem vocab256_byte (b : Byte) : tokenBytes vocab256 (byteToken vocab256 b) = [b] := by
  have hb : b.toNat < 256 := b.isLt
  have h0 : vocabTokens vocab256 = 256 := by decide +kernel
  have hl : vocabHead.length = 0x40 := by decide +kernel
  have hm : (vocabHead ++ vocabMap).length = 0x440 := by decide +kernel
  have hr : (vocabHead ++ (vocabMap ++ vocabRecs)).length = 0xC40 := by decide +kernel
  have h1 : byteToken vocab256 b = b.toNat := by
    unfold byteToken leAt
    rw [vocab256, vocabMap, part_slice (leBytes_len 4) hl _ hb, (small_values _ hb).1]
  have h2 : tokenRec vocab256 b.toNat = ofLe (leBytes 4 b.toNat ++ [1, 0, 0, 0]) := by
    unfold tokenRec leAt
    rw [vocab256, ← List.append_assoc, vocabRecs, part_slice (n := 8) (fun x => by simp [leBytes_len]) hm _ hb]
  have h3 : sliceBytes vocab256 (0xC40 + 1 * b.toNat) 1 = [b] := by
    have e : vocab256 = (vocabHead ++ (vocabMap ++ vocabRecs)) ++ ((List.range 256).flatMap (fun i => [BitVec.ofNat 8 i]) ++ []) := by
      simp only [vocab256, vocabPool, List.append_assoc, List.append_nil]
    rw [e, part_slice (n := 1) (fun x => rfl) hr [] hb, BitVec.ofNat_toNat, BitVec.setWidth_eq]
  rw [h1, tokenBytes, h2, (small_values _ hb).2.1, (small_values _ hb).2.2, h0, ← h3]
  simp only [Nat.one_mul]
theorem vocab256_named : tokVocab [vocab256] tokOpts = vocab256 := by decide +kernel
theorem merges256 : tokMerges [vocab256] tokOpts = [] := by decide +kernel
theorem mergeRank_empty (a b : Nat) : mergeRank [] a b = none := by
  have h : leAt [] 7 1 = 0 := by decide
  unfold mergeRank
  rw [h]
  simp only [probeBuckets, Option.bind_none]

/-- States and operands that meet the hypotheses of RecordsDecodeWithinLimits, for each of its clauses. -/
theorem meets_RecordsDecodeWithinLimits :
    (∃ (r : RecordIn) (d : Decoded),
      processRecord r = RecordRes.decoded d) ∧
    (∃ (r : RecordIn),
      leAt r.frame (12 + leAt r.frame 4 4) 4 ≠ r.crc) ∧
    (∃ (l : List Byte),
      ((utf8Units (l.length + 1) l).all fun u => u.1) = true) ∧
    (∃ (l : List Byte),
      ((utf8Units (l.length + 1) l).all fun u => u.1) = false) :=
  ⟨⟨recHi, .text [0x68, 0x69], by decide +kernel⟩,
    ⟨{ recHi with crc := 0 }, by decide +kernel⟩,
    ⟨[0x68], by decide +kernel⟩,
    ⟨[0xFF], by decide +kernel⟩⟩

/-- States and operands that meet the hypotheses of DetokeniseGivesBack, for each of its clauses. -/
theorem meets_DetokeniseGivesBack :
    (∃ (ts : List (List Byte)) (o : List Byte),
      (∀ (b : Byte), tokenBytes (tokVocab ts o) (byteToken (tokVocab ts o) b) = [b]) ∧ (∀ (a b r : ℕ), mergeRank (tokMerges ts o) a b = some
        r → tokenBytes (tokVocab ts o) (mergedToken (tokMerges ts o) r) = tokenBytes (tokVocab ts o) a ++ tokenBytes (tokVocab ts o) b) ∧
        leAt o 4 2 = 65535 ∧ leAt o 6 2 = 65535 ∧ leAt o 8 4 = 4294967295) :=
    ⟨[vocab256], tokOpts, (by intro b; rw [vocab256_named]; exact vocab256_byte b),
    (by intro a b r h; rw [merges256, mergeRank_empty] at h; cases h), by decide +kernel, by decide +kernel, by decide +kernel⟩
def k7 : KeyRec := ⟨1, 1, false, 31, 0, bytes 32, 0, bytes 32⟩
def keyM (k : KeyRec) : Mach := { hostM with ks := { hostM.ks with isOpen := true, keys := [k] } }
def fullKeys : Mach := { hostM with ks := { hostM.ks with isOpen := true, keys := List.replicate 4096 k7 } }
def migM (x : Migration) : Mach := onBoot flashM (fun b => { b with migration := x })
def pqx (f : PipeQ → PipeQ) : Mach := onPipe hostM (f pq0)
def dcM (l : List DcEntry) (segs : Nat) : Mach :=
  onJobs (withJob hostM imgJob) (fun j => { j with dc := { j.dc with job := some 0, gddrSegs := segs, ring := l } })
def dce : DcEntry := ⟨bytes 32, 0, 16, 0, bytes 8, 0⟩

def flashOpen : Mach := { flashM with ks := { flashM.ks with isOpen := true } }

/-- States and operands that meet the hypotheses of KeyStoreAndMigration, for each of its clauses. -/
theorem meets_KeyStoreAndMigration :
    (∃ (s : State) (n : NvmeCtx) (policy : Byte) (flags : U16) (signer : List Byte),
      Served s.mach n NvmeKind.owner ∧ s.mach.ks.keys.length < 4096 ∧ keyFieldsOk (BitVec.toNat policy) (BitVec.toNat flags) signer = true) ∧
    (∃ (s : State) (n : NvmeCtx) (policy : Byte) (flags : U16) (signer : List Byte),
      Served s.mach n NvmeKind.owner ∧ s.mach.ks.keys.length < 4096 ∧ keyFieldsOk (BitVec.toNat policy) (BitVec.toNat flags) signer = false) ∧
    (∃ (s : State) (n : NvmeCtx),
      Served s.mach n NvmeKind.owner ∧ 4096 ≤ s.mach.ks.keys.length) ∧
    (∃ (s : State) (n : NvmeCtx) (h : U64),
      Served s.mach n NvmeKind.owner ∧ s.mach.key? (BitVec.toNat h) = none) ∧
    (∃ (s : State) (n : NvmeCtx) (policy : Byte) (h : U64) (k : KeyRec),
      Served s.mach n NvmeKind.owner ∧ s.mach.key? (BitVec.toNat h) = some k ∧ BitVec.toNat policy &&& k.policy = BitVec.toNat policy) ∧
    (∃ (s : State) (n : NvmeCtx) (policy : Byte) (h : U64) (k : KeyRec),
      Served s.mach n NvmeKind.owner ∧ s.mach.key? (BitVec.toNat h) = some k ∧ BitVec.toNat policy &&& k.policy ≠ BitVec.toNat policy) ∧
    (∃ (s : State) (n : NvmeCtx) (h : U64) (k : KeyRec),
      Served s.mach n NvmeKind.owner ∧ s.mach.key? (BitVec.toNat h) = some k ∧ k.revoked = true ∧ s.mach.holders k.handle = [] ∧ (∀ p ∈
        s.mach.ftl.nss, p.2.key ≠ k.handle)) ∧
    (∃ (s : State) (n : NvmeCtx) (h : U64) (k : KeyRec),
      Served s.mach n NvmeKind.owner ∧ s.mach.key? (BitVec.toNat h) = some k ∧ k.revoked = false) ∧
    (∃ (s : State),
      s.mach.fld Reg.glbAdopt 7 4 ≠ 0) ∧
    (∃ (s : State),
      s.mach.boot.migration = Migration.requested) ∧
    (∃ (s : State) (nonce : List Byte),
      s.mach.boot.migration = Migration.offered nonce) ∧
    (∃ (s : State) (nonce : List Byte) (p : MigPackage),
      s.mach.boot.migration = Migration.reported nonce ∧ (p.setId ≠ s.mach.ftl.setId ∨ p.generation < s.mach.neededGen)) ∧
    (∃ (s : State) (nonce : List Byte) (p : MigPackage),
      s.mach.boot.migration = Migration.reported nonce ∧ p.setId = s.mach.ftl.setId ∧ s.mach.neededGen ≤ p.generation ∧ p.generation ≠ 0) ∧
    (∃ (s : State),
      s.mach.boot.migration = Migration.sent) :=
  ⟨⟨st0 flashOpen, host0, 31, 0, bytes 32, by unfold Served; decide +kernel⟩,
    ⟨st0 flashOpen, host0, 32, 0, bytes 32, by unfold Served; decide +kernel⟩,
    ⟨st0 fullKeys, host0, by unfold Served; decide +kernel, by rw [show (st0 fullKeys).mach.ks.keys = List.replicate 4096 k7 from rfl, List.length_replicate]⟩,
    ⟨st0 flashOpen, host0, 5, by unfold Served; decide +kernel⟩,
    ⟨st0 (keyM k7), host0, 3, BitVec.ofNat 64 k7.handle, k7, by unfold Served; decide +kernel⟩,
    ⟨st0 (keyM { k7 with policy := 1 }), host0, 3, BitVec.ofNat 64 k7.handle, { k7 with policy := 1 }, by unfold Served; decide +kernel⟩,
    ⟨st0 (keyM { k7 with revoked := true }), host0, BitVec.ofNat 64 k7.handle, { k7 with revoked := true }, by unfold Served; decide +kernel⟩,
    ⟨st0 (keyM k7), host0, BitVec.ofNat 64 k7.handle, k7, by unfold Served; decide +kernel⟩,
    ⟨st0 (hostM.setFld Reg.glbAdopt 7 4 1), by decide +kernel⟩,
    ⟨st0 (migM .requested), by decide +kernel⟩,
    ⟨st0 (migM (.offered (bytes 32))), bytes 32, by decide +kernel⟩,
    ⟨st0 (migM (.reported (bytes 32))), bytes 32, ⟨2, 1, [], []⟩, by decide +kernel⟩,
    ⟨st0 (migM (.reported (bytes 32))), bytes 32, ⟨1, 1, [], []⟩, by decide +kernel⟩,
    ⟨st0 (migM .sent), by decide +kernel⟩⟩

/-- States and operands that meet the hypotheses of PipelineQueues, for each of its clauses. -/
theorem meets_PipelineQueues :
    (∃ (s : State) (n : NvmeCtx) (q : Fin 512) (sqLog : ℕ) (cqLog : ℕ) (vector : ℕ) (sqBase : U64) (cqBase : U64),
      Served s.mach n NvmeKind.admin ∧ 4 ≤ sqLog ∧ sqLog ≤ 12 ∧ 4 ≤ cqLog ∧ cqLog ≤ 12 ∧ vector ≤ 263 ∧ BitVec.toNat sqBase % 4096 = 0 ∧
        BitVec.toNat cqBase % 4096 = 0 ∧ s.mach.pipeQ ↑n.port ↑q = none) ∧
    (∃ (s : State) (n : NvmeCtx) (vector : ℕ),
      Served s.mach n NvmeKind.admin ∧ vector > 263) ∧
    (∃ (s : State) (n : NvmeCtx) (q : Fin 512) (x : PipeQ),
      Served s.mach n NvmeKind.admin ∧ s.mach.pipeQ ↑n.port ↑q = some x) ∧
    (∃ (w : Port) (p : Port),
      w ≠ p) ∧
    (∃ (s : State) (w : Port) (p : Port) (q : Fin 512),
      w = p ∧ s.mach.pipeQ ↑p ↑q = none) ∧
    (∃ (s : State) (w : Port) (p : Port) (q : Fin 512) (t : BitVec 12) (x : PipeQ),
      w = p ∧ s.mach.pipeQ ↑p ↑q = some x ∧ t.toNat < 2 ^ x.sqLog ∧ (x.sqTail + 2 ^ x.sqLog - x.sqHead) % 2 ^ x.sqLog + (t.toNat + 2 ^
        x.sqLog - x.sqTail) % 2 ^ x.sqLog ≤ 2 ^ x.sqLog - 1) ∧
    (∃ (s : State) (w : Port) (p : Port) (q : Fin 512) (t : BitVec 12) (x : PipeQ),
      w = p ∧ s.mach.pipeQ ↑p ↑q = some x ∧ (2 ^ x.sqLog ≤ t.toNat ∨ 2 ^ x.sqLog - 1 < (x.sqTail + 2 ^ x.sqLog - x.sqHead) % 2 ^ x.sqLog +
        (t.toNat + 2 ^ x.sqLog - x.sqTail) % 2 ^ x.sqLog)) ∧
    (∃ (s : State) (w : Port) (p : Port) (q : Fin 512) (h : BitVec 12) (x : PipeQ),
      w = p ∧ s.mach.pipeQ ↑p ↑q = some x ∧ 2 ^ x.cqLog ≤ h.toNat) ∧
    (∃ (s : State) (w : Port) (p : Port) (q : Fin 512) (h : BitVec 12) (x : PipeQ),
      w = p ∧ s.mach.pipeQ ↑p ↑q = some x ∧ h.toNat < 2 ^ x.cqLog ∧ x.waiting = []) ∧
    (∃ (s : State) (w : Port) (p : Port) (q : Fin 512) (h : BitVec 12) (x : PipeQ) (k : PipeCpl),
      w = p ∧ s.mach.pipeQ ↑p ↑q = some x ∧ h.toNat < 2 ^ x.cqLog ∧ x.waiting = [k] ∧ (x.posted + 1) % 2 ^ x.cqLog ≠ h.toNat) ∧
    (∃ (s : State) (x : PipeQ) (c : PipeCtx),
      s.mach.pipeQ ↑c.port ↑c.q = some x ∧ s.mach.fetches = true ∧ x.sqHead ≠ x.sqTail ∧ (c.fence = false ∨ x.started = []) ∧ BitVec.toNat
        c.cid ∉ x.started ∧ x.waiting = [] ∧ (x.posted + 1) % 2 ^ x.cqLog ≠ x.cqHead) ∧
    (∃ (s : State) (p : Port),
      ↑p = s.mach.hif.owner) ∧
    (∃ (s : State) (p : Port) (d : ℕ),
      ↑p ≠ s.mach.hif.owner ∧ (s.mach.port s.mach.hif.owner).downSince = some d ∧ d + 10000000000 ≤ s.mach.spn.count) ∧
    (∃ (s : State) (p : Port),
      ↑p = s.mach.hif.owner ∨ (s.mach.port s.mach.hif.owner).downSince = none) :=
  ⟨⟨st0 hostM, host0, 3, 4, 12, 263, 0, 0x1000, by unfold Served; decide +kernel⟩,
    ⟨st0 hostM, host0, 264, by unfold Served; decide +kernel⟩,
    ⟨st0 pipeM, host0, 1, pq0, by unfold Served; decide +kernel⟩,
    ⟨0, 1, by decide +kernel⟩,
    ⟨st0 hostM, 0, 0, 1, by decide +kernel⟩,
    ⟨st0 (pqx (fun x => { x with sqTail := 0 })), 0, 0, 1, 15, { pq0 with sqTail := 0 }, by decide +kernel⟩,
    ⟨st0 (pqx id), 0, 0, 1, 16, pq0, by decide +kernel⟩,
    ⟨st0 (pqx id), 0, 0, 1, 16, pq0, by decide +kernel⟩,
    ⟨st0 (pqx id), 0, 0, 1, 0, pq0, by decide +kernel⟩,
    ⟨st0 (pqx (fun x => { x with waiting := [⟨0, 7, 0, false⟩] })), 0, 0, 1, 0, { pq0 with waiting := [⟨0, 7, 0, false⟩] }, ⟨0, 7, 0, false⟩, by decide +kernel⟩,
    ⟨st0 pipeM, pq0, ctx0, by decide +kernel⟩,
    ⟨st0 hostM, 0, by decide +kernel⟩,
    ⟨st0 (onHif { hostM with spn := { hostM.spn with count := 10000000005 } } (fun h => { h with p0 := { up with downSince := some 5 } })), 1, 5, by decide +kernel⟩,
    ⟨st0 hostM, 0, by decide +kernel⟩⟩

/-- States and operands that meet the hypotheses of DecodedCache, for each of its clauses. -/
theorem meets_DecodedCache :
    (∃ (s : State) (j : JobSlot) (epoch : U32) (pos : ℕ) (len : ℕ) (crc : ℕ) (index : Option (ℕ × ℕ)) (bad : List ℕ) (x : Job) (i : JobImage) (c : CacheSpec),
      s.mach.job? ↑j = some x ∧ x.image? = some i ∧ i.cache = some c ∧ x.wants i (BitVec.toNat epoch) pos = true ∧ s.mach.indexOf x i
        (posSample i (BitVec.toNat epoch) pos) index bad = some (len, crc) ∧ (∀ f ∈ x.fetched, f.1 ≠ (BitVec.toNat epoch, pos)) ∧ x.homesOf
        i (posSample i (BitVec.toNat epoch) pos) = [x.m] ∧ x.m ∉ x.lost) ∧
    (∃ (s : State) (j : JobSlot) (epoch : U32) (pos : ℕ) (len : ℕ) (crc : ℕ) (index : Option (ℕ × ℕ)) (bad : List ℕ) (x : Job) (i : JobImage) (c : CacheSpec) (payload : List Byte) (h : ℕ),
      s.mach.job? ↑j = some x ∧ x.image? = some i ∧ i.cache = some c ∧ x.wants i (BitVec.toNat epoch) pos = true ∧ s.mach.indexOf x i
        (posSample i (BitVec.toNat epoch) pos) index bad = some (len, crc) ∧ entrySize payload.length ≤ segSize ∧ x.homesOf i (posSample i
        (BitVec.toNat epoch) pos) = [h] ∧ h = x.m) ∧
    (∃ (s : State) (j : JobSlot) (epoch : U32) (pos : ℕ) (len : ℕ) (crc : ℕ) (index : Option (ℕ × ℕ)) (bad : List ℕ) (x : Job) (i : JobImage) (c : CacheSpec) (payload : List Byte) (h : ℕ),
      s.mach.job? ↑j = some x ∧ x.image? = some i ∧ i.cache = some c ∧ x.wants i (BitVec.toNat epoch) pos = true ∧ s.mach.indexOf x i
        (posSample i (BitVec.toNat epoch) pos) index bad = some (len, crc) ∧ entrySize payload.length ≤ segSize ∧ x.homesOf i (posSample i
        (BitVec.toNat epoch) pos) = [h] ∧ h ≠ x.m) ∧
    (∃ (s : State) (j : JobSlot) (x : Job) (i : JobImage) (c : CacheSpec) (e : DcEntry) (r : List DcEntry),
      s.mach.job? ↑j = some x ∧ x.image? = some i ∧ i.cache = some c ∧ s.mach.dc.job = some ↑j ∧ s.mach.dc.ring = e :: r ∧ entrySize
        e.payload.length ≤ segSize ∧ e.key.length = 32 ∧ c.clock = false ∧ s.mach.dc.fits false (entrySize e.payload.length) = true) ∧
    (∃ (s : State) (j : JobSlot) (x : Job) (i : JobImage) (c : CacheSpec) (e : DcEntry) (r : List DcEntry),
      s.mach.job? ↑j = some x ∧ x.image? = some i ∧ i.cache = some c ∧ s.mach.dc.job = some ↑j ∧ s.mach.dc.ring = e :: r ∧ entrySize
        e.payload.length ≤ segSize ∧ e.key.length = 32 ∧ c.clock = false ∧ s.mach.dc.fits false (entrySize e.payload.length) = false ∧
        c.nsid = 0) :=
  ⟨⟨st0 (withJob hostM imgJob), 0, 0, 0, 16, 5, some (16, 5), [], imgJob, img0, ⟨bytes 16, 0x400000, 0, 0, false, 1⟩, by decide +kernel⟩,
    ⟨st0 (withJob hostM imgJob), 0, 0, 0, 16, 5, some (16, 5), [], imgJob, img0, ⟨bytes 16, 0x400000, 0, 0, false, 1⟩, bytes 8, 0, by decide +kernel⟩,
    ⟨st0 (withJob hostM { imgJob with homes := [] }), 0, 0, 0, 16, 5, some (16, 5), [], { imgJob with homes := [] }, img0, ⟨bytes 16, 0x400000, 0, 0, false, 1⟩, bytes 8, 1, by decide +kernel⟩,
    ⟨st0 (dcM [dce] 1), 0, imgJob, img0, ⟨bytes 16, 0x400000, 0, 0, false, 1⟩, dce, [], by decide +kernel⟩,
    ⟨st0 (dcM [dce] 0), 0, imgJob, img0, ⟨bytes 16, 0x400000, 0, 0, false, 1⟩, dce, [], by decide +kernel⟩⟩
/-- Pool 0 with one handle in its Chuck, enabled; a context slot; a way that holds it. -/
def pool0 : Pool := { Pool.reset with enabled := true, ready := true, count := 2, fresh := 2, chuck := [1] }
def withPool (m : Mach) (p : Pool) : Mach := onMem m (fun s => { s with pools := [(0, p)] })
def way0 (o : Option Nat) (f : Bool) : CtxWay := ⟨0, false, false, o, f⟩
def ctxM (l : List CtxWay) : Mach := onMem hostM (fun s => { s with ctx := [(0, ⟨1, 0, 1, 0, bytes 240⟩)], ways := l })
def fullCtx : Mach := onMem hostM (fun s => { s with ctx := (List.range 262144).map (fun i => (i, ⟨1, 0, 1, 0, []⟩)) })

theorem full_has_no_slot : fullCtx.freeSlot = none := by
  have h : fullCtx.ctxInUse = 262144 := by
    unfold Mach.ctxInUse fullCtx onMem
    simp only [List.filter_map]
    rw [List.length_map, List.filter_eq_self.mpr]
    · exact List.length_range
    · intro a _; rfl
  unfold Mach.freeSlot
  rw [h]; rfl
def trainedM (r : SMap Nat) : Mach := (onMem hostM (fun s => { s with trained := true, retraining := r })).setReg Reg.memRetrainCfg 0x12580004

/-- States and operands that meet the hypotheses of MemoryChannels, for each of its clauses. -/
theorem meets_MemoryChannels :
    (∃ (s : State) (c : Fin 64) (trig : Fin 4),
      ↑c < gddrChannels s.variant ∧ s.mach.mem.trained = true ∧ s.mach.triggerOn ↑c ↑trig = true ∧ s.mach.fld (Reg.memChStatus ↑c) 31 30 ≠ 1
        ∧ s.mach.fld (Reg.memChStatus ↑c) 31 30 ≠ 3 ∧ List.length s.mach.mem.retraining < 4 ∧ (∀ p ∈ s.mach.mem.retraining, p.1 / 4 ≠ ↑c /
        4)) ∧
    (∃ (s : State) (c : Fin 64) (trig : Fin 4),
      ↑c < gddrChannels s.variant ∧ s.mach.mem.trained = true ∧ s.mach.triggerOn ↑c ↑trig = true ∧ s.mach.fld (Reg.memChStatus ↑c) 31 30 ≠ 1
        ∧ s.mach.fld (Reg.memChStatus ↑c) 31 30 ≠ 3 ∧ (4 ≤ List.length s.mach.mem.retraining ∨ ∃ p ∈ s.mach.mem.retraining, p.1 / 4 = ↑c /
        4)) ∧
    (∃ (s : State) (c : Fin 64) (t : ℕ),
      mapFind s.mach.mem.retraining ↑c = some t ∧ s.mach.mem.retrainWait = [] ∧ mapFind s.mach.mem.trainFails ↑c = none) ∧
    (∃ (s : State) (c : Fin 64) (t : ℕ),
      mapFind s.mach.mem.retraining ↑c = some t ∧ s.mach.mem.retrainWait = [] ∧ mapFind s.mach.mem.trainFails ↑c = some ((retrainRates
        (s.mach.chanRate ↑c)).length - 1)) ∧
    (∃ (s : State),
      ∀ k < gddrChannels s.variant, s.mach.fld (Reg.memChStatus k) 31 30 ≠ 3) ∧
    (∃ (s : State) (val : U64),
      s.mach.jobs.slots = [] ∧ (¬(BitVec.toNat val % 2 ^ 48 % 2 ^ 30 ≠ 0 ∨ BitVec.toNat val % 2 ^ 48 < 2 ^ 30 ∨ s.mach.fld (Reg.memCarveBase
        3) 47 0 < BitVec.toNat val % 2 ^ 48 ∨ ∃ p ∈ s.mach.mem.bootPools, p.2.1 < BitVec.toNat val % 2 ^ 48))) ∧
    (∃ (s : State) (val : U64),
      s.mach.jobs.slots = [] ∧ (BitVec.toNat val % 2 ^ 48 % 2 ^ 30 ≠ 0 ∨ BitVec.toNat val % 2 ^ 48 < 2 ^ 30 ∨ s.mach.fld (Reg.memCarveBase
        3) 47 0 < BitVec.toNat val % 2 ^ 48 ∨ ∃ p ∈ s.mach.mem.bootPools, p.2.1 < BitVec.toNat val % 2 ^ 48)) ∧
    (∃ (s : State),
      s.mach.jobs.slots ≠ []) ∧
    (∃ (s : State),
      s.mach.power.pwrOk = true ∧ (s.mach.fld Reg.glbBootStatus 7 0 = 3 ∨ s.mach.fld Reg.glbBootStatus 7 0 = 4)) :=
  ⟨⟨st0 (trainedM [(9, 2)]), 4, 2, by decide +kernel⟩,
    ⟨st0 (trainedM [(5, 2)]), 4, 2, by decide +kernel⟩,
    ⟨st0 (trainedM [(5, 2)]), 5, 2, by decide +kernel⟩,
    ⟨st0 (onMem hostM (fun s => { s with retraining := [(5, 2)], trainFails := [(5, (retrainRates (hostM.chanRate 5)).length - 1)] })), 5, 2, by decide +kernel⟩,
    ⟨st0 hostM, by decide +kernel⟩,
    ⟨st0 (hostM.setFld (Reg.memCarveBase 3) 47 0 0x100000000), 0x40000000, by decide +kernel⟩,
    ⟨st0 hostM, 0x40000001, by decide +kernel⟩,
    ⟨st0 (onJobs hostM (fun j => { j with slots := [(0, job0 (.codec codec0))] })), by decide +kernel⟩,
    ⟨st0 (onM.setFld Reg.glbBootStatus 7 0 3), by decide +kernel⟩⟩

/-- States and operands that meet the hypotheses of PoolsAndContexts, for each of its clauses. -/
theorem meets_PoolsAndContexts :
    (∃ (s : State) (u : Requester) (owner : ℕ) (size : ℕ) (k : ℕ) (first : ℕ) (r : List ℕ),
      poolFor size = some k ∧ s.mach.mayActFor u owner = true ∧ (s.mach.pool k).ready = true ∧ (s.mach.pool k).chuck = first :: r) ∧
    (∃ (size : ℕ),
      poolFor size = none) ∧
    (∃ (s : State) (u : Requester) (owner : ℕ) (size : ℕ) (k : ℕ),
      poolFor size = some k ∧ s.mach.mayActFor u owner = false) ∧
    (∃ (s : State) (owner : ℕ) (size : ℕ) (k : ℕ) (port : Port),
      poolFor size = some k ∧ s.mach.mayActFor (Requester.port port) owner = true ∧ (s.mach.pool k).ready = true ∧ (s.mach.pool k).chuck =
        [] ∧ (s.mach.pool k).ringLeft = 0 ∧ (s.mach.pool k).inFlight = []) ∧
    (∃ (s : State) (u : Requester) (owner : ℕ) (h : U32),
      s.mach.freeStatus u owner (BitVec.toNat h) = St.ok ∧ (s.mach.pool (handlePool (BitVec.toNat h))).waiting = []) ∧
    (∃ (s : State) (u : Requester) (owner : ℕ) (h : U32),
      s.mach.freeStatus u owner (BitVec.toNat h) ≠ St.ok) ∧
    (∃ (s : State) (pk : Fin 8) (l : List ℕ) (rest : List (List ℕ)),
      (s.mach.pool ↑pk).inFlight = l :: rest ∧ (s.mach.pool ↑pk).waiting = []) ∧
    (∃ (s : State) (pk : Fin 8) (count : BitVec 25),
      s.mach.bpmIdle = true ∧ (s.mach.pool ↑pk).enabled = false ∧ 1 ≤ count.toNat ∧ count.toNat ≤ 2 ^ 24 ∧ s.mach.poolFits (↑pk) count.toNat
        = true) ∧
    (∃ (s : State) (pk : Fin 8) (count : BitVec 25),
      s.mach.bpmIdle = true ∧ (s.mach.pool ↑pk).enabled = false ∧ 1 ≤ count.toNat ∧ count.toNat ≤ 2 ^ 24 ∧ s.mach.poolFits (↑pk) count.toNat
        = false) ∧
    (∃ (s : State),
      s.mach.bpmIdle = false) ∧
    (∃ (s : State) (n : ℕ),
      s.mach.freeSlot = some n) ∧
    (∃ (s : State),
      s.mach.freeSlot = none) ∧
    (∃ (s : State) (ref : U32),
      ¬((s.mach.slot (BitVec.toNat ref % 2 ^ 18)).gen = bitsOf (BitVec.toNat ref) 31 18 ∧ (s.mach.slot (BitVec.toNat ref % 2 ^ 18)).kind ≠
        0)) ∧
    (∃ (s : State) (ref : U32) (x : CtxWay),
      (s.mach.slot (BitVec.toNat ref % 2 ^ 18)).gen = bitsOf (BitVec.toNat ref) 31 18 ∧ (s.mach.slot (BitVec.toNat ref % 2 ^ 18)).kind ≠ 0 ∧
        List.find? (fun y => decide (y.slot = BitVec.toNat ref % 2 ^ 18)) (List.filter (fun y => decide (y.slot % 1024 = BitVec.toNat ref %
        2 ^ 18 % 1024)) s.mach.mem.ways) = some x ∧ x.out = none) ∧
    (∃ (s : State) (ref : U32) (x : CtxWay),
      (s.mach.slot (BitVec.toNat ref % 2 ^ 18)).gen = bitsOf (BitVec.toNat ref) 31 18 ∧ (s.mach.slot (BitVec.toNat ref % 2 ^ 18)).kind ≠ 0 ∧
        List.find? (fun y => decide (y.slot = BitVec.toNat ref % 2 ^ 18)) (List.filter (fun y => decide (y.slot % 1024 = BitVec.toNat ref %
        2 ^ 18 % 1024)) s.mach.mem.ways) = some x ∧ x.out ≠ none) ∧
    (∃ (s : State) (ref : U32),
      (s.mach.slot (BitVec.toNat ref % 2 ^ 18)).gen = bitsOf (BitVec.toNat ref) 31 18 ∧ (s.mach.slot (BitVec.toNat ref % 2 ^ 18)).kind ≠ 0 ∧
        List.find? (fun y => decide (y.slot = BitVec.toNat ref % 2 ^ 18)) (List.filter (fun y => decide (y.slot % 1024 = BitVec.toNat ref %
        2 ^ 18 % 1024)) s.mach.mem.ways) = none ∧ (List.filter (fun y => decide (y.slot % 1024 = BitVec.toNat ref % 2 ^ 18 % 1024))
        s.mach.mem.ways).length < 16) ∧
    (∃ (s : State) (slot : BitVec 18),
      (∃ y ∈ s.mach.mem.ways, y.slot = slot.toNat ∧ y.filling = true) ∧ s.mach.mem.badWords = [] ∧ s.mach.mem.chansOut = []) ∧
    (∃ (s : State) (unit : ℕ) (slot : BitVec 18) (x : CtxWay),
      List.find? (fun y => decide (y.slot = slot.toNat) && decide (y.out = some unit)) s.mach.mem.ways = some x ∧ s.mach.mem.flushLater = []
        ∧ s.mach.mem.ctxWait = []) ∧
    (∃ (s : State),
      s.mach.mem.ctxFlushing = false) ∧
    (∃ (s : State),
      s.mach.mem.ctxFlushing = true) :=
  ⟨⟨st0 (withPool hostM pool0), .port 0, 2, 256, 0, 1, [], by decide +kernel⟩,
    ⟨0, by decide +kernel⟩,
    ⟨st0 (withPool hostM pool0), .port 0, 3, 256, 0, by decide +kernel⟩,
    ⟨st0 (withPool hostM { pool0 with chuck := [] }), 2, 256, 0, 0, by decide +kernel⟩,
    ⟨st0 (withPool hostM { pool0 with bufs := [(1, ⟨2, true, 1, false⟩)] }), .port 0, 2, 0x21, by decide +kernel⟩,
    ⟨st0 (withPool hostM { pool0 with bufs := [(1, ⟨2, true, 1, false⟩)] }), .port 0, 2, 0x22, by decide +kernel⟩,
    ⟨st0 (withPool hostM { pool0 with inFlight := [[32]] }), 0, [32], [], by decide +kernel⟩,
    ⟨st0 (((hostM.setReg (Reg.bpmPoolBuf 0) 0).setReg (Reg.bpmPoolRing 0) 0x1000).setReg Reg.memHostLimit 0x40000000), 0, 16, by decide +kernel⟩,
    ⟨st0 (((hostM.setReg (Reg.bpmPoolBuf 0) 0).setReg (Reg.bpmPoolRing 0) 0x1000).setReg Reg.memHostLimit 0x40000000), 0, 17, by decide +kernel⟩,
    ⟨st0 (withPool hostM { pool0 with bufs := [(1, ⟨2, true, 1, false⟩)] }), by decide +kernel⟩,
    ⟨st0 (ctxM []), 1, by decide +kernel⟩,
    ⟨st0 fullCtx, full_has_no_slot⟩,
    ⟨st0 (ctxM []), 1, by decide +kernel⟩,
    ⟨st0 (ctxM [way0 none false]), 0x40000, way0 none false, by decide +kernel⟩,
    ⟨st0 (ctxM [way0 (some 3) false]), 0x40000, way0 (some 3) false, by decide +kernel⟩,
    ⟨st0 (ctxM []), 0x40000, by decide +kernel⟩,
    ⟨st0 (ctxM [way0 (some 3) true]), 0, by decide +kernel⟩,
    ⟨st0 (ctxM [way0 (some 3) false]), 3, 0, way0 (some 3) false, by decide +kernel⟩,
    ⟨st0 hostM, by decide +kernel⟩,
    ⟨st0 (onMem hostM (fun s => { s with ctxFlushing := true })), by decide +kernel⟩⟩

/-- States and operands that meet the hypotheses of NvmeQueuesAndFeatures, for each of its clauses. -/
theorem meets_NvmeQueuesAndFeatures :
    (∃ (s : State) (n : NvmeCtx) (qid : ℕ) (size : ℕ) (vector : ℕ),
      Served s.mach n NvmeKind.admin ∧ 1 ≤ qid ∧ qid ≤ 256 ∧ 2 ≤ size ∧ size ≤ 65536 ∧ mapFind (s.mach.port ↑n.port).ctl.cqs qid = none ∧
        vector ≤ 263) ∧
    (∃ (s : State) (n : NvmeCtx) (qid : ℕ) (size : ℕ) (cqid : ℕ),
      Served s.mach n NvmeKind.admin ∧ 1 ≤ qid ∧ qid ≤ 256 ∧ 2 ≤ size ∧ size ≤ 65536 ∧ mapFind (s.mach.port ↑n.port).ctl.sqs qid = none ∧
        mapFind (s.mach.port ↑n.port).ctl.cqs cqid ≠ none) ∧
    (∃ (s : State) (n : NvmeCtx) (qid : ℕ) (size : ℕ),
      Served s.mach n NvmeKind.admin ∧ 1 ≤ qid ∧ qid ≤ 256 ∧ 2 ≤ size ∧ size ≤ 65536 ∧ mapFind (s.mach.port ↑n.port).ctl.sqs qid ≠ none) ∧
    (∃ (s : State) (n : NvmeCtx) (qid : ℕ),
      Served s.mach n NvmeKind.admin ∧ mapFind (s.mach.port ↑n.port).ctl.cqs qid ≠ none ∧ (∀ q ∈ (s.mach.port ↑n.port).ctl.sqs, q.2.2 ≠ qid)) ∧
    (∃ (s : State) (n : NvmeCtx) (qid : ℕ),
      Served s.mach n NvmeKind.admin ∧ mapFind (s.mach.port ↑n.port).ctl.cqs qid ≠ none ∧ (∃ q ∈ (s.mach.port ↑n.port).ctl.sqs, q.2.2 = qid)) ∧
    (∃ (s : State) (n : NvmeCtx) (cid : U16),
      Served s.mach n NvmeKind.admin ∧ BitVec.toNat cid ∈ (s.mach.port ↑n.port).ctl.aers) ∧
    (∃ (s : State) (n : NvmeCtx) (qid : ℕ) (cid : U16),
      Served s.mach n NvmeKind.admin ∧ (BitVec.toNat cid ∉ (s.mach.port ↑n.port).ctl.aers ∨ qid ≠ 0)) ∧
    (∃ (s : State) (n : NvmeCtx) (f : Byte),
      Served s.mach n NvmeKind.admin ∧ (f = 1 ∨ f = 8 ∨ f = 11)) ∧
    (∃ (s : State) (n : NvmeCtx) (f : Byte),
      Served s.mach n NvmeKind.admin ∧ f = 4 ∧ ↑n.port ≠ s.mach.hif.owner) ∧
    (∃ (s : State) (n : NvmeCtx) (f : Byte) (x : ℕ),
      Served s.mach n NvmeKind.admin ∧ featureKnown (BitVec.toNat f) = true ∧ f ≠ 129 ∧ mapFind (s.mach.port ↑n.port).ctl.feats
        (BitVec.toNat f) = some x) ∧
    (∃ (s : State) (n : NvmeCtx),
      Served s.mach n NvmeKind.admin ∧ (s.mach.port ↑n.port).ctl.aers.length < 8) ∧
    (∃ (s : State) (n : NvmeCtx),
      Served s.mach n NvmeKind.admin ∧ 8 ≤ (s.mach.port ↑n.port).ctl.aers.length) ∧
    (∃ (s : State) (n : NvmeCtx) (lid : Byte) (b : List Byte),
      Served s.mach n NvmeKind.admin ∧ s.mach.logPage (↑n.port) (BitVec.toNat lid) = some b) ∧
    (∃ (s : State) (n : NvmeCtx) (lid : Byte),
      Served s.mach n NvmeKind.admin ∧ s.mach.logPage (↑n.port) (BitVec.toNat lid) = none) ∧
    (∃ (s : State) (n : NvmeCtx) (val : U32) (x : Ns),
      Served s.mach n NvmeKind.admin ∧ s.mach.ns? (BitVec.toNat val) = some x ∧ ↑n.port ∈ x.attached) :=
  ⟨⟨st0 hostM, host0, 2, 64, 263, by unfold Served; decide +kernel⟩,
    ⟨st0 hostM, host0, 2, 64, 1, by unfold Served; decide +kernel⟩,
    ⟨st0 hostM, host0, 1, 64, by unfold Served; decide +kernel⟩,
    ⟨st0 (onHif hostM (fun h => { h with p0 := { up with ctl := { up.ctl with sqs := [] } } })), host0, 1, by unfold Served; decide +kernel⟩,
    ⟨st0 hostM, host0, 1, by unfold Served; decide +kernel⟩,
    ⟨st0 (onHif hostM (fun h => { h with p0 := { up with ctl := { up.ctl with aers := [5] } } })), host0, 5, by unfold Served; decide +kernel⟩,
    ⟨st0 hostM, host0, 1, 5, by unfold Served; decide +kernel⟩,
    ⟨st0 hostM, host0, 11, by unfold Served; decide +kernel⟩,
    ⟨st0 hostM, ⟨1, 0, 7⟩, 4, by unfold Served; decide +kernel⟩,
    ⟨st0 (onHif hostM (fun h => { h with p0 := { up with ctl := { up.ctl with feats := [(1, 3)] } } })), host0, 1, 3, by unfold Served; decide +kernel⟩,
    ⟨st0 hostM, host0, by unfold Served; decide +kernel⟩,
    ⟨st0 (onHif hostM (fun h => { h with p0 := { up with ctl := { up.ctl with aers := [1, 2, 3, 4, 5, 6, 7, 8] } } })), host0, by unfold Served; decide +kernel⟩,
    ⟨st0 hostM, host0, 0xC1, hostM.boot.measLog.flatMap MeasEntry.bytes, by unfold Served; decide +kernel⟩,
    ⟨st0 hostM, host0, 0x10, by unfold Served; decide +kernel⟩,
    ⟨st0 flashM, host0, 1, ns1, by unfold Served; decide +kernel⟩⟩

/-- States and operands that meet the hypotheses of NamespacesAndErasure, for each of its clauses. -/
theorem meets_NamespacesAndErasure :
    (∃ (s : State) (n : NvmeCtx) (nsze : U64) (lbaf : Fin 16) (iu : Byte) (kind : Byte),
      Served s.mach n NvmeKind.owner ∧ ↑lbaf ≤ 1 ∧ BitVec.toNat iu ≤ 1 ∧ BitVec.toNat kind ≤ 1 ∧ nsze ≠ 0 ∧ (s.mach.nsBytes + BitVec.toNat
        nsze * if lbaf = 0 then 4096 else 512) ≤ s.mach.userBytes ∧ (∃ i, 1 ≤ i ∧ i ≤ 256 ∧ s.mach.ns? i = none)) ∧
    (∃ (s : State) (n : NvmeCtx) (nsid : U32) (x : Ns),
      Served s.mach n NvmeKind.owner ∧ s.mach.ns? (BitVec.toNat nsid) = some x ∧ nsid ≠ 4294967295) ∧
    (∃ (s : State) (n : NvmeCtx) (nsid : U32) (ports : List Port) (x : Ns),
      Served s.mach n NvmeKind.owner ∧ s.mach.ns? (BitVec.toNat nsid) = some x ∧ (∀ p ∈ List.map (fun p => ↑p) ports, p ∉ x.attached)) ∧
    (∃ (s : State) (n : NvmeCtx) (nsid : U32) (ports : List Port) (x : Ns),
      Served s.mach n NvmeKind.owner ∧ s.mach.ns? (BitVec.toNat nsid) = some x ∧ (∀ p ∈ List.map (fun p => ↑p) ports, p ∈ x.attached)) ∧
    (∃ (s : State) (n : NvmeCtx) (nsid : U32) (x : Ns) (ses : Fin 8) (lbaf : Fin 16),
      Served s.mach n NvmeKind.owner ∧ s.mach.ns? (BitVec.toNat nsid) = some x ∧ s.mach.jobs.slots = [] ∧ ↑ses ≤ 2 ∧ ↑lbaf ≤ 1) ∧
    (∃ (s : State) (n : NvmeCtx) (val : Byte),
      Served s.mach n NvmeKind.owner ∧ s.mach.boot.fwMinSvn < BitVec.toNat val ∧ BitVec.toNat val ≤ 64 ∧ s.mach.boot.slotA.state =
        SlotState.confirmed ∧ s.mach.boot.slotA.image.svn = BitVec.toNat val) ∧
    (∃ (s : State) (n : NvmeCtx) (val : Byte),
      Served s.mach n NvmeKind.owner ∧ BitVec.toNat val < s.mach.boot.fwMinSvn) ∧
    (∃ (s : State) (mt : Maint),
      s.mach.hif.maint = some mt ∧ s.mach.formatRuns = false) ∧
    (∃ (s : State) (x : Ns) (ses : Fin 8) (mt : Maint) (i : ℕ) (l : ℕ),
      s.mach.hif.maint = some { kind := MaintKind.format i (↑ses) l, percent := mt.percent, resumed := mt.resumed, done := none } ∧
        s.mach.ns? i = some x ∧ i ≠ 4294967295) :=
  ⟨⟨st0 flashM, host0, 1, 0, 0, 0, by unfold Served; decide +kernel, by decide +kernel, by decide +kernel, by decide +kernel, by decide +kernel, by decide +kernel,
    ⟨2, by decide +kernel, by decide +kernel, by decide +kernel⟩⟩,
    ⟨st0 flashM, host0, 1, ns1, by unfold Served; decide +kernel⟩,
    ⟨st0 flashM, host0, 1, [1], ns1, by unfold Served; decide +kernel⟩,
    ⟨st0 flashM, host0, 1, [0], ns1, by unfold Served; decide +kernel⟩,
    ⟨st0 flashM, host0, 1, ns1, 2, 1, by unfold Served; decide +kernel⟩,
    ⟨st0 { hostM with boot := { hostM.boot with fwMinSvn := 3, slotA := ⟨.confirmed, 0, .bytes (bytes 16 ++ [4])⟩ } }, host0, 4, by unfold Served; decide +kernel⟩,
    ⟨st0 { hostM with boot := { hostM.boot with fwMinSvn := 3 } }, host0, 2, by unfold Served; decide +kernel⟩,
    ⟨st0 (onHif hostM (fun h => { h with maint := some ⟨.cryptoErase, 50, false, none⟩ })), ⟨.cryptoErase, 50, false, none⟩, by decide +kernel⟩,
    ⟨st0 (onHif flashM (fun h => { h with maint := some ⟨.format 1 2 1, 50, false, none⟩ })), ns1, 2, ⟨.format 1 2 1, 50, false, none⟩, 1, 1, by decide +kernel⟩⟩

/-- States and operands that meet the hypotheses of NvmeManagement, for each of its clauses. -/
theorem meets_NvmeManagement :
    (∃ (s : State) (k : Byte) (val : U32),
      (s.mach.fld Reg.glbBootStatus 7 0 = 8 ∨ s.mach.fld Reg.glbBootStatus 7 0 = 254) ∧ (k = 1 ∨ k = 3) ∧ mapFind s.mach.hif.p0.ctl.feats
        (4096 + BitVec.toNat k) = some (BitVec.toNat val)) ∧
    (∃ (s : State) (k : Byte),
      (s.mach.fld Reg.glbBootStatus 7 0 = 8 ∨ s.mach.fld Reg.glbBootStatus 7 0 = 254) ∧ k ≠ 1 ∧ k ≠ 3) ∧
    (∃ (s : State),
      s.mach.fld Reg.glbBootStatus 7 0 ≠ 8 ∧ s.mach.fld Reg.glbBootStatus 7 0 ≠ 254) ∧
    (∃ (s : State) (n : NvmeCtx) (op : Byte),
      Served s.mach n NvmeKind.admin ∧ op ≠ 3) ∧
    (∃ (s : State) (n : NvmeCtx) (op : Byte),
      Served s.mach n NvmeKind.admin ∧ BitVec.toNat op > 5) :=
  ⟨⟨st0 (onHif hostM (fun h => { h with p0 := { up with ctl := { up.ctl with feats := [(4097, 3)] } } })), 1, 3, by decide +kernel⟩,
    ⟨st0 hostM, 2, by decide +kernel⟩,
    ⟨st0 onM, by decide +kernel⟩,
    ⟨st0 hostM, host0, 5, by unfold Served; decide +kernel⟩,
    ⟨st0 hostM, host0, 6, by unfold Served; decide +kernel⟩⟩

/-- States and operands that meet the hypotheses of NvmeInputOutput, for each of its clauses. -/
theorem meets_NvmeInputOutput :
    (∃ (s : State) (n : NvmeCtx) (nsid : U32) (x : Ns) (slba : U64) (nlb : ℕ),
      Served s.mach n NvmeKind.ioCmd ∧ s.mach.ns? (BitVec.toNat nsid) = some x ∧ ↑n.port ∈ x.attached ∧ BitVec.toNat slba * x.lba + nlb *
        x.lba ≤ x.nsze * x.lba ∧ x.resv.conflicts (s.mach.port ↑n.port).ctl.hostId false = false ∧ s.mach.ioStop x false = none ∧
        s.mach.rangeStatus x (BitVec.toNat slba * x.lba) (nlb * x.lba) [] = St.ok) ∧
    (∃ (s : State) (n : NvmeCtx) (nsid : U32) (x : Ns) (slba : U64) (nlb : ℕ),
      Served s.mach n NvmeKind.ioCmd ∧ s.mach.ns? (BitVec.toNat nsid) = some x ∧ ↑n.port ∈ x.attached ∧ x.nsze * x.lba < BitVec.toNat slba *
        x.lba + nlb * x.lba) ∧
    (∃ (s : State) (n : NvmeCtx) (nsid : U32) (x : Ns) (slba : U64) (data : List Byte),
      Served s.mach n NvmeKind.ioCmd ∧ s.mach.ns? (BitVec.toNat nsid) = some x ∧ ↑n.port ∈ x.attached ∧ data.length % x.lba = 0 ∧ data ≠ []
        ∧ BitVec.toNat slba * x.lba + data.length ≤ x.nsze * x.lba ∧ x.resv.conflicts (s.mach.port ↑n.port).ctl.hostId true = false ∧
        s.mach.readOnly = false ∧ s.mach.ioStop x true = none ∧ partUnits x (BitVec.toNat slba * x.lba) data.length = [] ∧
        s.mach.ftl.waiting = [] ∧ s.mach.tryWrite
        { done := FlashDone.nvme n, nsid := BitVec.toNat nsid, off := BitVec.toNat slba * x.lba, bytes := data } ≠ none) ∧
    (∃ (s : State) (n : NvmeCtx) (nsid : U32) (x : Ns) (slba : U64) (data : List Byte),
      Served s.mach n NvmeKind.ioCmd ∧ s.mach.ns? (BitVec.toNat nsid) = some x ∧ ↑n.port ∈ x.attached ∧ data.length % x.lba = 0 ∧ data ≠ []
        ∧ BitVec.toNat slba * x.lba + data.length ≤ x.nsze * x.lba ∧ x.resv.conflicts (s.mach.port ↑n.port).ctl.hostId true = false ∧
        s.mach.readOnly = false ∧ s.mach.ioStop x true = none ∧ partUnits x (BitVec.toNat slba * x.lba) data.length = [] ∧
        s.mach.ftl.waiting = [] ∧ s.mach.tryWrite
        { done := FlashDone.nvme n, nsid := BitVec.toNat nsid, off := BitVec.toNat slba * x.lba, bytes := data } = none) ∧
    (∃ (s : State) (n : NvmeCtx) (nsid : U32) (x : Ns) (slba : U64) (data : List Byte),
      Served s.mach n NvmeKind.ioCmd ∧ s.mach.ns? (BitVec.toNat nsid) = some x ∧ ↑n.port ∈ x.attached ∧ x.nsze * x.lba < BitVec.toNat slba *
        x.lba + data.length ∧ data.length % x.lba = 0) ∧
    (∃ (s : State) (n : NvmeCtx) (nsid : U32) (x : Ns) (slba : U64) (nlb : ℕ) (cnt : ℕ),
      Served s.mach n NvmeKind.ioCmd ∧ s.mach.ns? (BitVec.toNat nsid) = some x ∧ ↑n.port ∈ x.attached ∧ BitVec.toNat slba * x.lba % iuBytes
        x.iu = 0 ∧ nlb * x.lba = cnt * iuBytes x.iu ∧ 0 < cnt ∧ BitVec.toNat slba + nlb ≤ x.nsze ∧ x.resv.conflicts (s.mach.port
        ↑n.port).ctl.hostId true = false ∧ s.mach.ioStop x true = none ∧ s.mach.readOnly = false) ∧
    (∃ (s : State) (n : NvmeCtx) (nsid : U32) (x : Ns),
      Served s.mach n NvmeKind.ioCmd ∧ s.mach.ns? (BitVec.toNat nsid) = some x ∧ ↑n.port ∈ x.attached ∧ s.mach.ftl.pendJ = [] ∧
        s.mach.ftl.waiting = []) ∧
    (∃ (s : State) (n : NvmeCtx) (nsid : U32) (x : Ns),
      Served s.mach n NvmeKind.ioCmd ∧ s.mach.ns? (BitVec.toNat nsid) = some x ∧ ↑n.port ∈ x.attached ∧ s.mach.ftl.pendJ ≠ [] ∧
        s.mach.ftl.waiting = [] ∧ s.mach.regime ≠ 3) ∧
    (∃ (s : State) (n : NvmeCtx) (nsid : U32) (x : Ns) (h : List Byte) (a : ResvArgs),
      Served s.mach n NvmeKind.ioCmd ∧ s.mach.ns? (BitVec.toNat nsid) = some x ∧ ↑n.port ∈ x.attached ∧ (s.mach.port ↑n.port).ctl.hostId =
        some h ∧ a.action = 0 ∧ x.resv.keyOf h = none) ∧
    (∃ (s : State) (n : NvmeCtx) (nsid : U32) (x : Ns) (h : List Byte) (a : ResvArgs),
      Served s.mach n NvmeKind.ioCmd ∧ s.mach.ns? (BitVec.toNat nsid) = some x ∧ ↑n.port ∈ x.attached ∧ (s.mach.port ↑n.port).ctl.hostId =
        some h ∧ x.resv.keyOf h = some (BitVec.toNat a.crkey) ∧ a.action = 0 ∧ x.resv.holder = none) ∧
    (∃ (s : State) (n : NvmeCtx) (nsid : U32) (x : Ns) (h : List Byte) (a : ResvArgs),
      Served s.mach n NvmeKind.ioCmd ∧ s.mach.ns? (BitVec.toNat nsid) = some x ∧ ↑n.port ∈ x.attached ∧ (s.mach.port ↑n.port).ctl.hostId =
        some h ∧ x.resv.keyOf h = some (BitVec.toNat a.crkey) ∧ a.action = 0 ∧ x.resv.holds h = true ∧ x.resv.rtype = ↑a.rtype) ∧
    (∃ (s : State) (n : NvmeCtx) (nsid : U32) (x : Ns) (h : List Byte) (a : ResvArgs),
      Served s.mach n NvmeKind.ioCmd ∧ s.mach.ns? (BitVec.toNat nsid) = some x ∧ ↑n.port ∈ x.attached ∧ (s.mach.port ↑n.port).ctl.hostId =
        some h ∧ x.resv.keyOf h ≠ some (BitVec.toNat a.crkey)) :=
  ⟨⟨st0 flashM, ⟨0, 1, 9⟩, 1, ns1, 1, 2, by unfold Served; decide +kernel⟩,
    ⟨st0 flashM, ⟨0, 1, 9⟩, 1, ns1, 3, 2, by unfold Served; decide +kernel⟩,
    ⟨st0 flashM, ⟨0, 1, 9⟩, 1, ns1, 0, bytes 16384, by unfold Served; decide +kernel⟩,
    ⟨st0 (onFtl flashM (fun f => { f with sbs := [(0, sblk .native .free 0), (1, sblk .native .free 0), (2, sblk .slc .closed 0)] })), ⟨0, 1, 9⟩, 1, ns1, 0, bytes 16384, by unfold Served; decide +kernel⟩,
    ⟨st0 flashM, ⟨0, 1, 9⟩, 1, ns1, 1, bytes 16384, by unfold Served; decide +kernel⟩,
    ⟨st0 flashM, ⟨0, 1, 9⟩, 1, ns1, 0, 4, 1, by unfold Served; decide +kernel⟩,
    ⟨st0 flashM, ⟨0, 1, 9⟩, 1, ns1, by unfold Served; decide +kernel⟩,
    ⟨st0 (onFtl flashM (fun f => { f with pendJ := [(.lost 1 0, .inner)] })), ⟨0, 1, 9⟩, 1, ns1, by unfold Served; decide +kernel⟩,
    ⟨st0 (onHif (flashM.setNs 1 ns1) (fun h => { h with p0 := { up with ctl := { up.ctl with hostId := some (bytes 8) } } })), ⟨0, 1, 9⟩, 1, ns1, bytes 8, ⟨0, 0, 0, 5, false⟩, by unfold Served; decide +kernel⟩,
    ⟨st0 (onHif (flashM.setNs 1 { ns1 with resv := ⟨[(bytes 8, 5)], none, 0, 0, false⟩ }) (fun h => { h with p0 := { up with ctl := { up.ctl with hostId := some (bytes 8) } } })), ⟨0, 1, 9⟩, 1, { ns1 with resv := ⟨[(bytes 8, 5)], none, 0, 0, false⟩ }, bytes 8, ⟨0, 1, 5, 0, false⟩, by unfold Served; decide +kernel⟩,
    ⟨st0 (onHif (flashM.setNs 1 { ns1 with resv := ⟨[(bytes 8, 5)], some (bytes 8), 1, 0, false⟩ }) (fun h => { h with p0 := { up with ctl := { up.ctl with hostId := some (bytes 8) } } })), ⟨0, 1, 9⟩, 1, { ns1 with resv := ⟨[(bytes 8, 5)], some (bytes 8), 1, 0, false⟩ }, bytes 8, ⟨0, 1, 5, 0, false⟩, by unfold Served; decide +kernel⟩,
    ⟨st0 (onHif (flashM.setNs 1 ns1) (fun h => { h with p0 := { up with ctl := { up.ctl with hostId := some (bytes 8) } } })), ⟨0, 1, 9⟩, 1, ns1, bytes 8, ⟨0, 1, 5, 0, false⟩, by unfold Served; decide +kernel⟩⟩

/-- States and operands that meet the hypotheses of WriteThenRead, for each of its clauses. -/
theorem meets_WriteThenRead :
    (∃ (s : State) (n : NvmeCtx) (nsid : U32) (x : Ns) (slba : U64) (nlb : ℕ) (data : List Byte),
      Served s.mach n NvmeKind.ioCmd ∧ s.mach.ns? (BitVec.toNat nsid) = some x ∧ ↑n.port ∈ x.attached ∧ x.key = 0 ∧ x.usedBy = none ∧
        x.sealedBy = none ∧ data.length = nlb * x.lba ∧ data ≠ [] ∧ x.lba ≠ 0 ∧ BitVec.toNat slba * x.lba + data.length ≤ x.nsze * x.lba ∧
        partUnits x (BitVec.toNat slba * x.lba) data.length = [] ∧ x.resv.conflicts (s.mach.port ↑n.port).ctl.hostId true = false ∧
        x.resv.conflicts (s.mach.port ↑n.port).ctl.hostId false = false ∧ s.mach.readOnly = false ∧ s.mach.ftl.pendJ = [] ∧
        s.mach.ftl.waiting = [] ∧ s.mach.ftl.deadDies = [] ∧ s.mach.tryWrite
        { done := FlashDone.nvme n, nsid := BitVec.toNat nsid, off := BitVec.toNat slba * x.lba, bytes := data } ≠ none) :=
    ⟨st0 flashM, ⟨0, 1, 9⟩, 1, ns1, 0, 4, bytes 16384, by unfold Served; decide +kernel⟩

/-- States and operands that meet the hypotheses of FlashServices, for each of its clauses. -/
theorem meets_FlashServices :
    (∃ (s : State),
      s.mach.power.pwrOk = true ∧ s.mach.fld Reg.glbBootStatus 7 0 = 6) ∧
    (∃ (s : State) (info : MountInfo) (c : CarrierInfo) (sel : Fin 16),
      s.mach.bit Reg.glbAdopt 30 = true ∧ s.mach.ftl.found = some info ∧ List.find? (fun c => bitAt ↑sel ↑c.conn) info.carriers = some c ∧
        c.setId ≠ 0) ∧
    (∃ (s : State),
      s.mach.bit Reg.glbAdopt 30 = false) ∧
    (∃ (s : State) (n : Fin 4) (cr : Carrier),
      mapFind s.mach.ftl.carriers ↑n = some cr ∧ cr.mounted = true ∧ cr.pg = true) ∧
    (∃ (s : State) (c : CarrierInfo),
      s.mach.power.pwrOk = true ∧ s.mach.ftl.mounted = true ∧ c.setId = s.mach.ftl.setId) ∧
    (∃ (s : State) (sb : ℕ) (st : Fin 9) (b : SBlk),
      mapFind s.mach.ftl.sbs sb = some b ∧ ↑st < 8) ∧
    (∃ (s : State) (sb : ℕ) (b : SBlk),
      mapFind s.mach.ftl.sbs sb = some b ∧ 0 < s.mach.ftl.spares) ∧
    (∃ (s : State) (i : ℕ) (b : SBlk),
      s.mach.foldNext = some i ∧ mapFind s.mach.ftl.sbs i = some b ∧ (s.mach.setSb i
        { kind := b.kind, carrier := b.carrier, die := b.die, state := SbState.closed, used := b.used, closeTime := b.closeTime, wbin := b.wbin, pe := b.pe, bias := b.bias, verifyFails := b.verifyFails }).copyUnits
        (s.mach.sbUnits i) ≠ none) ∧
    (∃ (s : State) (i : ℕ),
      s.mach.gcVictim = some i ∧ s.mach.copyUnits (s.mach.sbUnits i) ≠ none) ∧
    (∃ (s : State),
      s.mach.ftl.mounted = true ∧ s.mach.ftl.pendJ = [] ∧ s.mach.ftl.waiting = []) ∧
    (∃ (s : State) (ch : Fin 32) (trig : Fin 4),
      ↑ch < nandChannels s.variant ∧ s.mach.ftl.mounted = true ∧ s.mach.fld (Reg.flmChStatus ↑ch) 31 30 = 0 ∧ trig ≠ 3 ∧ mapFind
        s.mach.ftl.recalFails ↑ch = some 1) ∧
    (∃ (s : State),
      ∀ k < 32, s.mach.fld (Reg.flmChStatus k) 31 30 ≤ 1) ∧
    (∃ (cfg : U32),
      2 ≤ bitsOf (BitVec.toNat cfg) 15 8 ∧ bitsOf (BitVec.toNat cfg) 15 8 ≤ 16 ∧ 1 ≤ BitVec.toNat cfg % 256 ∧ BitVec.toNat cfg % 256 ≤ 10) :=
  ⟨⟨st0 (onM.setFld Reg.glbBootStatus 7 0 6), by decide +kernel⟩,
    ⟨st0 ((onFtl hostM (fun f => { f with found := some (⟨[carrier 0, { carrier 1 with setId := 2 }], 4, 2, 0, [], 0, 0, []⟩ : MountInfo) })).setBit Reg.glbAdopt 30 true), (⟨[carrier 0, { carrier 1 with setId := 2 }], 4, 2, 0, [], 0, 0, []⟩ : MountInfo), carrier 0, 1, by decide +kernel⟩,
    ⟨st0 hostM, by decide +kernel⟩,
    ⟨st0 flashM, 0, ⟨carrier 0, true, true⟩, by decide +kernel⟩,
    ⟨st0 flashM, carrier 1, by decide +kernel⟩,
    ⟨st0 flashM, 0, 7, sblk .native .free 0, by decide +kernel⟩,
    ⟨st0 (onFtl flashM (fun f => { f with spares := 1 })), 0, sblk .native .free 0, by decide +kernel⟩,
    ⟨st0 (onFtl flashM (fun f => { f with sbs := [(0, sblk .native .free 0), (1, sblk .native .free 0), (2, sblk .native .free 0), (3, sblk .slc .closed 1)], nss := [(1, { ns1 with units := [(0, ⟨3, 0, false, 1, 0⟩)] })] })), 3, sblk .slc .closed 1, by decide +kernel⟩,
    ⟨st0 (onFtl flashM (fun f => { f with sbs := [(0, sblk .native .free 0), (1, sblk .native .free 0), (2, sblk .native .free 0), (4, sblk .native .closed 1)], nss := [(1, { ns1 with units := [(0, ⟨4, 0, false, 1, 0⟩)] })] })), 4, by decide +kernel⟩,
    ⟨st0 flashM, by decide +kernel⟩,
    ⟨st0 ((onFtl flashM (fun f => { f with recalFails := [(2, 1)] })).setFld (Reg.flmChStatus 2) 31 30 0), 2, 1, by decide +kernel⟩,
    ⟨st0 ((List.range 32).foldl (fun m k => m.setFld (Reg.flmChStatus k) 31 30 0) hostM), by decide +kernel⟩,
    ⟨0x0802, by decide +kernel⟩⟩
/-- A port in training, one whose controller is off, and memory areas that window 4 shows. -/
def onPort (m : Mach) (f : PortSt → PortSt) : Mach := onHif m (fun h => { h with p0 := f h.p0 })
def trainM : Mach := onPort onM (fun x => { x with training := true })
def enM : Mach := onPort hostM (fun x => { x with ctl := { x.ctl with en := true, rdy := false } })
def ccM : Mach := onPort hostM (fun x => { x with ctl := Ctl.reset })

/-- Power states allowed to the deepest, clusters of region 0 idle with their clocks off, every region off, the package in PS3. -/
def psM : Mach := ((({ onM with spn := { onM.spn with count := 1 } }.setFld Reg.glbBootStatus 7 0 8).setFld Reg.pwrCfg 2 0 4).setReg Reg.pwrToleranceNs 0xFFFFFFFF)
def readyM : Mach := onM.setClus 0 { Cluster.reset with ring := [(0, entIn .ready 0 0 0)], ringNext := 1, serves := [0], loaded := [0], gated := true }
def onPs (m : Mach) (f : PowerStates → PowerStates) : Mach := { m with ps := f m.ps }
def gatedM : Mach := (List.range 4).foldl (fun m c => m.setClus c { m.clus c with gated := true }) psM
def calM : Mach := onPower gatedM (fun p => { p with calibrating := true })
def allOff : Mach := onPs psM (fun p => { p with regionsOff := [0, 1, 2, 3, 4, 5, 6, 7] })
def pkg3 : Mach := onPs allOff (fun p => { p with pkg := 3 })

/-- Injections armed, tiles under suspicion, retired or derated. -/
def inj (t target : Nat) : Injection := ⟨t, target, 1, false⟩
def armM (m : Mach) (i : Injection) : Mach := { m with ras := { m.ras with inj := some i } }
def tileX (t : Nat) (f : Tile → Tile) : Mach := onM.setTile t (f (onM.tile t))
def susM : Mach := tileX 3 (fun x => { x with suspect := true })
def okRes : SuiteResult := ⟨3, none, 0, 0⟩
def badRes : SuiteResult := ⟨3, some 1, 0, 0⟩
def st5 : Mach := onM.setFld Reg.glbBootStatus 7 0 5

/-- States and operands that meet the hypotheses of HostPorts, for each of its clauses. -/
theorem meets_HostPorts :
    (∃ (s : State) (p : Port),
      s.mach.power.pwrOk = true ∧ (s.mach.port ↑p).up = false) ∧
    (∃ (s : State) (p : Port),
      (s.mach.port ↑p).training = true) ∧
    (∃ (s : State) (p : Port) (c : Instr),
      (s.mach.port ↑p).up = true ∧ c ∈ [Instr.perstAssert p, Instr.hotReset p, Instr.surpriseDown p]) ∧
    (∃ (s : State) (p : Port),
      (s.mach.port ↑p).up = true ∧ (s.mach.port ↑p).cfgReady = true ∧ (s.mach.port ↑p).d3 = false ∧ (s.mach.port ↑p).ctl.en = false) ∧
    (∃ (s : State) (p : Port),
      (s.mach.port ↑p).ctl.en = true ∧ (s.mach.fld Reg.glbBootStatus 7 0 = 7 ∨ s.mach.fld Reg.glbBootStatus 7 0 = 8)) ∧
    (∃ (s : State) (p : Port),
      (s.mach.port ↑p).ctl.en = true ∧ s.mach.fld Reg.glbBootStatus 7 0 < 7 ∧ s.mach.fld Reg.glbBootStatus 11 8 ≠ 2) ∧
    (∃ (s : State) (p : Port) (off : U64) (len : ℕ),
      (s.mach.port ↑p).serves = true ∧ (∀ i < len, (Mach.win4At s.variant s.mach (BitVec.toNat off + i)).reads = true)) ∧
    (∃ (s : State) (p : Port) (off : U64),
      (s.mach.port ↑p).serves = true ∧ (Mach.win4At s.variant s.mach (BitVec.toNat off)).reads = false) ∧
    (∃ (s : State) (p : Port) (off : U64),
      (s.mach.port ↑p).serves = true ∧ Mach.win4At s.variant s.mach (BitVec.toNat off) = Win4Kind.plain) ∧
    (∃ (s : State) (p : Port) (off : U64),
      (s.mach.port ↑p).serves = true ∧ Mach.win4At s.variant s.mach (BitVec.toNat off) ≠ Win4Kind.plain ∧ Mach.win4At s.variant s.mach
        (BitVec.toNat off) ≠ Win4Kind.tier) :=
  ⟨⟨st0 onM, 0, by decide +kernel⟩,
    ⟨st0 trainM, 0, by decide +kernel⟩,
    ⟨st0 hostM, 0, .hotReset 0, by decide +kernel⟩,
    ⟨st0 ccM, 0, by decide +kernel⟩,
    ⟨st0 enM, 0, by decide +kernel⟩,
    ⟨st0 (enM.setFld Reg.glbBootStatus 7 0 6), 0, by decide +kernel⟩,
    ⟨st0 hostM, 0, 0x1000, 4, by decide +kernel⟩,
    ⟨st0 hostM, 0, 0xFFFFFFFFFFFFFFFF, by decide +kernel⟩,
    ⟨st0 hostM, 0, 0x1000, by decide +kernel⟩,
    ⟨st0 hostM, 0, 0xFFFFFFFFFFFFFFFF, by decide +kernel⟩⟩

/-- States and operands that meet the hypotheses of PowerStates, for each of its clauses. -/
theorem meets_PowerStates :
    (∃ (s : State) (c : ClusterId),
      ↑c < clusterCount s.variant ∧ s.mach.clockRuns ↑c = true ∧ s.mach.ps.pkg = 0 ∧ s.mach.clusterIdle ↑c = true ∧ s.mach.qualifies 1 1000
        (entryTime 1 (s.mach.clus ↑c).current) (Mach.regionEvents s.variant s.mach (↑c / 4)) = true) ∧
    (∃ (s : State) (c : ClusterId),
      (s.mach.clus ↑c).gated = true ∧ (s.mach.nextEntry ↑c).isSome = true) ∧
    (∃ (s : State) (r : Fin 8),
      ↑r < 2 * dieCount s.variant ∧ s.mach.power.pwrOk = true ∧ s.mach.ps.pkg = 0 ∧ s.mach.ps.regionsOff.contains ↑r = false ∧
        s.mach.regionIdle ↑r = true ∧ s.mach.mayTry 2 ↑r = true ∧ s.mach.qualifies 2 (50000 + 20000 * s.mach.ps.regionsOff.length) 15000
        (Mach.regionEvents s.variant s.mach ↑r) = true ∧ s.mach.injRefuser 2 = none ∧ s.mach.refusers 2 ↑r = []) ∧
    (∃ (s : State) (r : Fin 8) (w : ℕ) (k : ℕ),
      ↑r < 2 * dieCount s.variant ∧ s.mach.power.pwrOk = true ∧ s.mach.ps.pkg = 0 ∧ s.mach.ps.regionsOff.contains ↑r = false ∧
        s.mach.regionIdle ↑r = true ∧ s.mach.mayTry 2 ↑r = true ∧ s.mach.qualifies 2 (50000 + 20000 * s.mach.ps.regionsOff.length) 15000
        (Mach.regionEvents s.variant s.mach ↑r) = true ∧ s.mach.injRefuser 2 = none ∧ (s.mach.refusers 2 ↑r).min? = some w ∧ k = 16 + ↑r) ∧
    (∃ (s : State) (r : Fin 8),
      s.mach.ps.pkg = 0 ∧ ↑r ∈ s.mach.ps.regionsOff) ∧
    (∃ (s : State),
      s.mach.power.pwrOk = true ∧ s.mach.ps.pkg = 0 ∧ (∀ y ∈ regionsPresent s.variant, y ∈ s.mach.ps.regionsOff ∨ y / 2 ∈ s.mach.tl.diesOut)
        ∧ s.mach.mayTry 3 0 = true ∧ s.mach.qualifies 3 300000 12000 (Mach.packageEvents s.variant s.mach) = true ∧ s.mach.injRefuser 3 =
        none ∧ s.mach.refusers 3 0 = []) ∧
    (∃ (s : State) (w : ℕ) (k : ℕ),
      s.mach.power.pwrOk = true ∧ s.mach.ps.pkg = 0 ∧ (∀ y ∈ regionsPresent s.variant, y ∈ s.mach.ps.regionsOff ∨ y / 2 ∈ s.mach.tl.diesOut)
        ∧ s.mach.mayTry 3 0 = true ∧ s.mach.qualifies 3 300000 12000 (Mach.packageEvents s.variant s.mach) = true ∧ s.mach.injRefuser 3 =
        none ∧ (s.mach.refusers 3 0).min? = some w ∧ k = 24) ∧
    (∃ (s : State),
      s.mach.ps.pkg = 3 ∧ s.mach.ps.waking = false ∧ s.mach.mayTry 4 0 = true ∧ s.mach.qualifies 4 5000000 2000000 (Mach.packageEvents
        s.variant s.mach) = true ∧ s.mach.injRefuser 4 = none ∧ s.mach.refusers 4 0 = []) ∧
    (∃ (s : State) (w : ℕ) (k : ℕ),
      s.mach.ps.pkg = 3 ∧ s.mach.ps.waking = false ∧ s.mach.mayTry 4 0 = true ∧ s.mach.qualifies 4 5000000 2000000 (Mach.packageEvents
        s.variant s.mach) = true ∧ s.mach.injRefuser 4 = none ∧ (s.mach.refusers 4 0).min? = some w ∧ k = 32) ∧
    (∃ (s : State),
      s.mach.ps.pkg = 4) ∧
    (∃ (s : State) (found : Fin 16),
      s.mach.ps.pkg ≠ 0 ∧ found ≠ 0) ∧
    (∃ (s : State) (e : ℕ × ℕ),
      s.mach.ps.pkg ≠ 0 ∧ firstEvent (Mach.packageEvents s.variant s.mach) = some e ∧ e.1 ≤ s.mach.spn.count + exitLatency s.mach.ps.pkg 0) ∧
    (∃ (s : State) (val : U64),
      val ≠ 0 ∧ countReached s.mach.spn.count (BitVec.toNat val) = false) ∧
    (∃ (s : State) (val : U64),
      val ≠ 0 ∧ countReached s.mach.spn.count (BitVec.toNat val) = true) ∧
    (∃ (s : State) (c : ClusterId),
      ↑c < clusterCount s.variant ∧ s.mach.bit Reg.pwrCfg 3 = true ∧ s.mach.clockRuns ↑c = true ∧ 8 ≤ s.mach.blockedTiles ↑c) ∧
    (∃ (s : State) (c : ClusterId),
      ↑c < clusterCount s.variant ∧ s.mach.bit Reg.pwrCfg 3 = false) :=
  ⟨⟨st0 psM, 0, by decide +kernel⟩,
    ⟨st0 readyM, 0, by decide +kernel⟩,
    ⟨st0 gatedM, 0, by decide +kernel⟩,
    ⟨st0 calM, 0, 7, 16, by decide +kernel⟩,
    ⟨st0 allOff, 3, by decide +kernel⟩,
    ⟨st0 allOff, by decide +kernel⟩,
    ⟨st0 (withJob allOff (job0 (.codec codec0))), 4, 24, by decide +kernel⟩,
    ⟨st0 pkg3, by decide +kernel⟩,
    ⟨st0 (withJob pkg3 (job0 (.codec codec0))), 4, 32, by decide +kernel⟩,
    ⟨st0 (onPs allOff (fun p => { p with pkg := 4 })), by decide +kernel⟩,
    ⟨st0 pkg3, 1, by decide +kernel⟩,
    ⟨st0 (pkg3.setReg Reg.pwrWakeAt 5), (5, 1), by decide +kernel⟩,
    ⟨st0 onM, 5, by decide +kernel⟩,
    ⟨st0 (late onM), 5, by decide +kernel⟩,
    ⟨st0 (psM.setBit Reg.pwrCfg 3 true), 0, by decide +kernel⟩,
    ⟨st0 (psM.setBit Reg.pwrCfg 3 false), 0, by decide +kernel⟩⟩

/-- States and operands that meet the hypotheses of TestsAndRetirement, for each of its clauses. -/
theorem meets_TestsAndRetirement :
    (∃ (s : State) (r : Fin 8) (t : TileId) (res : SuiteResult),
      res.tile = t ∧ t.val / 64 = r.val ∧ Mach.testable s.variant s.mach ↑t = true ∧ s.mach.armed 4 = none ∧ res.failed = none) ∧
    (∃ (s : State) (r : Fin 8) (t : TileId) (res : SuiteResult),
      res.tile = t ∧ t.val / 64 = r.val ∧ Mach.testable s.variant s.mach ↑t = true ∧ s.mach.armed 4 = none ∧ res.failed ≠ none) ∧
    (∃ (s : State) (t : TileId) (i : Injection),
      s.mach.armed 4 = some i ∧ i.target = ↑t ∧ Mach.testable s.variant s.mach ↑t = true) ∧
    (∃ (s : State) (t : TileId) (res : SuiteResult) (a : SuiteResult) (b : SuiteResult),
      (s.mach.tile ↑t).suspect = true ∧ (s.mach.tile ↑t).running = false ∧ s.mach.armed 4 = none ∧ (s.mach.tile ↑t).suspicions = [] ∧
        res.failed = none ∧ a.failed = none ∧ b.failed = none) ∧
    (∃ (s : State) (t : TileId) (res : SuiteResult) (a : SuiteResult) (b : SuiteResult),
      (s.mach.tile ↑t).suspect = true ∧ (s.mach.tile ↑t).running = false ∧ s.mach.armed 4 = none ∧ (s.mach.tile ↑t).suspicions = [] ∧
        res.failed = none ∧ a.failed = none ∧ b.failed ≠ none ∧ s.mach.storm = false ∧ s.mach.retireWindow.length < s.mach.fld
        Reg.rasRetireCfg 15 8) ∧
    (∃ (s : State) (t : TileId),
      tilePresent s.variant ↑t = true ∧ (s.mach.tile ↑t).role ≠ TileRole.retired ∧ s.mach.power.pwrOk = true ∧ (s.mach.tile ↑t).unit = none
        ∧ s.mach.storm = false ∧ s.mach.retireWindow.length < s.mach.fld Reg.rasRetireCfg 15 8) ∧
    (∃ (s : State),
      s.mach.storm = true) ∧
    (∃ (s : State) (t : TileId) (c : ClusterId),
      s.mach.dueTiles ↑c = [↑t] ∧ (s.mach.tile (↑c * 16 + 15)).role = TileRole.spare) ∧
    (∃ (s : State) (c : ClusterId),
      s.mach.dueTiles ↑c = []) ∧
    (∃ (s : State) (t : TileId),
      (s.mach.tile ↑t).derate ≠ none) ∧
    (∃ (s : State) (c : ClusterId),
      ↑c < clusterCount s.variant) ∧
    (∃ (s : State) (i : Injection) (w : ℕ),
      s.mach.armed 1 = some i ∧ w = i.target % 2 ^ 48 / 8 * 8) ∧
    (∃ (s : State) (i : Injection) (w : ℕ),
      s.mach.armed 2 = some i ∧ w = i.target % 2 ^ 48 / 8 * 8) ∧
    (∃ (s : State) (i : Injection),
      s.mach.armed 3 = some i) ∧
    (∃ (s : State) (i : Injection) (sb : ℕ) (y : SBlk),
      s.mach.armed 5 = some i ∧ mapFind s.mach.ftl.sbs sb = some y ∧ y.carrier = i.target % 32 / 8 ∧ y.die = bitsOf i.target 9 5) ∧
    (∃ (s : State) (i : Injection),
      s.mach.armed 6 = some i ∧ i.target % 8 = 3 ∧ s.mach.power.pwrOk = true ∧ s.mach.ps.pkg = 0 ∧ (∀ k ∈ regionsPresent s.variant, k ∈
        s.mach.ps.regionsOff ∨ k / 2 ∈ s.mach.tl.diesOut) ∧ s.mach.mayTry 3 0 = true ∧ s.mach.qualifies 3 300000 12000 (Mach.packageEvents
        s.variant s.mach) = true ∧ s.mach.refusers 3 0 = []) ∧
    (∃ (s : State) (wr : Writer),
      s.mach.mayInject wr = true) ∧
    (∃ (s : State) (wr : Writer),
      s.mach.mayInject wr = false) ∧
    (∃ (mg : Margin),
      mg.index < 5) ∧
    (∃ (s : State) (addr : U64),
      s.mach.mem.ceWords = [] ∧ Mach.ueHit s.variant s.mach (BitVec.toNat addr / 8 * 8) 8 = none) ∧
    (∃ (s : State) (w : ℕ) (addr : U64),
      s.mach.mem.ceWords = [] ∧ Mach.ueHit s.variant s.mach (BitVec.toNat addr / 8 * 8) 8 = some w) ∧
    (∃ (s : State),
      s.mach.power.pwrOk = true ∧ s.mach.fld Reg.glbBootStatus 7 0 = 5 ∧ s.mach.ras.norDerated = [] ∧ s.mach.ras.norRetired = []) ∧
    (∃ (s : State) (t : TileId),
      s.mach.power.pwrOk = true ∧ s.mach.fld Reg.glbBootStatus 7 0 = 5 ∧ s.mach.ras.norDerated = [] ∧ s.mach.ras.norRetired = [↑t]) ∧
    (∃ (s : State),
      s.mach.power.pwrOk = true ∧ s.mach.fld Reg.glbBootStatus 11 8 = 2 ∧ s.mach.fld Reg.glbBootStatus 7 0 = 3 ∧ s.mach.mem.trained = true) :=
  ⟨⟨st0 onM, 0, 3, okRes, by decide +kernel⟩,
    ⟨st0 onM, 0, 3, badRes, by decide +kernel⟩,
    ⟨st0 (armM onM (inj 4 3)), 3, inj 4 3, by decide +kernel⟩,
    ⟨st0 susM, 3, okRes, okRes, okRes, by decide +kernel⟩,
    ⟨st0 (susM.setFld Reg.rasRetireCfg 15 8 8), 3, okRes, okRes, badRes, by decide +kernel⟩,
    ⟨st0 (onM.setFld Reg.rasRetireCfg 15 8 8), 3, by decide +kernel⟩,
    ⟨st0 (onM.setBit Reg.rasRetireStatus 31 true), by decide +kernel⟩,
    ⟨st0 (tileX 3 (fun x => { x with role := .retired, handoverDue := true })), 3, 0, by decide +kernel⟩,
    ⟨st0 onM, 0, by decide +kernel⟩,
    ⟨st0 (tileX 3 (fun x => { x with derate := some (2, 1500) })), 3, by decide +kernel⟩,
    ⟨st0 onM, 0, by decide +kernel⟩,
    ⟨st0 (armM onM (inj 1 0x1004)), inj 1 0x1004, 0x1000, by decide +kernel⟩,
    ⟨st0 (armM onM (inj 2 0x1004)), inj 2 0x1004, 0x1000, by decide +kernel⟩,
    ⟨st0 (armM onM (inj 3 0x102)), inj 3 0x102, by decide +kernel⟩,
    ⟨st0 (armM flashM (inj 5 0)), inj 5 0, 0, sblk .native .free 0, by decide +kernel⟩,
    ⟨st0 (armM allOff (inj 6 0x43)), inj 6 0x43, by decide +kernel⟩,
    ⟨st0 onM, .port 0, by decide +kernel⟩,
    ⟨st0 onM, .port 1, by decide +kernel⟩,
    ⟨⟨4, 5, 5⟩, by decide +kernel⟩,
    ⟨st0 onM, 0x1000, by decide +kernel⟩,
    ⟨st0 (onMem onM (fun s => { s with badWords := [0x1000] })), 0x1000, 0x1000, by decide +kernel⟩,
    ⟨st0 st5, by decide +kernel⟩,
    ⟨st0 { st5 with ras := { st5.ras with norRetired := [3] } }, 3, by decide +kernel⟩,
    ⟨st0 (onMem ((onM.setFld Reg.glbBootStatus 7 0 3).setFld Reg.glbBootStatus 11 8 2) (fun s => { s with trained := true })), by decide +kernel⟩⟩
/-- The always-on domain is up. -/
def stby : Mach := onPower mm (fun p => { p with closed := true, standby := true })
def railsUp : Mach := onPower onM (fun p => { p with standby := true, rails := .regulated })
def rec7 : KeptRec := ⟨⟨0x0060, false, 0, 7, 0, 0, []⟩, false, true, false, 0⟩
def reading (w : ReadWin) (k : List KeptRec) : Mach := { onM with evr := { onM.evr with win1 := w, kept := k } }
def pend2 : PendWrite := ⟨Reg.pwrToleranceNs, 2 ^ 32 - 1, 1, 0⟩
def clk0 : PendWrite := ⟨0x20000, 2 ^ 11 - 1, 1800, 0⟩

/-- States and operands that meet the hypotheses of PowerUpSequence, for each of its clauses. -/
theorem meets_PowerUpSequence :
    (∃ (mv : ℕ),
      mv < uvLockout) ∧
    (∃ (s : State),
      s.mach.power.closed = true ∧ s.mach.power.standby = false) ∧
    (∃ (s : State),
      s.mach.power.closed = false ∨ s.mach.power.standby = true) ∧
    (∃ (s : State) (mv : ℕ) (lowMs : ℕ),
      100 ≤ lowMs ∧ s.mach.power.standby = true ∧ s.mach.power.rails = Rails.off ∧ uvLockout ≤ mv ∧ mv < ovShutdown) ∧
    (∃ (s : State) (mv : ℕ) (lowMs : ℕ),
      lowMs < 100 ∧ s.mach.power.latched = true ∧ s.mach.power.standby = true ∧ uvLockout ≤ mv ∧ mv < ovShutdown) ∧
    (∃ (s : State) (minFlow : ℕ) (maxInlet : ℕ),
      s.mach.power.checkRunning = true ∧ 1200 ≤ minFlow ∧ maxInlet ≤ 400) ∧
    (∃ (s : State) (minFlow : ℕ) (maxInlet : ℕ),
      s.mach.power.checkRunning = true ∧ s.mach.power.checkFailing = false ∧ (minFlow < 1200 ∨ 400 < maxInlet)) ∧
    (∃ (s : State),
      s.mach.power.rails = Rails.ramping) ∧
    (∃ (s : State),
      s.mach.power.rails = Rails.regulated ∧ s.mach.power.pwrOk = false) ∧
    (∃ (mv : ℕ),
      mv < 28000) :=
  ⟨⟨44999, by unfold uvLockout; omega⟩,
    ⟨st0 (onPower mm (fun p => { p with closed := true })), by decide +kernel⟩,
    ⟨st0 mm, by decide +kernel⟩,
    ⟨st0 stby, 56000, 100, by decide +kernel, by decide +kernel, by decide +kernel, by unfold uvLockout; omega, by unfold ovShutdown; omega⟩,
    ⟨st0 (onPower stby (fun p => { p with latchOther := true })), 46000, 99, by decide +kernel, by decide +kernel, by decide +kernel, by unfold uvLockout; omega, by unfold ovShutdown; omega⟩,
    ⟨st0 (onPower mm (fun p => { p with checkRunning := true })), 1200, 400, by decide +kernel⟩,
    ⟨st0 (onPower mm (fun p => { p with checkRunning := true })), 1199, 400, by decide +kernel⟩,
    ⟨st0 (onPower mm (fun p => { p with rails := .ramping })), by decide +kernel⟩,
    ⟨st0 (onPower mm (fun p => { p with rails := .regulated })), by decide +kernel⟩,
    ⟨27999, by decide +kernel⟩⟩

/-- States and operands that meet the hypotheses of PowerDownPaths, for each of its clauses. -/
theorem meets_PowerDownPaths :
    (∃ (s : State) (mv : ℕ),
      s.mach.power.rails ≠ Rails.off ∧ ovShutdown ≤ mv) ∧
    (∃ (s : State) (temp : ℕ),
      s.mach.power.rails ≠ Rails.off ∧ 1150 ≤ temp) ∧
    (∃ (s : State),
      s.mach.power.rails ≠ Rails.off ∧ s.mach.power.flowTimer = true) ∧
    (∃ (s : State) (mv : ℕ),
      s.mach.power.rails ≠ Rails.off ∧ mv < uvDetect) ∧
    (∃ (s : State),
      s.mach.power.rails = Rails.bulk) ∧
    (∃ (s : State) (mv : ℕ),
      s.mach.power.rails = Rails.off ∧ ovShutdown ≤ mv) ∧
    (∃ (s : State) (mv : ℕ),
      s.mach.power.rails = Rails.off ∧ uvLockout ≤ mv ∧ mv < ovShutdown ∧ s.mach.power.modEn = true ∧ s.mach.power.standby = true ∧
        s.mach.power.latched = false ∧ s.mach.power.emergLow = false) ∧
    (∃ (s : State) (c : ℕ),
      s.mach.power.offDue = some c ∧ s.mach.power.standby = true) :=
  ⟨⟨st0 railsUp, 60001, by decide +kernel, by unfold ovShutdown; omega⟩,
    ⟨st0 railsUp, 1150, by decide +kernel⟩,
    ⟨st0 (onPower railsUp (fun p => { p with flowTimer := true })), by decide +kernel⟩,
    ⟨st0 railsUp, 43499, by decide +kernel, by unfold uvDetect; omega⟩,
    ⟨st0 (onPower mm (fun p => { p with rails := .bulk })), by decide +kernel⟩,
    ⟨st0 mm, 60001, by decide +kernel, by unfold ovShutdown; omega⟩,
    ⟨st0 (onPower stby (fun p => { p with modEn := true })), 46001, by decide +kernel, by unfold uvLockout; omega, by unfold ovShutdown; omega, by decide +kernel, by decide +kernel, by decide +kernel, by decide +kernel⟩,
    ⟨st0 (onPower stby (fun p => { p with offDue := some 3 })), 3, by decide +kernel⟩⟩

/-- States and operands that meet the hypotheses of CoolantHeatAndPower, for each of its clauses. -/
theorem meets_CoolantHeatAndPower :
    (∃ (s : State) (flow : ℕ),
      s.mach.power.pwrOk = true ∧ s.mach.power.standby = true ∧ flow < 900 ∧ s.mach.bit Reg.glbCoolant 29 = false) ∧
    (∃ (s : State) (flow : ℕ),
      s.mach.power.pwrOk = true ∧ s.mach.power.standby = true ∧ 1200 ≤ flow ∧ s.mach.bit Reg.glbCoolant 29 = true) ∧
    (∃ (s : State) (temp : ℕ),
      s.mach.power.pwrOk = true ∧ s.mach.power.standby = true ∧ 400 < temp ∧ temp < 4096) ∧
    (∃ (s : State) (temp : ℕ),
      s.mach.power.pwrOk = true ∧ s.mach.power.standby = true ∧ temp ≤ 400) ∧
    (∃ (s : State) (temp : ℕ) (sensor : ℕ),
      s.mach.power.pwrOk = true ∧ s.mach.power.standby = true ∧ 1050 - 50 * s.mach.fld Reg.glbStraps 10 9 ≤ temp ∧ sensor ∉
        s.mach.power.throttled) ∧
    (∃ (s : State) (temp : ℕ) (sensor : ℕ),
      s.mach.power.pwrOk = true ∧ s.mach.power.standby = true ∧ temp < 1050 - 50 * s.mach.fld Reg.glbStraps 10 9 ∧ s.mach.power.throttled =
        [sensor]) ∧
    (∃ (s : State),
      s.mach.power.pwrOk = true ∧ s.mach.power.standby = true ∧ s.mach.power.limit950 = false) ∧
    (∃ (s : State),
      s.mach.power.pwrOk = true ∧ s.mach.power.standby = true ∧ s.mach.power.limit950 = true) :=
  ⟨⟨st0 railsUp, 899, by decide +kernel⟩,
    ⟨st0 (railsUp.setBit Reg.glbCoolant 29 true), 1200, by decide +kernel⟩,
    ⟨st0 railsUp, 4095, by decide +kernel⟩,
    ⟨st0 railsUp, 400, by decide +kernel⟩,
    ⟨st0 railsUp, 1050, 4, by decide +kernel⟩,
    ⟨st0 (onPower railsUp (fun p => { p with throttled := [4] })), 1049, 4, by decide +kernel⟩,
    ⟨st0 railsUp, by decide +kernel⟩,
    ⟨st0 (onPower railsUp (fun p => { p with limit950 := true })), by decide +kernel⟩⟩

/-- States and operands that meet the hypotheses of ServiceAndManagement, for each of its clauses. -/
theorem meets_ServiceAndManagement :
    (∃ (s : State),
      s.mach.power.pwrOk = true ∧ s.mach.power.quiesce = Quiesce.none) ∧
    (∃ (s : State),
      s.mach.power.quiesce = Quiesce.running) ∧
    (∃ (s : State) (r : List OffRec),
      s.mach.power.quiesce = Quiesce.ready ∧ s.mach.power.offRecs = { cause := 1, withdrawn := false } :: r) ∧
    (∃ (heldMs : ℕ),
      5 ≤ heldMs) ∧
    (∃ (s : State) (lowNs : ℕ),
      1000 ≤ lowNs ∧ s.mach.power.pwrOk = true) ∧
    (∃ (lowNs : ℕ),
      lowNs < 900) ∧
    (∃ (s : State) (off : BitVec 25),
      s.mach.power.standby = true ∧ off.toNat ∈ standbySet (decide (s.mach.fld Reg.glbBootStatus 7 0 = 255))) ∧
    (∃ (s : State) (off : BitVec 25),
      s.mach.power.standby = true ∧ off.toNat ∉ standbySet (decide (s.mach.fld Reg.glbBootStatus 7 0 = 255))) ∧
    (∃ (s : State),
      s.mach.power.standby = false) :=
  ⟨⟨st0 onM, by decide +kernel⟩,
    ⟨st0 (onPower mm (fun p => { p with quiesce := .running })), by decide +kernel⟩,
    ⟨st0 (onPower mm (fun p => { p with quiesce := .ready, offRecs := [⟨1, false⟩] })), [], by decide +kernel⟩,
    ⟨5, by decide +kernel⟩,
    ⟨st0 onM, 1000, by decide +kernel⟩,
    ⟨899, by decide +kernel⟩,
    ⟨st0 stby, BitVec.ofNat 25 Reg.glbSupply, by decide +kernel⟩,
    ⟨st0 stby, BitVec.ofNat 25 Reg.glbBootStatus, by decide +kernel⟩,
    ⟨st0 mm, by decide +kernel⟩⟩

/-- States and operands that meet the hypotheses of BootStages, for each of its clauses. -/
theorem meets_BootStages :
    (∃ (s : State) (i : ℕ),
      s.mach.boot.chosen = some i ∧ s.mach.fld Reg.glbBootStatus 7 0 = 2 ∧ i < 3 ∧ s.mach.boot.meas.length = 8) ∧
    (∃ (s : State) (i : ℕ),
      s.mach.boot.chosen = some i ∧ s.mach.fld Reg.glbBootStatus 7 0 ≠ 2) ∧
    (∃ (s : State) (i : ℕ),
      s.mach.boot.chosen = some i ∧ s.mach.fld Reg.glbBootStatus 7 0 = 7) ∧
    (∃ (s : State) (i : ℕ),
      s.mach.boot.chosen = some i ∧ s.mach.fld Reg.glbBootStatus 7 0 ≠ 7) ∧
    (∃ (s : State) (i : ℕ),
      s.mach.boot.chosen = some i ∧ s.mach.boot.watchdog = true ∧ s.mach.power.pwrOk = true) :=
  ⟨⟨st0 ((onBoot onM (fun b => { b with chosen := some 2 })).setFld Reg.glbBootStatus 7 0 2), 2, by decide +kernel⟩,
    ⟨st0 (onBoot mm (fun b => { b with chosen := some 2 })), 2, by decide +kernel⟩,
    ⟨st0 ((onBoot onM (fun b => { b with chosen := some 1 })).setFld Reg.glbBootStatus 7 0 7), 1, by decide +kernel⟩,
    ⟨st0 (onBoot mm (fun b => { b with chosen := some 1 })), 1, by decide +kernel⟩,
    ⟨st0 (onBoot onM (fun b => { b with chosen := some 0, watchdog := true })), 0, by decide +kernel⟩⟩

/-- States and operands that meet the hypotheses of FirmwareAndAttestation, for each of its clauses. -/
theorem meets_FirmwareAndAttestation :
    (∃ (s : State) (n : NvmeCtx) (slot : Fin 4) (image : List Byte),
      Served s.mach n { ownerOnly := true, inToolRest := true, inMaint := false, io := false } ∧ s.mach.boot.live = none ∧ (slot = 1 ∨ slot
        = 2) ∧ leAt image 6 2 ≠ 2) ∧
    (∃ (s : State) (n : NvmeCtx) (slot : Fin 4) (image : List Byte),
      Served s.mach n { ownerOnly := true, inToolRest := true, inMaint := false, io := false } ∧ s.mach.boot.live = none ∧ slot = 3 ∧ leAt
        image 6 2 = 2) ∧
    (∃ (s : State) (n : NvmeCtx) (slot : Fin 4),
      Served s.mach n { ownerOnly := true, inToolRest := true, inMaint := false, io := false } ∧ s.mach.boot.live = none ∧ slot = 0) ∧
    (∃ (s : State) (n : NvmeCtx) (slot : Fin 4) (image : List Byte),
      Served s.mach n { ownerOnly := true, inToolRest := true, inMaint := false, io := false } ∧ s.mach.boot.live = none ∧ (slot = 3) ≠
        (leAt image 6 2 = 2) ∧ slot ≠ 0) ∧
    (∃ (s : State) (n : NvmeCtx) (slot : Fin 4),
      Served s.mach n { ownerOnly := true, inToolRest := true, inMaint := false, io := false } ∧ s.mach.boot.live = none ∧ slot ≠ 0 ∧
        imageCheck s.mach.boot (if slot = 3 then 2 else 1) (s.mach.boot.image (↑slot - 1)) ≠ none) ∧
    (∃ (s : State) (n : NvmeCtx) (slot : Fin 4) (action : Fin 8),
      Served s.mach n { ownerOnly := true, inToolRest := true, inMaint := false, io := false } ∧ s.mach.boot.live = none ∧ slot ≠ 0 ∧
        imageCheck s.mach.boot (if slot = 3 then 2 else 1) (s.mach.boot.image (↑slot - 1)) = none ∧ action ≠ 3) ∧
    (∃ (s : State) (n : NvmeCtx) (slot : Fin 4) (r : ℕ),
      Served s.mach n { ownerOnly := true, inToolRest := true, inMaint := false, io := false } ∧ s.mach.boot.live = none ∧ (slot = 1 ∨ slot
        = 2) ∧ imageCheck s.mach.boot 1 (s.mach.boot.image (↑slot - 1)) = none ∧ s.mach.boot.chosen = some r ∧ r < 2 ∧ (s.mach.boot.image
        (↑slot - 1)).liveCompat = (s.mach.boot.image r).liveCompat) ∧
    (∃ (s : State) (l : LiveUpdate),
      s.mach.boot.live = some l ∧ l.core ≠ 0) ∧
    (∃ (s : State) (l : LiveUpdate),
      s.mach.boot.live = some l ∧ l.core = 0 ∧ l.slot < 2) ∧
    (∃ (s : State) (n : NvmeCtx) (data : List Byte),
      Served s.mach n { ownerOnly := false, inToolRest := true, inMaint := false, io := false } ∧ data.length = 32 ∧ s.mach.boot.meas.length
        = 8) ∧
    (∃ (s : State) (n : NvmeCtx) (data : List Byte),
      Served s.mach n { ownerOnly := false, inToolRest := true, inMaint := false, io := false } ∧ data.length ≠ 32) ∧
    (∃ (s : State) (n : NvmeCtx) (x : List Byte),
      Served s.mach n { ownerOnly := false, inToolRest := true, inMaint := false, io := false } ∧ s.mach.boot.nonce ↑n.port = some x ∧
        s.mach.bit Reg.glbCcStatus 17 = false) ∧
    (∃ (s : State) (n : NvmeCtx),
      Served s.mach n { ownerOnly := false, inToolRest := true, inMaint := false, io := false } ∧ s.mach.boot.nonce ↑n.port = none) :=
  ⟨⟨st0 hostM, host0, 2, bytes 0x400, by unfold Served; decide +kernel⟩,
    ⟨st0 hostM, host0, 3, bytes 6 ++ leBytes 2 2, by unfold Served; decide +kernel⟩,
    ⟨st0 hostM, host0, 0, by unfold Served; decide +kernel⟩,
    ⟨st0 hostM, host0, 1, bytes 6 ++ leBytes 2 2, by unfold Served; decide +kernel, by decide +kernel,
    (by intro h; exact absurd (h.mpr (by decide +kernel)) (by decide)), by decide +kernel⟩,
    ⟨st0 hostM, host0, 2, by unfold Served; decide +kernel⟩,
    ⟨st0 hostM, host0, 1, 1, by unfold Served; decide +kernel⟩,
    ⟨st0 (onBoot hostM (fun b => { b with chosen := some 0 })), host0, 1, 0, by unfold Served; decide +kernel, by decide +kernel, by decide +kernel, by decide +kernel, by decide +kernel, by decide +kernel, rfl⟩,
    ⟨st0 (onBoot mm (fun b => { b with live := some ⟨1, 7, [], 0, 9⟩ })), ⟨1, 7, [], 0, 9⟩, by decide +kernel⟩,
    ⟨st0 (onBoot mm (fun b => { b with live := some ⟨1, 0, [], 0, 9⟩ })), ⟨1, 0, [], 0, 9⟩, by decide +kernel⟩,
    ⟨st0 hostM, host0, bytes 32, by unfold Served; decide +kernel⟩,
    ⟨st0 hostM, host0, bytes 31, by unfold Served; decide +kernel⟩,
    ⟨st0 (onBoot hostM (fun b => b.setNonce 0 (some (bytes 32)))), host0, bytes 32, by unfold Served; decide +kernel⟩,
    ⟨st0 hostM, host0, by unfold Served; decide +kernel⟩⟩

/-- States and operands that meet the hypotheses of RecorderCommands, for each of its clauses. -/
theorem meets_RecorderCommands :
    (∃ (s : State),
      s.mach.recorderOn = true ∧ s.mach.evr.dropRun = 0) ∧
    (∃ (s : State) (w : Writer) (p : Port),
      (s.mach.evr.win ↑p).busy = false ∧ (match w with | Writer.port q => decide (q ≠ p) | x => false) = false) ∧
    (∃ (s : State) (w : Writer) (p : Port),
      (s.mach.evr.win ↑p).busy = true ∨ (match w with | Writer.port q => decide (q ≠ p) | x => false) = true) ∧
    (∃ (s : State) (p : Port) (k : KeptRec),
      (s.mach.evr.win ↑p).busy = true ∧ List.find? (fun k => decide (k.record.seq = (s.mach.evr.win ↑p).seq) && k.inArea (s.mach.evr.win
        ↑p).loadArea) s.mach.evr.kept = some k) ∧
    (∃ (s : State) (p : Port),
      (s.mach.evr.win ↑p).busy = true ∧ List.find? (fun k => decide (k.record.seq = (s.mach.evr.win ↑p).seq) && k.inArea (s.mach.evr.win
        ↑p).loadArea) s.mach.evr.kept = none) :=
  ⟨⟨st0 onM, by decide +kernel⟩,
    ⟨st0 onM, .port 1, 1, by decide +kernel⟩,
    ⟨st0 onM, .port 0, 1, by decide +kernel⟩,
    ⟨st0 (reading ⟨7, false, true, false, 1, []⟩ [rec7]), 1, rec7, by decide +kernel⟩,
    ⟨st0 (reading ⟨8, false, true, false, 1, []⟩ [rec7]), 1, by decide +kernel⟩⟩

/-- States and operands that meet the hypotheses of RegisterWritesAndCommits, for each of its clauses. -/
theorem meets_RegisterWritesAndCommits :
    (∃ (s : State) (w : Writer) (off : BitVec 25) (val : BitVec 32) (r : RegDef) (f : FieldDef),
      s.mach.mayWrite w = true ∧ off.toNat % 4 = 0 ∧ regAt off.toNat = some r ∧ r.width = 32 ∧ r.fields = [f] ∧ f.lo ≤ f.hi ∧ f.hi < 32 ∧
        regPresent s.variant off.toNat = true ∧ s.mach.pageWritable w off.toNat = true ∧ off.toNat ≠ cfgctl (regBlock off.toNat) ∧
        Mach.writeSpecial s.variant s.mach w off.toNat val.toNat = none ∧ indexIn off.toNat (Reg.fabSpareCtl 0) 4096 2 = none ∧ indexIn
        off.toNat (Reg.rasFdom 0) 4 4 = none ∧ off.toNat ≠ Reg.glbEmcCfg ∧ f.acc = Access.ro) ∧
    (∃ (s : State) (w : Writer) (off : BitVec 25) (val : BitVec 32) (r : RegDef) (f : FieldDef),
      s.mach.mayWrite w = true ∧ off.toNat % 4 = 0 ∧ regAt off.toNat = some r ∧ r.width = 32 ∧ r.fields = [f] ∧ f.lo ≤ f.hi ∧ f.hi < 32 ∧
        regPresent s.variant off.toNat = true ∧ s.mach.pageWritable w off.toNat = true ∧ off.toNat ≠ cfgctl (regBlock off.toNat) ∧
        Mach.writeSpecial s.variant s.mach w off.toNat val.toNat = none ∧ indexIn off.toNat (Reg.fabSpareCtl 0) 4096 2 = none ∧ indexIn
        off.toNat (Reg.rasFdom 0) 4 4 = none ∧ off.toNat ≠ Reg.glbEmcCfg ∧ f.acc = Access.w1c) ∧
    (∃ (s : State) (w : Writer) (off : BitVec 25) (val : BitVec 32) (r : RegDef) (f : FieldDef),
      s.mach.mayWrite w = true ∧ off.toNat % 4 = 0 ∧ regAt off.toNat = some r ∧ r.width = 32 ∧ r.fields = [f] ∧ f.lo ≤ f.hi ∧ f.hi < 32 ∧
        regPresent s.variant off.toNat = true ∧ s.mach.pageWritable w off.toNat = true ∧ off.toNat ≠ cfgctl (regBlock off.toNat) ∧
        Mach.writeSpecial s.variant s.mach w off.toNat val.toNat = none ∧ indexIn off.toNat (Reg.fabSpareCtl 0) 4096 2 = none ∧ indexIn
        off.toNat (Reg.rasFdom 0) 4 4 = none ∧ off.toNat ≠ Reg.glbEmcCfg ∧ f.acc = Access.rwc) ∧
    (∃ (s : State) (w : Writer) (off : BitVec 25) (val : BitVec 32) (r : RegDef) (f : FieldDef),
      s.mach.mayWrite w = true ∧ off.toNat % 4 = 0 ∧ regAt off.toNat = some r ∧ r.width = 32 ∧ r.fields = [f] ∧ f.lo ≤ f.hi ∧ f.hi < 32 ∧
        regPresent s.variant off.toNat = true ∧ s.mach.pageWritable w off.toNat = true ∧ off.toNat ≠ cfgctl (regBlock off.toNat) ∧
        Mach.writeSpecial s.variant s.mach w off.toNat val.toNat = none ∧ indexIn off.toNat (Reg.fabSpareCtl 0) 4096 2 = none ∧ indexIn
        off.toNat (Reg.rasFdom 0) 4 4 = none ∧ off.toNat ≠ Reg.glbEmcCfg ∧ f.acc = Access.rw ∧ f.okVal (bitsOf val.toNat f.hi f.lo) = true ∧
        w = Writer.port 0 ∧ s.mach.mayWrite (Writer.port 1) = true) ∧
    (∃ (s : State) (w : Writer),
      s.mach.mayWrite w = true ∧ s.mach.bit Reg.glbStraps 5 = false) ∧
    (∃ (s : State) (w : Writer) (blk : ℕ),
      s.mach.mayWrite w = true ∧ regPresent s.variant blk = true ∧ hasCfgctl blk = true ∧ blk = regBlock blk ∧ s.mach.pageWritable w blk =
        true ∧ List.filter (fun q => decide (regBlock q.off = blk)) s.mach.regs.pend ≠ []) ∧
    (∃ (s : State) (w : Writer) (blk : ℕ),
      s.mach.mayWrite w = true ∧ regPresent s.variant blk = true ∧ hasCfgctl blk = true ∧ blk = regBlock blk ∧ s.mach.pageWritable w blk =
        true ∧ List.filter (fun q => decide (regBlock q.off = blk)) s.mach.regs.pend = []) ∧
    (∃ (s : State) (blk : ℕ),
      List.find? (fun c => decide (c.blk = blk)) s.mach.regs.latched = none) ∧
    (∃ (s : State) (blk : ℕ) (c : CommitSet) (p : PendWrite) (f : FieldDef),
      List.find? (fun c => decide (c.blk = blk)) s.mach.regs.latched = some c ∧ blk ∉ [65536, 196608, 720896, 786432, 851968] ∧ c.writes =
        [p] ∧ p.field = some f ∧ f.okVal p.val = true ∧ f.lo ≤ f.hi ∧ f.hi < 64 ∧ p.off ≠ cfgctl blk) :=
  ⟨⟨st0 hostM, .core 0, 0x48, 0xFFFFFFFF, ⟨0x48, [], 32, [⟨7, 0, .ro, 0, [], 1⟩]⟩, ⟨7, 0, .ro, 0, [], 1⟩, by decide +kernel⟩,
    ⟨st0 hostM, .core 0, 0x10008, 0xFFFFFFFF, ⟨0x10008, [], 32, [⟨7, 0, .w1c, 0, [], 1⟩]⟩, ⟨7, 0, .w1c, 0, [], 1⟩, by decide +kernel⟩,
    ⟨st0 hostM, .core 0, 0x10010, 0xFFFFFFFF, ⟨0x10010, [], 32, [⟨31, 0, .rwc, 4294967295, [], 1⟩]⟩, ⟨31, 0, .rwc, 4294967295, [], 1⟩, by decide +kernel⟩,
    ⟨st0 hostM, .port 0, 0x40020, 0xFFFFFFFF, ⟨0x40020, [], 32, [⟨15, 0, .rw, 33028, [], 1⟩]⟩, ⟨15, 0, .rw, 33028, [], 1⟩, by decide +kernel⟩,
    ⟨st0 hostM, .port 1, by decide +kernel⟩,
    ⟨st0 { hostM with regs := { hostM.regs with pend := [pend2] } }, .mgmt, 0x10000, by decide +kernel⟩,
    ⟨st0 hostM, .port 1, 0x11FF000, by decide +kernel⟩,
    ⟨st0 hostM, 0x10000, by decide +kernel⟩,
    ⟨st0 { hostM with regs := { hostM.regs with latched := [⟨0x20000, [clk0]⟩] } }, 0x20000, ⟨0x20000, [clk0]⟩, clk0, ⟨10, 0, .rwc, 1800, [(400, 1800)], 25⟩, by decide +kernel⟩⟩
/-- A manager with one member, a worker of node 9 that is joined, plans and starts. -/
def onSpn (m : Mach) (f : Spindle → Spindle) : Mach := { m with spn := f m.spn }
def mem0 (j : Bool) : Member := ⟨bytes 32, [], [], j, bytes 32, none, none, 0, 0⟩
def mgr (x : Member) : Mach := onSpn (hostM.setFld Reg.spnState 5 4 2) (fun s => { s with members := [(9, x)] })
def fullMgr : Mach := onSpn (hostM.setFld Reg.spnState 5 4 2)
  (fun s => { s with members := (9, mem0 false) :: (List.range 1023).map (fun i => (i + 10, mem0 true)) })
def wrk (p : JoinPhase) : Mach := onSpn ((hostM.setFld Reg.spnState 5 4 1).setFld Reg.spnMgrNode 31 0 9) (fun s => { s with phase := p })
def plan0 (d : List Byte) : PlanRec := ⟨7, d, 64, 0, 1, 1, [], [], 0⟩
def planM (d : List Byte) : Mach := onSpn hostM (fun s => { s with plans := [plan0 d] })
def modOf (n : Nat) : StartMod := ⟨some n, none, none, none, [], false⟩
def start0 (p : StartPhase) (l : List StartMod) : StartRec := ⟨7, 0, 1, 7, 1, 0, 0, 0, l, p⟩
def startM (x : Member) (p : StartPhase) (l : List StartMod) : Mach := onSpn (mgr x) (fun s => { s with starts := [start0 p l] })
def mgdJob (st : Nat) : Job := { job0 (.image img0) with state := st, planSeq := 7, owner := .manager 9 }

theorem full_manager : 1023 ≤ fullMgr.joinedCount := by
  have h : ((List.range 1023).map (fun i => (i + 10, mem0 true))).filter (fun p => p.2.joined) = (List.range 1023).map (fun i => (i + 10, mem0 true)) := by
    rw [List.filter_eq_self]
    intro a ha
    obtain ⟨i, -, rfl⟩ := List.mem_map.mp ha
    rfl
  show 1023 ≤ (((9, mem0 false) :: (List.range 1023).map (fun i => (i + 10, mem0 true))).filter (fun p => p.2.joined)).length
  rw [List.filter_cons_of_neg (by decide), h, List.length_map, List.length_range]

/-- States and operands that meet the hypotheses of SpindleAndJoining, for each of its clauses. -/
theorem meets_SpindleAndJoining :
    (∃ (s : State) (node : U32) (e1 : ℕ) (x : Member),
      s.mach.role = 2 ∧ s.mach.member? (BitVec.toNat node) = some x ∧ x.joined = true ∧ x.t1 = some e1) ∧
    (∃ (s : State) (node : U32) (x : Member),
      s.mach.role = 2 ∧ s.mach.member? (BitVec.toNat node) = some x ∧ x.joined = false ∧ s.mach.joinedCount < 1023) ∧
    (∃ (s : State) (node : U32) (x : Member),
      s.mach.role = 2 ∧ s.mach.member? (BitVec.toNat node) = some x ∧ x.joined = false ∧ 1023 ≤ s.mach.joinedCount) ∧
    (∃ (s : State) (node : U32) (t1 : U64) (t2 : U64) (t3 : U64) (t4 : U64) (x : Member),
      s.mach.role = 2 ∧ s.mach.member? (BitVec.toNat node) = some x ∧ s.mach.spn.fresh = true ∧ s.mach.anyJob = false ∧ s.mach.joinedCount <
        1023 ∧ 1000 < (theta (BitVec.toNat t1) (BitVec.toNat t2) (BitVec.toNat t3) (BitVec.toNat t4) s.mach.asym).natAbs) ∧
    (∃ (s : State) (node : U32),
      s.mach.role = 1 ∧ BitVec.toNat node = s.mach.fld Reg.spnMgrNode 31 0 ∧ s.mach.spn.phase = JoinPhase.joined ∧ s.mach.spn.exch = none) ∧
    (∃ (s : State) (node : U32) (t4 : U64) (e1 : ℕ) (e2 : ℕ) (e3 : ℕ),
      s.mach.role = 1 ∧ BitVec.toNat node = s.mach.fld Reg.spnMgrNode 31 0 ∧ s.mach.spn.phase = JoinPhase.joined ∧ s.mach.spn.exch = some
        (e1, e2, e3) ∧ s.mach.spn.seen = 15 ∧ s.mach.spn.window = [] ∧ s.mach.spn.delays = [] ∧ countReached e3 e2 = true ∧ countReached
        (BitVec.toNat t4) e1 = true ∧ (theta e1 e2 e3 (BitVec.toNat t4) s.mach.asym).natAbs ≤ 1000) ∧
    (∃ (s : State) (node : U32),
      s.mach.role = 1 ∧ BitVec.toNat node = s.mach.fld Reg.spnMgrNode 31 0 ∧ s.mach.spn.phase ≠ JoinPhase.out) ∧
    (∃ (s : State) (node : U32),
      s.mach.role = 1 ∧ BitVec.toNat node = s.mach.fld Reg.spnMgrNode 31 0 ∧ s.mach.spn.phase = JoinPhase.applied) ∧
    (∃ (s : State),
      s.mach.role = 1 ∧ s.mach.fld Reg.spnMgrNode 31 0 ≠ 0) ∧
    (∃ (s : State) (node : U32),
      s.mach.role = 1 ∧ s.mach.anyJob = false ∧ node ≠ 0) ∧
    (∃ (s : State),
      s.mach.anyJob = true) ∧
    (∃ (s : State),
      s.mach.sync = 2 ∧ s.mach.spn.lastAccept + 64 * s.mach.fld Reg.spnCfg 23 16 * 100000 ≤ s.mach.spn.count) ∧
    (∃ (s : State),
      s.mach.sync = 3 ∧ s.mach.fld Reg.spnCfg 15 0 < s.mach.fld Reg.spnErr 15 0) ∧
    (∃ (s : State),
      s.mach.role ≠ 1 ∧ s.mach.anyJob = false ∧ (∀ r ∈ s.mach.spn.starts, r.phase = StartPhase.over)) ∧
    (∃ (s : State),
      s.mach.role = 1 ∨ s.mach.anyJob = true) :=
  ⟨⟨st0 (mgr { mem0 true with t1 := some 5 }), 9, 5, { mem0 true with t1 := some 5 }, by decide +kernel⟩,
    ⟨st0 (mgr (mem0 false)), 9, mem0 false, by decide +kernel⟩,
    ⟨st0 fullMgr, 9, mem0 false, by decide +kernel, by decide +kernel, by decide +kernel, full_manager⟩,
    ⟨st0 (mgr (mem0 true)), 9, 0, 5000, 5000, 0, mem0 true, by decide +kernel⟩,
    ⟨st0 (wrk .joined), 9, by decide +kernel⟩,
    ⟨st0 (onSpn (wrk .joined) (fun s => { s with exch := some (5, 6, 7), seen := 15 })), 9, 8, 5, 6, 7, by decide +kernel⟩,
    ⟨st0 (wrk .joined), 9, by decide +kernel⟩,
    ⟨st0 (wrk .applied), 9, by decide +kernel⟩,
    ⟨st0 (wrk .out), by decide +kernel⟩,
    ⟨st0 (wrk .out), 9, by decide +kernel⟩,
    ⟨st0 (withJob hostM (job0 (.codec codec0))), by decide +kernel⟩,
    ⟨st0 ((late hostM).setFld Reg.spnState 2 0 2), by decide +kernel⟩,
    ⟨st0 ((hostM.setFld Reg.spnState 2 0 3).setFld Reg.spnErr 15 0 0xFFFF), by decide +kernel⟩,
    ⟨st0 hostM, by decide +kernel⟩,
    ⟨st0 (wrk .out), by decide +kernel⟩⟩

/-- States and operands that meet the hypotheses of ManagedStarts, for each of its clauses. -/
theorem meets_ManagedStarts :
    (∃ (s : State) (node : U32),
      s.mach.role = 1 ∧ BitVec.toNat node = s.mach.fld Reg.spnMgrNode 31 0 ∧ s.mach.spn.phase = JoinPhase.joined ∧ s.mach.spn.plans = []) ∧
    (∃ (s : State) (planSeq : U32) (image : List Byte) (p : PlanRec),
      s.mach.spn.plans = [p] ∧ p.planSeq = BitVec.toNat planSeq ∧ shake256 (sliceBytes image 0 p.len) 32 ≠ p.digest) ∧
    (∃ (s : State) (planSeq : U32) (image : List Byte) (p : PlanRec),
      s.mach.spn.plans = [p] ∧ p.planSeq = BitVec.toNat planSeq ∧ shake256 (sliceBytes image 0 p.len) 32 = p.digest) ∧
    (∃ (s : State) (node : U32) (planSeq : U32) (r : StartRec) (a : StartMod) (x : Member),
      s.mach.role = 2 ∧ s.mach.spn.starts = [r] ∧ r.planSeq = BitVec.toNat planSeq ∧ s.mach.member? (BitVec.toNat node) = some x ∧ r.phase =
        StartPhase.preparing ∧ r.mods = [a] ∧ a.node = some (BitVec.toNat node) ∧ a.lost = false ∧ r.asked = 0) ∧
    (∃ (s : State) (node : U32) (planSeq : U32) (st : U16) (r : StartRec) (a : StartMod) (x : Member),
      s.mach.role = 2 ∧ s.mach.spn.starts = [r] ∧ r.planSeq = BitVec.toNat planSeq ∧ s.mach.member? (BitVec.toNat node) = some x ∧ r.phase =
        StartPhase.preparing ∧ r.mods = [a] ∧ a.node = some (BitVec.toNat node) ∧ a.lost = false ∧ st ≠ 0) ∧
    (∃ (s : State) (node : U32) (planSeq : U32) (r : StartRec) (a : StartMod) (x : Member),
      s.mach.role = 2 ∧ s.mach.spn.starts = [r] ∧ r.planSeq = BitVec.toNat planSeq ∧ s.mach.member? (BitVec.toNat node) = some x ∧ r.phase =
        StartPhase.preparing ∧ r.mods = [a] ∧ a.node = some (BitVec.toNat node) ∧ a.lost = false ∧ a.ready = none ∧ a.refused = none ∧
        countReached s.mach.spn.count (r.sentAt + 120000000000) = true) ∧
    (∃ (s : State) (node : U32) (planSeq : U32) (r : StartRec) (a : StartMod) (x : Member),
      s.mach.role = 2 ∧ s.mach.spn.starts = [r] ∧ r.planSeq = BitVec.toNat planSeq ∧ s.mach.member? (BitVec.toNat node) = some x ∧ r.phase =
        StartPhase.launched ∧ r.mods = [a] ∧ a.node = some (BitVec.toNat node)) ∧
    (∃ (s : State) (node : U32) (planSeq : U32) (r : StartRec) (a : StartMod) (b : StartMod) (x : Member) (k : ℕ),
      s.mach.role = 2 ∧ s.mach.spn.starts = [r] ∧ r.planSeq = BitVec.toNat planSeq ∧ s.mach.member? (BitVec.toNat node) = some x ∧ r.phase ≠
        StartPhase.over ∧ r.mods = [a, b] ∧ a.node = some (BitVec.toNat node) ∧ a.lost = false ∧ b.node = some k ∧ k ≠ BitVec.toNat node ∧
        x.joined = true ∧ x.heard + 1000000000 ≤ s.mach.spn.count) ∧
    (∃ (s : State) (node : U32) (planSeq : U32) (launch : U64) (j : ℕ) (y : Job),
      s.mach.planJob (BitVec.toNat node) (BitVec.toNat planSeq) = some j ∧ s.mach.job? j = some y ∧ y.state = 2 ∧ y.launch = none ∧
        countReached s.mach.spn.count (BitVec.toNat launch) = false) ∧
    (∃ (s : State) (node : U32) (planSeq : U32) (launch : U64) (j : ℕ) (y : Job),
      s.mach.planJob (BitVec.toNat node) (BitVec.toNat planSeq) = some j ∧ s.mach.job? j = some y ∧ y.state = 2 ∧ y.launch = none ∧
        countReached s.mach.spn.count (BitVec.toNat launch) = true) ∧
    (∃ (s : State) (node : U32) (planSeq : U32) (j : ℕ) (y : Job),
      s.mach.planJob (BitVec.toNat node) (BitVec.toNat planSeq) = some j ∧ s.mach.job? j = some y ∧ BitVec.toNat node = s.mach.fld
        Reg.spnMgrNode 31 0 ∧ s.mach.spn.plans = []) ∧
    (∃ (s : State) (node : U32) (planSeq : U32) (j : ℕ) (y : Job) (k : ℕ),
      s.mach.planJob (BitVec.toNat node) (BitVec.toNat planSeq) = some j ∧ s.mach.job? j = some y ∧ y.live = true ∧ y.lost.contains k =
        false) :=
  ⟨⟨st0 (wrk .joined), 9, by decide +kernel⟩,
    ⟨st0 (planM []), 7, bytes 64, plan0 [], by decide +kernel⟩,
    ⟨st0 (planM (shake256 (sliceBytes (bytes 64) 0 64) 32)), 7, bytes 64, plan0 (shake256 (sliceBytes (bytes 64) 0 64) 32), rfl, rfl, by simp only [plan0]⟩,
    ⟨st0 (startM (mem0 true) .preparing [modOf 9]), 9, 7, start0 .preparing [modOf 9], modOf 9, mem0 true, by decide +kernel⟩,
    ⟨st0 (startM (mem0 true) .preparing [modOf 9]), 9, 7, 1, start0 .preparing [modOf 9], modOf 9, mem0 true, by decide +kernel⟩,
    ⟨st0 (onSpn (startM (mem0 true) .preparing [modOf 9]) (fun s => { s with count := 130000000000 })), 9, 7, start0 .preparing [modOf 9], modOf 9, mem0 true, by decide +kernel⟩,
    ⟨st0 (startM (mem0 true) .launched [modOf 9]), 9, 7, start0 .launched [modOf 9], modOf 9, mem0 true, by decide +kernel⟩,
    ⟨st0 (late (startM (mem0 true) .launched [modOf 9, modOf 8])), 9, 7, start0 .launched [modOf 9, modOf 8], modOf 9, modOf 8, mem0 true, 8, by decide +kernel⟩,
    ⟨st0 (withJob hostM (mgdJob 2)), 9, 7, 5, 0, mgdJob 2, by decide +kernel⟩,
    ⟨st0 (withJob hostM (mgdJob 2)), 9, 7, 0, 0, mgdJob 2, by decide +kernel⟩,
    ⟨st0 (withJob (wrk .joined) (mgdJob 2)), 9, 7, 0, mgdJob 2, by decide +kernel⟩,
    ⟨st0 (withJob hostM (mgdJob 3)), 9, 7, 0, mgdJob 3, 1, by decide +kernel⟩⟩

/-- States and operands that meet the hypotheses of IdleStep, for each of its clauses. -/
theorem meets_IdleStep :
    (∃ (s : State),
      s.pending = []) :=
    ⟨st0 hostM, by decide +kernel⟩

/-- States and operands that meet the hypotheses of FactoryState, for each of its clauses. -/
theorem meets_FactoryState :
    (∃ (b : Boot),
      b = State.reset.mach.boot) :=
    ⟨State.reset.mach.boot, rfl⟩

/-- States and operands that meet the hypotheses of FusesNeverFall, for each of its clauses. -/
theorem meets_FusesNeverFall :
    (∃ (s : State) (t : State),
      StepsTo s t ∧ FuseBounds s.mach.boot) :=
    ⟨State.reset, State.reset, rfl, by unfold FuseBounds; decide +kernel⟩

/-- States and operands that meet the hypotheses of MemoriesKept, for each of its clauses. -/
theorem meets_MemoriesKept :
    (∃ (s : State) (t : State),
      StepsTo s t ∧ MemoriesWf s.mach) :=
    ⟨State.reset, State.reset, rfl, by unfold MemoriesWf; decide +kernel⟩

/-- States and operands that meet the hypotheses of CapabilitiesConstant, for each of its clauses. -/
theorem meets_CapabilitiesConstant :
    (∃ (s : State) (t : State) (k : ℕ),
      StepsTo s t ∧ k < 5) :=
    ⟨State.reset, State.reset, 4, rfl, by decide⟩

/-- States and operands that meet the hypotheses of ShufflePermutes, for each of its clauses. -/
theorem meets_ShufflePermutes :
    (∃ (i : JobImage) (epoch : ℕ) (p : ℕ) (q : ℕ),
      1 ≤ i.n ∧ i.n ≤ 2 ^ 48 ∧ i.shuffle ≤ 2 ∧ p < i.n ∧ q < i.n ∧ sampleAt i epoch p = sampleAt i epoch q) :=
    ⟨img0, 1, 0, 0, by decide, by decide, by decide, by decide, by decide, rfl⟩
/-- A unit whose code object lies at 0x1000. -/
def code : WorkUnit := ⟨bytes 64, .cluster 0 7, .plain, 0x1000, 0x100, 16⟩

/-- Tile 5 runs that unit. -/
def run5 : Tile := { Tile.factory 5 with running := true, unit := some code, pc := 0x1000 }
def tileSt (x : Tile) : State := st0 (mm.setTile 5 x)

/-- The entry of that unit, in place. -/
def ent : QEntry := ⟨.taken, bytes 64, 16, .plain, [], 0, some 5, [], [], .other, [], none⟩
def unitSt (x : Tile) : State := st0 ((mm.setClus 0 { Cluster.reset with ring := [(7, ent)] }).setTile 5 x)
/-- g1 of the tile points at its own SRAM, s1 and s2 count. -/
def own5 : Tile := { run5 with
  g := (Vector.replicate 32 0).set 1 0x5FFFFFF80000#64, sync := (Vector.replicate 16 0).set 1 1 |>.set 2 65535 }
/-- Every lane of p1 is on, and v2 holds zeros. -/
def all5 : Tile := { own5 with p := (Vector.replicate 8 0).set 1 (BitVec.allOnes 64) }

/-- A descriptor of an op code with a sync byte. -/
def desc (op sync : Nat) : List Byte := leBytes 8 (sync + op * 2 ^ 16) ++ bytes 56
def dma (op flags src dst n a rows : Nat) : List Byte :=
  leBytes 8 (op * 2 ^ 16 + flags * 2 ^ 24) ++ leBytes 8 src ++ leBytes 8 dst ++ leBytes 8 n ++ leBytes 8 a ++ leBytes 8 rows ++ bytes 16
def args (ty : Fin 8) : VArgs := ⟨3, 2, 0, 0, false, ty⟩

/-- The same tile with a unit of the shipped kernels, whose sample's frame lies in a buffer of its job and fails its check. -/
def shardK : ShardSpec := ⟨1, 0, false, 0, 1, 0, 0⟩
def bytesK : List Byte := bytes 32 ++ leBytes 8 0x1000 ++ bytes 24
def codeK : WorkUnit := { code with entry := bytesK }
def entK : QEntry := { ent with bytes := bytesK, kind := .kernel }
def jobK : Job := { job0 (.image { img0 with modules := 1, cache := none, shards := [shardK] }) with state := 3, fetched := [((0, 0), ⟨[0], 32, some 7⟩)] }
def kernSt : State :=
  st0 (onMem (onJobs ((mm.setClus 0 { Cluster.reset with ring := [(7, entK)] }).setTile 5 { run5 with unit := some codeK })
    (fun j => { j with slots := [(0, jobK)] })) (fun x => { x with gddr := memWrite x.gddr 0x1000 (leBytes 2 0x100) }))

/-- States and operands that meet the hypotheses of ScalarArithmetic, for each of its clauses. -/
theorem meets_ScalarArithmetic :
    (∃ (s : State) (t : TileId),
      ScalarReady s.mach (↑t) 4) :=
    ⟨tileSt run5, 5, by unfold ScalarReady; decide +kernel⟩

/-- States and operands that meet the hypotheses of ScalarOneOperandAndHash, for each of its clauses. -/
theorem meets_ScalarOneOperandAndHash :
    (∃ (s : State) (t : TileId) (imm : BitVec 16),
      ScalarReady s.mach (↑t) 4 ∧ imm.toNat < 64) ∧
    (∃ (s : State) (t : TileId) (imm : BitVec 16),
      ScalarReady s.mach (↑t) 4 ∧ 64 ≤ imm.toNat ∧ imm.toNat < 128) ∧
    (∃ (s : State) (t : TileId) (imm : BitVec 16),
      ScalarReady s.mach (↑t) 4 ∧ 128 ≤ imm.toNat ∧ imm.toNat < 192) ∧
    (∃ (s : State) (t : TileId) (imm : BitVec 16),
      ScalarReady s.mach (↑t) 4 ∧ 192 ≤ imm.toNat ∧ imm.toNat < 256) ∧
    (∃ (s : State) (t : TileId),
      ScalarReady s.mach (↑t) 4 ∧ ScalarReady s.mach (↑t) 8) ∧
    (∃ (s : State) (t : TileId) (rs1 : GReg) (rs2 : GReg),
      ScalarReady s.mach (↑t) 4 ∧ (s.mach.tile ↑t).gr rs1 = 9223372036854775808#64 ∧ (s.mach.tile ↑t).gr rs2 = 18446744073709551615#64) ∧
    (∃ (s : State) (t : TileId) (rs2 : GReg),
      ScalarReady s.mach (↑t) 4 ∧ (s.mach.tile ↑t).gr rs2 = 0) :=
  ⟨⟨tileSt run5, 5, 63, by unfold ScalarReady; decide +kernel⟩,
    ⟨tileSt run5, 5, 64, by unfold ScalarReady; decide +kernel⟩,
    ⟨tileSt run5, 5, 128, by unfold ScalarReady; decide +kernel⟩,
    ⟨tileSt run5, 5, 255, by unfold ScalarReady; decide +kernel⟩,
    ⟨tileSt run5, 5, by unfold ScalarReady; decide +kernel⟩,
    ⟨tileSt { run5 with g := (Vector.replicate 32 0).set 1 0x8000000000000000#64 |>.set 2 0xFFFFFFFFFFFFFFFF#64 }, 5, 1, 2, by unfold ScalarReady; decide +kernel⟩,
    ⟨tileSt run5, 5, 0, by unfold ScalarReady; decide +kernel⟩⟩

/-- States and operands that meet the hypotheses of BranchesAndJumps, for each of its clauses. -/
theorem meets_BranchesAndJumps :
    (∃ (s : State) (t : TileId) (rs1 : GReg) (rs2 : GReg) (off : BitVec 16),
      ScalarReady s.mach (↑t) 4 ∧ 0 ≤ ↑(s.mach.tile ↑t).pc + off.toInt * 4 ∧ (↑(s.mach.tile ↑t).pc + off.toInt * 4).toNat < 2 ^ 64 ∧
        (s.mach.tile ↑t).gr rs1 = (s.mach.tile ↑t).gr rs2 ∧ (s.mach.tile ↑t).goodPc (↑(s.mach.tile ↑t).pc + off.toInt * 4).toNat 4 = true) ∧
    (∃ (s : State) (t : TileId) (rs1 : GReg) (rs2 : GReg) (off : BitVec 16),
      ScalarReady s.mach (↑t) 4 ∧ 0 ≤ ↑(s.mach.tile ↑t).pc + off.toInt * 4 ∧ (↑(s.mach.tile ↑t).pc + off.toInt * 4).toNat < 2 ^ 64 ∧
        ¬(s.mach.tile ↑t).gr rs1 = (s.mach.tile ↑t).gr rs2) ∧
    (∃ (s : State) (t : TileId) (rs1 : GReg) (rs2 : GReg) (off : BitVec 16),
      ScalarReady s.mach (↑t) 4 ∧ 0 ≤ ↑(s.mach.tile ↑t).pc + off.toInt * 4 ∧ (↑(s.mach.tile ↑t).pc + off.toInt * 4).toNat < 2 ^ 64 ∧
        (s.mach.tile ↑t).gr rs1 ≠ (s.mach.tile ↑t).gr rs2 ∧ (s.mach.tile ↑t).goodPc (↑(s.mach.tile ↑t).pc + off.toInt * 4).toNat 4 = true) ∧
    (∃ (s : State) (t : TileId) (rs1 : GReg) (rs2 : GReg) (off : BitVec 16),
      ScalarReady s.mach (↑t) 4 ∧ 0 ≤ ↑(s.mach.tile ↑t).pc + off.toInt * 4 ∧ (↑(s.mach.tile ↑t).pc + off.toInt * 4).toNat < 2 ^ 64 ∧
        ¬(s.mach.tile ↑t).gr rs1 ≠ (s.mach.tile ↑t).gr rs2) ∧
    (∃ (s : State) (t : TileId) (rs1 : GReg) (rs2 : GReg) (off : BitVec 16),
      ScalarReady s.mach (↑t) 4 ∧ 0 ≤ ↑(s.mach.tile ↑t).pc + off.toInt * 4 ∧ (↑(s.mach.tile ↑t).pc + off.toInt * 4).toNat < 2 ^ 64 ∧
        BitVec.toInt ((s.mach.tile ↑t).gr rs1) < BitVec.toInt ((s.mach.tile ↑t).gr rs2) ∧ (s.mach.tile ↑t).goodPc (↑(s.mach.tile ↑t).pc +
        off.toInt * 4).toNat 4 = true) ∧
    (∃ (s : State) (t : TileId) (rs1 : GReg) (rs2 : GReg) (off : BitVec 16),
      ScalarReady s.mach (↑t) 4 ∧ 0 ≤ ↑(s.mach.tile ↑t).pc + off.toInt * 4 ∧ (↑(s.mach.tile ↑t).pc + off.toInt * 4).toNat < 2 ^ 64 ∧
        ¬BitVec.toInt ((s.mach.tile ↑t).gr rs1) < BitVec.toInt ((s.mach.tile ↑t).gr rs2)) ∧
    (∃ (s : State) (t : TileId) (rs1 : GReg) (rs2 : GReg) (off : BitVec 16),
      ScalarReady s.mach (↑t) 4 ∧ 0 ≤ ↑(s.mach.tile ↑t).pc + off.toInt * 4 ∧ (↑(s.mach.tile ↑t).pc + off.toInt * 4).toNat < 2 ^ 64 ∧
        BitVec.toInt ((s.mach.tile ↑t).gr rs2) ≤ BitVec.toInt ((s.mach.tile ↑t).gr rs1) ∧ (s.mach.tile ↑t).goodPc (↑(s.mach.tile ↑t).pc +
        off.toInt * 4).toNat 4 = true) ∧
    (∃ (s : State) (t : TileId) (rs1 : GReg) (rs2 : GReg) (off : BitVec 16),
      ScalarReady s.mach (↑t) 4 ∧ 0 ≤ ↑(s.mach.tile ↑t).pc + off.toInt * 4 ∧ (↑(s.mach.tile ↑t).pc + off.toInt * 4).toNat < 2 ^ 64 ∧
        ¬BitVec.toInt ((s.mach.tile ↑t).gr rs2) ≤ BitVec.toInt ((s.mach.tile ↑t).gr rs1)) ∧
    (∃ (s : State) (t : TileId) (rs1 : GReg) (rs2 : GReg) (off : BitVec 16),
      ScalarReady s.mach (↑t) 4 ∧ 0 ≤ ↑(s.mach.tile ↑t).pc + off.toInt * 4 ∧ (↑(s.mach.tile ↑t).pc + off.toInt * 4).toNat < 2 ^ 64 ∧
        BitVec.toNat ((s.mach.tile ↑t).gr rs1) < BitVec.toNat ((s.mach.tile ↑t).gr rs2) ∧ (s.mach.tile ↑t).goodPc (↑(s.mach.tile ↑t).pc +
        off.toInt * 4).toNat 4 = true) ∧
    (∃ (s : State) (t : TileId) (rs1 : GReg) (rs2 : GReg) (off : BitVec 16),
      ScalarReady s.mach (↑t) 4 ∧ 0 ≤ ↑(s.mach.tile ↑t).pc + off.toInt * 4 ∧ (↑(s.mach.tile ↑t).pc + off.toInt * 4).toNat < 2 ^ 64 ∧
        ¬BitVec.toNat ((s.mach.tile ↑t).gr rs1) < BitVec.toNat ((s.mach.tile ↑t).gr rs2)) ∧
    (∃ (s : State) (t : TileId) (rs1 : GReg) (rs2 : GReg) (off : BitVec 16),
      ScalarReady s.mach (↑t) 4 ∧ 0 ≤ ↑(s.mach.tile ↑t).pc + off.toInt * 4 ∧ (↑(s.mach.tile ↑t).pc + off.toInt * 4).toNat < 2 ^ 64 ∧
        BitVec.toNat ((s.mach.tile ↑t).gr rs2) ≤ BitVec.toNat ((s.mach.tile ↑t).gr rs1) ∧ (s.mach.tile ↑t).goodPc (↑(s.mach.tile ↑t).pc +
        off.toInt * 4).toNat 4 = true) ∧
    (∃ (s : State) (t : TileId) (rs1 : GReg) (rs2 : GReg) (off : BitVec 16),
      ScalarReady s.mach (↑t) 4 ∧ 0 ≤ ↑(s.mach.tile ↑t).pc + off.toInt * 4 ∧ (↑(s.mach.tile ↑t).pc + off.toInt * 4).toNat < 2 ^ 64 ∧
        ¬BitVec.toNat ((s.mach.tile ↑t).gr rs2) ≤ BitVec.toNat ((s.mach.tile ↑t).gr rs1)) ∧
    (∃ (s : State) (t : TileId) (rs1 : GReg) (imm : BitVec 16),
      ScalarReady s.mach (↑t) 4 ∧ (s.mach.tile ↑t).goodPc (BitVec.toNat ((s.mach.tile ↑t).gr rs1 + BitVec.signExtend 64 imm)) 4 = true) :=
  ⟨⟨tileSt run5, 5, 1, 2, 0x3F, by unfold ScalarReady; decide +kernel⟩,
    ⟨tileSt { run5 with g := (Vector.replicate 32 0).set 1 1#64 }, 5, 1, 2, 0, by unfold ScalarReady; decide +kernel⟩,
    ⟨tileSt { run5 with g := (Vector.replicate 32 0).set 1 1#64 }, 5, 1, 2, 0x3F, by unfold ScalarReady; decide +kernel⟩,
    ⟨tileSt run5, 5, 1, 2, 0, by unfold ScalarReady; decide +kernel⟩,
    ⟨tileSt { run5 with g := (Vector.replicate 32 0).set 1 0xFFFFFFFFFFFFFFFF#64 }, 5, 1, 2, 1, by unfold ScalarReady; decide +kernel⟩,
    ⟨tileSt run5, 5, 1, 2, 1, by unfold ScalarReady; decide +kernel⟩,
    ⟨tileSt run5, 5, 1, 2, 1, by unfold ScalarReady; decide +kernel⟩,
    ⟨tileSt { run5 with g := (Vector.replicate 32 0).set 1 0xFFFFFFFFFFFFFFFF#64 }, 5, 1, 2, 1, by unfold ScalarReady; decide +kernel⟩,
    ⟨tileSt { run5 with g := (Vector.replicate 32 0).set 1 1#64 }, 5, 2, 1, 1, by unfold ScalarReady; decide +kernel⟩,
    ⟨tileSt run5, 5, 2, 1, 1, by unfold ScalarReady; decide +kernel⟩,
    ⟨tileSt { run5 with g := (Vector.replicate 32 0).set 1 0xFFFFFFFFFFFFFFFF#64 }, 5, 1, 2, 0, by unfold ScalarReady; decide +kernel⟩,
    ⟨tileSt { run5 with g := (Vector.replicate 32 0).set 1 1#64 }, 5, 2, 1, 0, by unfold ScalarReady; decide +kernel⟩,
    ⟨tileSt run5, 5, 0, 0x10FC, by unfold ScalarReady; decide +kernel⟩⟩

/-- States and operands that meet the hypotheses of TrapsAndBadTargets, for each of its clauses. -/
theorem meets_TrapsAndBadTargets :
    (∃ (s : State) (t : TileId) (u : WorkUnit) (e : QEntry),
      (s.mach.tile ↑t).scalarFree = true ∧ FirstRun s.mach (↑t) u e ∧ (s.mach.tile ↑t).goodPc (s.mach.tile ↑t).pc 4 = false) ∧
    (∃ (s : State) (t : TileId) (u : WorkUnit) (e : QEntry) (rs2 : GReg),
      (s.mach.tile ↑t).scalarFree = true ∧ FirstRun s.mach (↑t) u e ∧ (s.mach.tile ↑t).goodPc (s.mach.tile ↑t).pc 4 = true ∧ rs2 ≠ 0) ∧
    (∃ (s : State) (t : TileId) (u : WorkUnit) (e : QEntry) (rs1 : GReg) (imm : BitVec 16),
      (s.mach.tile ↑t).scalarFree = true ∧ FirstRun s.mach (↑t) u e ∧ (s.mach.tile ↑t).goodPc (s.mach.tile ↑t).pc 4 = true ∧ (s.mach.tile
        ↑t).goodPc (BitVec.toNat ((s.mach.tile ↑t).gr rs1 + BitVec.signExtend 64 imm)) 4 = false) :=
  ⟨⟨unitSt { run5 with pc := 0x1100 }, 5, code, ent, by unfold FirstRun; decide +kernel⟩,
    ⟨unitSt run5, 5, code, ent, 31, by unfold FirstRun; decide +kernel⟩,
    ⟨unitSt run5, 5, code, ent, 0, 0x1100, by unfold FirstRun; decide +kernel⟩⟩

/-- States and operands that meet the hypotheses of ScalarLoadsAndStores, for each of its clauses. -/
theorem meets_ScalarLoadsAndStores :
    (∃ (s : State) (t : TileId) (rs1 : GReg) (w : Fin 8) (off : BitVec 13),
      ScalarReady s.mach (↑t) 4 ∧ (s.mach.tile ↑t).vq = [] ∧ ↑w ≤ 6 ∧ accessCause s.variant s.mach (↑t) (BitVec.toNat ((s.mach.tile ↑t).gr
        rs1 + BitVec.signExtend 64 off)) ([1, 2, 4, 8, 1, 2, 4].getD (↑w) 1) ([1, 2, 4, 8, 1, 2, 4].getD (↑w) 1) false = none ∧ Mach.ueHit
        s.variant s.mach (normAddr s.variant (↑t) (BitVec.toNat ((s.mach.tile ↑t).gr rs1 + BitVec.signExtend 64 off))) ([1, 2, 4, 8, 1, 2,
        4].getD (↑w) 1) = none ∧ s.mach.ceHits (normAddr s.variant (↑t) (BitVec.toNat ((s.mach.tile ↑t).gr rs1 + BitVec.signExtend 64 off)))
        ([1, 2, 4, 8, 1, 2, 4].getD (↑w) 1) = []) ∧
    (∃ (s : State) (t : TileId) (rs1 : GReg) (w : Fin 8) (off : BitVec 13),
      ScalarReady s.mach (↑t) 4 ∧ (s.mach.tile ↑t).vq = [] ∧ ↑w ≤ 3 ∧ accessCause s.variant s.mach (↑t) (BitVec.toNat ((s.mach.tile ↑t).gr
        rs1 + BitVec.signExtend 64 off)) ([1, 2, 4, 8].getD (↑w) 1) ([1, 2, 4, 8].getD (↑w) 1) true = none) :=
  ⟨⟨tileSt own5, 5, 1, 6, 0xFFC, by unfold ScalarReady; decide +kernel⟩,
    ⟨tileSt own5, 5, 1, 3, 0xFF8, by unfold ScalarReady; decide +kernel⟩⟩

/-- States and operands that meet the hypotheses of VectorFloat, for each of its clauses. -/
theorem meets_VectorFloat :
    (∃ (s : State) (t : TileId) (a : VArgs) (f : FpFmt),
      VectorReady s.mach (↑t) 4 ∧ arithFmt a.ty = some f ∧ a.vs2 = 0) :=
    ⟨tileSt run5, 5, args 2, bf16, by unfold VectorReady ScalarReady; decide +kernel⟩

/-- States and operands that meet the hypotheses of VectorFused, for each of its clauses. -/
theorem meets_VectorFused :
    (∃ (s : State) (t : TileId) (a : VArgs) (f : FpFmt),
      VectorReady s.mach (↑t) 4 ∧ VectorReady s.mach (↑t) 8 ∧ arithFmt a.ty = some f) ∧
    (∃ (s : State) (t : TileId) (a : VArgs) (fn : Fin 16),
      VectorReady s.mach (↑t) 4 ∧ (a.ty = 5 ∧ ↑fn ≤ 1 ∨ 1 ≤ ↑a.ty ∧ ↑a.ty ≤ 4 ∧ fn = 0)) ∧
    (∃ (s : State) (t : TileId) (g : CvtArgs) (rm : Rm),
      VectorReady s.mach (↑t) 4 ∧ VectorReady s.mach (↑t) 8 ∧ cvtLegal g = true ∧ cvtRm g.rm = some rm) :=
  ⟨⟨tileSt run5, 5, args 0, fp32, by unfold VectorReady ScalarReady; decide +kernel⟩,
    ⟨tileSt run5, 5, args 4, 0, by unfold VectorReady ScalarReady; decide +kernel⟩,
    ⟨tileSt run5, 5, ⟨3, 2, 0, false, 11, 0, 4, false, 0⟩, .rna, by unfold VectorReady ScalarReady; decide +kernel⟩⟩

/-- States and operands that meet the hypotheses of VectorInteger, for each of its clauses. -/
theorem meets_VectorInteger :
    (∃ (s : State) (t : TileId) (a : VArgs),
      VectorReady s.mach (↑t) 4 ∧ isIntType a.ty = true) :=
    ⟨tileSt run5, 5, args 5, by unfold VectorReady ScalarReady; decide +kernel⟩

/-- States and operands that meet the hypotheses of VectorBitsAndPermutes, for each of its clauses. -/
theorem meets_VectorBitsAndPermutes :
    (∃ (s : State) (t : TileId) (a : VArgs),
      VectorReady s.mach (↑t) 4 ∧ isIntType a.ty = true) ∧
    (∃ (s : State) (t : TileId) (a : VArgs),
      VectorReady s.mach (↑t) 4 ∧ VectorReady s.mach (↑t) 8 ∧ a.ty = 0) :=
  ⟨⟨tileSt run5, 5, args 7, by unfold VectorReady ScalarReady; decide +kernel⟩,
    ⟨tileSt run5, 5, args 0, by unfold VectorReady ScalarReady; decide +kernel⟩⟩

/-- States and operands that meet the hypotheses of VectorCompares, for each of its clauses. -/
theorem meets_VectorCompares :
    (∃ (s : State) (t : TileId) (a : VArgs),
      VectorReady s.mach (↑t) 4 ∧ ↑a.vd < 8 ∧ (!isFp8 a.ty) = true) ∧
    (∃ (s : State) (t : TileId) (a : VArgs),
      VectorReady s.mach (↑t) 4 ∧ ↑a.vd < 8 ∧ isIntType a.ty = true) ∧
    (∃ (s : State) (t : TileId) (a : VArgs),
      VectorReady s.mach (↑t) 4 ∧ ↑a.vd < 8 ∧ isArith a.ty = true) :=
  ⟨⟨tileSt run5, 5, args 0, by unfold VectorReady ScalarReady; decide +kernel⟩,
    ⟨tileSt run5, 5, args 6, by unfold VectorReady ScalarReady; decide +kernel⟩,
    ⟨tileSt run5, 5, args 2, by unfold VectorReady ScalarReady; decide +kernel⟩⟩

/-- States and operands that meet the hypotheses of VectorReductions, for each of its clauses. -/
theorem meets_VectorReductions :
    (∃ (s : State) (t : TileId) (a : VArgs) (f : FpFmt),
      VectorReady s.mach (↑t) 4 ∧ arithFmt a.ty = some f) ∧
    (∃ (s : State) (t : TileId) (a : VArgs) (f : FpFmt),
      VectorReady s.mach (↑t) 4 ∧ typeFmt a.ty = some f ∧ a.ty ≠ 0) ∧
    (∃ (s : State) (t : TileId) (a : VArgs),
      VectorReady s.mach (↑t) 4 ∧ isIntType a.ty = true ∧ a.ty ≠ 7) :=
  ⟨⟨tileSt run5, 5, args 1, fp16, by unfold VectorReady ScalarReady; decide +kernel⟩,
    ⟨tileSt run5, 5, args 3, fpE4M3, by unfold VectorReady ScalarReady; decide +kernel⟩,
    ⟨tileSt run5, 5, args 5, by unfold VectorReady ScalarReady; decide +kernel⟩⟩

/-- States and operands that meet the hypotheses of PredicatesAndMoves, for each of its clauses. -/
theorem meets_PredicatesAndMoves :
    (∃ (s : State) (t : TileId) (a : VArgs),
      VectorReady s.mach (↑t) 4 ∧ a.ty = 0) ∧
    (∃ (s : State) (t : TileId),
      ScalarReady s.mach (↑t) 4 ∧ (s.mach.tile ↑t).vq = []) ∧
    (∃ (s : State) (t : TileId),
      ScalarReady s.mach (↑t) 4 ∧ (s.mach.tile ↑t).vq ≠ []) :=
  ⟨⟨tileSt run5, 5, args 0, by unfold VectorReady ScalarReady; decide +kernel⟩,
    ⟨tileSt run5, 5, by unfold ScalarReady; decide +kernel⟩,
    ⟨tileSt { run5 with vq := [⟨.fence true true, 0x1000⟩] }, 5, by unfold ScalarReady; decide +kernel⟩⟩

/-- States and operands that meet the hypotheses of SyncObjects, for each of its clauses. -/
theorem meets_SyncObjects :
    (∃ (s : State) (t : TileId) (k : SyncId),
      VectorReady s.mach (↑t) 4 ∧ (s.mach.tile ↑t).sync[k] ≠ 0 ∧ ((s.mach.tile ↑t).waits.any fun w => decide (w.obj = k) && !w.served) =
        false) ∧
    (∃ (s : State) (t : TileId) (k : SyncId),
      VectorReady s.mach (↑t) 4 ∧ ((s.mach.tile ↑t).sync[k] = 0 ∨ ((s.mach.tile ↑t).waits.any fun w => decide (w.obj = k) && !w.served) =
        true)) ∧
    (∃ (s : State) (t : TileId) (k : SyncId),
      VectorReady s.mach (↑t) 4 ∧ (s.mach.bit (Reg.tileAudit ↑t) 16 && (s.mach.tile ↑t).unfenced) = false ∧ (s.mach.tile ↑t).sync[k] < 65535
        ∧ ((s.mach.tile ↑t).waits.any fun w => decide (w.obj = k) && !w.served) = false) ∧
    (∃ (s : State) (t : TileId) (k : SyncId),
      VectorReady s.mach (↑t) 4 ∧ (s.mach.bit (Reg.tileAudit ↑t) 16 && (s.mach.tile ↑t).unfenced) = false ∧ (s.mach.tile ↑t).sync[k] < 65535
        ∧ ((s.mach.tile ↑t).waits.any fun w => decide (w.obj = k) && !w.served) = true) ∧
    (∃ (s : State) (t : TileId) (k : SyncId),
      VectorReady s.mach (↑t) 4 ∧ (s.mach.bit (Reg.tileAudit ↑t) 16 && (s.mach.tile ↑t).unfenced) = false ∧ (s.mach.tile ↑t).sync[k] = 65535) ∧
    (∃ (s : State) (t : TileId) (r : Bool) (w : Bool),
      VectorReady s.mach (↑t) 4 ∧ (r || w) = true) ∧
    (∃ (s : State) (t : TileId),
      (s.mach.tile ↑t).stalled = none ∧ ((s.mach.tile ↑t).waits.any fun w => decide (w.eng = 0) && w.served) = true) ∧
    (∃ (s : State) (t : TileId) (w : VqEntry),
      (s.mach.tile ↑t).stalled = none ∧ ((s.mach.tile ↑t).waits.any fun w => decide (w.eng = 1) && w.served) = true ∧ (s.mach.tile ↑t).vq =
        [w]) ∧
    (∃ (s : State) (t : TileId),
      (s.mach.tile ↑t).stalled = none ∧ ((s.mach.tile ↑t).waits.any fun w => decide (w.eng = 2) && w.served) = true ∧ (s.mach.tile ↑t).gq.q
        ≠ [] ∧ (∀ (d : List Byte), (s.mach.tile ↑t).gq.q.head? = some d → descKnownOp EngId.gouge d = true)) ∧
    (∃ (s : State) (t : TileId),
      (s.mach.tile ↑t).stalled = none ∧ ((s.mach.tile ↑t).waits.any fun w => decide (w.eng = 3) && w.served) = true ∧ (s.mach.tile ↑t).aq.q
        ≠ [] ∧ (∀ (d : List Byte), (s.mach.tile ↑t).aq.q.head? = some d → descKnownOp EngId.aes d = true)) ∧
    (∃ (s : State) (t : TileId),
      (s.mach.tile ↑t).stalled = none ∧ ((s.mach.tile ↑t).waits.any fun w => decide (w.eng = 4) && w.served) = true ∧ (s.mach.tile ↑t).dq.q
        ≠ [] ∧ (∀ (d : List Byte), (s.mach.tile ↑t).dq.q.head? = some d → descKnownOp EngId.dma d = true)) ∧
    (∃ (s : State) (t : TileId) (e : EngNo),
      (s.mach.tile ↑t).stalled = none ∧ ((s.mach.tile ↑t).waits.any fun w => decide (w.eng = e) && w.served) = false) :=
  ⟨⟨tileSt own5, 5, 1, by unfold VectorReady ScalarReady; decide +kernel⟩,
    ⟨tileSt own5, 5, 3, by unfold VectorReady ScalarReady; decide +kernel⟩,
    ⟨tileSt own5, 5, 1, by unfold VectorReady ScalarReady; decide +kernel⟩,
    ⟨tileSt { own5 with waits := [⟨2, 3, false⟩] }, 5, 3, by unfold VectorReady ScalarReady; decide +kernel⟩,
    ⟨tileSt own5, 5, 2, by unfold VectorReady ScalarReady; decide +kernel⟩,
    ⟨tileSt own5, 5, true, false, by unfold VectorReady ScalarReady; decide +kernel⟩,
    ⟨tileSt { own5 with waits := [⟨0, 1, true⟩] }, 5, by decide +kernel⟩,
    ⟨tileSt { own5 with waits := [⟨1, 1, true⟩], vq := [⟨.wait 1, 0x1000⟩] }, 5, ⟨.wait 1, 0x1000⟩, by decide +kernel⟩,
    ⟨tileSt { own5 with waits := [⟨2, 1, true⟩], gq := ⟨[desc 1 0], false⟩ }, 5, by decide +kernel, by decide +kernel, by decide +kernel,
    fun d h => by obtain rfl : desc 1 0 = d := Option.some.inj h; decide +kernel⟩,
    ⟨tileSt { own5 with waits := [⟨3, 1, true⟩], aq := ⟨[desc 1 0], false⟩ }, 5, by decide +kernel, by decide +kernel, by decide +kernel,
    fun d h => by obtain rfl : desc 1 0 = d := Option.some.inj h; decide +kernel⟩,
    ⟨tileSt { own5 with waits := [⟨4, 1, true⟩], dq := ⟨[desc 1 0], false⟩ }, 5, by decide +kernel, by decide +kernel, by decide +kernel,
    fun d h => by obtain rfl : desc 1 0 = d := Option.some.inj h; decide +kernel⟩,
    ⟨tileSt { own5 with waits := [⟨0, 1, false⟩] }, 5, 0, by decide +kernel⟩⟩

/-- States and operands that meet the hypotheses of VectorLoadsAndStores, for each of its clauses. -/
theorem meets_VectorLoadsAndStores :
    (∃ (s : State) (t : TileId) (rs1 : GReg) (mode : Fin 8) (off : BitVec 10),
      VectorReady s.mach (↑t) 4 ∧ s.mach.mem.badWords = [] ∧ s.mach.mem.chansOut = [] ∧ s.mach.mem.ceWords = [] ∧ mode = 0 ∧ accessCause
        s.variant s.mach (↑t) (BitVec.toNat ((s.mach.tile ↑t).gr rs1 + BitVec.signExtend 64 off * BitVec.ofNat 64 ([64, 1, 2, 4, 8].getD
        (↑mode) 64))) 64 64 false = none) ∧
    (∃ (s : State) (t : TileId) (rs1 : GReg) (mode : Fin 8) (off : BitVec 10),
      VectorReady s.mach (↑t) 4 ∧ s.mach.mem.badWords = [] ∧ s.mach.mem.chansOut = [] ∧ s.mach.mem.ceWords = [] ∧ 1 ≤ ↑mode ∧ ↑mode ≤ 4 ∧
        accessCause s.variant s.mach (↑t) (BitVec.toNat ((s.mach.tile ↑t).gr rs1 + BitVec.signExtend 64 off * BitVec.ofNat 64 ([64, 1, 2, 4,
        8].getD (↑mode) 64))) ([64, 1, 2, 4, 8].getD (↑mode) 64) ([64, 1, 2, 4, 8].getD (↑mode) 64) false = none) ∧
    (∃ (s : State) (t : TileId) (g : GatherArgs),
      VectorReady s.mach (↑t) 4 ∧ s.mach.mem.badWords = [] ∧ s.mach.mem.chansOut = [] ∧ s.mach.mem.ceWords = [] ∧ VectorReady s.mach (↑t) 8
        ∧ ↑g.sz ≤ 2 ∧ (∀ i < 16, laneOn ((s.mach.tile ↑t).pr g.pg) g.pn i = true → accessCause s.variant s.mach (↑t) ((BitVec.toNat
        ((s.mach.tile ↑t).gr g.rs) + laneOf 32 ((s.mach.tile ↑t).vr g.vi) i * 2 ^ g.scale.val) % 2 ^ 64) ([1, 2, 4].getD (↑g.sz) 4) ([1, 2,
        4].getD (↑g.sz) 4) false = none)) ∧
    (∃ (s : State) (t : TileId) (a : VArgs) (f : FpFmt),
      VectorReady s.mach (↑t) 4 ∧ s.mach.mem.badWords = [] ∧ s.mach.mem.chansOut = [] ∧ s.mach.mem.ceWords = [] ∧ arithFmt a.ty = some f ∧
        ↑a.ty ≤ 1 ∧ ↑a.vs1 ≤ 29 ∧ ↑a.vd ≤ 29 ∧ BitVec.toNat ((s.mach.tile ↑t).gr a.vs2) % 64 = 0 ∧ inOwnTile s.variant (↑t) (BitVec.toNat
        ((s.mach.tile ↑t).gr a.vs2)) 64 = true) ∧
    (∃ (s : State) (t : TileId) (rs1 : GReg) (off : BitVec 10),
      VectorReady s.mach (↑t) 4 ∧ (s.mach.tile ↑t).keepsAside = false ∧ accessCause s.variant s.mach (↑t) (BitVec.toNat ((s.mach.tile ↑t).gr
        rs1 + BitVec.signExtend 64 off * 64)) 64 64 true = none) ∧
    (∃ (s : State) (t : TileId) (g : GatherArgs),
      VectorReady s.mach (↑t) 4 ∧ (s.mach.tile ↑t).keepsAside = false ∧ VectorReady s.mach (↑t) 8 ∧ ↑g.sz ≤ 2 ∧ (∀ i < 16, laneOn
        ((s.mach.tile ↑t).pr g.pg) g.pn i = true → accessCause s.variant s.mach (↑t) ((BitVec.toNat ((s.mach.tile ↑t).gr g.rs) + laneOf 32
        ((s.mach.tile ↑t).vr g.vi) i * 2 ^ g.scale.val) % 2 ^ 64) ([1, 2, 4].getD (↑g.sz) 4) ([1, 2, 4].getD (↑g.sz) 4) true = none)) :=
  ⟨⟨tileSt own5, 5, 1, 0, 0x1FF, by unfold VectorReady ScalarReady; decide +kernel⟩,
    ⟨tileSt own5, 5, 1, 4, 0, by unfold VectorReady ScalarReady; decide +kernel⟩,
    ⟨tileSt all5, 5, ⟨3, 2, 1, 0, false, 2, 0⟩, by unfold VectorReady ScalarReady; decide +kernel⟩,
    ⟨tileSt own5, 5, ⟨29, 29, 1, 0, false, 1⟩, fp16, by unfold VectorReady ScalarReady; decide +kernel⟩,
    ⟨tileSt own5, 5, 1, 0x1FF, by unfold VectorReady ScalarReady; decide +kernel⟩,
    ⟨tileSt all5, 5, ⟨3, 2, 1, 0, false, 0, 0⟩, by unfold VectorReady ScalarReady; decide +kernel⟩⟩

/-- States and operands that meet the hypotheses of DescriptorQueues, for each of its clauses. -/
theorem meets_DescriptorQueues :
    (∃ (s : State) (t : TileId) (vs : VReg),
      ScalarReady s.mach (↑t) 4 ∧ (s.mach.tile ↑t).vq = [] ∧ (s.mach.tile ↑t).engQ EngId.gouge = { q := [], started := false } ∧
        (s.mach.tile ↑t).waiting EngId.gouge.no = false ∧ descKnownOp EngId.gouge (vecBytes ((s.mach.tile ↑t).vr vs)) = true ∧ descWaitEn
        (vecBytes ((s.mach.tile ↑t).vr vs)) = false) ∧
    (∃ (s : State) (t : TileId) (vs : VReg),
      ScalarReady s.mach (↑t) 4 ∧ (s.mach.tile ↑t).vq = [] ∧ (s.mach.tile ↑t).engQ EngId.gouge = { q := [], started := false } ∧
        (s.mach.tile ↑t).waiting EngId.gouge.no = false ∧ descWaitEn (vecBytes ((s.mach.tile ↑t).vr vs)) = true ∧ (s.mach.tile
        ↑t).sync[descWaitObj (vecBytes ((s.mach.tile ↑t).vr vs))] = 0) ∧
    (∃ (s : State) (t : TileId),
      ScalarReady s.mach (↑t) 4 ∧ (s.mach.tile ↑t).vq = [] ∧ ((s.mach.tile ↑t).engQ EngId.gouge).q ≠ [] ∧ ((s.mach.tile ↑t).engQ
        EngId.gouge).started = false ∧ ((s.mach.tile ↑t).engQ EngId.gouge).q.length < EngId.gouge.depth ∧ (s.mach.tile ↑t).waiting
        EngId.gouge.no = true) ∧
    (∃ (s : State) (t : TileId),
      ScalarReady s.mach (↑t) 4 ∧ (s.mach.tile ↑t).vq = [] ∧ EngId.gouge.depth ≤ ((s.mach.tile ↑t).engQ EngId.gouge).q.length) ∧
    (∃ (s : State) (t : TileId) (vs : VReg),
      ScalarReady s.mach (↑t) 4 ∧ (s.mach.tile ↑t).vq = [] ∧ (s.mach.tile ↑t).engQ EngId.aes = { q := [], started := false } ∧ (s.mach.tile
        ↑t).waiting EngId.aes.no = false ∧ descKnownOp EngId.aes (vecBytes ((s.mach.tile ↑t).vr vs)) = true ∧ descWaitEn (vecBytes
        ((s.mach.tile ↑t).vr vs)) = false) ∧
    (∃ (s : State) (t : TileId) (vs : VReg),
      ScalarReady s.mach (↑t) 4 ∧ (s.mach.tile ↑t).vq = [] ∧ (s.mach.tile ↑t).engQ EngId.aes = { q := [], started := false } ∧ (s.mach.tile
        ↑t).waiting EngId.aes.no = false ∧ descWaitEn (vecBytes ((s.mach.tile ↑t).vr vs)) = true ∧ (s.mach.tile ↑t).sync[descWaitObj
        (vecBytes ((s.mach.tile ↑t).vr vs))] = 0) ∧
    (∃ (s : State) (t : TileId),
      ScalarReady s.mach (↑t) 4 ∧ (s.mach.tile ↑t).vq = [] ∧ ((s.mach.tile ↑t).engQ EngId.aes).q ≠ [] ∧ ((s.mach.tile ↑t).engQ
        EngId.aes).started = false ∧ ((s.mach.tile ↑t).engQ EngId.aes).q.length < EngId.aes.depth ∧ (s.mach.tile ↑t).waiting EngId.aes.no =
        true) ∧
    (∃ (s : State) (t : TileId),
      ScalarReady s.mach (↑t) 4 ∧ (s.mach.tile ↑t).vq = [] ∧ EngId.aes.depth ≤ ((s.mach.tile ↑t).engQ EngId.aes).q.length) ∧
    (∃ (s : State) (t : TileId) (vs : VReg),
      ScalarReady s.mach (↑t) 4 ∧ (s.mach.tile ↑t).vq = [] ∧ (s.mach.tile ↑t).engQ EngId.dma = { q := [], started := false } ∧ (s.mach.tile
        ↑t).waiting EngId.dma.no = false ∧ descKnownOp EngId.dma (vecBytes ((s.mach.tile ↑t).vr vs)) = true ∧ descWaitEn (vecBytes
        ((s.mach.tile ↑t).vr vs)) = false) ∧
    (∃ (s : State) (t : TileId) (vs : VReg),
      ScalarReady s.mach (↑t) 4 ∧ (s.mach.tile ↑t).vq = [] ∧ (s.mach.tile ↑t).engQ EngId.dma = { q := [], started := false } ∧ (s.mach.tile
        ↑t).waiting EngId.dma.no = false ∧ descWaitEn (vecBytes ((s.mach.tile ↑t).vr vs)) = true ∧ (s.mach.tile ↑t).sync[descWaitObj
        (vecBytes ((s.mach.tile ↑t).vr vs))] = 0) ∧
    (∃ (s : State) (t : TileId),
      ScalarReady s.mach (↑t) 4 ∧ (s.mach.tile ↑t).vq = [] ∧ ((s.mach.tile ↑t).engQ EngId.dma).q ≠ [] ∧ ((s.mach.tile ↑t).engQ
        EngId.dma).started = false ∧ ((s.mach.tile ↑t).engQ EngId.dma).q.length < EngId.dma.depth ∧ (s.mach.tile ↑t).waiting EngId.dma.no =
        true) ∧
    (∃ (s : State) (t : TileId),
      ScalarReady s.mach (↑t) 4 ∧ (s.mach.tile ↑t).vq = [] ∧ EngId.dma.depth ≤ ((s.mach.tile ↑t).engQ EngId.dma).q.length) :=
  ⟨⟨tileSt { run5 with v := (Vector.replicate 32 0).set 4 (vecOfBytes (desc 1 0)) }, 5, 4, by unfold ScalarReady; decide +kernel⟩,
    ⟨tileSt { run5 with v := (Vector.replicate 32 0).set 4 (vecOfBytes (desc 1 0x1F)) }, 5, 4, by unfold ScalarReady; decide +kernel⟩,
    ⟨tileSt { run5 with waits := [⟨2, 1, false⟩], gq := ⟨[desc 1 0x1F], false⟩ }, 5, by unfold ScalarReady; decide +kernel⟩,
    ⟨tileSt { run5 with gq := ⟨List.replicate EngId.gouge.depth (desc 1 0), true⟩ }, 5, by unfold ScalarReady; decide +kernel⟩,
    ⟨tileSt { run5 with v := (Vector.replicate 32 0).set 4 (vecOfBytes (desc 1 0)) }, 5, 4, by unfold ScalarReady; decide +kernel⟩,
    ⟨tileSt { run5 with v := (Vector.replicate 32 0).set 4 (vecOfBytes (desc 1 0x1F)) }, 5, 4, by unfold ScalarReady; decide +kernel⟩,
    ⟨tileSt { run5 with waits := [⟨3, 1, false⟩], aq := ⟨[desc 1 0x1F], false⟩ }, 5, by unfold ScalarReady; decide +kernel⟩,
    ⟨tileSt { run5 with aq := ⟨List.replicate EngId.aes.depth (desc 1 0), true⟩ }, 5, by unfold ScalarReady; decide +kernel⟩,
    ⟨tileSt { run5 with v := (Vector.replicate 32 0).set 4 (vecOfBytes (desc 1 0)) }, 5, 4, by unfold ScalarReady; decide +kernel⟩,
    ⟨tileSt { run5 with v := (Vector.replicate 32 0).set 4 (vecOfBytes (desc 1 0x1F)) }, 5, 4, by unfold ScalarReady; decide +kernel⟩,
    ⟨tileSt { run5 with waits := [⟨4, 1, false⟩], dq := ⟨[desc 1 0x1F], false⟩ }, 5, by unfold ScalarReady; decide +kernel⟩,
    ⟨tileSt { run5 with dq := ⟨List.replicate EngId.dma.depth (desc 1 0), true⟩ }, 5, by unfold ScalarReady; decide +kernel⟩⟩

/-- States and operands that meet the hypotheses of DescriptorsComplete, for each of its clauses. -/
theorem meets_DescriptorsComplete :
    (∃ (s : State) (t : TileId) (d : List Byte),
      (s.mach.tile ↑t).stalled = none ∧ s.mach.mem.badWords = [] ∧ s.mach.mem.chansOut = [] ∧ s.mach.mem.ceWords = [] ∧ s.mach.bit
        (Reg.tileAudit ↑t) 16 = false ∧ (s.mach.tile ↑t).engQ EngId.gouge = { q := [d], started := true } ∧ descOp d = 1) ∧
    (∃ (s : State) (t : TileId) (d : List Byte),
      (s.mach.tile ↑t).stalled = none ∧ s.mach.mem.badWords = [] ∧ s.mach.mem.chansOut = [] ∧ s.mach.mem.ceWords = [] ∧ s.mach.bit
        (Reg.tileAudit ↑t) 16 = false ∧ (s.mach.tile ↑t).engQ EngId.gouge = { q := [d], started := true } ∧ descOp d = 2) ∧
    (∃ (s : State) (t : TileId) (d : List Byte),
      (s.mach.tile ↑t).stalled = none ∧ s.mach.mem.badWords = [] ∧ s.mach.mem.chansOut = [] ∧ s.mach.mem.ceWords = [] ∧ s.mach.bit
        (Reg.tileAudit ↑t) 16 = false ∧ (s.mach.tile ↑t).engQ EngId.gouge = { q := [d], started := true } ∧ descOp d = 3) ∧
    (∃ (s : State) (t : TileId) (d : List Byte),
      (s.mach.tile ↑t).stalled = none ∧ s.mach.mem.badWords = [] ∧ s.mach.mem.chansOut = [] ∧ s.mach.mem.ceWords = [] ∧ s.mach.bit
        (Reg.tileAudit ↑t) 16 = false ∧ (s.mach.tile ↑t).engQ EngId.gouge = { q := [d], started := true } ∧ descOp d = 4) ∧
    (∃ (s : State) (t : TileId) (d : List Byte),
      (s.mach.tile ↑t).stalled = none ∧ s.mach.mem.badWords = [] ∧ s.mach.mem.chansOut = [] ∧ s.mach.mem.ceWords = [] ∧ s.mach.bit
        (Reg.tileAudit ↑t) 16 = false ∧ (s.mach.tile ↑t).engQ EngId.gouge = { q := [d], started := true } ∧ descOp d = 5) ∧
    (∃ (s : State) (t : TileId) (d : List Byte),
      (s.mach.tile ↑t).stalled = none ∧ s.mach.mem.badWords = [] ∧ s.mach.mem.chansOut = [] ∧ s.mach.mem.ceWords = [] ∧ s.mach.bit
        (Reg.tileAudit ↑t) 16 = false ∧ (s.mach.tile ↑t).engQ EngId.gouge = { q := [d], started := true } ∧ descOp d = 6) ∧
    (∃ (s : State) (t : TileId) (d : List Byte),
      (s.mach.tile ↑t).stalled = none ∧ s.mach.mem.badWords = [] ∧ s.mach.mem.chansOut = [] ∧ s.mach.mem.ceWords = [] ∧ s.mach.bit
        (Reg.tileAudit ↑t) 16 = false ∧ (s.mach.tile ↑t).engQ EngId.dma = { q := [d], started := true } ∧ descOp d = 1) ∧
    (∃ (s : State) (t : TileId) (d : List Byte),
      (s.mach.tile ↑t).stalled = none ∧ s.mach.mem.badWords = [] ∧ s.mach.mem.chansOut = [] ∧ s.mach.mem.ceWords = [] ∧ s.mach.bit
        (Reg.tileAudit ↑t) 16 = false ∧ (s.mach.tile ↑t).engQ EngId.dma = { q := [d], started := true } ∧ descOp d = 2) ∧
    (∃ (s : State) (t : TileId) (d : List Byte),
      (s.mach.tile ↑t).stalled = none ∧ s.mach.mem.badWords = [] ∧ s.mach.mem.chansOut = [] ∧ s.mach.mem.ceWords = [] ∧ s.mach.bit
        (Reg.tileAudit ↑t) 16 = false ∧ (s.mach.tile ↑t).engQ EngId.dma = { q := [d], started := true } ∧ descOp d = 3) ∧
    (∃ (s : State) (t : TileId) (d : List Byte),
      (s.mach.tile ↑t).stalled = none ∧ s.mach.mem.badWords = [] ∧ s.mach.mem.chansOut = [] ∧ s.mach.mem.ceWords = [] ∧ s.mach.bit
        (Reg.tileAudit ↑t) 16 = false ∧ (s.mach.tile ↑t).engQ EngId.dma = { q := [d], started := true } ∧ descOp d = 4) ∧
    (∃ (s : State) (t : TileId) (d : List Byte),
      (s.mach.tile ↑t).stalled = none ∧ s.mach.mem.badWords = [] ∧ s.mach.mem.chansOut = [] ∧ s.mach.mem.ceWords = [] ∧ s.mach.bit
        (Reg.tileAudit ↑t) 16 = false ∧ (s.mach.tile ↑t).engQ EngId.aes = { q := [d], started := true } ∧ descOp d = 1) ∧
    (∃ (s : State) (t : TileId) (d : List Byte),
      (s.mach.tile ↑t).stalled = none ∧ s.mach.mem.badWords = [] ∧ s.mach.mem.chansOut = [] ∧ s.mach.mem.ceWords = [] ∧ s.mach.bit
        (Reg.tileAudit ↑t) 16 = false ∧ (s.mach.tile ↑t).engQ EngId.aes = { q := [d], started := true } ∧ descOp d = 2) :=
  ⟨⟨tileSt { run5 with gq := ⟨[desc 1 0], true⟩ }, 5, desc 1 0, by decide +kernel⟩,
    ⟨tileSt { run5 with gq := ⟨[desc 2 0], true⟩ }, 5, desc 2 0, by decide +kernel⟩,
    ⟨tileSt { run5 with gq := ⟨[desc 3 0], true⟩ }, 5, desc 3 0, by decide +kernel⟩,
    ⟨tileSt { run5 with gq := ⟨[desc 4 0], true⟩ }, 5, desc 4 0, by decide +kernel⟩,
    ⟨tileSt { run5 with gq := ⟨[desc 5 0], true⟩ }, 5, desc 5 0, by decide +kernel⟩,
    ⟨tileSt { run5 with gq := ⟨[desc 6 0], true⟩ }, 5, desc 6 0, by decide +kernel⟩,
    ⟨tileSt { run5 with dq := ⟨[desc 1 0], true⟩ }, 5, desc 1 0, by decide +kernel⟩,
    ⟨tileSt { run5 with dq := ⟨[desc 2 0], true⟩ }, 5, desc 2 0, by decide +kernel⟩,
    ⟨tileSt { run5 with dq := ⟨[desc 3 0], true⟩ }, 5, desc 3 0, by decide +kernel⟩,
    ⟨tileSt { run5 with dq := ⟨[desc 4 0], true⟩ }, 5, desc 4 0, by decide +kernel⟩,
    ⟨tileSt { run5 with aq := ⟨[desc 1 0], true⟩ }, 5, desc 1 0, by decide +kernel⟩,
    ⟨tileSt { run5 with aq := ⟨[desc 2 0], true⟩ }, 5, desc 2 0, by decide +kernel⟩⟩

/-- States and operands that meet the hypotheses of DmaTransfers, for each of its clauses. -/
theorem meets_DmaTransfers :
    (∃ (s : State) (t : TileId) (d : List Byte),
      (s.mach.tile ↑t).stalled = none ∧ (s.mach.tile ↑t).dq = { q := [d], started := true } ∧ s.mach.mem.badWords = [] ∧ s.mach.mem.chansOut
        = [] ∧ s.mach.mem.ceWords = [] ∧ descBadHeader d = false ∧ descStatusEn d = false ∧ descSignalEn d = false ∧ (s.mach.tile
        ↑t).keepsAside = false ∧ d.length = 64 ∧ descOp d = 2 ∧ descFlags d = 0 ∧ descReserved0 d dmaFields = true ∧ Mach.dmaWriteStatus
        s.variant s.mach (↑t) (leAt d 16 8) (leAt d 24 4) = 0) ∧
    (∃ (s : State) (t : TileId) (d : List Byte),
      (s.mach.tile ↑t).stalled = none ∧ (s.mach.tile ↑t).dq = { q := [d], started := true } ∧ s.mach.mem.badWords = [] ∧ s.mach.mem.chansOut
        = [] ∧ s.mach.mem.ceWords = [] ∧ descBadHeader d = false ∧ descStatusEn d = false ∧ descSignalEn d = false ∧ (s.mach.tile
        ↑t).keepsAside = false ∧ d.length = 64 ∧ descOp d = 1 ∧ descFlags d = 0 ∧ descReserved0 d dmaFields = true ∧ Mach.readStatus
        s.variant s.mach (↑t) (leAt d 8 8) (leAt d 24 4) = 0 ∧ Mach.dmaWriteStatus s.variant s.mach (↑t) (leAt d 16 8) (leAt d 24 4) = 0) ∧
    (∃ (s : State) (t : TileId) (d : List Byte),
      (s.mach.tile ↑t).stalled = none ∧ (s.mach.tile ↑t).dq = { q := [d], started := true } ∧ s.mach.mem.badWords = [] ∧ s.mach.mem.chansOut
        = [] ∧ s.mach.mem.ceWords = [] ∧ descBadHeader d = false ∧ descStatusEn d = false ∧ descSignalEn d = false ∧ (s.mach.tile
        ↑t).keepsAside = false ∧ d.length = 64 ∧ descOp d = 3 ∧ descFlags d = 0 ∧ descReserved0 d dmaFields2d = true ∧ leAt d 40 4 = 1 ∧
        overlap (leAt d 8 8) (leAt d 24 4) (leAt d 16 8) (leAt d 24 4) = false ∧ Mach.readStatus s.variant s.mach (↑t) (leAt d 8 8) (leAt d
        24 4) = 0 ∧ Mach.dmaWriteStatus s.variant s.mach (↑t) (leAt d 16 8) (leAt d 24 4) = 0) ∧
    (∃ (s : State) (t : TileId) (d : List Byte),
      (s.mach.tile ↑t).stalled = none ∧ (s.mach.tile ↑t).dq = { q := [d], started := true } ∧ s.mach.mem.badWords = [] ∧ s.mach.mem.chansOut
        = [] ∧ s.mach.mem.ceWords = [] ∧ descBadHeader d = false ∧ descStatusEn d = false ∧ descSignalEn d = false ∧ (s.mach.tile
        ↑t).keepsAside = false ∧ d.length = 64 ∧ descOp d = 4 ∧ descFlags d = 1 ∧ descReserved0 d dmaFields = true ∧ leAt d 32 8 % 4 = 0 ∧
        leAt d 32 8 < gddrTop s.variant ∧ (s.mach.tile ↑t).running = true ∧ (s.mach.tile ↑t).heldAdds = []) :=
  ⟨⟨tileSt { run5 with dq := ⟨[dma 2 0 0 0x5FFFFFF80000 64 0 0], true⟩ }, 5, dma 2 0 0 0x5FFFFFF80000 64 0 0, by decide +kernel⟩,
    ⟨tileSt { run5 with dq := ⟨[dma 1 0 0x1000 0x5FFFFFF80000 64 0 0], true⟩ }, 5, dma 1 0 0x1000 0x5FFFFFF80000 64 0 0, by decide +kernel⟩,
    ⟨tileSt { run5 with dq := ⟨[dma 3 0 0x1000 0x5FFFFFF80000 64 0 1], true⟩ }, 5, dma 3 0 0x1000 0x5FFFFFF80000 64 0 1, by decide +kernel⟩,
    ⟨tileSt { run5 with dq := ⟨[dma 4 1 0 0 0 0x2000 0], true⟩ }, 5, dma 4 1 0 0 0 0x2000 0, by decide +kernel⟩⟩

/-- States and operands that meet the hypotheses of UnitsTakenAndDone, for each of its clauses. -/
theorem meets_UnitsTakenAndDone :
    (∃ (s : State) (t : TileId) (e : QEntry) (l : QLoc),
      Mach.tileReady s.variant s.mach ↑t = true ∧ s.mach.nextEntry (↑t / 16) = some l ∧ s.mach.entryAt l = some e ∧ (s.mach.tile ↑t).cfgPend
        = none ∧ e.bytes.length = 64) ∧
    (∃ (s : State) (t : TileId) (rs : GReg) (u : WorkUnit) (e : QEntry) (k : KernelOut),
      ScalarReady s.mach (↑t) 4 ∧ (s.mach.tile ↑t).unit = some u ∧ u.part = CalPart.plain ∧ (s.mach.tile ↑t).heldAdds = [] ∧ s.mach.entryAt
        u.loc = some e ∧ e.runs = [] ∧ (s.mach.tile ↑t).vq = [] ∧ (s.mach.tile ↑t).gq.q = [] ∧ (s.mach.tile ↑t).aq.q = [] ∧ (s.mach.tile
        ↑t).dq.q = [] ∧ (BitVec.toNat ((s.mach.tile ↑t).gr rs) % 2 ^ 16 = St.ok ∨ BitVec.toNat ((s.mach.tile ↑t).gr rs) % 2 ^ 16 =
        St.checkFail ∨ BitVec.toNat ((s.mach.tile ↑t).gr rs) % 2 ^ 16 = St.checkAbsent) ∧ e.kind = UnitKind.kernel ∧ Mach.runKernel
        s.variant s.mach e.bytes = some k) ∧
    (∃ (s : State) (t : TileId) (rs : GReg) (u : WorkUnit) (e : QEntry),
      ScalarReady s.mach (↑t) 4 ∧ (s.mach.tile ↑t).unit = some u ∧ u.part = CalPart.plain ∧ (s.mach.tile ↑t).heldAdds = [] ∧ s.mach.entryAt
        u.loc = some e ∧ e.runs = [] ∧ (s.mach.tile ↑t).vq = [] ∧ (s.mach.tile ↑t).gq.q = [] ∧ (s.mach.tile ↑t).aq.q = [] ∧ (s.mach.tile
        ↑t).dq.q = [] ∧ (BitVec.toNat ((s.mach.tile ↑t).gr rs) % 2 ^ 16 = St.ok ∨ BitVec.toNat ((s.mach.tile ↑t).gr rs) % 2 ^ 16 =
        St.checkFail ∨ BitVec.toNat ((s.mach.tile ↑t).gr rs) % 2 ^ 16 = St.checkAbsent) ∧ e.kind ≠ UnitKind.kernel) ∧
    (∃ (s : State) (t : TileId) (u : WorkUnit) (e : QEntry),
      FirstRun s.mach (↑t) u e ∧ s.mach.bit (Reg.tileDlkCfg ↑t) 5 = true ∧ (∀ (g : EngNo), (s.mach.tile ↑t).quiet g = true) ∧ engineBits
        (s.mach.tile ↑t).blocked ≠ 0) :=
  ⟨⟨st0 (ring0 onM [(7, entIn .ready 3 0 0)]), 5, entIn .ready 3 0 0, .cluster 0 7, by decide +kernel⟩,
    ⟨kernSt, 5, 1, codeK, entK, kernelFails St.checkFail true, by unfold ScalarReady; decide +kernel⟩,
    ⟨unitSt { run5 with g := (Vector.replicate 32 0).set 1 (BitVec.ofNat 64 St.checkFail) }, 5, 1, code, ent, by unfold ScalarReady; decide +kernel⟩,
    ⟨st0 ((unitSt { run5 with waits := [⟨0, 1, false⟩] }).mach.setBit (Reg.tileDlkCfg 5) 5 true), 5, code, ent, by unfold FirstRun; decide +kernel⟩⟩

/-- States and operands that meet the hypotheses of QueuesAndClocks, for each of its clauses. -/
theorem meets_QueuesAndClocks :
    (∃ (s : State) (c : ClusterId) (pos : Fin 4096) (e : QEntry) (k : ℕ),
      ringEntry (s.mach.clus ↑c) ↑pos = some (k, e) ∧ e.state = EntState.waiting ∧ (entryDepEn e.bytes = true → (s.mach.counter (entryHome
        e.bytes) (entryDepCnt e.bytes) + 2 ^ 32 - entryDepVal e.bytes) % 2 ^ 32 < 2 ^ 31)) ∧
    (∃ (s : State) (c : ClusterId) (e : QEntry) (k : ℕ),
      s.mach.fld (Reg.pipeClqCfg ↑c) 12 0 < countState (s.mach.clus ↑c).ring EntState.ready ∧ (List.filter (fun p => decide (p.2.state =
        EntState.ready)) (s.mach.clus ↑c).ring).getLast? = some (k, e) ∧ List.length (s.mach.dieQueue (↑c / 8)) < 8192) ∧
    (∃ (s : State) (c : ClusterId),
      ↑c < clusterCount s.variant ∧ s.mach.bit (Reg.pipeClqCfg ↑c) 16 = true ∧ (s.mach.clus ↑c).armed = true ∧ s.mach.waitingJobs ↑c ≠ [] ∧
        (∀ t ∈ Mach.dutyTiles s.variant s.mach ↑c, s.mach.blockedOnQueue t = true)) ∧
    (∃ (s : State) (c : ClusterId) (yft : List JobSlot) (planned : List JobSlot),
      ↑c ∈ s.mach.tl.examine ∧ (∀ n ∈ s.mach.waitingJobs ↑c, s.mach.hasWork n = true ∨ ∃ y ∈ yft ++ planned, ↑y = n)) ∧
    (∃ (s : State) (c : ClusterId),
      s.mach.clockRuns ↑c = true) ∧
    (∃ (s : State) (c : ClusterId) (j : JobSlot),
      ↑j ∈ (s.mach.clus ↑c).serves ∧ ↑j ∉ (s.mach.clus ↑c).loaded) :=
  ⟨⟨st0 (ring0 onM [(4095, entIn .waiting 3 0 1)]), 0, 4095, entIn .waiting 3 0 1, 4095, by decide +kernel⟩,
    ⟨st0 ((ring0 onM [(7, entIn .ready 3 0 0)]).setReg (Reg.pipeClqCfg 0) 0), 0, entIn .ready 3 0 0, 7, by decide +kernel⟩,
    ⟨st0 ((ring0 onM [(7, entIn .waiting 3 0 1)]).setBit (Reg.pipeClqCfg 0) 16 true), 0, by decide +kernel⟩,
    ⟨st0 { (ring0 onM [(7, entIn .waiting 3 0 1)]) with tl := { (ring0 onM [(7, entIn .waiting 3 0 1)]).tl with examine := [0] } }, 0, [3], [], by decide +kernel⟩,
    ⟨st0 onM, 31, by decide +kernel⟩,
    ⟨st0 (mm.setClus 31 { Cluster.reset with serves := [15] }), 31, 15, by decide +kernel⟩⟩

/-- States and operands that meet the hypotheses of DieLoss, for each of its clauses. -/
theorem meets_DieLoss :
    (∃ (s : State) (d : DieId),
      ↑d < dieCount s.variant) ∧
    (∃ (s : State) (d : DieId),
      dieCount s.variant ≤ ↑d) :=
  ⟨⟨st0 mm, 3, by decide +kernel⟩,
    ⟨⟨.ylm2560L, [], mm⟩, 2, by decide +kernel⟩⟩

/-! ### Worked examples of the kernels -/

/-- 09, the worked example of R343: Y 100, Cb 90, Cr 200 under MATRIX 0 is 201, 62, 33, and R with MEAN 120 and SCALE 1/60
is the FP16 element 0x3D66. -/
theorem test_pixel_example : (colourMatrix 0).map (fun r => vcmxPixel r 100 90 200) = [201, 62, 33] ∧
    normalise { AugSpec.none with mean := [0x42F00000], scale := [0x3C888889] } 1 0 (fOfInt 201) = 0x3D66 := by decide +kernel

/-- 11, the worked example of R390: six merges by rank, and a pre-split table with letters in class 1 and the space in 2. -/
def mergesHi : List (Nat × Nat) := [(32, 116), (104, 101), (256, 257), (101, 114), (257, 114), (114, 101)]
def mergeWords : List (Nat × Nat) := mergesHi.zipIdx.map (fun p =>
  let key := p.1.1 + p.1.2 * 2 ^ 18
  ((gh64 0 (leBytes 8 key)).toNat % 16, 2 ^ 63 + p.2 * 2 ^ 36 + key))
def mergesTab : List Byte :=
  leBytes 4 magicMerge ++ leBytes 2 1 ++ [4, 1, 36, 20, 0, 0] ++ leBytes 4 6 ++ leBytes 8 576 ++ bytes 40 ++
    (List.range 16).flatMap (fun b => (((mergeWords.filter (fun w : Nat × Nat => w.1 = b)).map Prod.snd ++ [0, 0, 0, 0]).take 4).flatMap (leBytes 8)) ++
    [256, 257, 258, 259, 260, 261].flatMap (leBytes 4)
def splitTab : List Byte :=
  leBytes 4 magicSplit ++ leBytes 2 1 ++ [0, 0] ++ leBytes 2 64 ++ bytes 6 ++ leBytes 2 0 ++ leBytes 2 4 ++ leBytes 2 4 ++ bytes 26 ++ bytes 16 ++
    bytes 8704 ++ bytes 16 ++ [2] ++ bytes 15 ++ List.replicate 32 0x11 ++ bytes 64
/-- The entry of rank 2, the pieces of "Hi there", and its tokens under a byte map of b to b. -/
theorem test_merge_entry : ((mergeWords.map Prod.snd).getD 2 0) = 0x8000002004040100 := by decide +kernel
theorem test_presplit_example :
    presplit splitTab [72, 105, 32, 116, 104, 101, 114, 101] = [[72, 105], [32, 116, 104, 101, 114, 101]] := by decide +kernel
theorem test_bpe_example : bpe vocab256 mergesTab [72, 105] = [72, 105] ∧
    bpe vocab256 mergesTab [32, 116, 104, 101, 114, 101] = [258, 261] := by decide +kernel

/-- A TENSOR record of two FP16 elements, and one whose payload is a byte short (09 R330). -/
theorem test_tensor_record :
    decodeRecord recHi.opts ⟨3, [⟨2, 1, 0, 4, 0, [1, 2, 3, 4], false⟩], [2], 1⟩ = some (.tensor 1 [2] [1, 2, 3, 4]) ∧
    decodeRecord recHi.opts ⟨3, [⟨2, 1, 0, 3, 0, [1, 2, 3], false⟩], [2], 1⟩ = none := by decide +kernel

end Sys2Proof.Tests
end

section
/-!
SUPPORT. Every command completes and changes the machine proper alone, so a step keeps the order number of the part
(00_scope.md R2).
-/
namespace Sys2Proof.Machine

/-- Every command completes, with the order number and the queue as they were. -/
theorem exec_next_mach (c : Instr) (s : State) : ∃ m : Mach, exec c s = .next { s with mach := m } := by
  cases c <;> exact ⟨_, rfl⟩

/-- What a step can do: a tick of the spindle on an empty queue, or the first command with the queue's rest. -/
theorem step_cases {s t : State} (h : step s = .next t) :
    (s.pending = [] ∧ t = { s with mach := s.mach.tick s.variant }) ∨
    (∃ (c : Instr) (r : List Instr) (m : Mach), s.pending = c :: r ∧ exec c { s with pending := r } = .next t ∧
      t = { s with pending := r, mach := m }) := by
  cases hq : s.pending with
  | nil =>
    simp only [step, hq] at h
    cases h
    exact .inl ⟨rfl, rfl⟩
  | cons c r =>
    obtain ⟨m, hm⟩ := exec_next_mach c { s with pending := r }
    simp only [step, hq, hm] at h
    cases h
    exact .inr ⟨c, r, m, rfl, hm, rfl⟩

/-- No step changes the order number (00_scope.md R2). -/
theorem step_variant {s t : State} (h : step s = .next t) : t.variant = s.variant := by
  obtain ⟨-, rfl⟩ | ⟨_, _, _, -, -, rfl⟩ := step_cases h <;> rfl

end Sys2Proof.Machine
end

section
/-!
SUPPORT. What the CAP registers read: the capability word of the order number, whatever the machine holds
(00_scope.md R7, R8).
-/
namespace Sys2Proof.Machine

/-- The units that an order number may lack have their registers past the GLB and CAP pages. -/
theorem regPresent_of_lt (v : Variant) {off : Nat} (h : off < 0x10000) : regPresent v off = true := by
  have below {base : Nat} (hb : 0x10000 ≤ base) : decide (off < base) = true := decide_eq_true (by omega)
  simp [regPresent, below, Reg.clkClTarget, Reg.pipeClqStatus, Reg.pipeDqStatus, Reg.memChStatus, Reg.memChErr,
    Reg.rasGddr7Eye, Reg.flmChStatus]

/-- The CAP registers lie in the block at 0x8000. -/
theorem regBlock_cap {k : Nat} (hk : k < 5) : regBlock (Reg.capId + 4 * k) = Reg.capId := by
  rw [Reg.capId, regBlock, if_pos (by omega)]
  omega

/-- The five CAP registers are in the register table. -/
theorem regAt_cap {k : Nat} (hk : k < 5) : ∃ r, regAt (Reg.capId + 4 * k) = some r := by
  have table : ∀ i : Fin 5, (regAt (Reg.capId + 4 * i.val)).isSome = true := by decide
  exact Option.isSome_iff_exists.mp (table ⟨k, hk⟩)

/-- A CAP register takes its value from the order number alone. -/
theorem derived_cap (v : Variant) (m : Mach) {k : Nat} (hk : k < 5) :
    derived v m (Reg.capId + 4 * k) = some ((capWords v).getD k 0) := by
  have hlen : k < (capWords v).length := hk
  have hidx : (Reg.capId + 4 * k - 0x8000) / 4 = k := by simp only [Reg.capId]; omega
  have halign : (Reg.capId + 4 * k) % 4 = 0 := by simp only [Reg.capId]; omega
  have htop : Reg.capId + 4 * k < 0x8014 := by simp only [Reg.capId]; omega
  rw [derived, if_neg (by simp [Reg.capId]), if_pos (by omega), if_pos (by simp [halign, htop]), hidx,
    List.getD_eq_getElem _ _ hlen, List.getElem?_eq_getElem hlen]

/-- In every machine a CAP register reads the capability word of the order number. -/
theorem regRead_cap (v : Variant) (m : Mach) {k : Nat} (hk : k < 5) :
    regRead v m (Reg.capId + 4 * k) = BitVec.ofNat 64 ((capWords v).getD k 0) := by
  have hpres : regPresent v (Reg.capId + 4 * k) = true := regPresent_of_lt v (by simp only [Reg.capId]; omega)
  have hctl : Reg.capId + 4 * k ≠ cfgctl (regBlock (Reg.capId + 4 * k)) := by
    rw [regBlock_cap hk, cfgctl]; omega
  obtain ⟨r, hr⟩ := regAt_cap hk
  simp [regRead, hpres, hctl, hr, derived_cap v m hk]

/-- Settles O56: a CAP register reads a word of the order number, and no step changes the order number. -/
theorem capabilitiesConstant : Obligations.CapabilitiesConstant := by
  intro s t hstep k hk
  have hv : t.variant = s.variant := step_variant hstep
  exact ⟨regRead_cap s.variant s.mach hk, by rw [regRead_cap _ _ hk, regRead_cap _ _ hk, hv]⟩

end Sys2Proof.Machine
end

section
/-!
SUPPORT. The memories of a machine (device memory, the SRAM of the tiles and of the clusters) seen as one value, and
what leaves that value alone: choices, runs over lists, and every function of the model that stores no byte. The
functions stand in the model's order, under the file that defines them.
-/
namespace Sys2Proof.Machine

/-- Everything that lists bytes: device memory, and the tiles and clusters with their SRAM. -/
structure Memories where
  gddr : Memory
  tiles : SMap Tile
  clusters : SMap Cluster

/-- The memories that a machine holds. -/
def Mach.memories (m : Mach) : Memories := ⟨m.mem.gddr, m.tl.tiles, m.tl.clusters⟩

@[simp] theorem memories_mk (r e p b s) (tl : Fabric) (mem : MemState) (j ra ps ks ft hi xp o d) :
    (Mach.mk r e p b s tl mem j ra ps ks ft hi xp o d).memories = ⟨mem.gddr, tl.tiles, tl.clusters⟩ := by rfl
@[simp] theorem memories_fold (m : Mach) : (⟨m.mem.gddr, m.tl.tiles, m.tl.clusters⟩ : Memories) = m.memories := by rfl
@[simp] theorem memories_ite (c : Prop) [Decidable c] (a b : Mach) :
    (if c then a else b).memories = if c then a.memories else b.memories := apply_ite _ _ _ _
@[simp] theorem memories_foldl {β : Type} (f : Mach → β → Mach) (h : ∀ m x, (f m x).memories = m.memories)
    (l : List β) (m : Mach) :
    (l.foldl f m).memories = m.memories := by
  induction l generalizing m with
  | nil => rfl
  | cons x l ih => rw [List.foldl_cons, ih, h]

/-- What every step of a run over a list that may stop keeps, the run keeps. -/
theorem foldl_option_keeps {σ β : Type} {P : Mach → Prop} {f : Option (σ × Mach) → β → Option (σ × Mach)}
    (hn : ∀ x, f none x = none) (hs : ∀ s m x s' m', P m → f (some (s, m)) x = some (s', m') → P m') {l : List β}
    {s s' : σ} {m m' : Mach} (hm : P m) (h : l.foldl f (some (s, m)) = some (s', m')) : P m' := by
  have stopped (l : List β) : l.foldl f none = none := by
    induction l with
    | nil => rfl
    | cons x l ih => rw [List.foldl_cons, hn, ih]
  induction l generalizing s m with
  | nil => cases h; exact hm
  | cons x l ih =>
    rw [List.foldl_cons] at h
    match e : f (some (s, m)) x, h with
    | none, h => rw [stopped] at h; cases h
    | some (s₁, m₁), h => exact ih (hs _ _ _ _ _ hm e) h

theorem memories_foldl_option {σ β : Type} {f : Option (σ × Mach) → β → Option (σ × Mach)}
    (hn : ∀ x, f none x = none) (hs : ∀ s m x s' m', f (some (s, m)) x = some (s', m') → m'.memories = m.memories)
    {l : List β} {s s' : σ} {m m' : Mach} (h : l.foldl f (some (s, m)) = some (s', m')) : m'.memories = m.memories :=
  foldl_option_keeps (P := fun n => n.memories = m.memories) hn (fun _ _ _ _ _ hm e => (hs _ _ _ _ _ e).trans hm) rfl h

/-! #### Machine/Ops -/

@[simp] theorem memories_setReg (m : Mach) (off v) : (m.setReg off v).memories = m.memories := by simp [Mach.setReg]
@[simp] theorem memories_setFld (m : Mach) (off hi lo v) : (m.setFld off hi lo v).memories = m.memories := by
  simp [Mach.setFld]
@[simp] theorem memories_setBit (m : Mach) (off i b) : (m.setBit off i b).memories = m.memories := by
  simp [Mach.setBit]
@[simp] theorem memories_addFld (m : Mach) (off hi lo n) : (m.addFld off hi lo n).memories = m.memories := by
  simp [Mach.addFld]
@[simp] theorem memories_satFld (m : Mach) (off hi lo n) : (m.satFld off hi lo n).memories = m.memories := by
  simp [Mach.satFld]
@[simp] theorem memories_send (m : Mach) (o) : (m.send o).memories = m.memories := by simp [Mach.send]
@[simp] theorem memories_draw (m : Mach) : (m.draw).memories = m.memories := by simp [Mach.draw]
@[simp] theorem memories_recordAs (m : Mach) (inj typ src status payload) :
    (m.recordAs inj typ src status payload).memories = m.memories := by
  simp [Mach.recordAs]
@[simp] theorem memories_record (m : Mach) (typ src status payload) :
    (m.record typ src status payload).memories = m.memories := by
  simp [Mach.record]
@[simp] theorem memories_notice (m : Mach) (code src arg status) :
    (m.notice code src arg status).memories = m.memories := by
  simp [Mach.notice]
@[simp] theorem memories_rejected (m : Mach) (src off val reason) :
    (m.rejected src off val reason).memories = m.memories := by
  simp [Mach.rejected]
@[simp] theorem memories_notifyLast (m : Mach) : (m.notifyLast).memories = m.memories := by
  unfold Mach.notifyLast
  split <;> simp
@[simp] theorem memories_setPort (m : Mach) (p x) : (m.setPort p x).memories = m.memories := by simp [Mach.setPort]
@[simp] theorem memories_setCtl (m : Mach) (p c) : (m.setCtl p c).memories = m.memories := by simp [Mach.setCtl]
@[simp] theorem memories_nvmePost (m : Mach) (n sct sc dw1 data) :
    (m.nvmePost n sct sc dw1 data).memories = m.memories := by
  simp [Mach.nvmePost]
@[simp] theorem memories_nvmeDone (m : Mach) (n code data) : (m.nvmeDone n code data).memories = m.memories := by
  simp [Mach.nvmeDone]
@[simp] theorem memories_nvmeStd (m : Mach) (n sct sc) : (m.nvmeStd n sct sc).memories = m.memories := by
  simp [Mach.nvmeStd]

/-! #### Machine/BootOps -/

@[simp] theorem memories_measure (m : Mach) (i typ digest name) :
    (m.measure i typ digest name).memories = m.memories := by
  simp [Mach.measure]
@[simp] theorem memories_measureData (m : Mach) (i content) : (m.measureData i content).memories = m.memories := by
  simp [Mach.measureData]
@[simp] theorem memories_bootRecord (m : Mach) : (m.bootRecord).memories = m.memories := by simp [Mach.bootRecord]
@[simp] theorem memories_startBoot (m : Mach) : (m.startBoot).memories = m.memories := by
  unfold Mach.startBoot
  dsimp only
  split <;> simp
@[simp] theorem memories_storeImage (m : Mach) (slot image) : (m.storeImage slot image).memories = m.memories := by
  simp [Mach.storeImage]

/-! #### Machine/Variants -/

@[simp] theorem memories_setDieQueue (m : Mach) (d q) : (m.setDieQueue d q).memories = m.memories := by
  simp [Mach.setDieQueue]

/-! #### Machine/KeyBase -/

@[simp] theorem memories_setKey (m : Mach) (k) : (m.setKey k).memories = m.memories := by simp [Mach.setKey]
@[simp] theorem memories_countSeal (m : Mach) (k) : (m.countSeal k).memories = m.memories := by simp [Mach.countSeal]
@[simp] theorem memories_countDenied (m : Mach) (st) : (m.countDenied st).memories = m.memories := by
  simp [Mach.countDenied]

/-! #### Machine/HostBase -/

@[simp] theorem memories_nvmeServe (m : Mach) (n k) {f : Mach → Mach} (h : (f m).memories = m.memories) :
    (m.nvmeServe n k f).memories = m.memories := by
  unfold Mach.nvmeServe; repeat' split
  all_goals simp [h]

/-! #### Machine/CfgOps -/

@[simp] theorem memories_cfgBusy (m : Mach) (blk) : (m.cfgBusy blk).memories = m.memories := by simp [Mach.cfgBusy]

/-! #### Machine/JobBase -/

@[simp] theorem memories_setJob (m : Mach) (j x) : (m.setJob j x).memories = m.memories := by simp [Mach.setJob]
@[simp] theorem memories_jobEnd (m : Mach) (j final code) : (m.jobEnd j final code).memories = m.memories := by
  unfold Mach.jobEnd
  split <;> simp
@[simp] theorem memories_jobFail (m : Mach) (j code) : (m.jobFail j code).memories = m.memories := by
  simp [Mach.jobFail]
@[simp] theorem memories_jobNonrepro (m : Mach) (j) : (m.jobNonrepro j).memories = m.memories := by
  unfold Mach.jobNonrepro
  split <;> simp

/-! #### Machine/UnitOps -/

theorem memories_placeDie {m m' : Mach} {d e} (h : m.placeDie d e = some m') : m'.memories = m.memories := by
  simp only [Mach.placeDie] at h
  split at h <;> cases h
  rfl
@[simp] theorem memories_injected (m : Mach) : (m.injected).memories = m.memories := by
  unfold Mach.injected
  split <;> simp
@[simp] theorem memories_mismatchRecord (m : Mach) (t job seq tiles status outcome) :
    (m.mismatchRecord t job seq tiles status outcome).memories = m.memories := by
  simp [Mach.mismatchRecord]
@[simp] theorem memories_runRecords (m : Mach) (job seq runs n) :
    (m.runRecords job seq runs n).memories = m.memories := by
  induction runs generalizing m n with
  | nil => rfl
  | cons r rest ih => rw [Mach.runRecords, ih]; split <;> simp
@[simp] theorem memories_compared (m : Mach) (t res) : (m.compared t res).memories = m.memories := by
  simp [Mach.compared]

/-! #### Machine/MemErr -/

@[simp] theorem memories_eccCe (m : Mach) (v inj a) : (m.eccCe v inj a).memories = m.memories := by simp [Mach.eccCe]
@[simp] theorem memories_eccUe (m : Mach) (v inj a status outcome) :
    (m.eccUe v inj a status outcome).memories = m.memories := by
  simp [Mach.eccUe]
@[simp] theorem memories_wordGood (m : Mach) (a) : (m.wordGood a).memories = m.memories := by simp [Mach.wordGood]
@[simp] theorem memories_written (m : Mach) (a n) : (m.written a n).memories = m.memories := by simp [Mach.written]
@[simp] theorem memories_meetCe (m : Mach) (v a n) : (m.meetCe v a n).memories = m.memories := by simp [Mach.meetCe]

/-! #### Machine/QueueOps -/

@[simp] theorem memories_applyTilecfg (m : Mach) (t cfg) : (m.applyTilecfg t cfg).memories = m.memories := by
  simp [Mach.applyTilecfg]

/-! #### Machine/MemOps -/

@[simp] theorem memories_retrainBegin (m : Mach) (c trig) : (m.retrainBegin c trig).memories = m.memories := by
  simp [Mach.retrainBegin]
@[simp] theorem memories_retrainStart (m : Mach) (v c trig) : (m.retrainStart v c trig).memories = m.memories := by
  simp [Mach.retrainStart]
@[simp] theorem memories_retrainNext (m : Mach) : (m.retrainNext).memories = m.memories := by simp [Mach.retrainNext]
@[simp] theorem memories_retrainRecord (m : Mach) (c trig result rate status) :
    (m.retrainRecord c trig result rate status).memories = m.memories := by
  simp [Mach.retrainRecord]
@[simp] theorem memories_retrainEnd (m : Mach) (c pass) : (m.retrainEnd c pass).memories = m.memories := by
  unfold Mach.retrainEnd
  split <;> simp
@[simp] theorem memories_retrainReq (m : Mach) (v w bits) : (m.retrainReq v w bits).memories = m.memories := by
  simp [Mach.retrainReq]
@[simp] theorem memories_setPool (m : Mach) (k p) : (m.setPool k p).memories = m.memories := by simp [Mach.setPool]
@[simp] theorem memories_takeBuf (m : Mach) (k owner tag) : (m.takeBuf k owner tag).memories = m.memories := by
  unfold Mach.takeBuf
  dsimp only
  split <;> simp
@[simp] theorem memories_serveBufs (n) (m : Mach) (k) : (Mach.serveBufs n m k).memories = m.memories := by
  induction n generalizing m with
  | zero => rfl
  | succ n ih => rw [Mach.serveBufs]; split <;> simp [ih]
@[simp] theorem memories_alloc (m : Mach) (u owner size) : (m.alloc u owner size).memories = m.memories := by
  unfold Mach.alloc
  (repeat' split) <;> simp
@[simp] theorem memories_freeOk (m : Mach) (h) : (m.freeOk h).memories = m.memories := by
  simp [Mach.freeOk]
@[simp] theorem memories_freeBuf (m : Mach) (u owner h) : (m.freeBuf u owner h).memories = m.memories := by
  simp [Mach.freeBuf]
@[simp] theorem memories_chuckRefill (m : Mach) (k) : (m.chuckRefill k).memories = m.memories := by
  simp only [Mach.chuckRefill]; split <;> simp
@[simp] theorem memories_poolFill (m : Mach) (k count) : (m.poolFill k count).memories = m.memories := by
  simp [Mach.poolFill]
@[simp] theorem memories_poolEnable (m : Mach) (w k count) : (m.poolEnable w k count).memories = m.memories := by
  simp [Mach.poolEnable]
@[simp] theorem memories_poolDisable (m : Mach) (w k count) : (m.poolDisable w k count).memories = m.memories := by
  simp [Mach.poolDisable]
@[simp] theorem memories_hostLimit (m : Mach) (w val) : (m.hostLimit w val).memories = m.memories := by
  simp [Mach.hostLimit]
theorem memories_carveArea {m m' : Mach} {job n a} (h : m.carveArea job n = some (a, m')) :
    m'.memories = m.memories := by
  unfold Mach.carveArea at h
  split at h <;> cases h
  rfl
@[simp] theorem memories_setSlot (m : Mach) (s x) : (m.setSlot s x).memories = m.memories := by simp [Mach.setSlot]
@[simp] theorem memories_ctxFill (m : Mach) (s) : (m.ctxFill s).memories = m.memories := by simp [Mach.ctxFill]
@[simp] theorem memories_ctxFlushEnd (m : Mach) : (m.ctxFlushEnd).memories = m.memories := by simp [Mach.ctxFlushEnd]

/-! #### Machine/FtlOps -/

@[simp] theorem memories_setNs (m : Mach) (nsid x) : (m.setNs nsid x).memories = m.memories := by simp [Mach.setNs]
@[simp] theorem memories_setSb (m : Mach) (i b) : (m.setSb i b).memories = m.memories := by simp [Mach.setSb]
theorem memories_placeSlots {m m' : Mach} {k n w a b} (h : m.placeSlots k n w = some (a, b, m')) :
    m'.memories = m.memories := by
  simp only [Mach.placeSlots] at h
  (repeat' split at h) <;> cases h <;> rfl
@[simp] theorem memories_flashFault (m : Mach) (inj chan kind block status) :
    (m.flashFault inj chan kind block status).memories = m.memories := by
  simp [Mach.flashFault]
@[simp] theorem memories_mediaRecord (m : Mach) (chan nsid unit) :
    (m.mediaRecord chan nsid unit).memories = m.memories := by
  simp [Mach.mediaRecord]
@[simp] theorem memories_applyChange (m : Mach) (c) : (m.applyChange c).memories = m.memories := by
  unfold Mach.applyChange
  (repeat' split) <;> simp
@[simp] theorem memories_journal (m : Mach) (c d) : (m.journal c d).memories = m.memories := by simp [Mach.journal]
@[simp] theorem memories_flashDone (m : Mach) (d) : (m.flashDone d).memories = m.memories := by
  unfold Mach.flashDone
  split <;> simp
theorem memories_tryWrite {m m' : Mach} {w} (h : m.tryWrite w = some m') : m'.memories = m.memories := by
  simp only [Mach.tryWrite] at h
  split at h
  · cases h; rfl
  · split at h
    · cases h
    · split at h
      · next e =>
        cases h
        rw [memories_journal, memories_addFld, memories_foldl_option (fun _ => rfl) _ e, memories_mk, memories_fold]
        intro s m i s' m' h
        dsimp only at h
        split at h
        · next hp =>
          cases h
          split <;> simp [memories_placeSlots hp]
        · cases h
      · cases h
@[simp] theorem memories_flashWrite (m : Mach) (w) : (m.flashWrite w).memories = m.memories := by
  unfold Mach.flashWrite
  split
  · split
    · next h => exact memories_tryWrite h
    · rfl
  · rfl
@[simp] theorem memories_serveWrites (n) (m : Mach) : (Mach.serveWrites n m).memories = m.memories := by
  induction n generalizing m with
  | zero => rfl
  | succ n ih =>
    rw [Mach.serveWrites]
    split
    · split
      · next h => simp [ih, memories_tryWrite h]
      · rfl
    · rfl
@[simp] theorem memories_journalPage (m : Mach) : (m.journalPage).memories = m.memories := by simp [Mach.journalPage]
@[simp] theorem memories_checkpoint (m : Mach) : (m.checkpoint).memories = m.memories := by simp [Mach.checkpoint]
@[simp] theorem memories_retireBlock (m : Mach) (i) : (m.retireBlock i).memories = m.memories := by
  simp only [Mach.retireBlock]
  (repeat' split) <;> simp
@[simp] theorem memories_queueSb (m : Mach) (i) : (m.queueSb i).memories = m.memories := by simp [Mach.queueSb]
@[simp] theorem memories_programFail (m : Mach) (inj i b) : (m.programFail inj i b).memories = m.memories := by
  unfold Mach.programFail
  split
  · extract_lets m₁ redo m₂
    have hr (m : Mach) (c) : (redo m c).2.memories = m.memories := by
      unfold redo
      split
      · split
        · split
          · split
            · split
              · next h => exact memories_placeSlots h
              · rfl
            · rfl
          · rfl
        · rfl
      · rfl
    have h₂ : m₂.memories = m.memories := by
      unfold m₂
      split <;> simp [hr, m₁]
    simp [h₂]
  · rfl
theorem memories_copyUnits {m m' : Mach} {us l} (h : m.copyUnits us = some (l, m')) : m'.memories = m.memories := by
  refine memories_foldl_option (fun _ => rfl) (fun s m u s' m' h => ?_) h
  dsimp only at h
  split at h
  · cases h; rfl
  · split at h
    · next hp => cases h; simp [memories_placeSlots hp]
    · cases h
@[simp] theorem memories_copyFailed (m : Mach) (dst program) : (m.copyFailed dst program).memories = m.memories := by
  unfold Mach.copyFailed
  (repeat' split) <;> simp
@[simp] theorem memories_foldStep (m : Mach) (b) : (m.foldStep b).memories = m.memories := by
  simp only [Mach.foldStep]
  split
  · rfl
  · split
    · rfl
    · split
      · next h => simp [memories_copyUnits h]
      · simp
@[simp] theorem memories_gcStep (m : Mach) (b f) : (m.gcStep b f).memories = m.memories := by
  simp only [Mach.gcStep]
  split
  · rfl
  · split
    · next h => simp [memories_copyUnits h]
    · simp
@[simp] theorem memories_flashRead (m : Mach) (i step half nsid unit) :
    (m.flashRead i step half nsid unit).memories = m.memories := by
  unfold Mach.flashRead
  split <;> simp
@[simp] theorem memories_carrierChans (m : Mach) (n state) : (m.carrierChans n state).memories = m.memories := by
  simp [Mach.carrierChans]
@[simp] theorem memories_mountSet (m : Mach) (info set) : (m.mountSet info set).memories = m.memories := by
  unfold Mach.mountSet
  extract_lets cs id m₁ ours _
  clear_value cs ours
  split
  · rfl
  · extract_lets same good m₂ _ m₃ opened m₄ m₅ m₆ need m₇ m₈ m₉ m₁₀ m₁₁ m₁₂ m₁₃ m₁₄ m₁₅
    have h₁ : m₁.memories = m.memories := by simp only [m₁, memories_ite, memories_draw, ite_self]
    have h₃ : m₃.memories = m.memories := by
      have h₂ : m₂.memories = m.memories := h₁
      unfold m₃
      split <;> exact h₂
    have h₄ : m₄.memories = m.memories := by
      rw [← h₃]
      refine memories_foldl _ (fun m i => ?_) _ _
      split <;> simp
    simp only [m₁₅, m₁₄, m₁₃, m₁₂, m₁₁, m₁₀, m₉, m₈, m₇, m₆, m₅, memories_checkpoint, memories_foldl,
      memories_setReg, memories_setBit,
      memories_setFld, memories_carrierChans, memories_notice, implies_true, h₄]
@[simp] theorem memories_mountFlash (m : Mach) (info) : (m.mountFlash info).memories = m.memories := by
  unfold Mach.mountFlash
  dsimp only
  split <;> simp
@[simp] theorem memories_ftlMount (m : Mach) (info) : (m.ftlMount info).memories = m.memories := by
  simp only [Mach.ftlMount]
  (repeat' split) <;> simp
@[simp] theorem memories_adoptSel (m : Mach) (w sel) : (m.adoptSel w sel).memories = m.memories := by
  unfold Mach.adoptSel
  (repeat' split) <;> simp
@[simp] theorem memories_closeCarrier (m : Mach) (n) : (m.closeCarrier n).memories = m.memories := by
  simp [Mach.closeCarrier]
@[simp] theorem memories_carrierFall (m : Mach) (n) : (m.carrierFall n).memories = m.memories := by
  simp only [Mach.carrierFall]
  split
  · simp only [memories_ite, memories_notifyLast, memories_flashFault, memories_closeCarrier, memories_setBit,
      memories_carrierChans,
      memories_mk, memories_fold, ite_self]
  · rfl
@[simp] theorem memories_carrierRise (m : Mach) (info) : (m.carrierRise info).memories = m.memories := by
  have hf (f : Nat → Nat) (l : List Nat) (m : Mach) :
      (l.foldl (fun m i => m.addFld (f i) 15 0 1) m).memories = m.memories := by simp
  simp only [Mach.carrierRise, memories_ite, memories_notice, memories_setBit, memories_carrierChans, memories_mk,
    memories_fold, hf, ite_self]
@[simp] theorem memories_dieFails (m : Mach) (chan die) : (m.dieFails chan die).memories = m.memories := by
  simp [Mach.dieFails]
@[simp] theorem memories_channelRecal (v) (m : Mach) (c t p) : (m.channelRecal v c t p).memories = m.memories := by
  simp only [Mach.channelRecal, memories_ite]
  have hd (l : List Nat) (m : Mach) : (l.foldl (fun m d => m.dieFails c d) m).memories = m.memories := by simp
  simp only [memories_flashFault, hd, memories_setFld, memories_mk, memories_addFld, memories_fold, memories_setBit,
    ite_self]
@[simp] theorem memories_recalReq (m : Mach) (v w bits) : (m.recalReq v w bits).memories = m.memories := by
  simp [Mach.recalReq]
@[simp] theorem memories_writeMediaTime (m : Mach) (val) : (m.writeMediaTime val).memories = m.memories := by
  simp [Mach.writeMediaTime]
@[simp] theorem memories_writeStoredCfg (m : Mach) (w val) : (m.writeStoredCfg w val).memories = m.memories := by
  simp [Mach.writeStoredCfg]

/-! #### Machine/NvmeOps -/

@[simp] theorem memories_nvmeErr (m : Mach) (n e) : (m.nvmeErr n e).memories = m.memories := by simp [Mach.nvmeErr]
@[simp] theorem memories_createCq (m : Mach) (n qid size vector ien) :
    (m.createCq n qid size vector ien).memories = m.memories := by
  simp [Mach.createCq]
@[simp] theorem memories_createSq (m : Mach) (n qid size cqid) :
    (m.createSq n qid size cqid).memories = m.memories := by
  simp [Mach.createSq]
@[simp] theorem memories_deleteSq (m : Mach) (n qid) : (m.deleteSq n qid).memories = m.memories := by
  simp [Mach.deleteSq]
@[simp] theorem memories_deleteCq (m : Mach) (n qid) : (m.deleteCq n qid).memories = m.memories := by
  simp [Mach.deleteCq]
@[simp] theorem memories_reserve (m : Mach) (n nsid f) : (m.reserve n nsid f).memories = m.memories := by
  unfold Mach.reserve
  (repeat' split) <;> simp
@[simp] theorem memories_reserveReport (m : Mach) (n nsid) : (m.reserveReport n nsid).memories = m.memories := by
  unfold Mach.reserveReport
  split <;> simp
@[simp] theorem memories_onNs (m : Mach) (n nsid) {f : Ns → Mach} (h : ∀ x, (f x).memories = m.memories) :
    (m.onNs n nsid f).memories = m.memories := by
  unfold Mach.onNs; (repeat' split) <;> simp [h]
@[simp] theorem memories_stopWith (m : Mach) (n e) : (m.stopWith n e).memories = m.memories := by
  unfold Mach.stopWith
  split <;> simp
@[simp] theorem memories_nvmWrite (m : Mach) (n nsid slba data bad) :
    (m.nvmWrite n nsid slba data bad).memories = m.memories := by
  refine memories_onNs _ _ _ fun x => ?_
  simp only [memories_ite, memories_nvmeDone, memories_nvmeErr]
  (repeat' split) <;> simp
@[simp] theorem memories_nvmRead (m : Mach) (n nsid slba nlb bad tag) :
    (m.nvmRead n nsid slba nlb bad tag).memories = m.memories := by
  refine memories_onNs _ _ _ fun x => ?_
  simp only [memories_ite, memories_nvmeDone, memories_nvmeErr]
  (repeat' split) <;> simp
@[simp] theorem memories_dealloc (m : Mach) (x nsid off n d) : (m.dealloc x nsid off n d).memories = m.memories := by
  unfold Mach.dealloc
  dsimp only
  split <;> simp
@[simp] theorem memories_writeZeroes (m : Mach) (n nsid slba nlb) :
    (m.writeZeroes n nsid slba nlb).memories = m.memories := by
  refine memories_onNs _ _ _ fun x => ?_
  simp only [memories_ite, memories_nvmeDone, memories_nvmeErr]
  (repeat' split) <;> simp
@[simp] theorem memories_datasetMgmt (m : Mach) (n nsid d ranges) :
    (m.datasetMgmt n nsid d ranges).memories = m.memories := by
  refine memories_onNs _ _ _ fun x => ?_
  simp only [memories_ite, memories_nvmeDone, memories_nvmeErr]
  (repeat' split) <;> simp
@[simp] theorem memories_nvmFlush (m : Mach) (n nsid) : (m.nvmFlush n nsid).memories = m.memories := by
  simp [Mach.nvmFlush]
@[simp] theorem memories_nsCreate (m : Mach) (n nsze lbaf iu kind key rsvd) :
    (m.nsCreate n nsze lbaf iu kind key rsvd).memories = m.memories := by
  unfold Mach.nsCreate
  (repeat' split) <;> simp
@[simp] theorem memories_nsDelete (m : Mach) (n nsid) : (m.nsDelete n nsid).memories = m.memories := by
  unfold Mach.nsDelete
  (repeat' split) <;> simp
@[simp] theorem memories_nsAttach (m : Mach) (n nsid ports attach) :
    (m.nsAttach n nsid ports attach).memories = m.memories := by
  unfold Mach.nsAttach
  split <;> simp
@[simp] theorem memories_setFeature (m : Mach) (n f val hostId) :
    (m.setFeature n f val hostId).memories = m.memories := by
  simp [Mach.setFeature]
@[simp] theorem memories_getFeature (m : Mach) (n f) : (m.getFeature n f).memories = m.memories := by
  simp [Mach.getFeature]
@[simp] theorem memories_aer (m : Mach) (n) : (m.aer n).memories = m.memories := by simp [Mach.aer]
@[simp] theorem memories_abortCmd (m : Mach) (n qid cid) : (m.abortCmd n qid cid).memories = m.memories := by
  simp [Mach.abortCmd]
@[simp] theorem memories_identify (m : Mach) (n cns nsid) : (Mach.identify m n cns nsid).memories = m.memories := by
  unfold Mach.identify
  dsimp only
  (repeat' split) <;> simp only [memories_nvmeDone, memories_nvmeErr]
@[simp] theorem memories_getLog (m : Mach) (n lid off len) : (m.getLog n lid off len).memories = m.memories := by
  unfold Mach.getLog
  split <;> simp
@[simp] theorem memories_miSend (m : Mach) (p r) : (m.miSend p r).memories = m.memories := by
  unfold Mach.miSend
  split <;> simp
@[simp] theorem memories_miServe (m : Mach) (p) {f : Mach → Mach} (h : (f m).memories = m.memories) :
    (m.miServe p f).memories = m.memories := by
  unfold Mach.miServe; split <;> simp [h]
@[simp] theorem memories_miRun (m : Mach) (p op arg) : (m.miRun p op arg).memories = m.memories := by
  simp [Mach.miRun]
@[simp] theorem memories_miConfigSet (m : Mach) (p arg val) : (m.miConfigSet p arg val).memories = m.memories := by
  simp [Mach.miConfigSet]
@[simp] theorem memories_nvmeMiReply (m : Mach) (op) : (m.nvmeMiReply op).memories = m.memories := by
  simp [Mach.nvmeMiReply]
@[simp] theorem memories_eraseNs (m : Mach) (p) : (m.eraseNs p).memories = m.memories := by simp [Mach.eraseNs]
@[simp] theorem memories_sanitizeStart (m : Mach) (n k) : (m.sanitizeStart n k).memories = m.memories := by
  unfold Mach.sanitizeStart
  (repeat' split) <;> simp
@[simp] theorem memories_formatStart (m : Mach) (n nsid ses lbaf) :
    (m.formatStart n nsid ses lbaf).memories = m.memories := by
  simp [Mach.formatStart]
@[simp] theorem memories_exitFailure (m : Mach) (n) : (m.exitFailure n).memories = m.memories := by
  simp [Mach.exitFailure]
@[simp] theorem memories_sanitizeEnd (m : Mach) (ok) : (m.sanitizeEnd ok).memories = m.memories := by
  unfold Mach.sanitizeEnd
  split <;> simp
@[simp] theorem memories_formatEnd (m : Mach) : (m.formatEnd).memories = m.memories := by
  unfold Mach.formatEnd
  (repeat' split) <;> simp
@[simp] theorem memories_raiseSvn (m : Mach) (n tr val) : (m.raiseSvn n tr val).memories = m.memories := by
  simp [Mach.raiseSvn]

/-! #### Machine/PipeOps -/

@[simp] theorem memories_setPipe (m : Mach) (p q x) : (m.setPipe p q x).memories = m.memories := by
  simp [Mach.setPipe]
@[simp] theorem memories_createPipe (m : Mach) (n q sqLog cqLog vector ien sqBase cqBase) :
    (m.createPipe n q sqLog cqLog vector ien sqBase cqBase).memories = m.memories := by
  simp [Mach.createPipe]
@[simp] theorem memories_deletePipe (m : Mach) (n q) : (m.deletePipe n q).memories = m.memories := by
  unfold Mach.deletePipe
  dsimp only
  split <;> simp
@[simp] theorem memories_dbError (m : Mach) (by_ p q off val reason) :
    (m.dbError by_ p q off val reason).memories = m.memories := by
  simp [Mach.dbError]
@[simp] theorem memories_sqTail (m : Mach) (by_ p q tail) : (m.sqTail by_ p q tail).memories = m.memories := by
  unfold Mach.sqTail
  (repeat' split) <;> simp
@[simp] theorem memories_pipeWrite (m : Mach) (p q x c) : (m.pipeWrite p q x c).memories = m.memories := by
  simp [Mach.pipeWrite]
@[simp] theorem memories_pipePost (m : Mach) (p q c) : (m.pipePost p q c).memories = m.memories := by
  unfold Mach.pipePost
  split <;> simp
@[simp] theorem memories_pipeServe (n) (m : Mach) (p q) : (Mach.pipeServe n m p q).memories = m.memories := by
  induction n generalizing m with
  | zero => rfl
  | succ n ih => rw [Mach.pipeServe]; (repeat' split) <;> simp [ih]
@[simp] theorem memories_cqHead (m : Mach) (b p q head) : (m.cqHead b p q head).memories = m.memories := by
  unfold Mach.cqHead; (repeat' split) <;> simp
/-- What the taken command leaves of the memories, and no command too, the taking leaves. -/
theorem pipeTake_memories {Q : Memories → Prop} {m : Mach} {c} {f : Nat → Mach → Mach}
    (hf : ∀ k n, n.memories = m.memories → Q (f k n).memories) (h : Q m.memories) : Q (m.pipeTake c f).memories := by
  simp only [Mach.pipeTake]
  split
  · split
    · exact hf _ _ (memories_setPipe _ _ _ _)
    · exact h
  · exact h
@[simp] theorem memories_pipeTake (m : Mach) (c) {f : Nat → Mach → Mach} (h : ∀ n m, (f n m).memories = m.memories) :
    (m.pipeTake c f).memories = m.memories :=
  pipeTake_memories (Q := (· = m.memories)) (fun k n hn => (h k n).trans hn) rfl
@[simp] theorem memories_pipeDone (m : Mach) (p q cid serial result status) :
    (m.pipeDone p q cid serial result status).memories = m.memories := by
  unfold Mach.pipeDone
  split <;> simp
@[simp] theorem memories_pipeEnd (m : Mach) (p q cid serial result status) :
    (m.pipeEnd p q cid serial result status).memories = m.memories := by
  unfold Mach.pipeEnd
  split <;> simp
@[simp] theorem memories_pipeNow (m : Mach) (c) {f : Mach → Nat × Nat × Mach}
    (h : ∀ m, (f m).2.2.memories = m.memories) :
    (m.pipeNow c f).memories = m.memories := by
  refine memories_pipeTake _ _ fun n m => ?_
  rw [memories_pipeDone, h]
@[simp] theorem memories_moveOwner (m : Mach) (to_ how) : (m.moveOwner to_ how).memories = m.memories := by
  simp [Mach.moveOwner]
@[simp] theorem memories_handover (m : Mach) (p claimToo) : (m.handover p claimToo).memories = m.memories := by
  simp [Mach.handover]
@[simp] theorem memories_claim (m : Mach) (p) : (m.claim p).memories = m.memories := by simp [Mach.claim]

/-! #### Machine/JobOps -/

theorem memories_carveAreas {j l as} {m m' : Mach} (h : m.carveAreas j l = some (as, m')) :
    m'.memories = m.memories := by
  induction l generalizing m m' as with
  | nil => cases h; rfl
  | cons n r ih =>
    rw [Mach.carveAreas] at h
    split at h
    · next b m₁ h₁ =>
      split at h <;> cases h
      next h₂ => rw [ih h₂, memories_carveArea h₁]
    · cases h
@[simp] theorem memories_putDigest (m : Mach) (reg d) : (m.putDigest reg d).memories = m.memories := by
  simp [Mach.putDigest]
@[simp] theorem memories_startRunning (m : Mach) (j x launch late) :
    (m.startRunning j x launch late).memories = m.memories := by
  simp [Mach.startRunning]
@[simp] theorem memories_fixLaunch (m : Mach) (j launch) : (m.fixLaunch j launch).memories = m.memories := by
  unfold Mach.fixLaunch
  split <;> simp
@[simp] theorem memories_tablesLoaded (m : Mach) (j) : (m.tablesLoaded j).memories = m.memories := by
  unfold Mach.tablesLoaded
  split <;> simp
@[simp] theorem memories_bindChans (m : Mach) (j chans cs) : (m.bindChans j chans cs).memories = m.memories := by
  simp [Mach.bindChans]
@[simp] theorem memories_openCache (m : Mach) (j base c) : (m.openCache j base c).memories = m.memories := by
  unfold Mach.openCache
  dsimp only
  split <;> simp
@[simp] theorem memories_countPolicy (m : Mach) (st) : (m.countPolicy st).memories = m.memories := by
  simp [Mach.countPolicy]
@[simp] theorem memories_launchJob (m : Mach) (j) : (m.launchJob j).memories = m.memories := by
  unfold Mach.launchJob
  (repeat' split) <;> simp
@[simp] theorem memories_reportJob (m : Mach) (x digest) : (m.reportJob x digest).memories = m.memories := by
  unfold Mach.reportJob
  split <;> simp
@[simp] theorem memories_runLane (n) (m : Mach) (j i k) : (Mach.runLane n m j i k).memories = m.memories := by
  induction n generalizing m with
  | zero => rfl
  | succ n ih => 
    unfold Mach.runLane; dsimp only
    (repeat' split) <;> simp [ih]
@[simp] theorem memories_sampleKnown (m : Mach) (j e p r) : (m.sampleKnown j e p r).memories = m.memories := by
  unfold Mach.sampleKnown
  split
  · split
    · dsimp only
      split
      · simp
      · split
        · rfl
        · split <;> simp
    · rfl
  · rfl
theorem memories_takeBufs {m m' : Mach} {o n l} (h : m.takeBufs o n = some (l, m')) : m'.memories = m.memories := by
  simp only [Mach.takeBufs] at h
  split at h
  · cases h
  · split at h <;> cases h
    simp
@[simp] theorem memories_countKernel (m : Mach) (st r) : (m.countKernel st r).memories = m.memories := by
  simp [Mach.countKernel]
@[simp] theorem memories_collectSample (m : Mach) (v j e r) : (m.collectSample v j e r).memories = m.memories := by
  unfold Mach.collectSample
  (repeat' split) <;> simp
@[simp] theorem memories_setChan (m : Mach) (k c) : (m.setChan k c).memories = m.memories := by simp [Mach.setChan]
@[simp] theorem memories_batchStart (m : Mach) (k) : (m.batchStart k).memories = m.memories := by
  unfold Mach.batchStart
  (repeat' split) <;> simp
@[simp] theorem memories_deliver (m : Mach) (chan c n bytes) : (m.deliver chan c n bytes).memories = m.memories := by
  simp [Mach.deliver]
@[simp] theorem memories_digStat (m : Mach) (j valid nonrepro n) :
    (m.digStat j valid nonrepro n).memories = m.memories := by
  simp [Mach.digStat]
@[simp] theorem memories_jobDone (m : Mach) (j) : (m.jobDone j).memories = m.memories := by
  unfold Mach.jobDone
  split <;> simp
@[simp] theorem memories_jobProgress (m : Mach) (j) : (m.jobProgress j).memories = m.memories := by
  unfold Mach.jobProgress
  (repeat' split) <;> simp
@[simp] theorem memories_recordEmit (m : Mach) (j e p) : (m.recordEmit j e p).memories = m.memories := by
  unfold Mach.recordEmit
  split
  · split
    · dsimp only
      split
      · simp only [memories_ite, memories_jobProgress, memories_deliver, memories_setJob, memories_addFld,
          memories_putDigest,
          memories_jobFail, memories_countPolicy, ite_self]
      · rfl
    · rfl
  · rfl
@[simp] theorem memories_writeAugReady (m : Mach) (w j val) : (m.writeAugReady w j val).memories = m.memories := by
  unfold Mach.writeAugReady
  (repeat' split) <;> simp
@[simp] theorem memories_dropWaits (m : Mach) (owner) : (m.dropWaits owner).memories = m.memories := by
  simp [Mach.dropWaits]
@[simp] theorem memories_closeCache (m : Mach) (j) : (m.closeCache j).memories = m.memories := by
  simp only [Mach.closeCache]
  (repeat' split) <;> simp

/-! #### Machine/KeyOps -/

@[simp] theorem memories_storeChanged (m : Mach) : (m.storeChanged).memories = m.memories := by
  simp [Mach.storeChanged]
@[simp] theorem memories_addKey (m : Mach) (n policy flags signer material) :
    (m.addKey n policy flags signer material).memories = m.memories := by
  simp only [Mach.addKey]
  (repeat' split) <;> simp
@[simp] theorem memories_keyCreate (m : Mach) (n policy flags signer) :
    (m.keyCreate n policy flags signer).memories = m.memories := by
  simp [Mach.keyCreate]
@[simp] theorem memories_keyImport (m : Mach) (n policy flags signer kem iv ct tag) :
    (m.keyImport n policy flags signer kem iv ct tag).memories = m.memories := by
  simp only [Mach.keyImport]
  (repeat' split) <;> simp
@[simp] theorem memories_withKey (m : Mach) (n k) {f : KeyRec → Mach} (h : ∀ x, (f x).memories = m.memories) :
    (m.withKey n k f).memories = m.memories := by
  unfold Mach.withKey; split <;> simp [h]
@[simp] theorem memories_keyNarrow (m : Mach) (n h policy) : (m.keyNarrow n h policy).memories = m.memories := by
  simp [Mach.keyNarrow]
@[simp] theorem memories_keyDestroy (m : Mach) (n h) : (m.keyDestroy n h).memories = m.memories := by
  simp [Mach.keyDestroy]
@[simp] theorem memories_keyList (m : Mach) (n) : (m.keyList n).memories = m.memories := by simp [Mach.keyList]
@[simp] theorem memories_keyRequest (m : Mach) (source) : (m.keyRequest source).memories = m.memories := by
  simp [Mach.keyRequest]
@[simp] theorem memories_migNonce (m : Mach) (v dst nonce) : (m.migNonce v dst nonce).memories = m.memories := by
  unfold Mach.migNonce
  split <;> simp
@[simp] theorem memories_migAttest (m : Mach) (cert report node esc) :
    (m.migAttest cert report node esc).memories = m.memories := by
  unfold Mach.migAttest
  split <;> simp
@[simp] theorem memories_migPackage (m : Mach) (p) : (m.migPackage p).memories = m.memories := by
  simp only [Mach.migPackage]
  (repeat' split) <;> simp
@[simp] theorem memories_migReceipt (m : Mach) (receipt) : (m.migReceipt receipt).memories = m.memories := by
  simp [Mach.migReceipt]

/-! #### Machine/SpinOps -/

@[simp] theorem memories_updSpn (m : Mach) (f) : (m.updSpn f).memories = m.memories := by simp [Mach.updSpn]
@[simp] theorem memories_stepCount (m : Mach) (by_) : (m.stepCount by_).memories = m.memories := by
  simp [Mach.stepCount]
@[simp] theorem memories_setSlew (m : Mach) (d) : (m.setSlew d).memories = m.memories := by simp [Mach.setSlew]
@[simp] theorem memories_setSync (m : Mach) (st) : (m.setSync st).memories = m.memories := by simp [Mach.setSync]
@[simp] theorem memories_setErr (m : Mach) (e) : (m.setErr e).memories = m.memories := by simp [Mach.setErr]
@[simp] theorem memories_restartWindows (m : Mach) : (m.restartWindows).memories = m.memories := by
  simp [Mach.restartWindows]
@[simp] theorem memories_windowAccepted (m : Mach) (th dl est) :
    (m.windowAccepted th dl est).memories = m.memories := by
  simp [Mach.windowAccepted]
@[simp] theorem memories_exchange (m : Mach) (a b c d e) : (m.exchange a b c d e).memories = m.memories := by
  simp only [Mach.exchange, memories_ite]; (repeat' split) <;> simp
@[simp] theorem memories_tell (m : Mach) (node c) : (m.tell node c).memories = m.memories := by simp [Mach.tell]
@[simp] theorem memories_setMember (m : Mach) (node x) : (m.setMember node x).memories = m.memories := by
  simp [Mach.setMember]
@[simp] theorem memories_onMember (m : Mach) (node f) : (m.onMember node f).memories = m.memories := by
  unfold Mach.onMember
  split <;> simp
@[simp] theorem memories_joinRefused (m : Mach) (node st) : (m.joinRefused node st).memories = m.memories := by
  simp [Mach.joinRefused]
@[simp] theorem memories_greet (m : Mach) : (m.greet).memories = m.memories := by simp [Mach.greet]
@[simp] theorem memories_newManager (m : Mach) (node) : (m.newManager node).memories = m.memories := by
  simp [Mach.newManager]
@[simp] theorem memories_gotHello (m : Mach) (node) : (m.gotHello node).memories = m.memories := by
  simp [Mach.gotHello]
@[simp] theorem memories_gotNonce (m : Mach) (v node n) : (m.gotNonce v node n).memories = m.memories := by
  simp [Mach.gotNonce]
@[simp] theorem memories_gotJoin (m : Mach) (node cert report caps fdoms hasJob t1 t2 t3 t4) :
    (m.gotJoin node cert report caps fdoms hasJob t1 t2 t3 t4).memories = m.memories := by
  unfold Mach.gotJoin
  split <;> simp
@[simp] theorem memories_gotWelcome (m : Mach) (node tol) : (m.gotWelcome node tol).memories = m.memories := by
  simp [Mach.gotWelcome]
@[simp] theorem memories_gotRefuse (m : Mach) (node st) : (m.gotRefuse node st).memories = m.memories := by
  simp [Mach.gotRefuse]
@[simp] theorem memories_sendSync (m : Mach) (node t1) : (m.sendSync node t1).memories = m.memories := by
  unfold Mach.sendSync
  split <;> simp
@[simp] theorem memories_gotSync (m : Mach) (node t1 t2 t3 t4 est) :
    (m.gotSync node t1 t2 t3 t4 est).memories = m.memories := by
  simp only [Mach.gotSync]
  (repeat' split) <;> simp
@[simp] theorem memories_gotSyncReply (m : Mach) (node t2 t3 t4) :
    (m.gotSyncReply node t2 t3 t4).memories = m.memories := by
  unfold Mach.gotSyncReply
  (repeat' split) <;> simp
@[simp] theorem memories_toHoldover (m : Mach) : (m.toHoldover).memories = m.memories := by simp [Mach.toHoldover]
@[simp] theorem memories_toUnsync (m : Mach) : (m.toUnsync).memories = m.memories := by simp [Mach.toUnsync]
@[simp] theorem memories_tickSpindle (m : Mach) : (m.tickSpindle).memories = m.memories := by simp [Mach.tickSpindle]
@[simp] theorem memories_spnSet (m : Mach) (w val) : (m.spnSet w val).memories = m.memories := by simp [Mach.spnSet]
@[simp] theorem memories_setStart (m : Mach) (r) : (m.setStart r).memories = m.memories := by simp [Mach.setStart]
@[simp] theorem memories_cancelStart (m : Mach) (r a) : (m.cancelStart r a).memories = m.memories := by
  simp only [Mach.cancelStart, memories_pipeDone, memories_setStart]
  split
  · rw [memories_jobEnd, memories_foldl]
    exact fun m x => by split <;> simp
  · exact memories_foldl _ (fun m x => by split <;> simp) _ _
@[simp] theorem memories_tryGo (m : Mach) (r) : (m.tryGo r).memories = m.memories := by
  simp only [Mach.tryGo]
  split
  · rw [memories_pipeDone]
    split
    · rw [memories_fixLaunch, memories_setStart, memories_foldl]
      exact fun m x => by split <;> simp
    · rw [memories_setStart, memories_foldl]
      exact fun m x => by split <;> simp
  · rfl
@[simp] theorem memories_ownReady (m : Mach) (j) : (m.ownReady j).memories = m.memories := by
  unfold Mach.ownReady
  (repeat' split) <;> simp
@[simp] theorem memories_sayReady (m : Mach) (j) : (m.sayReady j).memories = m.memories := by
  unfold Mach.sayReady
  (repeat' split) <;> simp
@[simp] theorem memories_gotPrepare (v) (m : Mach) (node planSeq nonce digest len k modules l children homes) :
    (m.gotPrepare v node planSeq nonce digest len k modules l children homes).memories = m.memories := by
  simp only [Mach.gotPrepare]
  split
  · split
    · next h => simp [memories_carveArea h]
    · simp
  · rfl
@[simp] theorem memories_dropArea (m : Mach) (a) : (m.dropArea a).memories = m.memories := by simp [Mach.dropArea]
@[simp] theorem memories_gotGo (m : Mach) (node planSeq launch) :
    (m.gotGo node planSeq launch).memories = m.memories := by
  unfold Mach.gotGo
  split <;> simp
@[simp] theorem memories_gotCancel (m : Mach) (a b) : (m.gotCancel a b).memories = m.memories := by
  simp only [Mach.gotCancel]
  split
  · rfl
  · split <;> split <;> simp
@[simp] theorem memories_moduleLost (m : Mach) (j k) : (m.moduleLost j k).memories = m.memories := by
  unfold Mach.moduleLost
  split <;> simp
@[simp] theorem memories_gotLost (m : Mach) (node planSeq k) : (m.gotLost node planSeq k).memories = m.memories := by
  unfold Mach.gotLost
  split <;> simp
@[simp] theorem memories_gotReady (m : Mach) (node planSeq count) :
    (m.gotReady node planSeq count).memories = m.memories := by
  unfold Mach.gotReady
  split <;> simp
@[simp] theorem memories_gotRefusePlan (m : Mach) (node planSeq st) :
    (m.gotRefusePlan node planSeq st).memories = m.memories := by
  unfold Mach.gotRefusePlan
  split <;> simp
@[simp] theorem memories_prepareTimeout (m : Mach) (planSeq) : (m.prepareTimeout planSeq).memories = m.memories := by
  unfold Mach.prepareTimeout
  split <;> simp
@[simp] theorem memories_formDigest (m : Mach) (r) : (m.formDigest r).memories = m.memories := by
  simp [Mach.formDigest]
@[simp] theorem memories_gotReport (m : Mach) (node planSeq stats digest) :
    (m.gotReport node planSeq stats digest).memories = m.memories := by
  unfold Mach.gotReport
  split <;> simp
@[simp] theorem memories_ownDigest (m : Mach) (j) : (m.ownDigest j).memories = m.memories := by
  unfold Mach.ownDigest
  (repeat' split) <;> simp
@[simp] theorem memories_workerLost (m : Mach) (a) : (m.workerLost a).memories = m.memories := by
  unfold Mach.workerLost
  dsimp only
  rw [memories_foldl, memories_onMember]
  intro m r
  split
  · rfl
  · refine memories_foldl _ (fun m p => ?_) _ _
    split
    · split
      · rw [memories_moduleLost, memories_foldl, memories_setStart]
        exact fun m y => by (repeat' split) <;> simp
      · rw [memories_foldl, memories_setStart]
        exact fun m y => by (repeat' split) <;> simp
    · rfl
@[simp] theorem memories_gotLeave (m : Mach) (node) : (m.gotLeave node).memories = m.memories := by
  simp [Mach.gotLeave]
@[simp] theorem memories_workerSilent (m : Mach) (node) : (m.workerSilent node).memories = m.memories := by
  unfold Mach.workerSilent
  split <;> simp
@[simp] theorem memories_rejoin (m : Mach) : (m.rejoin).memories = m.memories := by simp [Mach.rejoin]
@[simp] theorem memories_settleDigests (m : Mach) : (m.settleDigests).memories = m.memories := by
  simp [Mach.settleDigests]
@[simp] theorem memories_sendPrepare (m : Mach) (node planSeq digest len k modules l children homes) :
    (m.sendPrepare node planSeq digest len k modules l children homes).memories = m.memories := by
  simp [Mach.sendPrepare]
@[simp] theorem memories_jobCancel (m : Mach) (c slot) : (m.jobCancel c slot).memories = m.memories := by
  simp [Mach.jobCancel]

/-! #### Machine/DcOps -/

@[simp] theorem memories_setDc (m : Mach) (d) : (m.setDc d).memories = m.memories := by simp [Mach.setDc]
@[simp] theorem memories_dcBad (m : Mach) (j key crcFailed) : (m.dcBad j key crcFailed).memories = m.memories := by
  simp [Mach.dcBad]
@[simp] theorem memories_dcLocal (m : Mach) (j key a b f) : (m.dcLocal j key a b f).2.memories = m.memories := by
  unfold Mach.dcLocal; (repeat' split) <;> simp
@[simp] theorem memories_dcRemote (m : Mach) (j key a b r) : (m.dcRemote j key a b r).2.memories = m.memories := by
  unfold Mach.dcRemote; (repeat' split) <;> simp
@[simp] theorem memories_dcWalk (m : Mach) (j own key a b f l) :
    (m.dcWalk j own key a b f l).2.memories = m.memories := by
  induction l generalizing m with
  | nil => rfl
  | cons p l ih =>
    have hx : ∀ c : Prop, ∀ _ : Decidable c,
      (if c then m.dcLocal j key a b f else m.dcRemote j key a b p.2).2.memories = m.memories := by
      intro c _; split <;> simp
    rw [Mach.dcWalk]; split <;> simp [ih, hx]
@[simp] theorem memories_dcOffer (v) (m : Mach) (j epoch p payload index bad) :
    (m.dcOffer v j epoch p payload index bad).memories = m.memories := by
  simp only [Mach.dcOffer]
  (repeat' split) <;> simp
@[simp] theorem memories_dcInsert (v) (m : Mach) (p) : (m.dcInsert v p).memories = m.memories := by
  simp only [Mach.dcInsert]
  (repeat' split) <;> simp
@[simp] theorem memories_segmentReuse (m : Mach) : (m.segmentReuse).memories = m.memories := by
  simp [Mach.segmentReuse]

/-! #### Machine/RecorderCmds -/

@[simp] theorem memories_selectRecord (m : Mach) (w p seq) : (m.selectRecord w p seq).memories = m.memories := by
  simp [Mach.selectRecord]

/-! #### Machine/CodecOps -/

@[simp] theorem memories_codecStart (v) (m : Mach) (p addr) : (m.codecStart v p addr).memories = m.memories := by
  refine memories_pipeTake _ _ fun n m => ?_
  (repeat' split) <;> simp
@[simp] theorem memories_makeFrame (m : Mach) (c b) : (m.makeFrame c b).2.2.memories = m.memories := by
  unfold Mach.makeFrame; (repeat' split) <;> simp
@[simp] theorem memories_codecItem (v) (m : Mach) (c i) : (m.codecItem v c i).2.2.memories = m.memories := by
  simp only [Mach.codecItem]; (repeat' split) <;> simp
@[simp] theorem memories_codecAll (v) (m : Mach) (c l) : (m.codecAll v c l).2.memories = m.memories := by
  induction l generalizing m with
  | nil => rfl
  | cons i l ih => simp [Mach.codecAll, ih]
@[simp] theorem memories_codecEnd (m : Mach) (j x c final st) :
    (m.codecEnd j x c final st).memories = m.memories := by
  unfold Mach.codecEnd
  split <;> simp

/-! #### Machine/XptOps -/

@[simp] theorem memories_setFab (m : Mach) (p x) : (m.setFab p x).memories = m.memories := by simp [Mach.setFab]
@[simp] theorem memories_setPeer (m : Mach) (node x) : (m.setPeer node x).memories = m.memories := by
  simp [Mach.setPeer]
@[simp] theorem memories_onPath (m : Mach) (node path f) : (m.onPath node path f).memories = m.memories := by
  unfold Mach.onPath
  (repeat' split) <;> simp
@[simp] theorem memories_pathTimeout (m : Mach) (node path) : (m.pathTimeout node path).memories = m.memories := by
  simp [Mach.pathTimeout]
@[simp] theorem memories_pathProbe (m : Mach) (node path acked) :
    (m.pathProbe node path acked).memories = m.memories := by
  simp [Mach.pathProbe]
@[simp] theorem memories_portPathsBad (m : Mach) (port) : (m.portPathsBad port).memories = m.memories := by
  simp [Mach.portPathsBad]
@[simp] theorem memories_qPut (m : Mach) (ref off n val) : (m.qPut ref off n val).memories = m.memories := by
  simp [Mach.qPut]
@[simp] theorem memories_qAdd (m : Mach) (ref off k) : (m.qAdd ref off k).memories = m.memories := by simp [Mach.qAdd]
@[simp] theorem memories_qSat (m : Mach) (ref off) : (m.qSat ref off).memories = m.memories := by simp [Mach.qSat]
@[simp] theorem memories_setXq (m : Mach) (ref x) : (m.setXq ref x).memories = m.memories := by simp [Mach.setXq]
@[simp] theorem memories_keyResult (m : Mach) (id gen st) : (m.keyResult id gen st).memories = m.memories := by
  simp [Mach.keyResult]
@[simp] theorem memories_addXkey (m : Mach) (c o) : (m.addXkey c o).2.memories = m.memories := rfl
@[simp] theorem memories_xkeyCreate (v) (m : Mach) (w c) : (m.xkeyCreate v w c).memories = m.memories := by
  simp [Mach.xkeyCreate]
@[simp] theorem memories_dropXkey (m : Mach) (id) : (m.dropXkey id).memories = m.memories := by
  unfold Mach.dropXkey
  split <;> simp
@[simp] theorem memories_xkeyInvalidate (m : Mach) (w id) : (m.xkeyInvalidate w id).memories = m.memories := by
  unfold Mach.xkeyInvalidate
  split <;> simp
@[simp] theorem memories_markRx (m : Mach) (ref d) : (m.markRx ref d).memories = m.memories := by simp [Mach.markRx]
theorem memories_nextPath {m m' : Mach} {n l p} (h : m.nextPath n l = some (p, m')) : m'.memories = m.memories := by
  simp only [Mach.nextPath] at h
  split at h
  · cases h
  · split at h <;> cases h
    simp
@[simp] theorem memories_emitPkt (m : Mach) (ref path typ flags psn msgSeq key addr msgLen off payload) :
    (m.emitPkt ref path typ flags psn msgSeq key addr msgLen off payload).memories = m.memories := by
  simp [Mach.emitPkt]
@[simp] theorem memories_sendAck (m : Mach) (r) : (m.sendAck r).memories = m.memories := by
  simp only [Mach.sendAck]
  split
  · next h => simp [memories_nextPath h]
  · simp
@[simp] theorem memories_sendNak (m : Mach) (r s t) : (m.sendNak r s t).memories = m.memories := by
  simp only [Mach.sendNak]
  split
  · next h => simp [memories_nextPath h]
  · simp
@[simp] theorem memories_countAccepted (m : Mach) (ref) : (m.countAccepted ref).memories = m.memories := by
  simp [Mach.countAccepted]
@[simp] theorem memories_ackTimer (m : Mach) (ref) : (m.ackTimer ref).memories = m.memories := by simp [Mach.ackTimer]
@[simp] theorem memories_countDone (n) (m : Mach) (r) : (Mach.countDone n m r).memories = m.memories := by
  induction n generalizing m with
  | zero => rfl
  | succ n ih => rw [Mach.countDone]; split <;> simp [ih]
@[simp] theorem memories_pump (n) (m : Mach) (r) : (Mach.pump n m r).memories = m.memories := by
  induction n generalizing m with
  | zero => rfl
  | succ n ih =>
    simp only [Mach.pump]
    split
    · rfl
    · split
      · rfl
      · split
        · rfl
        · next h => simp [ih, memories_nextPath h]
@[simp] theorem memories_sendMsg (m : Mach) (ref typ flags msgSeq key addr msgLen parts) :
    (m.sendMsg ref typ flags msgSeq key addr msgLen parts).memories = m.memories := by
  simp [Mach.sendMsg]
theorem memories_receive {m m' : Mach} {t p o} (h : m.receive t p = (o, m')) : m'.memories = m.memories := by
  have hr : (m.receive t p).2.memories = m.memories := by
    simp only [Mach.receive]
    (repeat' split) <;> simp
  rwa [h] at hr
/-- The PSN is judged by a variable in place of `judgePsn`: unfolded, the kernel would run its sums with 2^32 in
unary. -/
theorem memories_sequenced {m m' : Mach} {r t p o} (h : m.sequenced r t p = (o, m')) : m'.memories = m.memories := by
  obtain ⟨f, hf⟩ : ∃ f, f = Mach.sequenced := ⟨_, rfl⟩
  obtain ⟨judge, hj⟩ : ∃ j, j = judgePsn := ⟨_, rfl⟩
  rw [← hf] at h
  unfold Mach.sequenced at hf
  rw [← hj] at hf
  subst hf
  dsimp only at h
  (repeat' split at h) <;> cases h <;> simp
/-- What a served packet leaves of the memories, and a refused one too, the reception leaves. -/
theorem withPacket_memories {Q : Memories → Prop} {m : Mach} {t p} {f : Mach → Nat → Nat → List Byte → Mach}
    (hf : ∀ n r d b, n.memories = m.memories → Q (f n r d b).memories) (h : Q m.memories) :
    Q (m.withPacket t p f).memories := by
  have hs (m m' : Mach) (r o) : m.sequenced r t p = (o, m') → m'.memories = m.memories := memories_sequenced
  unfold Mach.withPacket
  obtain ⟨sequenced, e⟩ : ∃ g, g = Mach.sequenced := ⟨_, rfl⟩
  rw [← e] at hs ⊢
  split
  · next h₁ =>
    split
    · next h₂ => exact hf _ _ _ _ ((hs _ _ _ _ h₂).trans (memories_receive h₁))
    · next h₂ => rwa [hs _ _ _ _ h₂, memories_receive h₁]
  · next h₁ => rwa [memories_receive h₁]
@[simp] theorem memories_withPacket (m : Mach) (t p) {f : Mach → Nat → Nat → List Byte → Mach}
    (h : ∀ m r d b, (f m r d b).memories = m.memories) : (m.withPacket t p f).memories = m.memories :=
  withPacket_memories (Q := (· = m.memories)) (fun n r d b hn => (h n r d b).trans hn) rfl
@[simp] theorem memories_refusePkt (m : Mach) (ref d msgSeq st) :
    (m.refusePkt ref d msgSeq st).memories = m.memories := by
  simp [Mach.refusePkt]
@[simp] theorem memories_rxCount (m : Mach) (r p b) : (m.rxCount r p b).2.memories = m.memories := by
  simp only [Mach.rxCount]; (repeat' split) <;> simp
@[simp] theorem memories_gotReadReq (v) (m : Mach) (p bad) : (m.gotReadReq v p bad).memories = m.memories := by
  refine memories_withPacket _ _ _ fun m r d b => ?_
  simp only [memories_ite, memories_refusePkt, memories_sendMsg]
  (repeat' split) <;> simp
@[simp] theorem memories_xptReject (m : Mach) (w off val reason) :
    (m.xptReject w off val reason).memories = m.memories := by
  simp [Mach.xptReject]
@[simp] theorem memories_xptDoorbell (m : Mach) (w ref tail) : (m.xptDoorbell w ref tail).memories = m.memories := by
  unfold Mach.xptDoorbell
  split <;> simp
@[simp] theorem memories_xptDelete (m : Mach) (w ref) : (m.xptDelete w ref).memories = m.memories := by
  unfold Mach.xptDelete
  split <;> simp
@[simp] theorem memories_cqConsumed (m : Mach) (w ref count) : (m.cqConsumed w ref count).memories = m.memories := by
  unfold Mach.cqConsumed
  split <;> simp
@[simp] theorem memories_qConnect (m : Mach) (c ref peer) : (m.qConnect c ref peer).memories = m.memories := by
  refine memories_pipeNow _ _ fun m => ?_
  split <;> simp
@[simp] theorem memories_nodePath (v) (m : Mach) (c a) : (m.nodePath v c a).memories = m.memories := by
  refine memories_pipeNow _ _ fun m => ?_
  simp only [apply_ite Prod.snd, memories_ite, memories_mk, memories_fold, memories_setPeer, ite_self]
@[simp] theorem memories_gotTime (m : Mach) (node t2 t3) : (m.gotTime node t2 t3).memories = m.memories := by
  simp [Mach.gotTime]

/-! #### Machine/SessOps -/

@[simp] theorem memories_setSess (m : Mach) (j s) : (m.setSess j s).memories = m.memories := by
  unfold Mach.setSess
  split <;> simp
@[simp] theorem memories_setSeq (m : Mach) (j q) : (m.setSeq j q).memories = m.memories := by
  unfold Mach.setSeq
  split <;> simp
theorem memories_takeFrom {m m' : Mach} {k o l} (h : m.takeFrom k o = some (l, m')) : m'.memories = m.memories := by
  simp only [Mach.takeFrom] at h
  split at h
  · split at h <;> cases h
    simp
  · cases h
@[simp] theorem memories_refuseOpen (m : Mach) (c st) : (m.refuseOpen c st).memories = m.memories := by
  simp [Mach.refuseOpen]
@[simp] theorem memories_endSeq (m : Mach) (j ref status flags) :
    (m.endSeq j ref status flags).memories = m.memories := by
  unfold Mach.endSeq
  (repeat' split) <;> simp
@[simp] theorem memories_seqStale (m : Mach) (j ref) : (m.seqStale j ref).memories = m.memories := by
  simp [Mach.seqStale]
@[simp] theorem memories_outputWrite (m : Mach) (j) : (m.outputWrite j).memories = m.memories := by
  unfold Mach.outputWrite
  (repeat' split) <;> simp

/-! #### Machine/FabOps -/

@[simp] theorem memories_marginLow (m : Mach) (src val) : (m.marginLow src val).memories = m.memories := by
  simp [Mach.marginLow]
@[simp] theorem memories_laneEvent (m : Mach) (p lane kind dir) :
    (m.laneEvent p lane kind dir).memories = m.memories := by
  simp [Mach.laneEvent]
@[simp] theorem memories_resetMaps (m : Mach) (p) : (m.resetMaps p).memories = m.memories := by simp [Mach.resetMaps]
@[simp] theorem memories_fabLinkUp (m : Mach) (v p app) : (m.fabLinkUp v p app).memories = m.memories := by
  simp [Mach.fabLinkUp]
@[simp] theorem memories_fabLinkDown (m : Mach) (p) : (m.fabLinkDown p).memories = m.memories := by
  simp [Mach.fabLinkDown]
@[simp] theorem memories_gotHelloAnswer (m : Mach) (p) : (m.gotHelloAnswer p).memories = m.memories := by
  simp [Mach.gotHelloAnswer]
@[simp] theorem memories_askSwap (m : Mach) (p lane) : (m.askSwap p lane).memories = m.memories := by
  simp [Mach.askSwap]
@[simp] theorem memories_fabReq (m : Mach) (p) : (m.fabReq p).memories = m.memories := by simp [Mach.fabReq]
@[simp] theorem memories_fabRevert (m : Mach) (p) : (m.fabRevert p).memories = m.memories := by simp [Mach.fabRevert]
@[simp] theorem memories_gotSpareReq (m : Mach) (p lane) : (m.gotSpareReq p lane).memories = m.memories := by
  simp [Mach.gotSpareReq]
@[simp] theorem memories_gotSpareAck (m : Mach) (p) : (m.gotSpareAck p).memories = m.memories := by
  unfold Mach.gotSpareAck
  split <;> simp
@[simp] theorem memories_gotSpareDone (m : Mach) (p) : (m.gotSpareDone p).memories = m.memories := by
  unfold Mach.gotSpareDone
  split <;> simp
@[simp] theorem memories_spareAbandon (m : Mach) (p) : (m.spareAbandon p).memories = m.memories := by
  unfold Mach.spareAbandon
  split <;> simp
@[simp] theorem memories_swapRepeat (m : Mach) (p) : (m.swapRepeat p).memories = m.memories := by
  unfold Mach.swapRepeat
  split <;> simp
@[simp] theorem memories_cmisPoll (m : Mach) (p r) : (m.cmisPoll p r).memories = m.memories := by simp [Mach.cmisPoll]
@[simp] theorem memories_oeFlags (m : Mach) (p lanes) : (m.oeFlags p lanes).memories = m.memories := by
  simp [Mach.oeFlags]
@[simp] theorem memories_oeRemoved (m : Mach) (p) : (m.oeRemoved p).memories = m.memories := by simp [Mach.oeRemoved]
@[simp] theorem memories_oeInserted (m : Mach) (p) : (m.oeInserted p).memories = m.memories := by
  simp [Mach.oeInserted]
@[simp] theorem memories_fabEnable (m : Mach) (p en) : (m.fabEnable p en).memories = m.memories := by
  simp [Mach.fabEnable]
@[simp] theorem memories_marginSweep (m : Mach) (p l) : (m.marginSweep p l).memories = m.memories := by
  simp [Mach.marginSweep]
@[simp] theorem memories_otherFrame (m : Mach) (p pause) : (m.otherFrame p pause).memories = m.memories := by
  simp [Mach.otherFrame]

/-! #### Machine/PortOps -/

@[simp] theorem memories_onPort (m : Mach) (p f) : (m.onPort p f).memories = m.memories := by simp [Mach.onPort]
@[simp] theorem memories_linkTraining (m : Mach) (p) : (m.linkTraining p).memories = m.memories := by
  simp [Mach.linkTraining]
@[simp] theorem memories_configReady (m : Mach) (p speed width flit) :
    (m.configReady p speed width flit).memories = m.memories := by
  simp [Mach.configReady]
@[simp] theorem memories_configRequest (m : Mach) (p) : (m.configRequest p).memories = m.memories := by
  simp [Mach.configRequest]
@[simp] theorem memories_linkState (m : Mach) (p st) : (m.linkState p st).memories = m.memories := by
  simp [Mach.linkState]
@[simp] theorem memories_marginCommand (m : Mach) (p) : (m.marginCommand p).memories = m.memories := by
  simp [Mach.marginCommand]
@[simp] theorem memories_gotLtr (m : Mach) (p snoop noSnoop) : (m.gotLtr p snoop noSnoop).memories = m.memories := by
  simp [Mach.gotLtr]
@[simp] theorem memories_dropCompletions (m : Mach) (p) : (m.dropCompletions p).memories = m.memories := by
  simp [Mach.dropCompletions]
@[simp] theorem memories_ctlOff (m : Mach) (p) : (m.ctlOff p).memories = m.memories := by simp [Mach.ctlOff]
@[simp] theorem memories_ctlOn (m : Mach) (p) : (m.ctlOn p).memories = m.memories := by simp [Mach.ctlOn]
@[simp] theorem memories_ctlReady (m : Mach) (p) : (m.ctlReady p).memories = m.memories := by simp [Mach.ctlReady]
@[simp] theorem memories_toD3 (m : Mach) (p) : (m.toD3 p).memories = m.memories := by simp [Mach.toD3]
@[simp] theorem memories_toD0 (m : Mach) (p) : (m.toD0 p).memories = m.memories := by simp [Mach.toD0]
@[simp] theorem memories_cancelStarts (m : Mach) (p) : (m.cancelStarts p).memories = m.memories := by
  simp [Mach.cancelStarts]
@[simp] theorem memories_portReset (m : Mach) (p) : (m.portReset p).memories = m.memories := by simp [Mach.portReset]
@[simp] theorem memories_perstAssert (m : Mach) (p) : (m.perstAssert p).memories = m.memories := by
  simp [Mach.perstAssert]
@[simp] theorem memories_hotReset (m : Mach) (p) : (m.hotReset p).memories = m.memories := by simp [Mach.hotReset]
@[simp] theorem memories_surpriseDown (m : Mach) (p) : (m.surpriseDown p).memories = m.memories := by
  simp [Mach.surpriseDown]
@[simp] theorem memories_win4Refused (m : Mach) (p a restricted) :
    (m.win4Refused p a restricted).memories = m.memories := by
  simp [Mach.win4Refused]
@[simp] theorem memories_win4Read (m : Mach) (v p a n) : (m.win4Read v p a n).memories = m.memories := by
  simp [Mach.win4Read]

/-! #### Machine/PsOps -/

@[simp] theorem memories_noteRefuser (m : Mach) (abort s r who) :
    (m.noteRefuser abort s r who).memories = m.memories := by
  simp [Mach.noteRefuser]
@[simp] theorem memories_updPs (m : Mach) (f) : (m.updPs f).memories = m.memories := by simp [Mach.updPs]
@[simp] theorem memories_resetPages (m : Mach) (f) : (m.resetPages f).memories = m.memories := by
  simp [Mach.resetPages]
@[simp] theorem memories_ps3Enter (m : Mach) : (m.ps3Enter).memories = m.memories := by simp [Mach.ps3Enter]
/-- What the entry leaves of the memories, and a refusal too, the attempt leaves. -/
theorem psEnter_memories {Q : Memories → Prop} {m : Mach} {s r ev} {f : Mach → Mach}
    (hf : ∀ n, n.memories = m.memories → Q (f n).memories) (h : Q m.memories) : Q (m.psEnter s r ev f).memories := by
  unfold Mach.psEnter
  dsimp only
  split
  · split <;> simpa using h
  · split
    · split
      · simpa using h
      · simpa using hf _ (memories_noteRefuser _ _ _ _ _)
    · exact hf _ rfl
@[simp] theorem memories_psEnter (m : Mach) (s r ev) {f : Mach → Mach} (h : ∀ m, (f m).memories = m.memories) :
    (m.psEnter s r ev f).memories = m.memories :=
  psEnter_memories (Q := (· = m.memories)) (fun n hn => (h n).trans hn) rfl
@[simp] theorem memories_tryPs3 (m : Mach) (v ev) : (m.tryPs3 v ev).memories = m.memories := by simp [Mach.tryPs3]
@[simp] theorem memories_ps2Exit (m : Mach) (r) : (m.ps2Exit r).memories = m.memories := by simp [Mach.ps2Exit]
@[simp] theorem memories_wakeTraining (m : Mach) (c rate) : (m.wakeTraining c rate).memories = m.memories := by
  simp [Mach.wakeTraining]
@[simp] theorem memories_resample (m : Mach) (found) : (m.resample found).memories = m.memories := by
  simp [Mach.resample]
@[simp] theorem memories_knownWake (m : Mach) (v) : (m.knownWake v).memories = m.memories := by
  unfold Mach.knownWake
  split <;> simp
@[simp] theorem memories_wakeReached (m : Mach) : (m.wakeReached).memories = m.memories := by simp [Mach.wakeReached]
@[simp] theorem memories_residency (m : Mach) : (m.residency).memories = m.memories := by
  unfold Mach.residency
  dsimp only
  split <;> simp

/-! #### Machine/RasOps -/

@[simp] theorem memories_injectWord (m : Mach) (uncorrectable) :
    (m.injectWord uncorrectable).memories = m.memories := by
  unfold Mach.injectWord
  split <;> simp
@[simp] theorem memories_injectLane (m : Mach) : (m.injectLane).memories = m.memories := by
  unfold Mach.injectLane
  split <;> simp
@[simp] theorem memories_injectProgram (m : Mach) (sb block) : (m.injectProgram sb block).memories = m.memories := by
  unfold Mach.injectProgram
  split <;> simp
@[simp] theorem memories_disarm (m : Mach) : (m.disarm).memories = m.memories := by simp [Mach.disarm]
@[simp] theorem memories_injDisarm (m : Mach) (w) : (m.injDisarm w).memories = m.memories := by simp [Mach.injDisarm]
@[simp] theorem memories_armCommitted (m : Mach) : (m.armCommitted).memories = m.memories := by
  simp [Mach.armCommitted]
@[simp] theorem memories_putMargin (m : Mach) (reg src x low) :
    (m.putMargin reg src x low).memories = m.memories := by
  simp [Mach.putMargin]
@[simp] theorem memories_marginReading (m : Mach) (v eyes lanes0 lanes1 supplies) :
    (m.marginReading v eyes lanes0 lanes1 supplies).memories = m.memories := by
  simp [Mach.marginReading]
@[simp] theorem memories_noteScore (m : Mach) (v) : (m.noteScore v).memories = m.memories := by simp [Mach.noteScore]
@[simp] theorem memories_toolRestReady (m : Mach) : (m.toolRestReady).memories = m.memories := by
  simp [Mach.toolRestReady]
@[simp] theorem memories_scrubRead (m : Mach) (v a) : (m.scrubRead v a).memories = m.memories := by
  unfold Mach.scrubRead
  dsimp only
  split <;> simp

/-! #### Machine/SystemOps -/

@[simp] theorem memories_writeOff (m : Mach) (c) : (m.writeOff c).memories = m.memories := by simp [Mach.writeOff]
/-- Drawing the Caliper seed and naming the owner leave the memories. -/
theorem memories_drawSeed (m : Mach) (n : Nat) (k : HostIf) :
    ({ m.draw with tl := { m.tl with calSeed := n }, hif := k } : Mach).memories = m.memories := by rfl
@[simp] theorem memories_bootInit (m : Mach) (v) : (Mach.bootInit v m).memories = m.memories := by
  unfold Mach.bootInit
  extract_lets straps role m₁ m₂ m₃ m₄ m₅ m₆
  have h₆ : m₆.memories = m.memories := by
    simp only [m₆, m₅, m₄, m₃, m₂, m₁, memories_setBit, memories_setReg, memories_setFld, memories_ite,
      memories_foldl, implies_true, ite_self]
  exact (memories_drawSeed m₆ _ _).trans h₆
@[simp] theorem memories_quiesceJobs (m : Mach) : (m.quiesceJobs).memories = m.memories := by simp [Mach.quiesceJobs]
@[simp] theorem memories_tickCluster (m : Mach) (c) : (m.tickCluster c).memories = m.memories := by
  simp [Mach.tickCluster]
@[simp] theorem memories_tick (m : Mach) (v) : (m.tick v).memories = m.memories := by simp [Mach.tick]

/-! #### Machine/PowerCmds -/

@[simp] theorem memories_startCheck (m : Mach) : (m.startCheck).memories = m.memories := by simp [Mach.startCheck]
@[simp] theorem memories_supplyRecord (m : Mach) (sensor kind) :
    (m.supplyRecord sensor kind).memories = m.memories := by
  simp [Mach.supplyRecord]
@[simp] theorem memories_coolantRecord (m : Mach) (sensor status) :
    (m.coolantRecord sensor status).memories = m.memories := by
  simp [Mach.coolantRecord]
@[simp] theorem memories_thermalRecord (m : Mach) (sensor kind temp) :
    (m.thermalRecord sensor kind temp).memories = m.memories := by
  simp [Mach.thermalRecord]
@[simp] theorem memories_setFlow (m : Mach) (flow) : (m.setFlow flow).memories = m.memories := by simp [Mach.setFlow]
@[simp] theorem memories_setInlet (m : Mach) (t) : (m.setInlet t).memories = m.memories := by simp [Mach.setInlet]
@[simp] theorem memories_handOver (m : Mach) : (m.handOver).memories = m.memories := by simp [Mach.handOver]

/-! #### Machine/BootCmds -/

@[simp] theorem memories_fwUpdateRecord (m : Mach) (core old new failing) :
    (m.fwUpdateRecord core old new failing).memories = m.memories := by
  simp [Mach.fwUpdateRecord]

/-! #### Machine/RegOps -/

@[simp] theorem memories_pendField (m : Mach) (off f val src) :
    (m.pendField off f val src).memories = m.memories := by
  simp [Mach.pendField]
@[simp] theorem memories_storeField (m : Mach) (w off f val whole) :
    (m.storeField w off f val whole).memories = m.memories := by
  simp [Mach.storeField]
@[simp] theorem memories_writeField (m : Mach) (w off whole f) :
    (m.writeField w off whole f).memories = m.memories := by
  unfold Mach.writeField
  split <;> simp
@[simp] theorem memories_writeFields (m : Mach) (w r off val) :
    (m.writeFields w r off val).memories = m.memories := by
  simp [Mach.writeFields]
@[simp] theorem memories_commitLatch (m : Mach) (blk) : (m.commitLatch blk).memories = m.memories := by
  simp [Mach.commitLatch]
@[simp] theorem memories_discardPending (m : Mach) (blk) : (m.discardPending blk).memories = m.memories := by
  simp [Mach.discardPending]
@[simp] theorem memories_writeCfgctl (m : Mach) (blk val) : (m.writeCfgctl blk val).memories = m.memories := by
  simp [Mach.writeCfgctl]
@[simp] theorem memories_writeArea (m : Mach) (w p val) : (m.writeArea w p val).memories = m.memories := by
  simp [Mach.writeArea]
@[simp] theorem memories_writeAdmin (m : Mach) (w val claimToo) :
    (m.writeAdmin w val claimToo).memories = m.memories := by
  unfold Mach.writeAdmin
  (repeat' split) <;> simp
@[simp] theorem memories_writeDoorbell (m : Mach) (w off val) :
    (m.writeDoorbell w off val).memories = m.memories := by
  unfold Mach.writeDoorbell
  split <;> simp
@[simp] theorem memories_afterStore (m : Mach) (off val) : (m.afterStore off val).memories = m.memories := by
  unfold Mach.afterStore
  split <;> simp
@[simp] theorem memories_applyPend (m : Mach) (p) : (m.applyPend p).memories = m.memories := by
  unfold Mach.applyPend
  split <;> simp
@[simp] theorem memories_commitKeycmd (v) (m : Mach) (c) : (m.commitKeycmd v c).memories = m.memories := by
  simp only [Mach.commitKeycmd]; (repeat' split) <;> simp
@[simp] theorem memories_commitInject (m : Mach) (c) : (m.commitInject c).memories = m.memories := by
  simp only [Mach.commitInject]
  (repeat' split) <;> simp
@[simp] theorem memories_commitFab (v) (m : Mach) (c) : (m.commitFab v c).memories = m.memories := by
  unfold Mach.commitFab
  exact memories_foldl _ (fun m p => by split <;> simp) _ _

end Sys2Proof.Machine
end

section
/-!
SUPPORT. The canonical form of the memories, with the rules for the state's own operations: a byte stored, a tile or a
cluster put back. A field of a tile that an operation edits leaves the tile's SRAM.
-/
namespace Sys2Proof.Machine

/-- Every memory is in canonical form. -/
def Memories.Wf (x : Memories) : Prop :=
  Memory.wf x.gddr = true ∧ (∀ p ∈ x.tiles, Memory.wf p.2.sram = true) ∧ ∀ p ∈ x.clusters, Memory.wf p.2.sram = true

theorem memoriesWf_iff (m : Mach) : MemoriesWf m ↔ m.memories.Wf := Iff.rfl

@[simp] theorem Memories.wf_ite {c : Prop} [Decidable c] {a b : Memories} (ha : a.Wf) (hb : b.Wf) :
    (if c then a else b).Wf := by
  split
  · exact ha
  · exact hb

theorem wf_foldl {β : Type} {f : Mach → β → Mach} (hf : ∀ m x, m.memories.Wf → (f m x).memories.Wf) {l : List β}
    {m : Mach}
    (h : m.memories.Wf) : (l.foldl f m).memories.Wf :=
  List.foldlRecOn l f h fun m hm x _ => hf m x hm

/-- What every value listed under a key has, and the key's default too, the key's value has. -/
theorem mapGet_of_forall_key {α : Type} {P : α → Prop} {d : Nat → α} {s : SMap α} {k : Nat} (hd : P (d k))
    (hs : ∀ p ∈ s, p.1 = k → P p.2) : P (mapGet d s k) := by
  induction s with
  | nil => exact hd
  | cons p s ih =>
    rw [mapGet]
    split
    · next hk => exact hs p List.mem_cons_self hk
    · exact ih fun q hq => hs q (List.mem_cons_of_mem _ hq)
/-- What every listed value has, and the new one too, every value listed after the store has. -/
theorem mapSet_forall {α : Type} (P : α → Prop) {s : SMap α} (hs : ∀ p ∈ s, P p.2) (k : Nat) {x : α} (hx : P x) :
    ∀ p ∈ mapSet s k x, P p.2 := by
  intro p hp
  rw [mapSet, mem_mapInsert] at hp
  obtain rfl | hp := hp
  · exact hx
  · exact hs p (List.mem_of_mem_filter hp)

section
variable {m : Mach} (h : m.memories.Wf)
include h

@[simp] theorem wf_gddr : Memory.wf m.mem.gddr = true := h.1
theorem wf_tiles : ∀ p ∈ m.tl.tiles, Memory.wf p.2.sram = true := h.2.1
theorem wf_clusters : ∀ p ∈ m.tl.clusters, Memory.wf p.2.sram = true := h.2.2
@[simp] theorem wf_tile {t : Nat} : Memory.wf (m.tile t).sram = true :=
  mapGet_of_forall_key (P := fun x : Tile => Memory.wf x.sram = true) rfl fun p hp _ => wf_tiles h p hp
@[simp] theorem wf_clus {c : Nat} : Memory.wf (m.clus c).sram = true :=
  mapGet_of_forall_key (P := fun x : Cluster => Memory.wf x.sram = true) rfl fun p hp _ => wf_clusters h p hp
@[simp] theorem wf_setTile {t : Nat} {x : Tile} (hx : Memory.wf x.sram = true) : (m.setTile t x).memories.Wf := by
  obtain ⟨hg, ht, hc⟩ := h
  exact ⟨hg, mapSet_forall (fun x : Tile => Memory.wf x.sram = true) ht t hx, hc⟩
@[simp] theorem wf_setClus {c : Nat} {x : Cluster} (hx : Memory.wf x.sram = true) : (m.setClus c x).memories.Wf := by
  obtain ⟨hg, ht, hc⟩ := h
  exact ⟨hg, ht, mapSet_forall (fun x : Cluster => Memory.wf x.sram = true) hc c hx⟩
/-- A tile replaced by one with the SRAM of a tile. -/
theorem wf_editTile {t u : Nat} {x : Tile} (hx : x.sram = (m.tile u).sram := by rfl) : (m.setTile t x).memories.Wf :=
  wf_setTile h (hx ▸ wf_tile h)
/-- A cluster replaced by one with the SRAM of a cluster. -/
theorem wf_editClus {c d : Nat} {x : Cluster} (hx : x.sram = (m.clus d).sram := by rfl) : (m.setClus c x).memories.Wf :=
  wf_setClus h (hx ▸ wf_clus h)
end

@[simp] theorem sram_ite (c : Prop) [Decidable c] (a b : Tile) :
    (if c then a else b).sram = if c then a.sram else b.sram :=
  apply_ite _ _ _ _
@[simp] theorem sram_setG (x : Tile) (r y) : (x.setG r y).sram = x.sram := by
  unfold Tile.setG; split <;> rfl
@[simp] theorem sram_setP (x : Tile) (r y) : (x.setP r y).sram = x.sram := by
  unfold Tile.setP; split <;> rfl
@[simp] theorem sram_setV (x : Tile) (r y) : (x.setV r y).sram = x.sram := rfl
@[simp] theorem sram_addFlags (x : Tile) (f) : (x.addFlags f).sram = x.sram := rfl
@[simp] theorem sram_advance (x : Tile) (n) : (x.advance n).sram = x.sram := rfl
@[simp] theorem sram_setCount (x : Tile) (k n) : (x.setCount k n).sram = x.sram := rfl
@[simp] theorem sram_serve (x : Tile) (k) : (x.serve k).sram = x.sram := by
  unfold Tile.serve; split <;> rfl
@[simp] theorem sram_setEngQ (x : Tile) (e q) : (x.setEngQ e q).sram = x.sram := by
  cases e <;> rfl
@[simp] theorem sram_beginWait (x : Tile) (e k) : (x.beginWait e k).1.sram = x.sram := by
  unfold Tile.beginWait; split <;> rfl
@[simp] theorem sram_startHead (x : Tile) (e) : (x.startHead e).sram = x.sram := by
  simp only [Tile.startHead]
  (repeat' split) <;> simp
@[simp] theorem sram_endUnit (x : Tile) (k) : (x.endUnit k).sram = x.sram := rfl
@[simp] theorem sram_released (x : Tile) (t) : (x.released t).sram = x.sram := rfl
@[simp] theorem sram_powerOff (x : Tile) (t) : (x.powerOff t).sram = [] := rfl
@[simp] theorem sram_startUnit (x : Tile) (u) : (x.startUnit u).sram = memWrite x.sram 0x7FFC0 u.entry := rfl
@[simp] theorem sram_vcmx (x : Tile) (a c) : (vcmx x a c).sram = x.sram := by
  simp only [vcmx]; split <;> simp
@[simp] theorem sram_vecReg (x : Tile) (op) : (vecReg x op).sram = x.sram := by
  cases op <;> simp only [vecReg] <;> (try split) <;> simp

end Sys2Proof.Machine
end

section
/-!
SUPPORT. Every function of the model that may store a byte keeps the memories in canonical form, since it stores through
memPut, memWrite, memZero or the empty memory alone. The functions stand in the model's order.
-/
namespace Sys2Proof.Machine

/-! #### Machine/DevMem -/

@[simp] theorem wf_putLoc {m : Mach} {l b} (h : m.memories.Wf) : (m.putLoc l b).memories.Wf := by
  cases l with
  | gddr a =>
    obtain ⟨hg, ht, hc⟩ := h
    exact ⟨Memory.wf_put _ _ _ hg, ht, hc⟩
  | cluster c off => exact wf_setClus h (Memory.wf_put _ _ _ (wf_clus h))
  | tile t off => exact wf_setTile h (Memory.wf_put _ _ _ (wf_tile h))
  | _ => exact h
@[simp] theorem wf_devWrite {m : Mach} {v a bs} (h : m.memories.Wf) : (m.devWrite v a bs).memories.Wf := by
  induction bs generalizing m a with
  | nil => exact h
  | cons b r ih => exact ih (wf_putLoc h)
@[simp] theorem wf_jobWrite {m : Mach} {v self a bs} (h : m.memories.Wf) : (m.jobWrite v self a bs).memories.Wf := by
  induction bs generalizing m a with
  | nil => exact h
  | cons b r ih =>
    rw [Mach.jobWrite]
    refine ih ?_
    generalize locOf v (some self) a = l
    simp only [memories_ite]
    exact Memories.wf_ite (wf_editTile h) (wf_putLoc h)

/-! #### Machine/UnitOps -/

@[simp] theorem wf_putEntry {m : Mach} {l e} (h : m.memories.Wf) : (m.putEntry l e).memories.Wf := by
  cases l with
  | cluster c k => exact wf_editClus h
  | die d k => exact h
theorem wf_placeCluster {m m' : Mach} {c e} (hp : m.placeCluster c e = some m') (h : m.memories.Wf) :
    m'.memories.Wf := by
  simp only [Mach.placeCluster] at hp
  split at hp <;> cases hp
  exact wf_setClus h (Memory.wf_write _ _ _ (wf_clus h))
/-- An entry put into a cluster queue, or a machine in its place when the queue is full. -/
@[simp] theorem wf_placeCluster_getD {m n : Mach} {c e} (h : m.memories.Wf) (hn : n.memories.Wf) :
    ((m.placeCluster c e).getD n).memories.Wf := by
  cases hp : m.placeCluster c e with
  | none => exact hn
  | some m' => exact wf_placeCluster hp h
@[simp] theorem wf_placeDie_getD {m n : Mach} {d e} (h : m.memories.Wf) (hn : n.memories.Wf) :
    ((m.placeDie d e).getD n).memories.Wf := by
  cases hp : m.placeDie d e with
  | none => exact hn
  | some m' => rw [Option.getD_some, memories_placeDie hp]; exact h
@[simp] theorem wf_selectHeld {m : Mach} {t} (h : m.memories.Wf) : (m.selectHeld t).memories.Wf := by
  unfold Mach.selectHeld
  extract_lets x
  split
  · split
    · split
      · extract_lets m₁ m₂ tw
        have h₂ : m₂.memories.Wf := wf_setTile (wf_putEntry h) (wf_tile h)
        split
        · exact wf_placeCluster_getD h₂ h₂
        · exact wf_placeDie_getD h₂ h₂
      · exact h
    · exact h
  · exact h
@[simp] theorem wf_makeSuspect {m : Mach} {t} (h : m.memories.Wf) : (m.makeSuspect t).memories.Wf :=
  wf_selectHeld (wf_editTile h)
@[simp] theorem wf_charge {m : Mach} {t job seq tiles} (h : m.memories.Wf) :
    (m.charge t job seq tiles).memories.Wf := by
  simp [Mach.charge, h]
@[simp] theorem wf_afterRun {m : Mach} {l e r} (h : m.memories.Wf) : (m.afterRun l e r).memories.Wf := by
  simp only [Mach.afterRun]
  (repeat' split) <;> simp [h]
@[simp] theorem wf_unitDrop {m : Mach} {t how keep} (h : m.memories.Wf) : (m.unitDrop t how keep).memories.Wf := by
  have h₁ : (m.setTile t ((m.tile t).endUnit keep)).memories.Wf := wf_editTile h
  simp only [Mach.unitDrop]
  (repeat' split) <;> simp [h₁]
@[simp] theorem wf_tileExc {m : Mach} {t eng cause pc code} (h : m.memories.Wf) :
    (m.tileExc t eng cause pc code).memories.Wf := by
  simp [Mach.tileExc, h]
@[simp] theorem wf_applyAdds {m : Mach} {v adds} (h : m.memories.Wf) : (m.applyAdds v adds).memories.Wf := by
  induction adds generalizing m with
  | nil => exact h
  | cons p r ih => exact ih (wf_devWrite h)
@[simp] theorem wf_chargeRuns {m : Mach} {job seq runs} (h : m.memories.Wf) : (m.chargeRuns job seq runs).memories.Wf :=
  wf_foldl (fun _ _ h => wf_charge h) h
@[simp] theorem wf_entryDone {m : Mach} {l status adds} (h : m.memories.Wf) :
    (m.entryDone l status adds).memories.Wf := by
  unfold Mach.entryDone
  split <;> simp [h]
@[simp] theorem wf_calSettle {m : Mach} {v job seq r} (h : m.memories.Wf) : (m.calSettle v job seq r).memories.Wf := by
  simp only [Mach.calSettle]
  split
  · refine wf_entryDone (wf_applyAdds ?_)
    split
    · exact h
    · exact wf_foldl (fun _ _ h => wf_devWrite h) (wf_devWrite h)
  · exact h
@[simp] theorem wf_calJudge {m : Mach} {v job seq} (h : m.memories.Wf) : (m.calJudge v job seq).memories.Wf := by
  simp only [Mach.calJudge]
  (repeat' split) <;> simp [h]
@[simp] theorem wf_calDone {m : Mach} {v job seq r} (h : m.memories.Wf) : (m.calDone v job seq r).memories.Wf := by
  simp [Mach.calDone, h]
@[simp] theorem wf_unitDone {m : Mach} {v t status} (h : m.memories.Wf) : (m.unitDone v t status).memories.Wf := by
  unfold Mach.unitDone
  extract_lets x y m₁
  have h₁ : m₁.memories.Wf := wf_editTile h
  split
  · extract_lets run job seq m₂
    split
    · exact wf_entryDone (wf_applyAdds h₁)
    · exact wf_calDone h₁
    · refine wf_calDone ?_
      unfold m₂
      split
      · exact wf_putEntry (wf_chargeRuns h₁)
      · exact h₁
  · exact h

/-! #### Machine/KernelOps -/

@[simp] theorem wf_finishUnit {m : Mach} {v t status} (h : m.memories.Wf) : (m.finishUnit v t status).memories.Wf := by
  unfold Mach.finishUnit
  split
  · exact wf_unitDone h
  · split
    · exact wf_unitDone h
    · split
      · exact wf_unitDone h
      · exact wf_unitDone (wf_putEntry (wf_jobWrite h))

/-! #### Machine/MemErr -/

@[simp] theorem wf_unitUe {m : Mach} {v t w} (h : m.memories.Wf) : (m.unitUe v t w).memories.Wf := by
  unfold Mach.unitUe
  (repeat' split) <;> simp [h]

/-! #### Machine/TileOps -/

@[simp] theorem wf_signalObj {m : Mach} {t k} (h : m.memories.Wf) : (m.signalObj t k).memories.Wf := by
  simp only [Mach.signalObj]
  split <;> simp [h]
@[simp] theorem wf_flagSignal {m : Mach} {t detail} (h : m.memories.Wf) : (m.flagSignal t detail).memories.Wf := by
  simp only [Mach.flagSignal]
  split <;> simp [h]
@[simp] theorem wf_programSignal {m : Mach} {t k pc} (h : m.memories.Wf) : (m.programSignal t k pc).memories.Wf := by
  unfold Mach.programSignal
  split <;> simp [h]
@[simp] theorem wf_unfence {m : Mach} {t} (h : m.memories.Wf) : (m.unfence t).memories.Wf := by simp [Mach.unfence, h]
@[simp] theorem wf_fenced {m : Mach} {t w} (h : m.memories.Wf) : (m.fenced t w).memories.Wf := by
  unfold Mach.fenced
  split <;> simp [h]
@[simp] theorem wf_progStore {m : Mach} {v t a bs} (h : m.memories.Wf) : (m.progStore v t a bs).memories.Wf := by
  simp [Mach.progStore, h]
@[simp] theorem wf_vecRun {m : Mach} {v t e} (h : m.memories.Wf) : (m.vecRun v t e).memories.Wf := by
  unfold Mach.vecRun
  extract_lets x
  split
  · exact wf_editTile h
  · refine wf_unfence (wf_foldl (fun m k h => ?_) h)
    split
    · simp [h]
    · exact h
  · exact wf_editTile h
  · exact wf_unfence (wf_foldl (fun m k h => by simp [h]) h)
  · exact wf_editTile h (sram_vcmx _ _ _)
  · exact wf_programSignal h
  · exact wf_fenced h
  · exact wf_editTile h (sram_vecReg _ _)
@[simp] theorem wf_vecDrain {v n t} {m : Mach} (h : m.memories.Wf) : (Mach.vecDrain v n m t).memories.Wf := by
  induction n generalizing m with
  | zero => exact h
  | succ n ih =>
    simp only [Mach.vecDrain]
    split
    · exact h
    · split
      · exact h
      · split
        · refine ih (wf_setTile h ?_)
          split <;> simp [h]
        · split
          · exact wf_tileExc h
          · split
            · exact wf_unitUe h
            · refine ih (wf_vecRun (wf_editTile ?_))
              simpa using h
@[simp] theorem wf_completeDesc {o : DescOut} {v t e d} (h : o.m.memories.Wf) :
    (Mach.completeDesc v o t e d).memories.Wf := by
  unfold Mach.completeDesc
  extract_lets m x m₁ m₂ wrote m₃ m₄
  have h₁ : m₁.memories.Wf := wf_editTile h (sram_setEngQ _ _ _)
  have h₂ : m₂.memories.Wf := by
    unfold m₂; split
    · simp [h₁]
    · exact h₁
  have h₃ : m₃.memories.Wf := by
    unfold m₃; split
    · exact wf_flagSignal h₂
    · exact h₂
  have h₄ : m₄.memories.Wf := by
    unfold m₄; split <;> simpa using h₃
  split
  · exact wf_signalObj h₄
  · exact h₄
@[simp] theorem wf_settle {v n t e} {m : Mach} (h : m.memories.Wf) : (Mach.settle v n m t e).memories.Wf := by
  induction n generalizing m with
  | zero => exact h
  | succ n ih =>
    unfold Mach.settle
    extract_lets x m₁
    have h₁ : m₁.memories.Wf := wf_editTile h (sram_startHead _ _)
    split
    · split
      · refine ih (wf_completeDesc ?_)
        exact h₁
      · exact h₁
    · exact h₁
@[simp] theorem wf_jump {m : Mach} {t target link} (h : m.memories.Wf) : (m.jump t target link).memories.Wf := by
  simp only [Mach.jump]
  (repeat' split) <;> simp [h]
@[simp] theorem wf_issueNow {m : Mach} {v t i} (h : m.memories.Wf) : (m.issueNow v t i).memories.Wf := by
  unfold Mach.issueNow
  extract_lets x next
  have hn {y : Tile} (hy : y.sram = x.sram := by simp) : (next y).memories.Wf := wf_editTile h hy
  clear_value next
  split
  · exact hn
  · exact hn
  · exact hn
  · split
    · exact wf_jump h
    · exact hn
  · exact wf_jump h
  · exact wf_jump h
  · dsimp only
    split
    · exact wf_tileExc h
    · split
      · exact wf_unitUe h
      · refine wf_setTile (by simpa using h) ?_
        simp [h]
  · dsimp only
    split
    · exact wf_tileExc h
    · exact wf_progStore hn
  · exact hn
  · exact wf_vecDrain hn
  · exact hn
  · exact hn
  · exact hn
  · repeat' split
    · exact hn
    · exact hn
    · exact hn
    · exact wf_tileExc h
  · split
    · exact hn
    · exact wf_tileExc h
  · dsimp only
    split
    · exact wf_editTile h (sram_beginWait _ _ _)
    · exact wf_editTile h (sram_beginWait _ _ _)
  · exact wf_programSignal hn
  · dsimp only
    split
    · exact hn
    · exact hn
  · exact wf_fenced hn
  · exact wf_settle hn
  · exact hn
  · dsimp only
    split
    · exact wf_finishUnit h
    · exact wf_tileExc h
  · exact wf_tileExc h
  · exact wf_tileExc h
@[simp] theorem wf_issue {m : Mach} {v t i} (h : m.memories.Wf) : (m.issue v t i).memories.Wf := by
  simp only [Mach.issue]
  (repeat' split) <;> simp [h]
@[simp] theorem wf_unstall {m : Mach} {v t} (h : m.memories.Wf) : (m.unstall v t).memories.Wf := by
  simp only [Mach.unstall]
  split
  · split
    · exact h
    · exact wf_issueNow (wf_editTile h)
  · exact h
@[simp] theorem wf_tileInstr {m : Mach} {v t i} (h : m.memories.Wf) : (m.tileInstr v t i).memories.Wf := by
  simp [Mach.tileInstr, h]
@[simp] theorem wf_release {m : Mach} {v t e} (h : m.memories.Wf) : (m.release v t e).memories.Wf := by
  have queue {x : Tile} {e} (hx : x.sram = (m.tile t).sram) :
      (((m.setTile t x).settle v 17 t e).unstall v t).memories.Wf :=
    wf_unstall (wf_settle (wf_editTile h hx))
  simp only [Mach.release]
  split
  · split
    · exact wf_editTile h
    · exact wf_unstall (wf_vecDrain (wf_editTile h))
    · exact queue (sram_setEngQ _ _ _)
    · exact queue (sram_setEngQ _ _ _)
    · exact queue (sram_setEngQ _ _ _)
  · exact h

/-! #### Machine/GougeOps -/

@[simp] theorem wf_descWrite {m : Mach} {v t a bs} (h : m.memories.Wf) : (m.descWrite v t a bs).memories.Wf := by
  simp [Mach.descWrite, h]
@[simp] theorem wf_stepStream {m : Mach} {v t a rec} (h : m.memories.Wf) : (stepStream v m t a rec).1.memories.Wf := by
  unfold stepStream
  extract_lets r src len blk st st' b o m₁
  have h₁ : m₁.memories.Wf := wf_descWrite h
  split
  · exact wf_descWrite (wf_descWrite h)
  · exact wf_descWrite (wf_descWrite h₁)
@[simp] theorem wf_stepStreams {m : Mach} {v t a l} (h : m.memories.Wf) : (stepStreams v t a l m).1.memories.Wf := by
  induction l generalizing m with
  | nil => exact h
  | cons rec r ih => exact ih (wf_stepStream h)

/-! #### Machine/DmaOps -/

@[simp] theorem wf_cntAdd {m : Mach} {v t d} (h : m.memories.Wf) : (m.cntAdd v t d).memories.Wf := by
  simp only [Mach.cntAdd]
  (repeat' split) <;> simp [h]
@[simp] theorem wf_runDesc {m : Mach} {v t e op} {f : Variant → Mach → Nat → List Byte → DescOut}
    (hf : ∀ m d, m.memories.Wf → (f v m t d).m.memories.Wf) (h : m.memories.Wf) :
    (m.runDesc v t e op f).memories.Wf := by
  have finish {o : DescOut} {d} (ho : o.m.memories.Wf) :
      (((Mach.completeDesc v o t e d).settle v 17 t e).unstall v t).memories.Wf :=
    wf_unstall (wf_settle (wf_completeDesc ho))
  simp only [Mach.runDesc]
  split
  · split
    · split
      · exact finish h
      · split
        · exact wf_unitUe h
        · exact finish (hf _ _ (by simpa using h))
    · exact h
  · exact h

/-! #### Machine/QueueOps -/

@[simp] theorem wf_setLimit {m : Mach} {kind cs mhz} (h : m.memories.Wf) : (m.setLimit kind cs mhz).memories.Wf :=
  wf_foldl (fun _ _ h => wf_editClus h) h
@[simp] theorem wf_clockStep {m : Mach} {c} (h : m.memories.Wf) : (m.clockStep c).memories.Wf := by
  simp only [Mach.clockStep]
  (repeat' split) <;> simp [h]
theorem wf_placeAt {m m' : Mach} {b n e} (hp : m.placeAt b n e = some m') (h : m.memories.Wf) : m'.memories.Wf := by
  unfold Mach.placeAt at hp
  split at hp
  · rw [memories_placeDie hp]; exact h
  · exact wf_placeCluster hp h
@[simp] theorem wf_placeAt_getD {m n : Mach} {b k e} (h : m.memories.Wf) (hn : n.memories.Wf) :
    ((m.placeAt b k e).getD n).memories.Wf := by
  cases hp : m.placeAt b k e with
  | none => exact hn
  | some m' => exact wf_placeAt hp h
@[simp] theorem wf_placeUnit {m : Mach} {b n e} (h : m.memories.Wf) : (m.placeUnit b n e).memories.Wf := by
  unfold Mach.placeUnit
  split
  · split
    · next hp => exact wf_placeAt_getD (wf_placeAt hp h) h
    · exact h
  · exact wf_placeAt_getD h h
@[simp] theorem wf_takeEntry {m : Mach} {v t l} (h : m.memories.Wf) : (m.takeEntry v t l).memories.Wf := by
  unfold Mach.takeEntry
  split
  · extract_lets c m₁ m₂ m₃ code m₄
    have h₁ : m₁.memories.Wf := wf_putEntry h
    have h₂ : m₂.memories.Wf := by
      unfold m₂; split
      · split <;> simpa using h₁
      · simpa using h₁
    have h₃ : m₃.memories.Wf := by
      unfold m₃; split <;> simpa using h₂
    have h₄ : m₄.memories.Wf := by simpa [m₄] using h₃
    exact wf_setTile h₄ (Memory.wf_write _ _ _ (wf_tile h₄))
  · exact h
/-- A run over a list that writes one number at a time into a memory. -/
theorem Memory.wf_foldl_putNat {β : Type} (a n : β → Nat) (k : Nat) (l : List β) {s : Memory} (h : Memory.wf s = true) :
    Memory.wf (l.foldl (fun s i => memPutNat s (a i) k (n i)) s) = true := by
  induction l generalizing s with
  | nil => exact h
  | cons i l ih => exact ih (Memory.wf_write _ _ _ h)
@[simp] theorem wf_putGrant {m : Mach} {g val} (h : m.memories.Wf) : (m.putGrant g val).memories.Wf :=
  wf_setClus h (Memory.wf_foldl_putNat _ _ _ _ (wf_clus h))
@[simp] theorem wf_serve {m : Mach} {c job loaded} (h : m.memories.Wf) : (m.serve c job loaded).memories.Wf :=
  wf_editClus h
@[simp] theorem wf_moveGrant {m : Mach} {v g es} (h : m.memories.Wf) : (m.moveGrant v g es).memories.Wf := by
  unfold Mach.moveGrant
  extract_lets _ m₁ plan
  have h₁ : m₁.memories.Wf := h
  split
  · simpa using h₁
  · split
    · simpa using h₁
    · extract_lets m₂ m₃ redirect _ m₄
      have h₃ : m₃.memories.Wf := wf_serve (wf_putGrant h₁)
      have h₄ : m₄.memories.Wf := by
        obtain ⟨hg, ht, hc⟩ := h₃
        exact ⟨hg, List.forall_mem_map.mpr ht, hc⟩
      exact wf_foldl (fun m e h => wf_placeCluster_getD h h) h₄
@[simp] theorem wf_dieFault {m : Mach} {v d cause} (h : m.memories.Wf) : (m.dieFault v d cause).memories.Wf := by
  unfold Mach.dieFault
  extract_lets m₁ lost lost₁ _ m₂ lost₂ m₃ rest m₄
  have h₁ : m₁.memories.Wf := wf_foldl (fun _ _ h => wf_unitDrop h) h
  have h₂ : m₂.memories.Wf := by
    clear_value m₁
    obtain ⟨hg, ht, hc⟩ := h₁
    refine ⟨hg, ht, List.forall_mem_map.mpr fun p hp => ?_⟩
    split
    · exact hc p hp
    · exact hc p hp
  have h₃ : m₃.memories.Wf := wf_foldl (fun _ _ h => wf_moveGrant h) h₂
  have h₄ : m₄.memories.Wf := wf_foldl (fun _ _ h => wf_placeCluster_getD h h) h₃
  simpa using h₄

/-! #### Machine/MemOps -/

@[simp] theorem wf_carve {m : Mach} {v} (h : m.memories.Wf) : (m.carve v).memories.Wf := by
  unfold Mach.carve
  extract_lets _ m₁ m₂ m₃
  have h₁ : m₁.memories.Wf := by
    obtain ⟨-, ht, hc⟩ := h
    exact ⟨Memory.wf_nil, ht, hc⟩
  have h₃ : m₃.memories = m₁.memories := by
    simp [m₃, m₂]
  rw [memories_foldl, h₃]
  · exact h₁
  · intro m k
    dsimp only
    split <;> simp
@[simp] theorem wf_gddrReady {m : Mach} {v} (h : m.memories.Wf) : (m.gddrReady v).memories.Wf := by
  simp [Mach.gddrReady, h]
@[simp] theorem wf_writeBack {m : Mach} {v s} (h : m.memories.Wf) : (m.writeBack v s).memories.Wf := by
  simp [Mach.writeBack, h]
theorem wf_ctxCreate {m m' : Mach} {v kind owner body r} (hc : m.ctxCreate v kind owner body = some (r, m'))
    (h : m.memories.Wf) : m'.memories.Wf := by
  unfold Mach.ctxCreate at hc
  split at hc <;> cases hc
  simp [h]
@[simp] theorem wf_ctxRelease {m : Mach} {v ref} (h : m.memories.Wf) : (m.ctxRelease v ref).2.memories.Wf := by
  simp only [Mach.ctxRelease]; split <;> simp [h]
@[simp] theorem wf_ctxOut {m : Mach} {v unit s pin} (h : m.memories.Wf) : (m.ctxOut v unit s pin).memories.Wf := by
  simp only [Mach.ctxOut]
  (repeat' split) <;> simp [h]
@[simp] theorem wf_ctxServe {m : Mach} {v} (h : m.memories.Wf) : (m.ctxServe v).memories.Wf :=
  wf_foldl (fun _ _ h => wf_ctxOut h) h
@[simp] theorem wf_ctxIn {m : Mach} {v unit s body unpin} (h : m.memories.Wf) :
    (m.ctxIn v unit s body unpin).memories.Wf := by
  unfold Mach.ctxIn
  split
  · extract_lets _ m₁ w _ m₂ m₃ _ m₄
    have h₁ : m₁.memories.Wf := by
      unfold m₁
      split <;> simpa using h
    have h₂ : m₂.memories.Wf := h₁
    have h₃ : m₃.memories.Wf := wf_writeBack h₂
    clear_value m₃ m₂
    have h₄ : m₄.memories.Wf := by
      unfold m₄
      split
      · exact h₃
      · exact h₂
    exact wf_ctxServe h₄
  · exact h
@[simp] theorem wf_ctxFlush {m : Mach} {v w} (h : m.memories.Wf) : (m.ctxFlush v w).memories.Wf := by
  unfold Mach.ctxFlush
  split
  · simp [h]
  · exact wf_foldl (f := fun m (x : CtxWay) => m.writeBack v x.slot) (fun _ _ h => wf_writeBack h) h
@[simp] theorem wf_ctxMake {m : Mach} {v kind owner body} (h : m.memories.Wf) :
    (m.ctxMake v kind owner body).memories.Wf := by
  unfold Mach.ctxMake
  split
  · next hc => simpa using wf_ctxCreate hc h
  · simpa using h
@[simp] theorem wf_ctxDrop {m : Mach} {v ref} (h : m.memories.Wf) : (m.ctxDrop v ref).memories.Wf := by
  simp [Mach.ctxDrop, h]
@[simp] theorem wf_ctxAsk {m : Mach} {v unit ref pin} (h : m.memories.Wf) :
    (m.ctxAsk v unit ref pin).memories.Wf := by
  simp [Mach.ctxAsk, h]

/-! #### Machine/RasBase -/

@[simp] theorem wf_takeover {m : Mach} {c} (h : m.memories.Wf) : (m.takeover c).memories.Wf := by
  unfold Mach.takeover
  split
  · extract_lets x sp y m₁
    have h₁ : m₁.memories.Wf := wf_foldl (fun _ _ h => wf_editTile h) h
    split
    · exact wf_setTile h₁ (wf_tile h)
    · exact h₁
  · exact h

/-! #### Machine/JobOps -/

theorem wf_makeCursors {m m' : Mach} {v j k i l} (hc : m.makeCursors v j k i = some (l, m')) (h : m.memories.Wf) :
    m'.memories.Wf := by
  refine foldl_option_keeps (P := fun n => n.memories.Wf) (fun _ => rfl) (fun s m x s' m' h hs => ?_) h hc
  dsimp only at hs
  split at hs
  · next hp => cases hs; exact wf_ctxCreate hp h
  · cases hs
@[simp] theorem wf_tableSetLoaded {m : Mach} {c j} (h : m.memories.Wf) : (m.tableSetLoaded c j).memories.Wf := by
  simp [Mach.tableSetLoaded, h]
theorem wf_grantJob {m m' : Mach} {v r i a j} (hg : m.grantJob v r i a = some (j, m')) (h : m.memories.Wf) :
    m'.memories.Wf := by
  unfold Mach.grantJob at hg
  split at hg
  · cases hg
  · extract_lets ordered chans cacheSz plan tabs hot at hg
    split at hg
    · cases hg
    · split at hg
      · next hp hq =>
        rw [← memories_carveAreas hp] at h
        extract_lets _ m₁ batchAreas at hg
        split at hg
        · cases hg
        · next hc =>
          have h₁ := wf_makeCursors hc h
          extract_lets m₂ m₃ m₄ m₅ m₆ m₇ at hg
          have h₂ : m₂.memories.Wf := wf_foldl (fun m c h => by dsimp only; split <;> simp [h]) h₁
          have h₅ : m₅.memories.Wf := by
            unfold m₅; split <;> simpa [m₄, m₃] using h₂
          have h₇ : m₇.memories.Wf := by
            unfold m₇; split <;> simpa [m₆] using h₅
          cases hg
          split
          · exact h₇
          · simpa using h₇
      · cases hg
@[simp] theorem wf_jobAccept {m : Mach} {v a} (h : m.memories.Wf) : (m.jobAccept v a).2.2.memories.Wf := by
  simp only [Mach.jobAccept]
  split
  · simpa using h
  · split
    · next hg => simpa using wf_grantJob hg h
    · exact h
@[simp] theorem wf_fillBufs {m : Mach} {v hs b} (h : m.memories.Wf) : (m.fillBufs v hs b).memories.Wf :=
  wf_foldl (fun _ _ h => wf_devWrite h) h
@[simp] theorem wf_keepFrame {m : Mach} {v j epoch p ns f crc cur} (h : m.memories.Wf) :
    (m.keepFrame v j epoch p ns f crc cur).memories.Wf := by
  unfold Mach.keepFrame
  split
  · next hb =>
    rw [← memories_takeBufs hb] at h
    dsimp only
    split <;> simp [h]
  · exact h
@[simp] theorem wf_sampleFetch {m : Mach} {v j epoch p ns remote bad} (h : m.memories.Wf) :
    (m.sampleFetch v j epoch p ns remote bad).memories.Wf := by
  unfold Mach.sampleFetch
  dsimp only
  (repeat' split) <;> simp only [memories_sampleKnown, memories_jobFail, wf_keepFrame, h]
@[simp] theorem wf_entryCollect {m : Mach} {v l r} (h : m.memories.Wf) : (m.entryCollect v l r).memories.Wf := by
  simp only [Mach.entryCollect]
  (repeat' split) <;> simp [h]
@[simp] theorem wf_batchBoundary {m : Mach} {j} (h : m.memories.Wf) : (m.batchBoundary j).memories.Wf :=
  wf_foldl (fun _ _ h => wf_takeover h) h
@[simp] theorem wf_batchEmit {m : Mach} {v k} (h : m.memories.Wf) : (m.batchEmit v k).memories.Wf := by
  unfold Mach.batchEmit
  split
  · split
    · split
      · split
        · dsimp only
          have written {j a bs} : ((m.batchBoundary j).devWrite v a bs).memories.Wf := wf_devWrite (wf_batchBoundary h)
          split
          · split
            · split
              · split
                · split
                  · split <;> simp [written]
                  · simp [written]
                · simp [h]
              · exact h
            · simp [h]
            · exact h
          · exact h
        · exact h
      · exact h
    · exact h
  · exact h
@[simp] theorem wf_freeOwned {m : Mach} {owner zero} (h : m.memories.Wf) : (m.freeOwned owner zero).memories.Wf := by
  refine wf_foldl (fun m k h => wf_foldl (fun m b h => ?_) h) h
  dsimp only
  split
  · obtain ⟨hg, ht, hc⟩ := h
    rw [memories_freeOk]
    exact ⟨Memory.wf_zero _ _ _ hg, ht, hc⟩
  · simpa using h
@[simp] theorem wf_freeCtx {m : Mach} {v owner} (h : m.memories.Wf) : (m.freeCtx v owner).memories.Wf :=
  wf_foldl (fun _ _ h => wf_ctxRelease h) h
@[simp] theorem wf_clearWork {m : Mach} {j zero} (h : m.memories.Wf) : (m.clearWork j zero).memories.Wf := by
  unfold Mach.clearWork
  extract_lets mine _ m₁ gs m₂
  have h₁ : m₁.memories.Wf := by
    obtain ⟨hg, ht, hc⟩ := h
    refine ⟨hg, List.forall_mem_map.mpr fun p hp => ?_, hc⟩
    extract_lets t runs _ t'
    have ht' : Memory.wf t'.sram = true := by
      unfold t'
      split <;> exact ht p hp
    clear_value t'
    dsimp only
    split
    · exact Memory.wf_nil
    · exact ht'
  have h₂ : m₂.memories.Wf := by
    refine wf_foldl (fun m g h => wf_setClus h ?_) h₁
    dsimp only
    split
    · exact Memory.wf_zero _ _ _ (wf_clus h)
    · exact wf_clus h
  clear_value m₂
  obtain ⟨hg, ht, hc⟩ := h₂
  exact ⟨hg, ht, List.forall_mem_map.mpr fun p hp => hc p hp⟩
@[simp] theorem wf_jobRelease {m : Mach} {v j} (h : m.memories.Wf) : (m.jobRelease v j).memories.Wf := by
  unfold Mach.jobRelease
  split
  · split
    · exact h
    · extract_lets zero m₁ m₂ _ _ _ m₃ answered
      have h₁ : m₁.memories.Wf := wf_freeOwned (by simpa using wf_clearWork h)
      have h₂ : m₂.memories.Wf := by simpa [m₂] using wf_freeCtx h₁
      clear_value m₂
      have h₃ : m₃.memories.Wf := h₂
      clear_value m₃
      split
      · dsimp only
        (repeat' split) <;> simpa using h₃
      · exact h₃
  · exact h

/-! #### Machine/KeyOps -/

theorem wf_withKey {m : Mach} {n k} {f : KeyRec → Mach} (hf : ∀ x, (f x).memories.Wf) (h : m.memories.Wf) :
    (m.withKey n k f).memories.Wf := by
  unfold Mach.withKey
  split
  · exact hf _
  · simpa using h
@[simp] theorem wf_keyRevoke {m : Mach} {n k} (h : m.memories.Wf) : (m.keyRevoke n k).memories.Wf := by
  refine wf_withKey (fun x => ?_) h
  extract_lets hs m₁ _ _ m₂
  have h₂ : m₂.memories.Wf := by
    obtain ⟨hg, ht, hc⟩ := h
    exact ⟨hg, List.forall_mem_map.mpr ht, hc⟩
  simpa using h₂

/-! #### Machine/SpinOps -/

@[simp] theorem wf_tableLoaded {m : Mach} {c j} (h : m.memories.Wf) : (m.tableLoaded c j).memories.Wf := by
  simp [Mach.tableLoaded, h]
@[simp] theorem wf_imageStaged {m : Mach} {v planSeq image} (h : m.memories.Wf) :
    (m.imageStaged v planSeq image).memories.Wf := by
  simp only [Mach.imageStaged]
  (repeat' split) <;> simp [h]
@[simp] theorem wf_startMany {m : Mach} {v c serial addr len launch ns} (h : m.memories.Wf) :
    (m.startMany v c serial addr len launch ns).memories.Wf := by
  unfold Mach.startMany
  extract_lets r i seq m₁ l homes ws digest m₂ m₃ st m₄
  have h₂ : m₂.memories.Wf := wf_foldl (fun m p h => by split <;> simpa using h) h
  have h₃ : m₃.memories.Wf := wf_foldl (fun m p h => by simpa using h) h₂
  have h₄ : m₄.memories.Wf := by simpa [m₄] using h₃
  clear_value m₄
  split
  · exact h₄
  · dsimp only
    split <;> simp [h₄]
theorem wf_pipeTake {m : Mach} {c} {f : Nat → Mach → Mach} (hf : ∀ n m, m.memories.Wf → (f n m).memories.Wf)
    (h : m.memories.Wf) : (m.pipeTake c f).memories.Wf :=
  pipeTake_memories (Q := Memories.Wf) (fun k n hn => hf k n (hn ▸ h)) h
@[simp] theorem wf_jobStart {m : Mach} {v c addr len launch list count} (h : m.memories.Wf) :
    (m.jobStart v c addr len launch list count).memories.Wf := by
  refine wf_pipeTake (fun serial m h => ?_) h
  extract_lets fin modules shape st ids alone seq m₁ own a
  have hfin {n : Mach} {r s} (hn : n.memories.Wf) : (fin n r s).memories.Wf := by simpa [fin] using hn
  have h₁ : m₁.memories.Wf := by
    unfold m₁; split
    · exact h
    · exact h
  have ha : a.2.2.memories.Wf := wf_jobAccept h₁
  split
  · exact hfin h
  · split
    · split
      · refine hfin ?_
        split
        · exact ha
        · simpa using ha
      · exact hfin ha
    · split
      · exact hfin h
      · exact wf_startMany h
@[simp] theorem wf_entryPlace {m : Mach} {v toDie n bytes slotLen rows frees kind} (h : m.memories.Wf) :
    (m.entryPlace v toDie n bytes slotLen rows frees kind).memories.Wf := by
  simp [Mach.entryPlace, h]

/-! #### Machine/DcOps -/

@[simp] theorem wf_dcLookup {m : Mach} {v j epoch p index found bad flashBad} (h : m.memories.Wf) :
    (m.dcLookup v j epoch p index found bad flashBad).memories.Wf := by
  unfold Mach.dcLookup
  dsimp only
  split
  · exact h
  · split
    · exact h
    · split
      · exact h
      · split
        · exact h
        · split
          · exact h
          · split
            · simpa using h
            · split
              · next hb =>
                rw [memories_setJob]
                refine wf_fillBufs ?_
                rw [memories_takeBufs hb]
                simpa using h
              · simpa using h

/-! #### Machine/CodecOps -/

@[simp] theorem wf_codecWrite {m : Mach} {v c l} (h : m.memories.Wf) : (m.codecWrite v c l).memories.Wf := by
  refine wf_foldl (fun m p h => wf_devWrite ?_) h
  split
  · exact wf_devWrite h
  · exact h
@[simp] theorem wf_codecComplete {m : Mach} {v j} (h : m.memories.Wf) : (m.codecComplete v j).memories.Wf := by
  unfold Mach.codecComplete
  split
  · split
    · split
      · exact h
      · extract_lets allowed r m₁ m₂ m₃ m₄ m₅ m₆
        have h₄ : m₄.memories.Wf := by simpa [m₄, m₃, m₂, m₁, r] using h
        have h₅ : m₅.memories.Wf := wf_devWrite h₄
        have h₆ : m₆.memories.Wf := wf_devWrite h₅
        split
        · simpa using h
        · split
          · simpa using h₆
          · simpa using wf_codecWrite h₄
    · exact h
  · exact h

/-! #### Machine/XptOps -/

@[simp] theorem wf_writeCqe {m : Mach} {v ref e st bytes} (h : m.memories.Wf) :
    (m.writeCqe v ref e st bytes).2.memories.Wf := by
  unfold Mach.writeCqe
  dsimp only
  split
  · exact h
  · split
    · exact h
    · simp [h]
@[simp] theorem wf_closeEntry {m : Mach} {v ref index st} (h : m.memories.Wf) :
    (m.closeEntry v ref index st).2.memories.Wf := by
  unfold Mach.closeEntry
  dsimp only
  split
  · exact h
  · exact wf_writeCqe (by simpa using h)
@[simp] theorem wf_queueError {m : Mach} {v ref st} (h : m.memories.Wf) : (m.queueError v ref st).memories.Wf := by
  unfold Mach.queueError
  extract_lets m₁ open_ m₂ m₃
  have h₁ : m₁.memories.Wf := by simpa [m₁] using h
  have h₂ : m₂.memories.Wf := wf_foldl (fun _ _ h => wf_closeEntry h) h₁
  simpa [m₃] using h₂
@[simp] theorem wf_completeEntry {m : Mach} {v ref index st} (h : m.memories.Wf) :
    (m.completeEntry v ref index st).memories.Wf := by
  have hc := wf_closeEntry (v := v) (ref := ref) (index := index) (st := st) h
  simp only [Mach.completeEntry]
  split
  · simpa using hc
  · exact wf_queueError hc
@[simp] theorem wf_retransmit {m : Mach} {v ref psn} (h : m.memories.Wf) : (m.retransmit v ref psn).memories.Wf := by
  unfold Mach.retransmit
  extract_lets x node again
  split
  · split
    · exact h
    · split
      · exact h
      · extract_lets m₁ m₂
        have h₁ : m₁.memories.Wf := by simpa [m₁] using h
        have hagain {n : Mach} {k} (hn : n.memories.Wf) : (again n k).memories.Wf := by simpa [again] using hn
        split
        · refine wf_queueError ?_
          unfold m₂
          split
          · exact h₁
          · exact wf_closeEntry h₁
        · split
          · exact hagain h₁
          · next hp =>
            rw [← memories_nextPath hp] at h₁
            simpa using hagain h₁
  · exact h
@[simp] theorem wf_startEntry {m : Mach} {v ref op} (h : m.memories.Wf) : (m.startEntry v ref op).memories.Wf := by
  unfold Mach.startEntry
  dsimp only
  split
  · exact h
  · split
    · exact h
    · split
      · simp [h]
      · split <;> simp [h]
theorem wf_withPacket {m : Mach} {t p} {f : Mach → Nat → Nat → List Byte → Mach}
    (hf : ∀ m r d b, m.memories.Wf → (f m r d b).memories.Wf) (h : m.memories.Wf) : (m.withPacket t p f).memories.Wf :=
  withPacket_memories (Q := Memories.Wf) (fun n r d b hn => hf n r d b (hn ▸ h)) h
@[simp] theorem wf_gotWrite {m : Mach} {v p} (h : m.memories.Wf) : (m.gotWrite v p).memories.Wf := by
  refine wf_withPacket (fun m r d b h => ?_) h
  dsimp only
  split <;> simp [h]
@[simp] theorem wf_gotAtomic {m : Mach} {v p cas} (h : m.memories.Wf) : (m.gotAtomic v p cas).memories.Wf := by
  refine wf_withPacket (fun m r d b h => ?_) h
  dsimp only
  split
  · simpa using h
  · split <;> simp [h]
@[simp] theorem wf_gotReadResp {m : Mach} {v p} (h : m.memories.Wf) : (m.gotReadResp v p).memories.Wf := by
  refine wf_withPacket (fun m r d b h => ?_) h
  extract_lets m₁ x
  have h₁ : m₁.memories.Wf := by simpa [m₁] using h
  clear_value m₁
  split
  · exact h₁
  · dsimp only
    split
    · exact wf_completeEntry (by simp [h₁])
    · simp [h₁]
@[simp] theorem wf_gotAtomicResp {m : Mach} {v p} (h : m.memories.Wf) : (m.gotAtomicResp v p).memories.Wf := by
  refine wf_withPacket (fun m r d b h => ?_) h
  extract_lets m₁ x
  have h₁ : m₁.memories.Wf := by simpa [m₁] using h
  clear_value m₁
  split
  · exact h₁
  · exact wf_completeEntry (wf_devWrite h₁)
@[simp] theorem wf_gotSend {m : Mach} {v p} (h : m.memories.Wf) : (m.gotSend v p).memories.Wf := by
  refine wf_withPacket (fun m r d b h => ?_) h
  extract_lets seq top len place tag
  have hplace {n : Mach} {k} (hn : n.memories.Wf) : (place n k).memories.Wf := by
    simp only [place]
    split <;> simp [hn]
  clear_value place
  split
  · exact hplace h
  · split
    · simpa using h
    · split
      · simpa using h
      · split
        · simpa using h
        · split
          · split
            · refine hplace ?_
              rw [memories_takeBuf]
              exact h
            · simpa using h
          · simpa using h
@[simp] theorem wf_ackEntries {m : Mach} {v ref} (h : m.memories.Wf) : (m.ackEntries v ref).memories.Wf := by
  refine wf_foldl (fun m e h => ?_) h
  dsimp only
  (repeat' split) <;> simp [h]
@[simp] theorem wf_gotAck {m : Mach} {v p} (h : m.memories.Wf) : (m.gotAck v p).memories.Wf := by
  unfold Mach.gotAck
  split
  · next hr =>
    rw [← memories_receive hr] at h
    extract_lets x gone left m₁ m₂ m₃ m₄
    have h₃ : m₃.memories.Wf := by simpa [m₃, m₂, m₁] using h
    have h₄ : m₄.memories.Wf := wf_ackEntries h₃
    simpa using h₄
  · next hr => rwa [memories_receive hr]
@[simp] theorem wf_gotNak {m : Mach} {v p} (h : m.memories.Wf) : (m.gotNak v p).memories.Wf := by
  unfold Mach.gotNak
  split
  · next hr =>
    rw [← memories_receive hr] at h
    dsimp only
    split
    · exact h
    · split <;> simp [h]
  · next hr => rwa [memories_receive hr]
@[simp] theorem wf_readTimeout {m : Mach} {v ref index} (h : m.memories.Wf) :
    (m.readTimeout v ref index).memories.Wf := by
  unfold Mach.readTimeout
  (repeat' split) <;> simp [h]
@[simp] theorem wf_drainEnd {m : Mach} {v ref} (h : m.memories.Wf) : (m.drainEnd v ref).memories.Wf := by
  unfold Mach.drainEnd
  (repeat' split) <;> simp [h]
theorem wf_pipeNow {m : Mach} {c} {f : Mach → Nat × Nat × Mach} (hf : ∀ m, m.memories.Wf → (f m).2.2.memories.Wf)
    (h : m.memories.Wf) : (m.pipeNow c f).memories.Wf :=
  wf_pipeTake (fun _ _ h => by simpa using hf _ h) h
@[simp] theorem wf_qCreate {m : Mach} {v c a} (h : m.memories.Wf) : (m.qCreate v c a).memories.Wf := by
  refine wf_pipeNow (fun m h => ?_) h
  extract_lets rl cl area fields st body
  split
  · exact h
  · split
    · next hc => simpa using wf_ctxCreate hc h
    · exact h

/-! #### Machine/SessOps -/

theorem wf_giveResult {m m' : Mach} {v j ref r keep} (hg : m.giveResult v j ref r keep = some m') (h : m.memories.Wf) :
    m'.memories.Wf := by
  unfold Mach.giveResult at hg
  split at hg
  · cases hg
  · split at hg
    · cases hg
    · extract_lets x m₁ fits spilled r' at hg
      have h₁ : m₁.memories.Wf := by
        unfold m₁; split <;> simpa using h
      have hs {k n} (hs : spilled = some (k, n)) : n.memories.Wf := by
        unfold spilled at hs
        split at hs
        · cases hs; exact h₁
        · rwa [memories_takeFrom hs]
      clear_value spilled
      split at hg
      · cases hg
      · have h₂ := hs rfl
        extract_lets a m₂ b m₃ at hg
        have h₂' : m₂.memories.Wf := by
          unfold m₂; split
          · exact h₂
          · simp [h₂]
        cases hg
        simpa [m₃] using h₂'
@[simp] theorem wf_giveResult_getD {m n : Mach} {v j ref r keep} (h : m.memories.Wf) (hn : n.memories.Wf) :
    ((m.giveResult v j ref r keep).getD n).memories.Wf := by
  cases hg : m.giveResult v j ref r keep with
  | none => exact hn
  | some m' => exact wf_giveResult hg h
theorem wf_keepOutput {m m' : Mach} {v j ref b} (hg : m.keepOutput v j ref b = some m') (h : m.memories.Wf) :
    m'.memories.Wf := by
  unfold Mach.keepOutput at hg
  split at hg
  · cases hg
  · split at hg
    · cases hg; exact h
    · split at hg
      · cases hg
      · extract_lets out need taken at hg
        have ht {c n} (ht : taken = some (c, n)) : n.memories = m.memories := by
          refine memories_foldl_option (fun _ => rfl) (fun s m i s' m' hs => ?_) ht
          dsimp only at hs
          split at hs
          · next hf => cases hs; exact memories_takeFrom hf
          · cases hs
        clear_value taken
        split at hg
        · cases hg
        · rw [← ht rfl] at h
          extract_lets m₁ x x' at hg
          have h₁ : m₁.memories.Wf := wf_foldl (fun _ _ h => wf_devWrite h) h
          cases hg
          simpa using h₁
@[simp] theorem wf_seqOpen {m : Mach} {v j cmd} (h : m.memories.Wf) : (m.seqOpen v j cmd).memories.Wf := by
  unfold Mach.seqOpen
  split
  · exact h
  · extract_lets c ts fl g sp voc rl endTok ok t start sStart max mk force body
    clear_value ok t mk force body
    split
    · simpa using h
    · split
      · simpa using h
      · split
        · simpa using h
        · next hc =>
          have hm := wf_ctxCreate hc h
          dsimp only
          have forced {n : Mach} (hn : n.memories.Wf) :
              (if force then n.addFld Reg.grmForced 31 0 1 else n).memories.Wf := by
            split
            · simpa using hn
            · exact hn
          split
          · exact wf_giveResult_getD (by simpa using forced (by simpa using hm)) h
          · exact wf_giveResult_getD (forced (by simpa using hm)) h
theorem wf_finishSeq {m m' : Mach} {v j ref r} (hf : m.finishSeq v j ref r = some m') (h : m.memories.Wf) :
    m'.memories.Wf := by
  unfold Mach.finishSeq at hf
  split at hf
  · cases hf
  · next hk => exact wf_giveResult hf (by simpa using wf_keepOutput hk h)
@[simp] theorem wf_seqStep {m : Mach} {v j ref stepNo tok} (h : m.memories.Wf) :
    (m.seqStep v j ref stepNo tok).memories.Wf := by
  unfold Mach.seqStep
  split
  · exact h
  · split
    · simpa using h
    · extract_lets x fl steps again t gs st forced cur allowed b include_ stopR m₁ all w nx dead force depth hold ret
        y₁ y₂ y₃
        m₂ m₃ m₄ r fin
      have h₁ : m₁.memories.Wf := by simpa [m₁] using h
      have h₄ : m₄.memories.Wf := by
        unfold m₄; split <;> simpa [m₃, m₂] using h₁
      clear_value m₄ m₁ t cur allowed all ret stopR force
      have hf {n} (hf : fin = some n) : n.memories.Wf := by
        unfold fin at hf
        split at hf
        · exact wf_finishSeq hf (by simpa using h₁)
        · split at hf
          · exact wf_finishSeq hf h₁
          · split at hf
            · exact wf_finishSeq hf h₁
            · split at hf
              · exact wf_finishSeq hf (by simpa using h₁)
              · split at hf
                · cases hf
                · next hk => exact wf_giveResult hf (wf_keepOutput hk h₄)
      clear_value fin
      split
      · simpa [again] using h
      · split
        · exact wf_giveResult_getD h h
        · split
          · exact wf_giveResult_getD h h
          · cases fin with
            | none => exact h
            | some n => exact hf rfl
@[simp] theorem wf_dropSeq {m : Mach} {v j q} (h : m.memories.Wf) : (m.dropSeq v j q).memories.Wf := by
  refine wf_ctxRelease ?_
  split
  · rw [memories_setSess, memories_foldl _ (fun _ _ => memories_freeBuf _ _ _ _)]
    split <;> simpa using h
  · rw [memories_foldl _ (fun _ _ => memories_freeBuf _ _ _ _)]
    split <;> simpa using h
@[simp] theorem wf_seqClose {m : Mach} {v j ref} (h : m.memories.Wf) : (m.seqClose v j ref).memories.Wf := by
  unfold Mach.seqClose
  split
  · exact h
  · split
    · simpa using h
    · extract_lets ended done
      have hd {n} (hd : done = some n) : n.memories.Wf := by
        unfold done at hd
        split at hd
        · cases hd; exact h
        · exact wf_finishSeq hd h
      clear_value done
      split
      · exact h
      · have hn := hd rfl
        split
        · exact wf_dropSeq hn
        · exact hn
@[simp] theorem wf_seqCommand {m : Mach} {v j c} (h : m.memories.Wf) : (m.seqCommand v j c).memories.Wf := by
  unfold Mach.seqCommand
  split <;> simp [h]
@[simp] theorem wf_seqMessage {m : Mach} {v j b} (h : m.memories.Wf) : (m.seqMessage v j b).memories.Wf := by
  unfold Mach.seqMessage
  dsimp only
  split
  · exact wf_foldl (fun _ _ h => wf_seqCommand h) h
  · simpa using h
@[simp] theorem wf_sessionMessage {m : Mach} {v j q} (h : m.memories.Wf) : (m.sessionMessage v j q).memories.Wf := by
  unfold Mach.sessionMessage
  split
  · dsimp only
    split
    · split
      · exact wf_seqMessage (by simpa using h)
      · exact h
    · exact h
  · exact h
@[simp] theorem wf_sessionStart {m : Mach} {v c addr} (h : m.memories.Wf) : (m.sessionStart v c addr).memories.Wf := by
  refine wf_pipeTake (fun serial m h => ?_) h
  extract_lets fin b st
  have hfin {n : Mach} {r s} (hn : n.memories.Wf) : (fin n r s).memories.Wf := by simpa [fin] using hn
  clear_value fin
  split
  · exact hfin h
  · split
    · exact hfin h
    · split
      · exact hfin h
      · split
        · exact hfin h
        · split
          · exact hfin h
          · refine hfin ?_
            rw [memories_setJob]
            exact wf_foldl (fun _ _ h => wf_serve h) (by simpa using h)
@[simp] theorem wf_releaseSlot {m : Mach} {v j} (h : m.memories.Wf) : (m.releaseSlot v j).memories.Wf := by
  unfold Mach.releaseSlot
  (repeat' split) <;> simp [h]

/-! #### Machine/PortOps -/

@[simp] theorem wf_win4Store {m : Mach} {v used a bs} (h : m.memories.Wf) :
    (Mach.win4Store v used m a bs).memories.Wf := by
  induction bs generalizing m a with
  | nil => exact h
  | cons b r ih =>
    rw [Mach.win4Store]
    refine ih ?_
    split <;> simp [h]
@[simp] theorem wf_win4Write {m : Mach} {v p a bs} (h : m.memories.Wf) : (m.win4Write v p a bs).memories.Wf := by
  simp [Mach.win4Write, h]

/-! #### Machine/PsOps -/

@[simp] theorem wf_ps1Enter {m : Mach} {c} (h : m.memories.Wf) : (m.ps1Enter c).memories.Wf := by
  simp [Mach.ps1Enter, h]
@[simp] theorem wf_ps2Enter {m : Mach} {r} (h : m.memories.Wf) : (m.ps2Enter r).memories.Wf := by
  unfold Mach.ps2Enter
  extract_lets _ m₁ _ m₂
  have h₁ : m₁.memories.Wf := by
    refine wf_foldl (fun m c h => ?_) h
    exact wf_setClus h Memory.wf_nil
  have h₂ : m₂.memories.Wf := by
    clear_value m₁
    obtain ⟨hg, ht, hc⟩ := h₁
    refine ⟨hg, List.forall_mem_map.mpr fun p hp => ?_, hc⟩
    split
    · exact Memory.wf_nil
    · exact ht p hp
  simpa using h₂
@[simp] theorem wf_ps4Enter {m : Mach} {v} (h : m.memories.Wf) : (m.ps4Enter v).memories.Wf := by
  unfold Mach.ps4Enter
  extract_lets m₁ _ m₂ m₃
  have h₁ : m₁.memories.Wf := wf_foldl (f := fun m (w : CtxWay) => m.writeBack v w.slot) (fun _ _ h => wf_writeBack h) h
  clear_value m₁
  have h₂ : m₂.memories.Wf := h₁
  have h₃ : m₃.memories.Wf := wf_foldl (fun m p h => by simpa using h) h₂
  simpa using h₃
@[simp] theorem wf_tryPs1 {m : Mach} {v c} (h : m.memories.Wf) : (m.tryPs1 v c).memories.Wf := by
  simp [Mach.tryPs1, h]
theorem wf_psEnter {m : Mach} {s r ev} {f : Mach → Mach} (hf : ∀ m, m.memories.Wf → (f m).memories.Wf)
    (h : m.memories.Wf) : (m.psEnter s r ev f).memories.Wf :=
  psEnter_memories (Q := Memories.Wf) (fun n hn => hf n (hn ▸ h)) h
@[simp] theorem wf_tryPs2 {m : Mach} {v r ev} (h : m.memories.Wf) : (m.tryPs2 v r ev).memories.Wf := by
  unfold Mach.tryPs2
  split
  · exact wf_psEnter (fun _ h => wf_ps2Enter h) h
  · exact h
@[simp] theorem wf_tryPs4 {m : Mach} {v ev} (h : m.memories.Wf) : (m.tryPs4 v ev).memories.Wf := by
  unfold Mach.tryPs4
  split
  · exact wf_psEnter (fun _ h => wf_ps4Enter h) h
  · exact h
@[simp] theorem wf_tryRefused {m : Mach} {v r} (h : m.memories.Wf) : (m.tryRefused v r).memories.Wf := by
  unfold Mach.tryRefused
  (repeat' split) <;> simp [h]
@[simp] theorem wf_ps1Exit {m : Mach} {c} (h : m.memories.Wf) : (m.ps1Exit c).memories.Wf := by
  unfold Mach.ps1Exit
  split <;> simp [h]
@[simp] theorem wf_psEnforce {m : Mach} {v} (h : m.memories.Wf) : (m.psEnforce v).memories.Wf := by
  unfold Mach.psEnforce
  extract_lets top tol m₁ m₂
  have h₁ : m₁.memories.Wf := by
    unfold m₁; split <;> simpa using h
  have h₂ : m₂.memories.Wf := by
    unfold m₂; split
    · exact wf_foldl (fun m r h => by simpa using h) h₁
    · exact h₁
  split
  · refine wf_foldl (fun m p h => ?_) h₂
    split
    · exact wf_editClus h
    · exact h
  · exact h₂
@[simp] theorem wf_ps3Exit {m : Mach} {v failed} (h : m.memories.Wf) : (m.ps3Exit v failed).memories.Wf := by
  unfold Mach.ps3Exit
  split <;> simp [h]
@[simp] theorem wf_ps4Exit {m : Mach} {v failed} (h : m.memories.Wf) : (m.ps4Exit v failed).memories.Wf := by
  unfold Mach.ps4Exit
  split <;> simp [h]
@[simp] theorem wf_setWakeAt {m : Mach} {v val} (h : m.memories.Wf) : (m.setWakeAt v val).memories.Wf := by
  simp [Mach.setWakeAt, h]
@[simp] theorem wf_idleSlow {m : Mach} {v c} (h : m.memories.Wf) : (m.idleSlow v c).memories.Wf := by
  unfold Mach.idleSlow
  split <;> simp [h]

/-! #### Machine/RasOps -/

@[simp] theorem wf_applyDerate {m : Mach} {c} (h : m.memories.Wf) : (m.applyDerate c).memories.Wf := by
  simp [Mach.applyDerate, h]
@[simp] theorem wf_bandChange {m : Mach} {v c temp} (h : m.memories.Wf) : (m.bandChange v c temp).memories.Wf := by
  simp [Mach.bandChange, h]
@[simp] theorem wf_retire {m : Mach} {t reason} (h : m.memories.Wf) : (m.retire t reason).memories.Wf := by
  unfold Mach.retire
  extract_lets x c sp inj takes m₁ ras m₂ m₃ m₄
  have h₁ : m₁.memories.Wf := wf_setTile h Memory.wf_nil
  have h₂ : m₂.memories.Wf := h₁
  have h₄ : m₄.memories.Wf := wf_applyDerate (by simpa [m₃] using h₂)
  split
  · exact wf_takeover h₄
  · exact h₄
@[simp] theorem wf_quarantineTile {m : Mach} {t} (h : m.memories.Wf) : (m.quarantineTile t).memories.Wf := by
  unfold Mach.quarantineTile
  extract_lets _ m₁
  have h₁ : m₁.memories.Wf := wf_editTile h
  exact h₁
@[simp] theorem wf_beginStorm {m : Mach} {t} (h : m.memories.Wf) : (m.beginStorm t).memories.Wf := by
  simp [Mach.beginStorm, h]
@[simp] theorem wf_derateTile {m : Mach} {t mhz} (h : m.memories.Wf) : (m.derateTile t mhz).memories.Wf := by
  unfold Mach.derateTile
  extract_lets b inj _ m₁ ras m₂
  have h₁ : m₁.memories.Wf := wf_editTile h
  have h₂ : m₂.memories.Wf := by
    unfold m₂; split <;> exact h₁
  exact wf_applyDerate (by simpa using h₂)
@[simp] theorem wf_confirm {m : Mach} {t reason derateAt} (h : m.memories.Wf) :
    (m.confirm t reason derateAt).memories.Wf := by
  simp only [Mach.confirm]
  (repeat' split) <;> simp [h]
@[simp] theorem wf_suite {m : Mach} {r} (h : m.memories.Wf) : (m.suite r).2.memories.Wf := by
  have hi : m.injected.draw.memories.Wf := by simpa using h
  unfold Mach.suite
  generalize m.injected.draw = drawn at hi ⊢
  extract_lets t inj failed _ _ m₁ x mhz b m₂ m₃ m₄
  have h₁ : m₁.memories.Wf := by
    unfold m₁
    split
    · exact hi
    · exact h
  have h₂ : m₂.memories.Wf := wf_editTile h₁
  have h₃ : m₃.memories.Wf := by simpa [m₃] using h₂
  have h₄ : m₄.memories.Wf := by simpa [m₄] using h₃
  clear_value m₃ failed
  split
  · simpa using h₃
  · dsimp only
    rwa [memories_recordAs]
@[simp] theorem wf_slotSuite {m : Mach} {v r} (h : m.memories.Wf) : (m.slotSuite v r).memories.Wf := by
  simp only [Mach.slotSuite]
  (repeat' split) <;> simp [h]
@[simp] theorem wf_selftestSlot {m : Mach} {v r rs} (h : m.memories.Wf) : (m.selftestSlot v r rs).memories.Wf :=
  wf_foldl (fun _ _ h => wf_slotSuite h) h
@[simp] theorem wf_tileFault {m : Mach} {v r} (h : m.memories.Wf) : (m.tileFault v r).memories.Wf := by
  unfold Mach.tileFault
  split <;> simp [h]
@[simp] theorem wf_suites {m : Mach} {l} (h : m.memories.Wf) : (Mach.suites l m).2.memories.Wf := by
  induction l generalizing m with
  | nil => exact h
  | cons r rest ih =>
    rw [Mach.suites]
    split
    · exact ih (wf_suite h)
    · exact wf_suite h
@[simp] theorem wf_suspectEnd {m : Mach} {t rs d} (h : m.memories.Wf) : (m.suspectEnd t rs d).memories.Wf := by
  unfold Mach.suspectEnd
  extract_lets x p m₁ x' recent m₂ _ m₃
  have h₁ : m₁.memories.Wf := wf_suites h
  have h₂ : m₂.memories.Wf := wf_editTile h₁
  have h₃ : m₃.memories.Wf := h₂
  clear_value m₃
  split
  · exact h
  · split
    · split
      · exact wf_confirm h₃
      · exact h₃
    · exact wf_confirm h₁
@[simp] theorem wf_hardFault {m : Mach} {v t} (h : m.memories.Wf) : (m.hardFault v t).memories.Wf := by
  unfold Mach.hardFault
  split <;> simp [h]
@[simp] theorem wf_stormEnd {m : Mach} {w1c} (h : m.memories.Wf) : (m.stormEnd w1c).memories.Wf := by
  unfold Mach.stormEnd
  split
  · exact wf_foldl (fun _ _ h => wf_editTile h) (by simpa using h)
  · exact h
@[simp] theorem wf_spareTakeover {m : Mach} {c} (h : m.memories.Wf) : (m.spareTakeover c).memories.Wf := by
  simp [Mach.spareTakeover, h]
@[simp] theorem wf_derateClear {m : Mach} {go t} (h : m.memories.Wf) : (m.derateClear go t).memories.Wf := by
  unfold Mach.derateClear
  split
  · refine wf_applyDerate ?_
    rw [memories_mk, memories_fold]
    exact wf_editTile h
  · exact h
@[simp] theorem wf_applyMap {m : Mach} (h : m.memories.Wf) : (m.applyMap).memories.Wf := by
  refine wf_foldl (fun m p h => wf_applyDerate (wf_editTile h)) (wf_foldl (fun m t h => ?_) h)
  extract_lets x sp y m₁
  have h₁ : m₁.memories.Wf := wf_setTile h Memory.wf_nil
  split
  · exact wf_setTile h₁ (wf_tile h)
  · exact h₁
@[simp] theorem wf_tilesReady {m : Mach} {v rs} (h : m.memories.Wf) : (m.tilesReady v rs).memories.Wf := by
  unfold Mach.tilesReady
  split
  · rw [memories_setFld]
    refine wf_foldl (fun m r h => ?_) (wf_applyMap h)
    dsimp only
    split <;> simp [h]
  · exact h

/-! #### Machine/SystemOps -/

theorem wf_factory : Mach.factory.memories.Wf := ⟨Memory.wf_nil, List.forall_mem_nil _, List.forall_mem_nil _⟩
@[simp] theorem wf_resetCore {m : Mach} : m.resetCore.memories.Wf := wf_factory
@[simp] theorem wf_mainRailsOff {m : Mach} : m.mainRailsOff.memories.Wf := wf_factory
@[simp] theorem wf_warmReset {m : Mach} {v} : (m.warmReset v).memories.Wf := by
  unfold Mach.warmReset
  rw [memories_startBoot, memories_bootInit]
  split
  · exact wf_foldl (fun _ _ h => wf_setLimit h) wf_resetCore
  · exact wf_resetCore

/-! #### Machine/PowerCmds -/

@[simp] theorem wf_powerDown {m : Mach} : m.powerDown.memories.Wf := wf_factory
@[simp] theorem wf_hardDown {m : Mach} {cause} : (m.hardDown cause).memories.Wf := wf_factory

/-! #### Machine/SlotErr -/

@[simp] theorem wf_slotError {m : Mach} {v s} (h : m.memories.Wf) : (m.slotError v s).memories.Wf := by
  unfold Mach.slotError
  extract_lets x ref m₁ m₂ r
  have h₂ : m₂.memories.Wf := by simpa [m₂, m₁] using h
  clear_value m₂
  split
  · split <;> simpa using h₂
  · split
    · split
      · next hf => exact wf_finishSeq hf h₂
      · simpa using h₂
    · exact h₂
  · exact wf_queueError h₂
  · exact h₂
@[simp] theorem wf_slotFilled {m : Mach} {v s} (h : m.memories.Wf) : (m.slotFilled v s).memories.Wf := by
  simp only [Mach.slotFilled]
  (repeat' split) <;> simp [h]

/-! #### Machine/QueueCmds -/

@[simp] theorem wf_tileDeadlock {m : Mach} {t} (h : m.memories.Wf) : (m.tileDeadlock t).memories.Wf := by
  simp [Mach.tileDeadlock, h]
@[simp] theorem wf_dependencyMet {m : Mach} {c pos} (h : m.memories.Wf) : (m.dependencyMet c pos).memories.Wf := by
  unfold Mach.dependencyMet
  split <;> simp [h]
@[simp] theorem wf_workUnitTake {m : Mach} {v t} (h : m.memories.Wf) : (m.workUnitTake v t).memories.Wf := by
  unfold Mach.workUnitTake
  (repeat' split) <;> simp [h]
@[simp] theorem wf_spill {m : Mach} {c} (h : m.memories.Wf) : (m.spill c).memories.Wf := by
  unfold Mach.spill
  dsimp only
  split
  · split
    · split
      · next hp => exact wf_putEntry (by rwa [memories_placeDie hp])
      · exact h
    · exact h
  · exact h
@[simp] theorem wf_clusterDeadlock {m : Mach} {v c} (h : m.memories.Wf) : (m.clusterDeadlock v c).memories.Wf := by
  unfold Mach.clusterDeadlock
  extract_lets jobs m₁ _ m₂ _
  have h₁ : m₁.memories.Wf := by simpa [m₁] using h
  have h₂ : m₂.memories.Wf := wf_editClus h₁
  clear_value m₂
  split
  · exact h₂
  · exact h
@[simp] theorem wf_freeWaiting {m : Mach} {c j} (h : m.memories.Wf) : (m.freeWaiting c j).memories.Wf := by
  simp [Mach.freeWaiting, h]
@[simp] theorem wf_deadlockExamine {m : Mach} {c yft planned} (h : m.memories.Wf) :
    (m.deadlockExamine c yft planned).memories.Wf := by
  unfold Mach.deadlockExamine
  split
  · dsimp only
    refine wf_foldl (fun m j h => wf_freeWaiting (by simpa using h)) ?_
    rw [memories_record]
    exact wf_editClus h
  · exact h

/-! #### Machine/RegOps -/

/-- The machine that a function may answer has canonical memories. -/
def AnswersWf (o : Option Mach) : Prop := ∀ m, o = some m → m.memories.Wf
theorem answersWf_none : AnswersWf none := fun _ e => nomatch e
theorem answersWf_some {m : Mach} (h : m.memories.Wf) : AnswersWf (some m) := by
  rintro _ ⟨⟩
  exact h
theorem answersWf_ite {c : Prop} [Decidable c] {a b : Option Mach} (ha : AnswersWf a) (hb : AnswersWf b) :
    AnswersWf (if c then a else b) := by
  split
  · exact ha
  · exact hb
theorem wf_writeSpecial {m : Mach} {v w off val} (h : m.memories.Wf) : AnswersWf (m.writeSpecial v w off val) := by
  unfold Mach.writeSpecial
  iterate 5 refine answersWf_ite (answersWf_some (by simp [h])) ?_
  refine answersWf_ite (answersWf_ite answersWf_none (answersWf_some (by simpa using h))) ?_
  iterate 16 refine answersWf_ite (answersWf_some (by simp [h])) ?_
  split
  · exact answersWf_some (by split <;> simpa using h)
  · exact answersWf_some (by simpa using h)
  · exact answersWf_none
@[simp] theorem wf_writeReg {m : Mach} {v w off val} (h : m.memories.Wf) : (m.writeReg v w off val).memories.Wf := by
  unfold Mach.writeReg
  split
  · exact h
  · split
    · simpa using h
    · split
      · exact h
      · split
        · next hw => exact wf_writeSpecial h _ hw
        · simpa using h
@[simp] theorem wf_writeOne {m : Mach} {v l x} (h : m.memories.Wf) : (m.writeOne v l x).memories.Wf := by
  unfold Mach.writeOne
  (repeat' split) <;> simp [h]
@[simp] theorem wf_writeCycle {m : Mach} {v l} (h : m.memories.Wf) : (m.writeCycle v l).memories.Wf :=
  wf_foldl (fun _ _ h => wf_writeOne h) h
@[simp] theorem wf_regWrites {m : Mach} {v ws} (h : m.memories.Wf) : (m.regWrites v ws).memories.Wf :=
  wf_writeCycle (wf_writeCycle h)
@[simp] theorem wf_cfgWrite {m : Mach} {v w blk val also} (h : m.memories.Wf) :
    (m.cfgWrite v w blk val also).memories.Wf := by
  simp [Mach.cfgWrite, h]
@[simp] theorem wf_commitTilecfg {m : Mach} {v c} (h : m.memories.Wf) : (m.commitTilecfg v c).memories.Wf := by
  unfold Mach.commitTilecfg
  split
  · exact h
  · extract_lets _ m₁ l m₂
    have h₁ : m₁.memories.Wf := by
      unfold m₁; split <;> exact h
    have h₂ : m₂.memories.Wf := by
      refine wf_foldl (fun m t h => ?_) h₁
      dsimp only
      split
      · simpa using h
      · exact wf_editTile h
    clear_value m₂
    split <;> exact h₂
@[simp] theorem wf_commitEffect {m : Mach} {v c} (h : m.memories.Wf) : (m.commitEffect v c).memories.Wf := by
  unfold Mach.commitEffect
  split <;> simp [h]
@[simp] theorem wf_commitPoint {m : Mach} {v blk} (h : m.memories.Wf) : (m.commitPoint v blk).memories.Wf := by
  unfold Mach.commitPoint
  split
  · exact h
  · dsimp only
    rw [memories_addFld]
    exact wf_commitEffect (wf_foldl (fun m p h => by simpa using h) h)

end Sys2Proof.Machine
end

section
/-!
SUPPORT. The descriptors' operations, and every command, keep the memories in canonical form (01_architecture.md R44,
R45).
-/
namespace Sys2Proof.Machine

@[simp] theorem wf_failWith {m : Mach} {st} (h : m.memories.Wf) : (failWith m st).m.memories.Wf := h
section
variable {m : Mach} {v : Variant} {t : Nat} {d : List Byte} (h : m.memories.Wf)
include h
theorem wf_gougeHash : (gougeHash v m t d).m.memories.Wf := by
  unfold gougeHash; dsimp only
  (repeat' split) <;> simp [h]
theorem wf_gougeLookup : (gougeLookup v m t d).m.memories.Wf := by
  unfold gougeLookup; dsimp only
  (repeat' split) <;> simp [h]
theorem wf_gougeLzexec : (gougeLzexec v m t d).m.memories.Wf := by
  unfold gougeLzexec; dsimp only
  (repeat' split) <;> simp [h]
theorem wf_gougeHuff : (gougeHuff v m t d).m.memories.Wf := by
  unfold gougeHuff; dsimp only
  (repeat' split) <;> simp [h]
theorem wf_gougeTans : (gougeTans v m t d).m.memories.Wf := by
  unfold gougeTans; dsimp only
  (repeat' split) <;> simp [h]
theorem wf_gougeStep : (gougeStep v m t d).m.memories.Wf := by
  unfold gougeStep; dsimp only
  (repeat' split) <;> simp [h]
theorem wf_dmaRun {fields bad f} : (dmaRun v m t d fields bad f).m.memories.Wf := by
  unfold dmaRun; dsimp only
  (repeat' split)
  · exact h
  · exact h
  · exact wf_cntAdd h
  · refine wf_cntAdd ?_
    rw [memories_addFld]
    exact wf_foldl (fun _ _ h => wf_descWrite h) h
theorem wf_dmaCopy : (dmaCopy v m t d).m.memories.Wf := wf_dmaRun h
theorem wf_dmaFill : (dmaFill v m t d).m.memories.Wf := wf_dmaRun h
theorem wf_dmaCopy2d : (dmaCopy2d v m t d).m.memories.Wf := wf_dmaRun h
theorem wf_dmaCount : (dmaCount v m t d).m.memories.Wf := wf_dmaRun h
theorem wf_aesRun {srcN dstN mayUse} {f : Mach → KeyRec → DescOut} (hf : ∀ m k, m.memories.Wf → (f m k).m.memories.Wf) :
    (aesRun v m t d srcN dstN f mayUse).m.memories.Wf := by
  unfold aesRun; dsimp only
  (repeat' split)
  · exact h
  · exact wf_failWith (by simpa using h)
  · exact wf_failWith (by simpa using h)
  · exact h
  · exact hf _ _ (wf_editTile h)
theorem wf_aesDecrypt : (aesDecrypt v m t d).m.memories.Wf := by
  refine wf_aesRun h fun m k h => ?_
  dsimp only
  split <;> simp [h]
theorem wf_aesEncrypt : (aesEncrypt v m t d).m.memories.Wf :=
  wf_aesRun h fun m k h => wf_descWrite (by simpa using h)
end

/-- The outcome of a command, when it is a state, holds every memory in canonical form. -/
def NextWf (o : Res) : Prop := ∀ t, o = .next t → t.mach.memories.Wf

theorem nextWf_act {f : Variant → Mach → Mach} {s : State} (h : (f s.variant s.mach).memories.Wf) :
    NextWf (act f s) := by
  rintro _ ⟨⟩
  exact h
theorem nextWf_doing {f : Mach → Mach} {s : State} (h : (f s.mach).memories.Wf) : NextWf (doing f s) := nextWf_act h
theorem nextWf_onTile {t : TileId} {i : Tile → TInstr} {s : State} (h : s.mach.memories.Wf) : NextWf (onTile t i s) :=
  nextWf_act (wf_tileInstr h)
theorem nextWf_runDesc {t : TileId} {e op f} {s : State}
    (hf : ∀ m d, m.memories.Wf → (f s.variant m t.val d).m.memories.Wf) (h : s.mach.memories.Wf) :
    NextWf (act (fun v m => m.runDesc v t.val e op f) s) :=
  nextWf_act (wf_runDesc hf h)

theorem nextWf_offRecord {s : State} (h : s.mach.memories.Wf) : NextWf (execOffRecord s) := by
  refine nextWf_doing ?_
  split
  · split <;> exact h
  · exact h
theorem nextWf_svcReqRelease {s : State} (h : s.mach.memories.Wf) : NextWf (execSvcReqRelease s) := by
  refine nextWf_doing ?_
  dsimp only
  split <;> exact h
theorem nextWf_mgmtRequest {s : State} {req} (h : s.mach.memories.Wf) : NextWf (execMgmtRequest req s) := by
  refine nextWf_act ?_
  dsimp only
  (repeat' split) <;> simpa using h
theorem nextWf_flowLossDeadline {s : State} (h : s.mach.memories.Wf) : NextWf (execFlowLossDeadline s) := by
  refine nextWf_act ?_
  dsimp only
  split
  · exact h
  · split
    · exact wf_powerDown
    · simpa using h
theorem nextWf_coresRelease {s : State} (h : s.mach.memories.Wf) : NextWf (execCoresRelease s) := by
  refine nextWf_act ?_
  dsimp only
  (repeat' split) <;> simpa using h
theorem nextWf_firmwareImageDownload {s : State} {n slot image} (h : s.mach.memories.Wf) :
    NextWf (execFirmwareImageDownload n slot image s) := by
  refine nextWf_act ?_
  rw [memories_nvmeServe]
  · exact h
  · dsimp only
    (repeat' split) <;> simp
theorem nextWf_firmwareCommit {s : State} {n slot action} (h : s.mach.memories.Wf) :
    NextWf (execFirmwareCommit n slot action s) := by
  refine nextWf_act ?_
  rw [memories_nvmeServe]
  · exact h
  · dsimp only
    (repeat' split) <;> simp
theorem nextWf_liveUpdateCore {s : State} {pass} (h : s.mach.memories.Wf) : NextWf (execLiveUpdateCore pass s) := by
  refine nextWf_doing ?_
  dsimp only
  split
  · exact h
  · (repeat' split) <;> simpa using h
theorem nextWf_securityReceive {s : State} {n alloc} (h : s.mach.memories.Wf) :
    NextWf (execSecurityReceive n alloc s) := by
  refine nextWf_act ?_
  rw [memories_nvmeServe]
  · exact h
  · (repeat' split) <;> simp
theorem nextWf_recordEmit {s : State} {j epoch pos} (h : s.mach.memories.Wf) :
    NextWf (execRecordEmit j epoch pos s) := by
  refine nextWf_doing ?_
  rwa [memories_settleDigests, memories_recordEmit]
theorem nextWf_keyRevoke {s : State} {n k} (h : s.mach.memories.Wf) : NextWf (execKeyRevoke n k s) := by
  refine nextWf_doing ?_
  unfold Mach.nvmeServe
  split
  · split
    · simpa using h
    · exact wf_keyRevoke h
  · exact h

/-- Every command keeps every memory in canonical form. -/
theorem nextWf_exec {s : State} (c : Instr) (h : s.mach.memories.Wf) : NextWf (exec c s) := by
  cases c with
  | add | sub | andI | orI | xor | shl | shr | sar | ror | slt | sltu | minI | maxI | minu | maxu | mul | mulh | mulhu
  | div | divu | rem | remu | clz | ctz | popc | bswap | addi | andi | ori | xori | shi | lui | slti | sltiu | li |
  beq | bne | blt | bge | bltu | bgeu | jal | jalr | load | store | vld | vst | vfpAdd | vfpSub | vfpMul | vfpDiv |
  sqrt | vfpMin | vfpMax | vfpAbs | neg | floor | ceil | trunc | rint | vintAdd | vintSub | adds | addus | subs |
  subus | vintMul | madd | vintMin | vintMax | vintMinu | vintMaxu | mulhs | vintMulhu | absdiffu | vbitAnd | vbitOr |
  vbitXor | andn | vbitShl | vbitShr | vbitSar | shli | shri | sari | vbitAbs | avgu | vcmpEq | vcmpNe | vcmpLt |
  vcmpLe | vcmpLtu | vcmpLeu | unord | rev | ziplo | ziphi | unzipe | unzipo | dup | compress | sel | vtbl | vgather |
  vscatter | fma | fms | fnma | fnms | vdot | vcmx | vcvt | sumI | vredMin | vredMax | sumw | predAnd | predOr |
  predXor | predAndn | notI | predFromG | predToG | predFirstN | predPopc | vtog | gtov | gbcast | vmov | csrr | csrw
  | wait | signal | trywait | fence | gq | aq | dq | nopI | done | trap | crc32cb | crc32ch | crc32cw | crc32cd |
  ghinit | ghstep | ghfin | vhashGhinit | vhashGhstep | vhashGhfin | vhashCrc32cd | rngctr =>
    unfold exec
    exact nextWf_onTile h
  | registerWrite | commit | discard | commitPoint | dieFault | standbyLost | railFault | pwrOkRise | modEnFall |
  bulkDepleted | emergOff | overvoltage | junctionTrip | modReset | svcReq | gddr7Ready | tilesReady | toolRestReady |
  bootWatchdog | win4Read | win4Write | securitySend | securityProtocolList | migrationNonce | waitRelease |
  entryPlace | workUnitTake | entryCollect | clusterDeadlock | scrubRead | retrainStart | memRetrainReq | ctxCreate |
  ctxFree | ctxCheckout | ctxMissFill | ctxCheckin | ctxFlush | jobStart | sampleFetch | batchEmit | jobRelease |
  dcLookup | dcOffer | dcInsert | codec | codecComplete | sessionStart | sessionMessage | openI | step | closeI |
  nonce | prepare | imageStaged | linkUp | bringupRetry | write | readReq | readResp | fetchAdd | cas | atomicResp |
  send | ack | nak | retransmit | readTimeout | yftWrite | yftRead | yftFetchAdd | yftCas | yftSend | yftNop |
  queueDrainEnd | keycmdCreate | yftQcreate | nodePath | channelRecal | flmRecalReq | ps1Enter | ps2Enter | ps3Enter |
  ps3Exit | ps4Enter | ps4Exit | knownEventWake | pwrWakeAt | idleSlowLimit | selftestSlot | hardFault |
  suspectConfirmation | stormEnd | spareTakeover | rasDerateClear | eccCe | eccUe | laneLoss | tileFault | programFail
  | psRefuse | marginReading | derateBandChange =>
    unfold exec
    exact nextWf_act (by simp [h])
  | hotSwapClose | standbyUp | modEnRise | coolantCheck | railsInRegulation | undervoltageDetect | quiesceComplete |
  quiesceTimeout | wakeIn | flowLossDetect | flowRecovery | inletHigh | inletClear | throttleStart | throttleEnd |
  powerLimitEngage | powerLimitRelease | supplySample | carrierPgFall | carrierPgRise | ftlMount | stageReady |
  linkTraining | configSpaceReady | perstAssert | hotReset | surpriseDown | d3hot | ccEn | ccDisable | cstsRdy | ltr |
  keyRequest | migrationAttestation | migrationPackage | migrationReceipt | adoptSel | clockStep | tableSetLoaded |
  tileDeadlock | dependencyMet | spill | deadlockExamine | refresh | retrainEnd | memHostLimit | alloc | free |
  chuckRefill | poolEnable | poolDisable | launch | jobCancel | batchStart | augReady | segmentReuse | keyCreate |
  keyImport | keyNarrow | keyDestroy | keyList | outputFrameWrite | syncPeriod | sync | syncReply | holdoverEnter |
  unsyncEnter | spnSet | spnMgrNode | hello | join | welcome | refuse | ready | refusePlan | prepareTimeout | go |
  cancel | report | lost | leave | workerSilent | time | linkDown | spareHello | laneDegrade | spareReq | spareAck |
  spareDone | spareAbandon | req | revert | cmisPoll | oeInterrupt | oeRemoval | oeInsertion | marginSweep | ackTimer
  | pathProbe | xptDoorbell | xptQdelete | xptCqConsumed | keycmdInvalidate | createIoSq | deleteIoSq | createIoCq |
  deleteIoCq | getLogPage | identify | abort | setFeatures | getFeatures | asyncEventRequest | namespaceCreate |
  namespaceDelete | namespaceAttach | namespaceDetach | nvmeMiSend | nvmeMiReceive | readNvmeMiDataStructure |
  subsystemHealthStatusPoll | controllerHealthStatusPoll | configurationGet | configurationSet | vpdRead | formatNvm |
  blockErase | cryptoErase | exitFailureMode | overwrite | raiseSecurityVersion | createPipelineQueue |
  deletePipelineQueue | flush | nvmWrite | nvmRead | writeZeroes | datasetManagement | reservationRegister |
  reservationReport | reservationAcquire | reservationRelease | sqTail | cqHead | yftQconnect | pipeNop | handover |
  claim | flashRead | flashProgramFail | fold | gcCollect | journalPageProgram | checkpoint | dieFailure |
  mediaTimeTick | flmMediaTime | flmStoredCfg | ps1Exit | ps2Exit | resample | injectionDisarm | recordToNor |
  evrRdSeq | evrRdLoaded | inputReturn | rootOfTrustFault | sensorCalibration | ctxFlushComplete | sanitizeComplete |
  formatComplete | d3hotExit | linkPowerStateChange | marginingCommand | configurationRequest | swapRepeat |
  nonYftFrame | workerRejoin =>
    unfold exec
    exact nextWf_doing (by simp [h])
  | gougeHash => unfold exec; exact nextWf_runDesc (fun _ _ h => wf_gougeHash h) h
  | gougeLookup => unfold exec; exact nextWf_runDesc (fun _ _ h => wf_gougeLookup h) h
  | gougeLzexec => unfold exec; exact nextWf_runDesc (fun _ _ h => wf_gougeLzexec h) h
  | gougeHuff => unfold exec; exact nextWf_runDesc (fun _ _ h => wf_gougeHuff h) h
  | gougeTans => unfold exec; exact nextWf_runDesc (fun _ _ h => wf_gougeTans h) h
  | gougeStep => unfold exec; exact nextWf_runDesc (fun _ _ h => wf_gougeStep h) h
  | aesDecrypt => unfold exec; exact nextWf_runDesc (fun _ _ h => wf_aesDecrypt h) h
  | aesEncrypt => unfold exec; exact nextWf_runDesc (fun _ _ h => wf_aesEncrypt h) h
  | dmaCopy => unfold exec; exact nextWf_runDesc (fun _ _ h => wf_dmaCopy h) h
  | dmaFill => unfold exec; exact nextWf_runDesc (fun _ _ h => wf_dmaFill h) h
  | dmaCopy2d => unfold exec; exact nextWf_runDesc (fun _ _ h => wf_dmaCopy2d h) h
  | dmaCount => unfold exec; exact nextWf_runDesc (fun _ _ h => wf_dmaCount h) h
  | offRecord => exact nextWf_offRecord h
  | svcReqRelease => exact nextWf_svcReqRelease h
  | mgmtRequest => exact nextWf_mgmtRequest h
  | flowLossDeadline => exact nextWf_flowLossDeadline h
  | coresRelease => exact nextWf_coresRelease h
  | firmwareImageDownload => exact nextWf_firmwareImageDownload h
  | firmwareCommit => exact nextWf_firmwareCommit h
  | liveUpdateCore => exact nextWf_liveUpdateCore h
  | securityReceive => exact nextWf_securityReceive h
  | recordEmit => exact nextWf_recordEmit h
  | keyRevoke => exact nextWf_keyRevoke h

/-- Settles O55: every command keeps the memories canonical, and a tick writes none. -/
theorem memoriesKept : Obligations.MemoriesKept := by
  intro s t hst hs
  obtain ⟨-, rfl⟩ | ⟨c, r, m, -, hc, rfl⟩ := step_cases hst
  · exact (memoriesWf_iff _).mpr (by simpa using (memoriesWf_iff _).mp hs)
  · exact nextWf_exec (s := { s with pending := r }) c hs _ hc

end Sys2Proof.Machine
end

section
/-!
SUPPORT. A die out of service (01_architecture.md R31, 06_synchronisation_and_work_stealing.md R237): what its loss does
to its tiles and queues, what it leaves, and that nothing that moves off it comes back to it.
-/
namespace Sys2Proof.Machine

/-- A function of the values that an edit of every value keeps reads the same after the edit. -/
theorem mapGet_map_values {α β : Type} (π : α → β) {g : α → α} (hg : ∀ x, π (g x) = π x) (d : Nat → α) (s : SMap α)
    (k : Nat) : π (mapGet d (s.map (fun p => (p.1, g p.2))) k) = π (mapGet d s k) := by
  induction s with
  | nil => rfl
  | cons p s ih =>
    simp only [List.map_cons, mapGet]
    split
    · exact hg p.2
    · exact ih

/-! #### What a job's end, a queue entry and a dropped unit leave -/

/-- Boot state, flash, and the dies out of service. -/
def Mach.beyondWork (m : Mach) : Boot × Flash × List Nat := (m.boot, m.ftl, m.tl.diesOut)

@[simp] theorem tl_jobFail (m : Mach) (j code) : (m.jobFail j code).tl = m.tl := by
  unfold Mach.jobFail Mach.jobEnd
  (repeat' split) <;> simp
@[simp] theorem tl_runRecords (m : Mach) (job seq runs n) : (m.runRecords job seq runs n).tl = m.tl := by
  induction runs generalizing m n with
  | nil => rfl
  | cons r rest ih => rw [Mach.runRecords, ih]; split <;> simp
@[simp] theorem tl_notifyLast (m : Mach) : m.notifyLast.tl = m.tl := by
  unfold Mach.notifyLast; split <;> rfl
@[simp] theorem tiles_putEntry (m : Mach) (l e) : (m.putEntry l e).tl.tiles = m.tl.tiles := by
  cases l <;> rfl
@[simp] theorem tiles_afterRun (m : Mach) (l e r) : (m.afterRun l e r).tl.tiles = m.tl.tiles := by
  unfold Mach.afterRun; dsimp only
  (repeat' split) <;> simp

@[simp] theorem beyondWork_record (m : Mach) (typ src st pl) : (m.record typ src st pl).beyondWork = m.beyondWork := by
  simp [Mach.beyondWork]
@[simp] theorem beyondWork_notifyLast (m : Mach) : m.notifyLast.beyondWork = m.beyondWork := by
  unfold Mach.notifyLast; split <;> rfl
@[simp] theorem beyondWork_jobFail (m : Mach) (j code) : (m.jobFail j code).beyondWork = m.beyondWork := by
  unfold Mach.jobFail Mach.jobEnd
  (repeat' split) <;> simp [Mach.beyondWork]
@[simp] theorem beyondWork_runRecords (m : Mach) (job seq runs n) :
    (m.runRecords job seq runs n).beyondWork = m.beyondWork := by
  induction runs generalizing m n with
  | nil => rfl
  | cons r rest ih => rw [Mach.runRecords, ih]; split <;> simp
@[simp] theorem beyondWork_setTile (m : Mach) (t x) : (m.setTile t x).beyondWork = m.beyondWork := rfl
@[simp] theorem beyondWork_setClus (m : Mach) (c x) : (m.setClus c x).beyondWork = m.beyondWork := rfl
@[simp] theorem beyondWork_putEntry (m : Mach) (l e) : (m.putEntry l e).beyondWork = m.beyondWork := by
  cases l <;> rfl
@[simp] theorem beyondWork_afterRun (m : Mach) (l e r) : (m.afterRun l e r).beyondWork = m.beyondWork := by
  unfold Mach.afterRun; dsimp only
  (repeat' split) <;> simp
@[simp] theorem beyondWork_unitDrop (m : Mach) (t how keep) : (m.unitDrop t how keep).beyondWork = m.beyondWork := by
  unfold Mach.unitDrop; dsimp only
  (repeat' split) <;> simp
@[simp] theorem beyondWork_placeCluster (m : Mach) (c e) : ((m.placeCluster c e).getD m).beyondWork = m.beyondWork := by
  unfold Mach.placeCluster; dsimp only
  split <;> rfl
theorem beyondWork_foldl {β : Type} {f : Mach → β → Mach} (h : ∀ m x, (f m x).beyondWork = m.beyondWork) (l : List β)
    (m : Mach) : (l.foldl f m).beyondWork = m.beyondWork := by
  induction l generalizing m with
  | nil => rfl
  | cons x l ih => rw [List.foldl_cons, ih, h]
@[simp] theorem beyondWork_moveGrant (m : Mach) (v g es) : (m.moveGrant v g es).beyondWork = m.beyondWork := by
  unfold Mach.moveGrant; dsimp only
  split
  · rw [beyondWork_jobFail]; rfl
  · split
    · rw [beyondWork_jobFail]; rfl
    · rw [beyondWork_foldl fun m e => by simp]; rfl

/-! #### A dropped unit's tile does not run -/

theorem tile_unitDrop (m : Mach) (t u how keep) :
    (m.unitDrop t how keep).tile u = if u = t then (m.tile t).endUnit keep else m.tile u := by
  have htiles : (m.unitDrop t how keep).tl.tiles = (m.setTile t ((m.tile t).endUnit keep)).tl.tiles := by
    unfold Mach.unitDrop; dsimp only
    (repeat' split) <;> simp
  rw [Mach.tile, htiles]
  exact Mach.tile_setTile m t u _

theorem running_foldl_unitDrop {l : List Nat} {m : Mach} {t : Nat} {how keep}
    (h : t ∈ l ∨ (m.tile t).running = false) :
    ((l.foldl (fun m t => m.unitDrop t how keep) m).tile t).running = false := by
  induction l generalizing m with
  | nil => exact h.resolve_left (List.not_mem_nil)
  | cons u l ih =>
    refine ih ?_
    rw [tile_unitDrop]
    by_cases hu : t = u
    · exact .inr (by rw [if_pos hu]; rfl)
    · rw [if_neg hu]
      exact h.imp_left fun hm => (List.mem_cons.mp hm).resolve_left hu

/-! #### A die out of service -/

/-- The die is listed as out, none of its tiles runs a unit, and its queues hold nothing. -/
structure DieGone (d : Nat) (m : Mach) : Prop where
  out : d ∈ m.tl.diesOut
  idle : ∀ t, t / 128 = d → (m.tile t).running = false
  rings : ∀ c, c / 8 = d → (m.clus c).ring = []
  queue : m.dieQueue d = []

namespace DieGone
variable {d : Nat} {m n : Mach}

theorem of_tl (h : DieGone d m) (e : n.tl = m.tl) : DieGone d n := by
  obtain ⟨hout, hidle, hrings, hqueue⟩ := h
  constructor
  · rwa [e]
  · simpa only [Mach.tile, e] using hidle
  · simpa only [Mach.clus, e] using hrings
  · simpa only [Mach.dieQueue, e] using hqueue

theorem foldl {β : Type} {f : Mach → β → Mach} {l : List β} (hf : ∀ m, ∀ x ∈ l, DieGone d m → DieGone d (f m x))
    (h : DieGone d m) : DieGone d (l.foldl f m) :=
  List.foldlRecOn l f h fun m hm x hx => hf m x hx hm

/-- A cluster of another die may be put back. -/
theorem setClus {c : Nat} {x : Cluster} (hc : c / 8 ≠ d) (h : DieGone d m) : DieGone d (m.setClus c x) where
  out := h.out
  idle := h.idle
  rings k hk := by
    have hne : k ≠ c := by
      rintro rfl
      exact hc hk
    rw [Mach.clus_setClus, if_neg hne]
    exact h.rings k hk
  queue := h.queue

theorem placeCluster {c e} (hc : c / 8 ≠ d) (h : DieGone d m) : DieGone d ((m.placeCluster c e).getD m) := by
  unfold Mach.placeCluster; dsimp only
  split
  · exact h.setClus hc
  · exact h

theorem putGrant {g val} (hc : g.cluster / 8 ≠ d) (h : DieGone d m) : DieGone d (m.putGrant g val) := by
  unfold Mach.putGrant
  extract_lets x sram m₁
  have h₁ : DieGone d m₁ := h.setClus hc
  exact ⟨h₁.out, h₁.idle, h₁.rings, h₁.queue⟩

/-- A grant moves to a cluster whose die is in service, so its entries do not come to this die. -/
theorem moveGrant {v g es} (h : DieGone d m) : DieGone d (m.moveGrant v g es) := by
  unfold Mach.moveGrant
  extract_lets _ m₁ plan
  have h₁ : DieGone d m₁ := ⟨h.out, h.idle, h.rings, h.queue⟩
  clear_value m₁
  split
  · exact h₁.of_tl (tl_jobFail _ _ _)
  · next c hc =>
    have hd : c / 8 ≠ d := by
      have hserve := List.find?_some hc
      simp only [Mach.canServe, Bool.and_eq_true, Bool.not_eq_true'] at hserve
      obtain ⟨⟨⟨⟨-, hout⟩, -⟩, -⟩, -⟩ := hserve
      rintro rfl
      exact absurd h₁.out (by simpa using hout)
    split
    · exact h₁.of_tl (tl_jobFail _ _ _)
    · next g' hg =>
      have hg' : g'.cluster = c := by
        unfold Mach.grantFor at hg
        dsimp only at hg
        split at hg <;> cases hg
        rfl
      extract_lets m₂ m₃ redirect _ m₄
      have h₂ : DieGone d m₂ := h₁.putGrant (hg' ▸ hd)
      have h₃ : DieGone d m₃ := h₂.setClus hd
      have h₄ : DieGone d m₄ := by
        refine ⟨h₃.out, fun t ht => ?_, h₃.rings, h₃.queue⟩
        rw [← h₃.idle t ht]
        exact mapGet_map_values Tile.running
          (g := fun x => { x with heldAdds := x.heldAdds.foldl (fun s q => mapSet s (redirect q.1) q.2) [] })
          (fun _ => rfl) _ _ _
      exact h₄.foldl fun m e _ h => h.placeCluster hd

end DieGone

theorem dieGone_dieFault (m : Mach) (v d cause) : DieGone d (m.dieFault v d cause) := by
  unfold Mach.dieFault
  extract_lets m₁ lost lost₁ _ m₂ lost₂ m₃ rest m₄
  have hidle (t : Nat) (ht : t / 128 = d) : (m₁.tile t).running = false := by
    refine running_foldl_unitDrop (.inl (List.mem_map.mpr ⟨t % 128, List.mem_range.mpr (by omega), by omega⟩))
  clear_value m₁
  have h₂ : DieGone d m₂ := by
    refine ⟨?_, hidle, fun c hc => ?_, mapGet_erase_same _ _ _⟩
    · show d ∈ if _ then _ else _
      split
      · next h => simpa using h
      · simp
    · refine mapGet_of_forall_key (P := fun x : Cluster => x.ring = []) rfl (List.forall_mem_map.mpr fun p _ hp => ?_)
      split at hp
      · next hd => rw [if_pos hd]
      · next hd => exact absurd (hp ▸ hc) hd
  have h₃ : DieGone d m₃ := h₂.foldl fun _ _ _ h => h.moveGrant
  have h₄ : DieGone d m₄ := h₃.foldl fun _ e he h => h.placeCluster (by simpa using (List.mem_filter.mp he).2)
  exact h₄.of_tl (by simp)

theorem kept_dieFault (m : Mach) (v d cause) : (m.dieFault v d cause).boot = m.boot ∧
    (m.dieFault v d cause).ftl = m.ftl ∧ ∀ k ∈ m.tl.diesOut, k ∈ (m.dieFault v d cause).tl.diesOut := by
  unfold Mach.dieFault
  extract_lets m₁ lost lost₁ _ m₂ lost₂ m₃ rest m₄
  have h₁ : m₁.beyondWork = m.beyondWork := beyondWork_foldl (fun m t => by simp) _ _
  clear_value m₁
  have h₄ : m₄.beyondWork = m₂.beyondWork :=
    (beyondWork_foldl (fun m e => by simp) _ _).trans (beyondWork_foldl (fun m g => by simp) _ _)
  have hlast (typ src st pl) : (m₄.record typ src st pl).notifyLast.beyondWork = m₂.beyondWork := by simpa using h₄
  clear_value m₄
  simp only [Mach.beyondWork, Prod.mk.injEq] at h₁ hlast
  obtain ⟨hboot, hftl, hout⟩ := h₁
  obtain ⟨hboot', hftl', hout'⟩ := hlast 0x0019 (sourceOf 4 d) St.internal (payloadOf [(4, cause)])
  refine ⟨hboot'.trans hboot, hftl'.trans hftl, fun k hk => ?_⟩
  rw [← hout] at hk
  rw [hout']
  show k ∈ if _ then _ else _
  split
  · exact hk
  · exact List.mem_append_left _ hk

theorem exec_dieFault (s : State) (d : DieId) (cause : BitVec 32) : exec (.dieFault d cause) s =
    .next { s with mach :=
      if d.val < dieCount s.variant then s.mach.dieFault s.variant d.val cause.toNat else s.mach } := rfl

/-- Settles O20: the fault empties the die and lists it as out, and what moves off it goes to clusters of dies in
service. -/
theorem dieLoss : Obligations.DieLoss := by
  intro s d cause
  refine ⟨fun hd => ⟨_, exec_dieFault s d cause, ?_⟩, fun hd => ⟨_, exec_dieFault s d cause, if_neg (by omega)⟩⟩
  rw [if_pos hd]
  obtain ⟨hout, hidle, hrings, hqueue⟩ := dieGone_dieFault s.mach s.variant d.val cause.toNat
  obtain ⟨hboot, hftl, hkept⟩ := kept_dieFault s.mach s.variant d.val cause.toNat
  exact ⟨hout, hidle, hrings, hqueue, hkept, hboot, hftl⟩

end Sys2Proof.Machine
end

section
/-!
SUPPORT. Fields of registers: which bits a field holds, what a field or a bit reads after another is written, and that
the making of a record writes EVR_STATUS alone.
-/
namespace Sys2Proof

/-- Bit i of a number with bits [hi:lo] replaced. -/
theorem testBit_putBits {n hi lo v i : Nat} (h : lo ≤ hi) :
    (putBits n hi lo v).testBit i = if lo ≤ i ∧ i ≤ hi then v.testBit (i - lo) else n.testBit i := by
  have hlow : n % 2 ^ lo < 2 ^ lo := Nat.mod_lt _ (Nat.two_pow_pos _)
  have hmid : 2 ^ lo * (v % 2 ^ (hi + 1 - lo)) + n % 2 ^ lo < 2 ^ (hi + 1) := by
    have hv : v % 2 ^ (hi + 1 - lo) + 1 ≤ 2 ^ (hi + 1 - lo) := Nat.mod_lt _ (Nat.two_pow_pos _)
    have hp : 2 ^ lo * 2 ^ (hi + 1 - lo) = 2 ^ (hi + 1) := by rw [← Nat.pow_add]; congr 1; omega
    have hm := Nat.mul_le_mul_left (2 ^ lo) hv
    rw [hp, Nat.mul_add] at hm
    omega
  rw [putBits, Nat.add_assoc, Nat.mul_comm, Nat.mul_comm (v % _), Nat.testBit_two_pow_mul_add _ hmid,
    Nat.testBit_two_pow_mul_add _ hlow, Nat.testBit_mod_two_pow, Nat.testBit_mod_two_pow, Nat.testBit_div_two_pow]
  by_cases h1 : i < lo
  · rw [if_pos (by omega), if_pos h1, if_neg (by omega), decide_eq_true h1, Bool.true_and]
  · by_cases h2 : i ≤ hi
    · rw [if_pos (by omega), if_neg h1, if_pos (by omega), decide_eq_true (by omega), Bool.true_and]
    · rw [if_neg (by omega), if_neg (by omega)]
      congr 1; omega

/-- Bit i of a word with bits [hi:lo] replaced. -/
theorem getLsbD_putField {w : U64} {hi lo v i : Nat} (h : lo ≤ hi) (h64 : hi < 64) :
    (putField w hi lo v).getLsbD i = if lo ≤ i ∧ i ≤ hi then v.testBit (i - lo) else w.getLsbD i := by
  rw [putField, BitVec.getLsbD_ofNat, testBit_putBits h]
  by_cases hi64 : i < 64
  · rw [decide_eq_true hi64, Bool.true_and]; rfl
  · rw [decide_eq_false hi64, Bool.false_and, if_neg (by omega), BitVec.getLsbD_of_ge _ _ (by omega)]

/-- Bit i of a field. -/
theorem testBit_bitsOf (n hi lo i : Nat) :
    (bitsOf n hi lo).testBit i = (decide (i < hi + 1 - lo) && n.testBit (lo + i)) := by
  rw [bitsOf, Nat.testBit_mod_two_pow, Nat.testBit_div_two_pow, Nat.add_comm i]

theorem testBit_fieldOf (w : U64) (hi lo i : Nat) :
    (fieldOf w hi lo).testBit i = (decide (i < hi + 1 - lo) && w.getLsbD (lo + i)) := testBit_bitsOf _ _ _ _

/-- A field that was written reads the bits that fit. -/
theorem fieldOf_putField_same (w : U64) {hi lo : Nat} (v : Nat) (h : lo ≤ hi) (h64 : hi < 64) :
    fieldOf (putField w hi lo v) hi lo = v % 2 ^ (hi + 1 - lo) := by
  refine Nat.eq_of_testBit_eq fun i => ?_
  rw [testBit_fieldOf, getLsbD_putField h h64, Nat.testBit_mod_two_pow]
  by_cases hi' : i < hi + 1 - lo
  · rw [if_pos (by omega), Nat.add_sub_cancel_left]
  · simp [hi']

/-- A field apart from the one that was written reads as before. -/
theorem fieldOf_putField_apart (w : U64) {hi lo a b : Nat} (v : Nat) (h : lo ≤ hi) (h64 : hi < 64) (ha : a < lo ∨ hi < b) :
    fieldOf (putField w hi lo v) a b = fieldOf w a b := by
  refine Nat.eq_of_testBit_eq fun i => ?_
  rw [testBit_fieldOf, testBit_fieldOf, getLsbD_putField h h64]
  by_cases hi' : i < a + 1 - b
  · rw [if_neg (by omega)]
  · simp [hi']

namespace Machine

@[simp] theorem Mach.fld_setFld_same (m : Mach) (off : Nat) {hi lo : Nat} (x : Nat) (h : lo ≤ hi) (h64 : hi < 64) :
    (m.setFld off hi lo x).fld off hi lo = x % 2 ^ (hi + 1 - lo) := by
  rw [Mach.fld, Mach.setFld, Mach.reg_setReg_same, fieldOf_putField_same _ _ h h64]

@[simp] theorem Mach.fld_setFld_apart (m : Mach) (off : Nat) {hi lo a b : Nat} (x : Nat) (h : lo ≤ hi) (h64 : hi < 64)
    (ha : a < lo ∨ hi < b) : (m.setFld off hi lo x).fld off a b = m.fld off a b := by
  rw [Mach.fld, Mach.setFld, Mach.reg_setReg_same, fieldOf_putField_apart _ _ h h64 ha]; rfl

@[simp] theorem Mach.fld_setBit_apart (m : Mach) (off : Nat) {i a b : Nat} (x : Bool) (h64 : i < 64) (ha : a < i ∨ i < b) :
    (m.setBit off i x).fld off a b = m.fld off a b := Mach.fld_setFld_apart m off _ le_rfl h64 ha

@[simp] theorem Mach.bit_setBit_same (m : Mach) (off : Nat) {i : Nat} (x : Bool) (h64 : i < 64) :
    (m.setBit off i x).bit off i = x := by
  rw [Mach.bit, Mach.setBit, Mach.setFld, Mach.reg_setReg_same, getLsbD_putField le_rfl h64, if_pos ⟨le_rfl, le_rfl⟩,
    Nat.sub_self]
  cases x <;> rfl

@[simp] theorem Mach.reg_setReg_other (m : Mach) {off o : Nat} (x : U64) (h : o ≠ off) : (m.setReg off x).reg o = m.reg o := by
  rw [Mach.reg_setReg, if_neg h]
@[simp] theorem Mach.reg_setFld_other (m : Mach) {off o : Nat} (hi lo x : Nat) (h : o ≠ off) :
    (m.setFld off hi lo x).reg o = m.reg o := Mach.reg_setReg_other m _ h
@[simp] theorem Mach.reg_setBit_other (m : Mach) {off o : Nat} (i : Nat) (x : Bool) (h : o ≠ off) :
    (m.setBit off i x).reg o = m.reg o := Mach.reg_setReg_other m _ h

/-- A record may set ALERT_PEND of EVR_STATUS and writes no other register. -/
@[simp] theorem Mach.reg_record (m : Mach) (typ src st pl) {o : Nat} (h : o ≠ Reg.evrStatus) :
    (m.record typ src st pl).reg o = m.reg o := by
  unfold Mach.record Mach.recordAs; dsimp only
  split
  · split
    · exact Mach.reg_setBit_other _ _ _ h
    · rfl
  · split <;> rfl

@[simp] theorem Mach.notifyLast_regs (m : Mach) : m.notifyLast.regs = m.regs := by
  unfold Mach.notifyLast; split <;> rfl
@[simp] theorem Mach.notifyLast_power (m : Mach) : m.notifyLast.power = m.power := by
  unfold Mach.notifyLast; split <;> rfl

/-- Fields and bits read the same where the register does. -/
theorem Mach.fld_congr {m n : Mach} {o : Nat} (h : n.reg o = m.reg o) (hi lo : Nat) : n.fld o hi lo = m.fld o hi lo :=
  congrArg (fieldOf · hi lo) h
theorem Mach.bit_congr {m n : Mach} {o : Nat} (h : n.reg o = m.reg o) (i : Nat) : n.bit o i = m.bit o i :=
  congrArg (BitVec.getLsbD · i) h

end Machine
end Sys2Proof
end

section
/-!
SUPPORT. What the shared operations of the power commands keep (02_module_connectors_power_cooling.md R63 to R80;
03_startup_and_trust.md R99 to R103, R106): readings, records, limits, the coolant check, and the start of a boot.
-/
namespace Sys2Proof.Machine

/-- A part that every step of a run over a list keeps, the run keeps. -/
theorem foldl_keeps {α β : Type} (π : Mach → α) {f : Mach → β → Mach} (h : ∀ m x, π (f m x) = π m) (l : List β)
    (m : Mach) : π (l.foldl f m) = π m :=
  List.foldlRecOn l f (motive := fun n => π n = π m) rfl fun n hn x _ => (h n x).trans hn

/-- A command is done where the machine that it answers is as described. -/
theorem does_of {c : Instr} {s : State} {m : Mach} {r : Mach → Mach → Prop} (h : exec c s = .next { s with mach := m })
    (hr : ∀ n, m = n → r s.mach n) : Does c s r := ⟨m, h, hr m rfl⟩

/-! ### Readings and records -/

@[simp] theorem Mach.setFlow_power (m : Mach) (flow : Nat) : (m.setFlow flow).power = m.power := rfl
@[simp] theorem Mach.setFlow_tl (m : Mach) (flow : Nat) : (m.setFlow flow).tl = m.tl := rfl
@[simp] theorem Mach.setInlet_power (m : Mach) (t : Nat) : (m.setInlet t).power = m.power := rfl
@[simp] theorem Mach.coolantRecord_power (m : Mach) (i st : Nat) : (m.coolantRecord i st).power = m.power := by
  simp [Mach.coolantRecord]
@[simp] theorem Mach.supplyRecord_power (m : Mach) (i k : Nat) : (m.supplyRecord i k).power = m.power := by
  simp [Mach.supplyRecord]
@[simp] theorem Mach.thermalRecord_power (m : Mach) (i k t : Nat) : (m.thermalRecord i k t).power = m.power := by
  simp [Mach.thermalRecord]
@[simp] theorem Mach.coolantRecord_tl (m : Mach) (i st : Nat) : (m.coolantRecord i st).tl = m.tl := by
  simp [Mach.coolantRecord]
@[simp] theorem Mach.supplyRecord_tl (m : Mach) (i k : Nat) : (m.supplyRecord i k).tl = m.tl := by
  simp [Mach.supplyRecord]
@[simp] theorem Mach.thermalRecord_tl (m : Mach) (i k t : Nat) : (m.thermalRecord i k t).tl = m.tl := by
  simp [Mach.thermalRecord]
@[simp] theorem Mach.reg_coolantRecord (m : Mach) (i st) {o : Nat} (h : o ≠ Reg.evrStatus) :
    (m.coolantRecord i st).reg o = m.reg o := Mach.reg_record _ _ _ _ _ h

/-- The flow reading holds the 16 bits of GLB_COOLANT. -/
@[simp] theorem Mach.fld_setFlow (m : Mach) (flow : Nat) : (m.setFlow flow).fld Reg.glbCoolant 15 0 = flow % 2 ^ 16 := by
  rw [Mach.setFlow, Mach.fld_setBit_apart _ _ _ (by decide) (by decide), Mach.fld_setFld_same _ _ _ (by decide) (by decide)]

/-- The inlet reading holds 12 bits of GLB_COOLANT. -/
@[simp] theorem Mach.fld_setInlet (m : Mach) (t : Nat) : (m.setInlet t).fld Reg.glbCoolant 27 16 = t % 2 ^ 12 :=
  Mach.fld_setFld_same _ _ _ (by decide) (by decide)

/-! ### Limits of clusters (04 R147) -/

@[simp] theorem Mach.setLimit_power (m : Mach) (k cs f) : (m.setLimit k cs f).power = m.power := by
  unfold Mach.setLimit; exact foldl_keeps Mach.power (fun m c => by simp) _ _
@[simp] theorem Mach.setLimit_regs (m : Mach) (k cs f) : (m.setLimit k cs f).regs = m.regs := by
  unfold Mach.setLimit; exact foldl_keeps Mach.regs (fun m c => by simp) _ _

/-- A limit set on clusters of a list stands in each of them, and in no other. -/
theorem Mach.lim_setLimit (m : Mach) (k : Nat) (cs : List Nat) (f : Option Nat) (c : Nat) :
    ((m.setLimit k cs f).clus c).lim = if c ∈ cs then (m.clus c).lim.set (k - 24) f else (m.clus c).lim := by
  induction cs generalizing m with
  | nil => rfl
  | cons d cs ih =>
    rw [Mach.setLimit, List.foldl_cons]
    dsimp only
    rw [← Mach.setLimit, ih, Mach.clus_setClus]
    by_cases hd : c = d
    · subst hd
      by_cases hc : c ∈ cs <;> simp [hc]
    · simp [hd]

theorem Mach.lim_setLimit_of_mem (m : Mach) (k : Nat) {cs : List Nat} (f : Option Nat) {c : Nat} (h : c ∈ cs) :
    ((m.setLimit k cs f).clus c).lim = (m.clus c).lim.set (k - 24) f := by rw [Mach.lim_setLimit, if_pos h]

end Sys2Proof.Machine
end

section
/-!
SUPPORT. Coolant, heat and the power limit (02_module_connectors_power_cooling.md R65, R78 to R80, R624;
16_power_states.md R577): what each event does to the readings, to the limits and to the state of the supply.
-/
namespace Sys2Proof.Machine

/-! ### Flow (R78, R79) -/

section
variable {s : State} {flow mhz : Nat}

/-- A flow below 0.9 L/min: FLOW_LOSS, the timer at 10,000 ms and the limit of 150 W. -/
theorem flowLossDetect_low (hstby : s.mach.power.standby = true) (hflow : flow < 900)
    (hloss : s.mach.bit Reg.glbCoolant 29 = false) : Does (.flowLossDetect flow false mhz) s (fun m m' =>
      m'.bit Reg.glbCoolant 29 = true ∧ m'.fld Reg.glbCoolantTimer 13 0 = 10000 ∧ m'.fld Reg.glbCoolant 15 0 = flow ∧
      m'.power = { m.power with flowTimer := true, deadlinePassed := false, limit150 := true } ∧
      ∀ c < 32, (m'.clus c).lim = (m.clus c).lim.set 2 (some mhz)) := by
  refine does_of rfl fun n hn => ?_
  beta_reduce at hn
  rw [if_pos (by simp [hstby, hflow, hloss]), if_neg Bool.false_ne_true] at hn
  extract_lets m₁ m₂ m₃ _ m₄ at hn
  have hregs : n.regs = (m₂.coolantRecord 0 St.coolant).regs := by
    rw [← hn, Mach.setLimit_regs]; exact Mach.notifyLast_regs _
  have hreg (o) (ho : o ≠ Reg.evrStatus) : n.reg o = m₂.reg o := by
    rw [Mach.reg_congr hregs, Mach.reg_coolantRecord _ _ _ ho]
  have hcool : n.reg Reg.glbCoolant = (m₁.setBit Reg.glbCoolant 29 true).reg Reg.glbCoolant := by
    rw [hreg _ (by decide), Mach.reg_setFld_other _ _ _ _ (by decide)]
  have hpower : m₃.power = s.mach.power := by simp [m₃, m₂, m₁]
  have htl : m₄.tl = s.mach.tl := by
    show m₃.tl = _
    simp [m₃, m₂, m₁]
  refine ⟨?_, ?_, ?_, ?_, fun c hc => ?_⟩
  · rw [Mach.bit_congr hcool, Mach.bit_setBit_same _ _ _ (by decide)]
  · rw [Mach.fld_congr (hreg _ (by decide)), Mach.fld_setFld_same _ _ _ (by decide) (by decide)]; rfl
  · rw [Mach.fld_congr hcool, Mach.fld_setBit_apart _ _ _ (by decide) (by decide), Mach.fld_setFlow,
      Nat.mod_eq_of_lt (by omega)]
  · rw [← hn, Mach.setLimit_power, ← hpower]
  · rw [← hn, Mach.lim_setLimit_of_mem _ _ _ (List.mem_range.mpr hc), Mach.clus_congr htl]

/-- Flow back at 1.2 L/min: FLOW_LOSS, the timer and the limit of 150 W are lifted. -/
theorem flowRecovery_high (hflow : 1200 ≤ flow) (hloss : s.mach.bit Reg.glbCoolant 29 = true) :
    Does (.flowRecovery flow) s (fun m m' =>
      m'.bit Reg.glbCoolant 29 = false ∧ m'.reg Reg.glbCoolantTimer = 0 ∧
      m'.power = { m.power with flowTimer := false, limit150 := false } ∧
      ∀ c < 32, (m'.clus c).lim = (m.clus c).lim.set 2 none) := by
  refine does_of rfl fun n hn => ?_
  beta_reduce at hn
  rw [if_pos (by simp [hflow, hloss])] at hn
  extract_lets m₁ m₂ _ m₃ at hn
  have hreg (o) (ho : o ≠ Reg.evrStatus) : n.reg o = m₁.reg o := by
    rw [← Mach.reg_coolantRecord m₁ 0 St.ok ho, ← hn]
    exact Mach.reg_congr (Mach.setLimit_regs _ _ _ _) o
  have hpower : m₂.power = s.mach.power := by simp [m₂, m₁]
  have htl : m₃.tl = s.mach.tl := by
    show m₂.tl = _
    simp [m₂, m₁]
  refine ⟨?_, ?_, ?_, fun c hc => ?_⟩
  · rw [Mach.bit_congr (hreg _ (by decide)), Mach.bit_congr (Mach.reg_setReg_other _ _ (by decide)),
      Mach.bit_setBit_same _ _ _ (by decide)]
  · rw [hreg _ (by decide), Mach.reg_setReg_same]
  · rw [← hn, Mach.setLimit_power, ← hpower]
  · rw [← hn, Mach.lim_setLimit_of_mem _ _ _ (List.mem_range.mpr hc), Mach.clus_congr htl]

end

/-! ### Heat (R80) -/

section
variable {s : State} {sensor temp mhz : Nat}

/-- An inlet above 40.0 °C sets INLET_HIGH. -/
theorem inletHigh_above (hstby : s.mach.power.standby = true) (htemp : 400 < temp) (hmax : temp < 4096) :
    Does (.inletHigh temp) s (fun m m' =>
      m'.bit Reg.glbCoolant 30 = true ∧ m'.fld Reg.glbCoolant 27 16 = temp ∧ m'.power = m.power) := by
  refine does_of rfl fun n hn => ?_
  beta_reduce at hn
  rw [if_pos (by simp [hstby, htemp])] at hn
  extract_lets m₁ at hn
  have hinlet : m₁.fld Reg.glbCoolant 27 16 = temp := by
    rw [Mach.fld_setInlet, Nat.mod_eq_of_lt (by omega)]
  by_cases hbit : m₁.bit Reg.glbCoolant 30 = true
  · rw [if_pos hbit] at hn
    subst hn
    exact ⟨hbit, hinlet, rfl⟩
  · rw [if_neg hbit] at hn
    have hreg : n.reg Reg.glbCoolant = (m₁.setBit Reg.glbCoolant 30 true).reg Reg.glbCoolant := by
      rw [← hn, Mach.reg_coolantRecord _ _ _ (by decide)]
    refine ⟨?_, ?_, ?_⟩
    · rw [Mach.bit_congr hreg, Mach.bit_setBit_same _ _ _ (by decide)]
    · rw [Mach.fld_congr hreg, Mach.fld_setBit_apart _ _ _ (by decide) (by decide), hinlet]
    · rw [← hn, Mach.coolantRecord_power]; rfl

/-- An inlet at 40.0 °C or below clears INLET_HIGH, and nothing is recorded. -/
theorem inletClear_below (hstby : s.mach.power.standby = true) (htemp : temp ≤ 400) :
    Does (.inletClear temp) s (fun m m' => m'.bit Reg.glbCoolant 30 = false ∧ m'.fld Reg.glbCoolant 27 16 = temp ∧
      m'.power = m.power ∧ m'.evr = m.evr) := by
  refine does_of rfl fun n hn => ?_
  beta_reduce at hn
  rw [if_pos (by simp [hstby, htemp])] at hn
  subst hn
  refine ⟨Mach.bit_setBit_same _ _ _ (by decide), ?_, rfl, rfl⟩
  rw [Mach.fld_setBit_apart _ _ _ (by decide) (by decide), Mach.fld_setInlet, Nat.mod_eq_of_lt (by omega)]

/-- A sensor that reaches the strap's temperature limits its clusters. -/
theorem throttleStart_new (hok : s.mach.power.pwrOk = true) (htemp : throttleTemp (s.mach.fld Reg.glbStraps 10 9) ≤ temp)
    (hnew : sensor ∉ s.mach.power.throttled) : Does (.throttleStart sensor temp mhz) s (fun m m' =>
      m'.power = { m.power with throttled := sensor :: m.power.throttled } ∧
      ∀ c ∈ clustersOfSensor sensor, (m'.clus c).lim = (m.clus c).lim.set 0 (some mhz)) := by
  refine does_of rfl fun n hn => ?_
  beta_reduce at hn
  rw [if_pos (by simp [hok, htemp, hnew])] at hn
  extract_lets m₁ _ m₂ at hn
  have hpower : m₁.power = s.mach.power := Mach.thermalRecord_power _ _ _ _
  have htl : m₂.tl = s.mach.tl := Mach.thermalRecord_tl _ _ _ _
  refine ⟨?_, fun c hc => ?_⟩
  · rw [← hn, Mach.setLimit_power, ← hpower]
  · rw [← hn, Mach.lim_setLimit_of_mem _ _ _ hc, Mach.clus_congr htl]

/-- The one throttling sensor that falls below the temperature lifts the limit of its clusters. -/
theorem throttleEnd_last (htemp : temp < throttleTemp (s.mach.fld Reg.glbStraps 10 9))
    (hlast : s.mach.power.throttled = [sensor]) : Does (.throttleEnd sensor temp) s (fun m m' =>
      m'.power = { m.power with throttled := [] } ∧
      ∀ c ∈ clustersOfSensor sensor, (m'.clus c).lim = (m.clus c).lim.set 0 none) := by
  refine does_of rfl fun n hn => ?_
  beta_reduce at hn
  rw [if_pos (by simp [hlast, htemp])] at hn
  extract_lets m₁ rest _ m₂ at hn
  have hpower : m₁.power = s.mach.power := Mach.thermalRecord_power _ _ _ _
  have htl : m₂.tl = s.mach.tl := Mach.thermalRecord_tl _ _ _ _
  have hrest : rest = [] := by simp [rest, hpower, hlast]
  refine ⟨?_, fun c hc => ?_⟩
  · rw [← hn, Mach.setLimit_power, ← hpower, ← hrest]
  · rw [← hn, Mach.lim_setLimit_of_mem _ _ _ (List.mem_filter.mpr ⟨hc, by simp [hrest]⟩), Mach.clus_congr htl]

end

/-! ### The 950 W limit, the readings of the supply, calibration (R65, R624; 16 R577) -/

section
variable {s : State} {mhz mv dw : Nat}

theorem powerLimitEngage_off (hok : s.mach.power.pwrOk = true) (hlim : s.mach.power.limit950 = false) :
    Does (.powerLimitEngage mhz) s (fun m m' => m'.power = { m.power with limit950 := true } ∧
      ∀ c < 32, (m'.clus c).lim = (m.clus c).lim.set 1 (some mhz)) := by
  refine does_of rfl fun n hn => ?_
  beta_reduce at hn
  rw [if_pos (by simp [hok, hlim])] at hn
  extract_lets m₁ at hn
  have hpower : m₁.power = s.mach.power := Mach.supplyRecord_power _ _ _
  have htl : m₁.tl = s.mach.tl := Mach.supplyRecord_tl _ _ _
  refine ⟨?_, fun c hc => ?_⟩
  · rw [← hn, Mach.setLimit_power, ← hpower]
  · rw [← hn, Mach.lim_setLimit_of_mem _ _ _ (List.mem_range.mpr hc)]
    exact congrArg (fun x : Cluster => x.lim.set 1 (some mhz)) (Mach.clus_congr htl c)

theorem powerLimitRelease_on (hlim : s.mach.power.limit950 = true) :
    Does .powerLimitRelease s (fun m m' => m'.power = { m.power with limit950 := false } ∧
      ∀ c < 32, (m'.clus c).lim = (m.clus c).lim.set 1 none) := by
  refine does_of rfl fun n hn => ?_
  beta_reduce at hn
  rw [if_pos hlim] at hn
  extract_lets m₁ at hn
  have hpower : m₁.power = s.mach.power := Mach.supplyRecord_power _ _ _
  have htl : m₁.tl = s.mach.tl := Mach.supplyRecord_tl _ _ _
  refine ⟨?_, fun c hc => ?_⟩
  · rw [← hn, Mach.setLimit_power, ← hpower]
  · rw [← hn, Mach.lim_setLimit_of_mem _ _ _ (List.mem_range.mpr hc)]
    exact congrArg (fun x : Cluster => x.lim.set 1 none) (Mach.clus_congr htl c)

/-- GLB_SUPPLY shows the means of the samples, the new one among them. -/
theorem supplySample_means (hstby : s.mach.power.standby = true) : Does (.supplySample mv dw) s (fun m m' =>
    let l := ((mv, dw) :: m.power.samples).take 100
    m'.power = { m.power with samples := l, vin := mv } ∧ m'.evr = m.evr ∧
    m'.fld Reg.glbSupply 15 0 = (l.map (fun q => q.1)).sum / l.length % 2 ^ 16 ∧
    m'.fld Reg.glbSupply 31 16 = (l.map (fun q => q.2)).sum / l.length % 2 ^ 16) := by
  refine does_of rfl fun n hn => ?_
  beta_reduce at hn
  rw [if_pos hstby] at hn
  extract_lets l _ m₁ at hn
  subst hn
  refine ⟨rfl, rfl, ?_, ?_⟩
  · rw [Mach.fld_setFld_apart _ _ _ (by decide) (by decide) (by decide),
      Mach.fld_setFld_same _ _ _ (by decide) (by decide), meanOf, List.length_map]
  · rw [Mach.fld_setFld_same _ _ _ (by decide) (by decide), meanOf, List.length_map]

theorem sensorCalibration_on {b : Bool} (hok : s.mach.power.pwrOk = true) :
    Does (.sensorCalibration b) s (fun m m' => m' = { m with power := { m.power with calibrating := b } }) :=
  does_of rfl fun _ hn => hn.symm.trans (if_pos hok)

end

/-- Settles O23: each event does what its rule says, read off the event's own lemma. -/
theorem coolantHeatAndPower : Obligations.CoolantHeatAndPower := by
  intro s flow mhz temp sensor mv dw b hok hstby m p hot limits
  exact ⟨flowLossDetect_low hstby, flowRecovery_high, inletHigh_above hstby, inletClear_below hstby, throttleStart_new hok,
    throttleEnd_last, powerLimitEngage_off hok, powerLimitRelease_on, supplySample_means hstby, sensorCalibration_on hok⟩

end Sys2Proof.Machine
end

section
/-!
SUPPORT. The start of a boot and a warm reset (03_startup_and_trust.md R99 to R103, R106): the straps in effect, what
both leave alone, the image chosen and the STAGE shown.
-/
namespace Sys2Proof

/-- An entry whose key the filter keeps reads as before. -/
theorem mapGet_filter_key {α : Type} (d : Nat → α) (m : SMap α) {f : Nat → Bool} {k : Nat} (h : f k = true) :
    mapGet d (m.filter (fun p => f p.1)) k = mapGet d m k := by
  induction m with
  | nil => rfl
  | cons p r ih =>
    obtain ⟨j, x⟩ := p
    rw [List.filter_cons]
    by_cases hj : j = k
    · subst hj
      rw [if_pos h, mapGet, mapGet, if_pos rfl, if_pos rfl]
    · split
      · rw [mapGet, mapGet, if_neg hj, if_neg hj, ih]
      · rw [mapGet, if_neg hj, ih]

namespace Machine

/-! ### The straps in effect (R63) -/

/-- The straps in effect fill the 11 bits of the sample. -/
theorem strapsInEffect_lt (straps : BitVec 11) : strapsInEffect straps.toNat < 2 ^ 11 := by
  refine Nat.lt_pow_two_of_testBit _ fun i hi => ?_
  rw [strapsInEffect, testBit_putBits (by decide), if_neg (by omega), testBit_putBits (by decide), if_neg (by omega)]
  exact Nat.testBit_lt_two_pow (straps.isLt.trans_le (Nat.pow_le_pow_right (by decide) hi))

/-- GLB_STRAPS as PWR_OK_RISE leaves it, before the boot ROM runs: the straps in effect, and bit 31 where a reserved
value was sampled. -/
structure ShowsStraps (m : Mach) (code : Nat) (bad : Bool) : Prop where
  fields : ∀ hi lo, hi < 31 → m.fld Reg.glbStraps hi lo = bitsOf code hi lo
  invalid : m.bit Reg.glbStraps 31 = bad

theorem showsStraps_of_reg {m : Mach} {code : Nat} (hcode : code < 2 ^ 11)
    (h : m.reg Reg.glbStraps = BitVec.ofNat 64 code) : ShowsStraps m code false where
  fields hi lo _ := by
    rw [Mach.fld, h, fieldOf, BitVec.toNat_ofNat, Nat.mod_eq_of_lt (by omega)]
  invalid := by
    rw [Mach.bit, h, BitVec.getLsbD_ofNat, Nat.testBit_lt_two_pow (by omega), Bool.and_false]

theorem ShowsStraps.setInvalid {m : Mach} {code : Nat} {bad : Bool} (h : ShowsStraps m code bad) :
    ShowsStraps (m.setBit Reg.glbStraps 31 true) code true where
  fields hi lo hlt := by rw [Mach.fld_setBit_apart _ _ _ (by decide) (.inl hlt), h.fields hi lo hlt]
  invalid := Mach.bit_setBit_same _ _ _ (by decide)

theorem ShowsStraps.of_reg {m n : Mach} {code : Nat} {bad : Bool} (h : ShowsStraps m code bad)
    (e : n.reg Reg.glbStraps = m.reg Reg.glbStraps) : ShowsStraps n code bad where
  fields hi lo hlt := (Mach.fld_congr e hi lo).trans (h.fields hi lo hlt)
  invalid := (Mach.bit_congr e 31).trans h.invalid

/-! ### What the start of a boot leaves alone -/

/-- A reading of the machine that looks past what the start of a boot writes: the registers but GLB_STRAPS, the
recorder, the limits of clusters, the Caliper seed, the administrative owner and the number of draws. -/
structure PastBoot {α : Type} (π : Mach → α) : Prop where
  reg : ∀ m o x, o ≠ Reg.glbStraps → π (m.setReg o x) = π m
  evr : ∀ m e, π { m with evr := e } = π m
  clus : ∀ m c x, π (m.setClus c x) = π m
  drawn : ∀ m c o, π { Mach.draw m with tl := { m.tl with calSeed := c }, hif := { m.hif with owner := o } } = π m

theorem pastBoot_power : PastBoot Mach.power := ⟨fun _ _ _ _ => rfl, fun _ _ => rfl, fun _ _ _ => rfl, fun _ _ _ => rfl⟩
theorem pastBoot_boot : PastBoot Mach.boot := ⟨fun _ _ _ _ => rfl, fun _ _ => rfl, fun _ _ _ => rfl, fun _ _ _ => rfl⟩
theorem pastBoot_spn : PastBoot Mach.spn := ⟨fun _ _ _ _ => rfl, fun _ _ => rfl, fun _ _ _ => rfl, fun _ _ _ => rfl⟩
theorem pastBoot_jobs : PastBoot Mach.jobs := ⟨fun _ _ _ _ => rfl, fun _ _ => rfl, fun _ _ _ => rfl, fun _ _ _ => rfl⟩
theorem pastBoot_ks : PastBoot Mach.ks := ⟨fun _ _ _ _ => rfl, fun _ _ => rfl, fun _ _ _ => rfl, fun _ _ _ => rfl⟩
theorem pastBoot_tiles : PastBoot (fun m => m.tl.tiles) :=
  ⟨fun _ _ _ _ => rfl, fun _ _ => rfl, fun _ _ _ => rfl, fun _ _ _ => rfl⟩
theorem pastBoot_straps : PastBoot (fun m => m.reg Reg.glbStraps) :=
  ⟨fun m _ x h => Mach.reg_setReg_other m x h.symm, fun _ _ => rfl, fun _ _ _ => rfl, fun _ _ _ => rfl⟩

namespace PastBoot
variable {α : Type} {π : Mach → α} (h : PastBoot π)
include h

theorem setFld (m : Mach) (o hi lo x) (ho : o ≠ Reg.glbStraps) : π (m.setFld o hi lo x) = π m := h.reg _ _ _ ho
theorem setBit (m : Mach) (o i x) (ho : o ≠ Reg.glbStraps) : π (m.setBit o i x) = π m := h.reg _ _ _ ho

theorem setLimit (m : Mach) (k cs f) : π (m.setLimit k cs f) = π m := by
  unfold Mach.setLimit
  exact foldl_keeps π (fun m c => h.clus m c _) cs m

theorem bootInit (v : Variant) (m : Mach) : π (m.bootInit v) = π m := by
  unfold Mach.bootInit
  extract_lets straps role m₁ m₂ m₃ m₄ m₅ m₆
  have h₂ : π m₂ = π m := by
    unfold m₂
    split
    · rw [h.setFld _ _ _ _ _ (by decide), h.setFld _ _ _ _ _ (by decide), h.setFld _ _ _ _ _ (by decide)]
    · exact h.setFld _ _ _ _ _ (by decide)
  have h₃ : π m₃ = π m₂ :=
    foldl_keeps π (fun m p => h.setBit m _ _ _ (by simp only [Reg.fabStatus, Reg.glbStraps]; omega)) _ _
  have h₅ : π m₅ = π m₄ :=
    foldl_keeps π (fun m k => h.reg m _ _ (by simp only [Reg.rasFdom, Reg.glbStraps]; omega)) _ _
  have h₆ : π m₆ = π m₅ := by rw [h.setBit _ _ _ _ (by decide), h.reg _ _ _ (by decide)]
  have h₄ : π m₄ = π m₃ := h.reg _ _ _ (by decide)
  rw [← h₂, ← h₃, ← h₄, ← h₅, ← h₆]
  exact h.drawn m₆ _ _

theorem record (m : Mach) (typ src st pl) : π (m.record typ src st pl) = π m := by
  unfold Mach.record Mach.recordAs; dsimp only
  split
  · split
    · exact (h.setBit _ _ _ _ (by decide)).trans (h.evr _ _)
    · exact h.evr _ _
  · split
    · exact h.evr _ _
    · rfl

theorem handOver (m : Mach) : π m.handOver = π m := by
  unfold Mach.handOver; dsimp only
  split
  · exact (h.setBit _ _ _ _ (by decide)).trans (h.evr _ _)
  · exact h.evr _ _

/-- The boot ROM also writes the boot state. -/
theorem startBoot (hboot : ∀ m b e, π { m with boot := b, evr := e } = π m) (m : Mach) : π m.startBoot = π m := by
  unfold Mach.startBoot
  extract_lets strap c _ _ m₁ m₂ m₃
  have h₁ : π m₁ = π m := hboot m _ _
  have h₃ : π m₃ = π m₁ := by
    rw [h.setFld _ _ _ _ _ (by decide), h.setFld _ _ _ _ _ (by decide), h.setBit _ _ _ _ (by decide)]
  rw [← h₁, ← h₃]
  split
  · exact h.setFld _ _ _ _ _ (by decide)
  · exact (h.record _ _ _ _ _).trans (h.setFld _ _ _ _ _ (by decide))

end PastBoot

/-! ### The image chosen (R99) -/

/-- The fuses. -/
def Boot.fuses (b : Boot) : Nat × Nat × Nat := (b.fwMinSvn, b.trMinSvn, b.revoked)

theorem fuses_trySlot (c : Choice) (i : Nat) : (trySlot c i).1.boot.fuses = c.boot.fuses := by
  unfold trySlot Boot.setSlot; dsimp only
  (repeat' split) <;> rfl
theorem fuses_tryToolRest (c : Choice) (e : Nat) : (tryToolRest c e).boot.fuses = c.boot.fuses := by
  unfold tryToolRest
  split <;> rfl

/-- What a first slot, a second and Tool rest make of a choice. -/
theorem fuses_chooseFixed (c : Choice) (a b : Nat) : (chooseFixed c a b).boot.fuses = c.boot.fuses := by
  unfold chooseFixed
  have ha := fuses_trySlot c a
  generalize trySlot c a = x at ha
  obtain ⟨c₁, _ | e⟩ := x
  · exact ha
  · dsimp only
    have hb := fuses_trySlot c₁ b
    generalize trySlot c₁ b = y at hb
    obtain ⟨c₂, _ | _⟩ := y
    · exact hb.trans ha
    · exact (fuses_tryToolRest c₂ 3).trans (hb.trans ha)

theorem fuses_chooseNewest (c : Choice) : (chooseNewest c).boot.fuses = c.boot.fuses := by
  unfold chooseNewest
  extract_lets a b first
  split
  · exact fuses_tryToolRest c 3
  · have ha := fuses_trySlot c first
    generalize trySlot c first = x at ha
    obtain ⟨c₁, _ | e⟩ := x
    · exact ha
    · dsimp only
      split
      · have hb := fuses_trySlot c₁ (1 - first)
        generalize trySlot c₁ (1 - first) = y at hb
        obtain ⟨c₂, _ | _⟩ := y
        · exact hb.trans ha
        · exact (fuses_tryToolRest c₂ 3).trans (hb.trans ha)
      · exact (fuses_tryToolRest c₁ 3).trans ha

/-- Whatever is chosen, no fuse changes. -/
theorem fuses_chooseImage (b : Boot) (strap : Nat) : (chooseImage b strap).boot.fuses = b.fuses := by
  unfold chooseImage; dsimp only
  split
  · exact fuses_chooseFixed _ 0 1
  · exact fuses_chooseFixed _ 1 0
  · exact fuses_chooseNewest _
  · exact fuses_tryToolRest _ 4

/-- The boot ROM shows its choice: STAGE 0x02 with an image, HALTED without. -/
theorem startBoot_boot {m n : Mach} (hn : m.startBoot = n) :
    n.boot.chosen = (chooseImage m.boot (m.fld Reg.glbStraps 4 3)).chosen ∧ n.boot.fuses = m.boot.fuses ∧
    n.fld Reg.glbBootStatus 7 0 = if n.boot.chosen.isSome then 2 else 0xFF := by
  have hfuses := fuses_chooseImage m.boot (m.fld Reg.glbStraps 4 3)
  unfold Mach.startBoot at hn
  extract_lets strap c _ _ m₁ m₂ m₃ at hn
  have hchosen : m₃.boot.chosen = c.chosen := rfl
  have hkept : m₃.boot.fuses = c.boot.fuses := rfl
  suffices h : n.boot = m₃.boot ∧ n.fld Reg.glbBootStatus 7 0 = if c.chosen.isSome then 2 else 0xFF by
    obtain ⟨hboot, hstage⟩ := h
    rw [hboot, hstage, hchosen, hkept, hfuses]
    exact ⟨rfl, rfl, rfl⟩
  split at hn
  · next i hi =>
    rw [hi, ← hn, Mach.fld_setFld_same _ _ _ (by decide) (by decide)]
    exact ⟨rfl, rfl⟩
  · next hi =>
    rw [hi, ← hn, Mach.bootRecord, Mach.record_boot, Mach.fld_congr (Mach.reg_record _ _ _ _ _ (by decide)),
      Mach.fld_setFld_same _ _ _ (by decide) (by decide)]
    exact ⟨rfl, rfl⟩

end Machine
end Sys2Proof
end

section
/-!
SUPPORT. The way up (02_module_connectors_power_cooling.md R63, R64, R68 to R70, R76, R621, R623;
03_startup_and_trust.md R99, R103): each event of the sequence, in its order, and the loss of the standby rail.
-/
namespace Sys2Proof.Machine

/-- What a record adds to the recorder depends on the count, on the supply's state and on the recorder alone. -/
theorem Mach.record_evr_congr {m n : Mach} (typ src st pl) (hspn : n.spn.count = m.spn.count) (hevr : n.evr = m.evr)
    (hon : n.recorderOn = m.recorderOn) (hstby : n.power.standby = m.power.standby) :
    (n.record typ src st pl).evr = (m.record typ src st pl).evr := by
  have hrec (k : Mach) : (k.record typ src st pl).evr =
      if k.recorderOn then k.evr.make k.spn.count ⟨typ, false, k.spn.count, 0, src, st, pl⟩
      else if k.power.standby then k.evr.keepPre ⟨typ, false, k.spn.count, 0, src, st, pl⟩ else k.evr := by
    unfold Mach.record Mach.recordAs; dsimp only
    (repeat' split) <;> rfl
  rw [hrec, hrec, hspn, hevr, hon, hstby]

/-! ### Input and standby rail -/

section
variable {s : State} {mv : Nat} {sel : Fin 4}

theorem hotSwapClose_above (h : uvLockout ≤ mv) : Does (.hotSwapClose mv) s (fun m m' =>
    m' = { m with power := { m.power with vin := mv, closed := true } }) :=
  does_of rfl fun _ hn => hn.symm.trans (if_pos h)

theorem hotSwapClose_below (h : mv < uvLockout) : Does (.hotSwapClose mv) s (fun m m' =>
    m'.power = { m.power with vin := mv } ∧
    m'.evr = (m.record 0x0082 (sourceOf 10 2) St.supply (payloadOf [(4, (m.reg Reg.glbSupply).toNat), (4, 1)])).evr) := by
  refine does_of rfl fun n hn => ?_
  beta_reduce at hn
  extract_lets _ m₁ at hn
  rw [if_neg (by omega)] at hn
  subst hn
  exact ⟨Mach.supplyRecord_power _ _ _, Mach.record_evr_congr _ _ _ _ rfl rfl rfl rfl⟩

theorem standbyUp_closed (hclosed : s.mach.power.closed = true) (hoff : s.mach.power.standby = false) :
    Does (.standbyUp sel) s (fun m m' =>
      m' = { m with power := { m.power with standby := true, smbusAddr := 0x6A + sel.val, samples := [] } }) :=
  does_of rfl fun _ hn => hn.symm.trans (if_pos (by simp [hclosed, hoff]))

theorem standbyUp_idle (h : s.mach.power.closed = false ∨ s.mach.power.standby = true) :
    Does (.standbyUp sel) s (fun m m' => m' = m) :=
  does_of rfl fun _ hn => hn.symm.trans (if_neg (by rcases h with h | h <;> simp [h]))

end

/-! ### Latches and the coolant check -/

section
variable {s : State} {mv lowMs minFlow maxInlet flow inlet : Nat}

theorem Mach.startCheck_may {m : Mach} (h : m.power.mayCheck = true) :
    m.startCheck = { m with power := { m.power with checkRunning := true } } := if_pos h

theorem Mach.startCheck_latched {m : Mach} (h : m.power.latched = true) : m.startCheck = m :=
  if_neg (by simp [Power.mayCheck, h])

/-- 100 ms of MOD_EN low release every latch, and the check starts. -/
theorem modEnRise_released (hlow : 100 ≤ lowMs) (hstby : s.mach.power.standby = true) (hoff : s.mach.power.rails = .off)
    (hlo : uvLockout ≤ mv) (hhi : mv < ovShutdown) : Does (.modEnRise lowMs true mv) s (fun m m' =>
      m' = { m with power := { m.power with
        modEn := true, vin := mv, emergLow := false, overvolt := false, latchEmerg := false, latchOv := false,
        latchOther := false, thermTrip := false, checkRunning := true } }) := by
  refine does_of rfl fun n hn => ?_
  have hov : decide (ovShutdown ≤ mv) = false := decide_eq_false (by omega)
  have hin : decide (mv < ovShutdown) = true := decide_eq_true hhi
  have huv : decide (mv < uvLockout) = false := decide_eq_false (by omega)
  simp only [if_pos hlow, hov, hin, huv, Power.latched, Bool.not_true, Bool.and_true, Bool.and_false, Bool.or_self,
    Bool.false_eq_true, if_false] at hn
  rw [← hn]
  exact Mach.startCheck_may (by simp [Power.mayCheck, Power.latched, hstby, hoff, hlo])

/-- A shorter low keeps the latches, and a latch keeps the rails off. -/
theorem modEnRise_latched (hlow : lowMs < 100) (hlatch : s.mach.power.latched = true) (hlo : uvLockout ≤ mv)
    (hhi : mv < ovShutdown) : Does (.modEnRise lowMs true mv) s (fun m m' =>
      m' = { m with power := { m.power with modEn := true, vin := mv, emergLow := false, overvolt := false } }) := by
  refine does_of rfl fun n hn => ?_
  have hov : decide (ovShutdown ≤ mv) = false := decide_eq_false (by omega)
  have huv : decide (mv < uvLockout) = false := decide_eq_false (by omega)
  have hlatch' : (s.mach.power.latchEmerg || s.mach.power.latchOv || s.mach.power.latchOther) = true := hlatch
  simp only [if_neg (Nat.not_le.mpr hlow), hov, huv, Power.latched, hlatch', Bool.not_true, Bool.and_false,
    Bool.false_eq_true, if_true, if_false] at hn
  rw [← hn]
  exact Mach.startCheck_latched hlatch

/-- A check passed starts the main rails. -/
theorem coolantCheck_passed (hrun : s.mach.power.checkRunning = true) (hflow : 1200 ≤ minFlow) (hinlet : maxInlet ≤ 400) :
    Does (.coolantCheck minFlow maxInlet flow inlet) s (fun m m' =>
      m'.power = { m.power with rails := .ramping, checkRunning := false, checkFailing := false } ∧ m'.evr = m.evr) := by
  refine does_of rfl fun n hn => ?_
  beta_reduce at hn
  rw [if_neg (by simp [hrun]), if_pos ⟨hflow, hinlet⟩] at hn
  subst hn
  exact ⟨rfl, rfl⟩

/-- The first failed check of a run marks the run and shows the reading. -/
theorem coolantCheck_failed (hrun : s.mach.power.checkRunning = true) (hfirst : s.mach.power.checkFailing = false)
    (hbad : minFlow < 1200 ∨ 400 < maxInlet) : Does (.coolantCheck minFlow maxInlet flow inlet) s (fun m m' =>
      m'.power = { m.power with checkFailing := true } ∧ m'.fld Reg.glbCoolant 15 0 = flow % 2 ^ 16) := by
  refine does_of rfl fun n hn => ?_
  beta_reduce at hn
  extract_lets m₁ _ m₂ at hn
  rw [if_neg (by simp [hrun]), if_neg (by omega), if_neg (by simp [m₁, hfirst])] at hn
  have hpower : m₂.power = s.mach.power := Mach.coolantRecord_power _ _ _
  subst hn
  refine ⟨by rw [← hpower], ?_⟩
  calc m₂.fld Reg.glbCoolant 15 0
    _ = m₁.fld Reg.glbCoolant 15 0 := Mach.fld_congr (Mach.reg_coolantRecord _ _ _ (by decide)) _ _
    _ = (s.mach.setFlow flow).fld Reg.glbCoolant 15 0 := Mach.fld_setFld_apart _ _ _ (by decide) (by decide) (by decide)
    _ = flow % 2 ^ 16 := Mach.fld_setFlow _ _

end

/-! ### Rails and PWR_OK -/

section
variable {s : State}

theorem railsInRegulation_ramping (h : s.mach.power.rails = .ramping) : Does .railsInRegulation s (fun m m' =>
    m' = { m with power := { m.power with rails := .regulated } }) :=
  does_of rfl fun _ hn => hn.symm.trans (if_pos h)

/-- PWR_OK: the straps sampled, the count from 0, and the choice of the boot ROM. -/
theorem pwrOkRise_regulated {straps : BitVec 11} (hrails : s.mach.power.rails = .regulated)
    (hok : s.mach.power.pwrOk = false) : Does (.pwrOkRise straps) s (fun m m' =>
      let code := strapsInEffect straps.toNat
      m'.power = { m.power with pwrOk := true } ∧ m'.spn.count = 0 ∧ m'.spn.running = true ∧
      m'.fld Reg.glbStraps 10 0 = code ∧ m'.bit Reg.glbStraps 31 = strapsReserved straps.toNat ∧
      m'.boot.chosen = (chooseImage m.boot (bitsOf code 4 3)).chosen ∧
      m'.fld Reg.glbBootStatus 7 0 = if m'.boot.chosen.isSome then 2 else 0xFF) := by
  refine does_of rfl fun n hn => ?_
  beta_reduce at hn
  rw [if_pos (by simp [hrails, hok])] at hn
  extract_lets k _ _ m₀ m₁ m₂ mBad m₃ at hn
  have hcode : strapsInEffect k < 2 ^ 11 := strapsInEffect_lt straps
  have hkept {α : Type} {π : Mach → α} (h : PastBoot π) :
      π m₂ = π (m₀.setReg Reg.glbStraps (BitVec.ofNat 64 (strapsInEffect k))) :=
    (h.handOver _).trans (h.bootInit _ _)
  have hstraps₂ : ShowsStraps m₂ (strapsInEffect k) false :=
    showsStraps_of_reg hcode ((hkept pastBoot_straps).trans (Mach.reg_setReg_same _ _ _))
  have hrecord {α : Type} {π : Mach → α} (h : PastBoot π)
      (hbit : ∀ m, π (m.setBit Reg.glbStraps 31 true) = π m) : π m₃ = π m₂ := by
    unfold m₃
    split
    · exact (h.record _ _ _ _ _).trans (hbit m₂)
    · rfl
  have hstraps : ShowsStraps m₃ (strapsInEffect k) (strapsReserved k) := by
    unfold m₃
    split
    · next hbad => rw [hbad]; exact hstraps₂.setInvalid.of_reg (pastBoot_straps.record _ _ _ _ _)
    · next hbad => rw [Bool.eq_false_iff.mpr hbad]; exact hstraps₂
  have hall {α : Type} {π : Mach → α} (h : PastBoot π) (hreg : ∀ m x, π (m.setReg Reg.glbStraps x) = π m)
      (hboot : ∀ m b e, π { m with boot := b, evr := e } = π m) : π n = π m₀ := by
    rw [← hn, h.startBoot hboot, hrecord h (fun m => hreg m _), hkept h, hreg]
  have hspn : n.spn = m₀.spn := hall pastBoot_spn (fun _ _ => rfl) (fun _ _ _ => rfl)
  have hpower : n.power = m₀.power := hall pastBoot_power (fun _ _ => rfl) (fun _ _ _ => rfl)
  have hboot : m₃.boot = s.mach.boot := by rw [hrecord pastBoot_boot fun _ => rfl, hkept pastBoot_boot]; rfl
  have hshow : ShowsStraps n (strapsInEffect k) (strapsReserved k) :=
    hstraps.of_reg (by rw [← hn]; exact pastBoot_straps.startBoot (fun _ _ _ => rfl) m₃)
  obtain ⟨hchosen, -, hstage⟩ := startBoot_boot hn
  rw [hboot, hstraps.fields 4 3 (by decide)] at hchosen
  refine ⟨hpower, by rw [hspn], by rw [hspn], ?_, hshow.invalid, hchosen, hstage⟩
  rw [hshow.fields 10 0 (by decide), bitsOf, Nat.pow_zero, Nat.div_one, Nat.mod_eq_of_lt hcode]

/-- The standby rail lost: every latch and reading of the always-on domain clears. -/
theorem standbyLost_below {mv : Nat} (h : mv < 28000) : Does (.standbyLost mv) s (fun _ m' =>
    m'.power.standby = false ∧ m'.power.closed = false ∧ m'.power.rails = .off ∧ m'.power.latched = false ∧
    m'.power.thermTrip = false ∧ m'.power.offDue = none ∧ m'.reg Reg.glbSupply = 0 ∧ m'.reg Reg.glbCoolant = 0 ∧
    m'.evr.pre = []) := by
  refine does_of rfl fun n hn => ?_
  beta_reduce at hn
  rw [if_pos h] at hn
  extract_lets m₁ p at hn
  have hrails : m₁.power.rails = .off := by
    unfold m₁
    split
    · rfl
    · next hoff => simpa [Power.on] using hoff
  clear_value m₁
  have hreg (o) : n.reg o = (((m₁.setReg Reg.glbSupply 0).setReg Reg.glbCoolant 0).setReg Reg.glbCoolantTimer 0).reg o := by
    rw [← hn]; rfl
  have hsupply : n.reg Reg.glbSupply = 0 := by
    rw [hreg, Mach.reg_setReg_other _ _ (by decide), Mach.reg_setReg_other _ _ (by decide), Mach.reg_setReg_same]
  have hcoolant : n.reg Reg.glbCoolant = 0 := by
    rw [hreg, Mach.reg_setReg_other _ _ (by decide), Mach.reg_setReg_same]
  subst hn
  exact ⟨rfl, rfl, hrails, rfl, rfl, rfl, hsupply, hcoolant, rfl⟩

end

/-- Settles O21: each event of the sequence has its lemma, in the order of R68. -/
theorem powerUpSequence : Obligations.PowerUpSequence := by
  intro s sel mv lowMs minFlow maxInlet flow inlet straps m p code
  exact ⟨hotSwapClose_above, hotSwapClose_below, standbyUp_closed, standbyUp_idle, modEnRise_released,
    fun hlow hlatch _ hlo hhi => modEnRise_latched hlow hlatch hlo hhi, coolantCheck_passed, coolantCheck_failed,
    railsInRegulation_ramping, pwrOkRise_regulated, standbyLost_below⟩

end Sys2Proof.Machine
end

section
/-!
SUPPORT. What ends jobs, posts completions and programs the journal leaves the supply's state alone, and what a quiesce
does to the jobs (02_module_connectors_power_cooling.md R83, R84).
-/
namespace Sys2Proof.Machine

/-! ### The supply under jobs and pipeline queues -/

@[simp] theorem power_jobEnd (m : Mach) (j final code) : (m.jobEnd j final code).power = m.power := by
  unfold Mach.jobEnd
  (repeat' split) <;> simp
@[simp] theorem power_tell (m : Mach) (node c) : (m.tell node c).power = m.power := rfl
@[simp] theorem power_setStart (m : Mach) (r) : (m.setStart r).power = m.power := rfl
@[simp] theorem power_setPipe (m : Mach) (p q x) : (m.setPipe p q x).power = m.power := by simp [Mach.setPipe]
@[simp] theorem power_countDenied (m : Mach) (st) : (m.countDenied st).power = m.power := by
  unfold Mach.countDenied
  split <;> simp
@[simp] theorem power_pipePost (m : Mach) (p q c) : (m.pipePost p q c).power = m.power := by
  unfold Mach.pipePost Mach.pipeWrite
  (repeat' split) <;> simp
@[simp] theorem power_pipeDone (m : Mach) (p q cid serial result st) :
    (m.pipeDone p q cid serial result st).power = m.power := by
  unfold Mach.pipeDone
  (repeat' split) <;> simp

@[simp] theorem power_cancelStart (m : Mach) (r absent) : (m.cancelStart r absent).power = m.power := by
  unfold Mach.cancelStart
  extract_lets st m₁ m₂
  have h₁ : m₁.power = m.power := foldl_keeps Mach.power (fun m x => by split <;> rfl) _ _
  have h₂ : m₂.power = m₁.power := by
    unfold m₂
    split
    · exact power_jobEnd _ _ _ _
    · rfl
  rw [power_pipeDone, power_setStart, h₂, h₁]

/-! ### The supply under the journal -/

theorem power_placeSlots {m m' : Mach} {k n w a b} (h : m.placeSlots k n w = some (a, b, m')) : m'.power = m.power := by
  simp only [Mach.placeSlots] at h
  (repeat' split at h) <;> cases h <;> rfl
@[simp] theorem power_countSeal (m : Mach) (k) : (m.countSeal k).power = m.power := by
  unfold Mach.countSeal; dsimp only
  (repeat' split) <;> simp
@[simp] theorem power_applyChange (m : Mach) (c) : (m.applyChange c).power = m.power := by
  unfold Mach.applyChange
  (repeat' split) <;> simp
@[simp] theorem power_flashDone (m : Mach) (d) : (m.flashDone d).power = m.power := by
  unfold Mach.flashDone
  split <;> simp

theorem power_tryWrite {m m' : Mach} {w} (h : m.tryWrite w = some m') : m'.power = m.power := by
  simp only [Mach.tryWrite] at h
  split at h
  · cases h; rfl
  · split at h
    · cases h
    · split at h
      · next us k e =>
        cases h
        show k.power = m.power
        refine foldl_option_keeps (P := fun n => n.power = m.power) (fun _ => rfl) ?_ (by rfl) e
        intro s k i s' k' hk hstep
        dsimp only at hstep
        split at hstep
        · next hp =>
          cases hstep
          split <;> simp [power_placeSlots hp, hk]
        · cases hstep
      · cases h

@[simp] theorem power_serveWrites (n) (m : Mach) : (Mach.serveWrites n m).power = m.power := by
  induction n generalizing m with
  | zero => rfl
  | succ n ih =>
    rw [Mach.serveWrites]
    split
    · split
      · next k h =>
        rw [ih]
        show k.power = m.power
        exact power_tryWrite h
      · rfl
    · rfl

@[simp] theorem power_checkpoint (m : Mach) : m.checkpoint.power = m.power := by
  unfold Mach.checkpoint Mach.journalPage; dsimp only
  rw [Mach.setReg_power]; dsimp only
  rw [power_serveWrites]
  exact foldl_keeps Mach.power (fun m p => by simp) _ _

/-! ### The end of every live job -/

theorem Mach.job?_setJob (m : Mach) (j k : Nat) (x : Job) : (m.setJob j x).job? k = if k = j then some x else m.job? k :=
  mapFind_set _ _ _ _

theorem Mach.job?_congr {m n : Mach} (h : n.jobs = m.jobs) (k : Nat) : n.job? k = m.job? k := by simp [Mach.job?, h]

theorem mem_of_mapFind {α : Type} {m : SMap α} {k : Nat} {x : α} (h : mapFind m k = some x) : (k, x) ∈ m := by
  induction m with
  | nil => cases h
  | cons p r ih =>
    obtain ⟨j, y⟩ := p
    rw [mapFind] at h
    split at h
    · next hj => cases h; subst hj; exact List.mem_cons_self
    · exact List.mem_cons_of_mem _ (ih h)

/-- A job that has ended in its own slot is live no more, and the end of a job wakes no other. -/
theorem live_jobEnd {m : Mach} {j k final code : Nat} {x : Job} (hfinal : 4 < final)
    (hx : (m.jobEnd j final code).job? k = some x) (hlive : x.live = true) : k ≠ j ∧ m.job? k = some x := by
  unfold Mach.jobEnd at hx
  split at hx
  · next y hy =>
    split at hx
    · rw [Mach.job?_congr (Mach.record_jobs _ _ _ _ _), Mach.job?_setJob] at hx
      split at hx
      · cases hx
        simp [Job.live] at hlive
        omega
      · next hk => exact ⟨hk, hx⟩
    · next hdead =>
      refine ⟨?_, hx⟩
      rintro rfl
      rw [hx] at hy
      cases hy
      exact hdead hlive
  · next hnone =>
    refine ⟨?_, hx⟩
    rintro rfl
    rw [hx] at hnone
    cases hnone

/-- After the end of the jobs of a list, a live job is one that was live and is not of the list. -/
theorem live_foldl_jobEnd {l : List (Nat × Job)} {m : Mach} {k : Nat} {x : Job}
    (hx : (l.foldl (fun m p => m.jobEnd p.1 7 St.ok) m).job? k = some x) (hlive : x.live = true) :
    (∀ p ∈ l, k ≠ p.1) ∧ m.job? k = some x := by
  induction l generalizing m with
  | nil => exact ⟨fun _ h => absurd h List.not_mem_nil, hx⟩
  | cons p l ih =>
    obtain ⟨hrest, hm⟩ := ih hx
    obtain ⟨hp, hm⟩ := live_jobEnd (by decide) hm hlive
    exact ⟨List.forall_mem_cons.mpr ⟨hp, hrest⟩, hm⟩

/-- A quiesce leaves the supply's state, and no job live (R83). -/
theorem quiesceJobs_power (m : Mach) : m.quiesceJobs.power = m.power := by
  unfold Mach.quiesceJobs
  extract_lets m₁ m₂
  have h₁ : m₁.power = m.power := foldl_keeps Mach.power (fun m r => by simp) _ _
  have h₂ : m₂.power = m₁.power := foldl_keeps Mach.power (fun m p => by simp) _ _
  split
  · rw [power_tell, h₂, h₁]
  · rw [h₂, h₁]

theorem quiesceJobs_live {m : Mach} {j : Nat} {x : Job} (hx : m.quiesceJobs.job? j = some x) : x.live = false := by
  unfold Mach.quiesceJobs at hx
  extract_lets m₁ m₂ at hx
  have hx₂ : m₂.job? j = some x := by
    split at hx <;> exact hx
  by_contra hlive
  rw [Bool.not_eq_false] at hlive
  obtain ⟨hnone, hx₁⟩ := live_foldl_jobEnd hx₂ hlive
  exact hnone (j, x) (List.mem_filter.mpr ⟨mem_of_mapFind hx₁, by simpa using hlive⟩) rfl

end Sys2Proof.Machine
end

section
/-!
SUPPORT. Quiesce, warm reset, wake and the management bus (02_module_connectors_power_cooling.md R59 to R61, R67, R83,
R84, R621; 03_startup_and_trust.md R106).
-/
namespace Sys2Proof.Machine

/-! ### Quiesce (R83, R84) -/

section
variable {s : State}

/-- SVC_REQ starts the quiesce, and no job lives on. -/
theorem svcReq_running (hok : s.mach.power.pwrOk = true) (hidle : s.mach.power.quiesce = .none) :
    Does .svcReq s (fun m m' => m'.power = { m.power with svcReq := true, quiesce := .running } ∧
      ∀ (j : Nat) (x : Job), m'.job? j = some x → x.live = false) := by
  refine does_of rfl fun n hn => ?_
  beta_reduce at hn
  rw [if_pos (by simp [hok, hidle])] at hn
  subst hn
  exact ⟨quiesceJobs_power _, fun j x hx => quiesceJobs_live hx⟩

/-- A quiesce completed writes off record 0x01 and drops every WP#. -/
theorem quiesceComplete_running (hrun : s.mach.power.quiesce = .running) : Does .quiesceComplete s (fun m m' =>
    m'.power.quiesce = .ready ∧ m'.power.wpLow = 0xF ∧ m'.power.offRecs = ⟨1, false⟩ :: m.power.offRecs ∧
    m'.power.rails = m.power.rails) := by
  refine does_of rfl fun n hn => ?_
  beta_reduce at hn
  rw [if_pos hrun] at hn
  have hpower : s.mach.checkpoint.power = s.mach.power := power_checkpoint _
  generalize s.mach.checkpoint = k at hn hpower
  subst hn
  refine ⟨rfl, rfl, ?_, ?_⟩ <;> rw [← hpower] <;> rfl

/-- SVC_REQ# released after the quiesce: the record is withdrawn and WP# rises. -/
theorem svcReqRelease_ready {r : List OffRec} (hready : s.mach.power.quiesce = .ready)
    (hrec : s.mach.power.offRecs = ⟨1, false⟩ :: r) : Does .svcReqRelease s (fun m m' => m' = { m with power :=
      { m.power with svcReq := false, offRecs := ⟨1, true⟩ :: r, quiesce := .none, wpLow := m.wpMask } }) := by
  refine does_of rfl fun n hn => ?_
  simp only [hready, Power.withdrawOff, hrec] at hn
  exact hn.symm

/-- SVC_REQ# released during the quiesce abandons it. -/
theorem svcReqRelease_running (hrun : s.mach.power.quiesce = .running) : Does .svcReqRelease s (fun m m' =>
    m' = { m with power := { m.power with svcReq := false, quiesce := .none } }) := by
  refine does_of rfl fun n hn => ?_
  simp only [hrun] at hn
  exact hn.symm

/-- A quiesce that overruns is recorded, and nothing else. -/
theorem quiesceTimeout_running (hrun : s.mach.power.quiesce = .running) : Does .quiesceTimeout s (fun m m' =>
    m'.power = { m.power with quiesce := .overrun } ∧ m'.jobs = m.jobs ∧ m'.ftl = m.ftl) := by
  refine does_of rfl fun n hn => ?_
  beta_reduce at hn
  rw [if_pos hrun] at hn
  subst hn
  exact ⟨Mach.notice_power _ _ _ _ _, Mach.notice_jobs _ _ _ _ _, Mach.notice_ftl _ _ _ _ _⟩

end

/-! ### Wake and warm reset (R60, R61, R106) -/

section
variable {s : State} {lowNs heldMs : Nat}

theorem wakeIn_held (h : 5 ≤ heldMs) : Does (.wakeIn heldMs) s (fun m m' =>
    m' = { m with power := { m.power with wakeIn := true }, draws := m.draws + 1 }) := by
  refine does_of rfl fun n hn => ?_
  simp only [decide_eq_true h, Bool.true_or, Bool.or_true] at hn
  exact hn.symm

/-- What a warm reset keeps and what it empties. -/
theorem warmReset_kept (v : Variant) (m : Mach) :
    (m.warmReset v).power = { m.power with limit950 := false, throttled := [], quiesce := .none, calibrating := false } ∧
    (m.warmReset v).spn.count = m.spn.count ∧ (m.warmReset v).jobs.slots = [] ∧ (m.warmReset v).tl.tiles = [] ∧
    (m.warmReset v).reg Reg.glbStraps = m.reg Reg.glbStraps ∧ (m.warmReset v).boot.fuses = m.boot.fuses ∧
    (m.warmReset v).ks.keys = m.ks.keys := by
  unfold Mach.warmReset
  extract_lets lims m₁ m₂
  have hlim {α : Type} {π : Mach → α} (h : PastBoot π) : π m₂ = π m₁ := by
    unfold m₂
    split
    · exact foldl_keeps π (fun m p => h.setLimit m _ _ _) _ _
    · rfl
  have hkept {α : Type} {π : Mach → α} (h : PastBoot π) (hboot : ∀ m b e, π { m with boot := b, evr := e } = π m) :
      π (m₂.bootInit v).startBoot = π m₁ := by
    rw [h.startBoot hboot, h.bootInit, hlim h]
  have hpower := hkept pastBoot_power fun _ _ _ => rfl
  have hspn := hkept pastBoot_spn fun _ _ _ => rfl
  have hjobs := hkept pastBoot_jobs fun _ _ _ => rfl
  have htiles := hkept pastBoot_tiles fun _ _ _ => rfl
  have hstraps := hkept pastBoot_straps fun _ _ _ => rfl
  have hks := hkept pastBoot_ks fun _ _ _ => rfl
  obtain ⟨-, hfuses, -⟩ := startBoot_boot (m := m₂.bootInit v) rfl
  rw [pastBoot_boot.bootInit, hlim pastBoot_boot] at hfuses
  refine ⟨hpower, by rw [hspn]; rfl, by rw [hjobs]; rfl, htiles, hstraps.trans ?_, hfuses, by rw [hks]; rfl⟩
  exact mapGet_filter_key _ _ (f := fun o => alwaysOnRegs.contains o) (by decide)

/-- MOD_RESET# low for 1 µs or more: off record 0x09, and a boot with count, rails, straps, fuses and keys kept. -/
theorem modReset_passes (hlow : 1000 ≤ lowNs) (hok : s.mach.power.pwrOk = true) : Does (.modReset lowNs) s (fun m m' =>
    m'.power.offRecs = ⟨9, false⟩ :: m.power.offRecs ∧ m'.power.pwrOk = true ∧ m'.power.rails = m.power.rails ∧
    m'.spn.count = m.spn.count ∧ m'.jobs.slots = [] ∧ m'.tl.tiles = [] ∧ m'.reg Reg.glbStraps = m.reg Reg.glbStraps ∧
    m'.boot.fwMinSvn = m.boot.fwMinSvn ∧ m'.boot.trMinSvn = m.boot.trMinSvn ∧ m'.boot.revoked = m.boot.revoked ∧
    m'.ks.keys = m.ks.keys) := by
  refine does_of rfl fun n hn => ?_
  beta_reduce at hn
  have hpass : resetPasses s.mach lowNs = true := by simp [resetPasses, hlow]
  rw [if_pos (by simp [hpass, hok])] at hn
  obtain ⟨hpower, hcount, hjobs, htiles, hstraps, hfuses, hkeys⟩ := warmReset_kept s.variant (s.mach.draw.writeOff 9)
  rw [hn] at hpower hcount hjobs htiles hstraps hfuses hkeys
  simp only [Boot.fuses, Prod.mk.injEq] at hfuses
  obtain ⟨hfw, htr, hrev⟩ := hfuses
  exact ⟨by rw [hpower]; rfl, by rw [hpower]; exact hok, by rw [hpower]; rfl, hcount,
    hjobs, htiles, hstraps, hfw, htr, hrev, hkeys⟩

/-- A low below 900 ns is filtered out. -/
theorem modReset_filtered (h : lowNs < 900) : Does (.modReset lowNs) s (fun m m' => m' = m.draw) := by
  have hpass : resetPasses s.mach lowNs = false := by
    simp [resetPasses, decide_eq_false (p := 1000 ≤ lowNs) (by omega), decide_eq_false (p := 900 ≤ lowNs) (by omega)]
  exact does_of rfl fun n hn => hn.symm.trans (if_neg (by simp [hpass]))

end

/-! ### The management bus (R59, R621, R623) -/

section
variable {s : State} {off : BitVec 25}

/-- What a read over the bus answers while the standby rail is up. -/
theorem mgmtRequest_read (hstby : s.mach.power.standby = true) : Does (.mgmtRequest (.read off)) s (fun m m' =>
    m' = if off.toNat ∈ standbySet (decide (m.fld Reg.glbBootStatus 7 0 = 0xFF)) then
      m.send (.mgmt St.ok (leBytes 4 (regRead s.variant m off.toNat).toNat)) else m.send (.mgmt St.unitAbsent [])) := by
  refine does_of rfl fun n hn => ?_
  beta_reduce at hn
  rw [if_neg (by simp [hstby])] at hn
  simp only [List.contains_iff_mem] at hn
  exact hn.symm

theorem mgmtRequest_unpowered {q : MgmtReq} (h : s.mach.power.standby = false) :
    Does (.mgmtRequest q) s (fun m m' => m' = m) :=
  does_of rfl fun _ hn => hn.symm.trans (if_pos (by simp [h]))

end

/-- Settles O24: quiesce, warm reset, wake and bus, each by its own lemma. -/
theorem serviceAndManagement : Obligations.ServiceAndManagement := by
  intro s lowNs heldMs off r m p
  refine ⟨svcReq_running, quiesceComplete_running, svcReqRelease_ready, svcReqRelease_running, quiesceTimeout_running,
    wakeIn_held, modReset_passes, modReset_filtered, fun hstby hin => ?_, fun hstby hout => ?_,
    fun q => mgmtRequest_unpowered⟩
  · obtain ⟨n, hexec, hn⟩ := mgmtRequest_read (off := off) hstby
    exact ⟨n, hexec, hn.trans (if_pos hin)⟩
  · obtain ⟨n, hexec, hn⟩ := mgmtRequest_read (off := off) hstby
    exact ⟨n, hexec, hn.trans (if_neg hout)⟩

end Sys2Proof.Machine
end

section
/-!
SUPPORT. The fuses of a machine seen as one value, and every function of the model but the one of RAISE_SECURITY_VERSION
leaves them alone (03_startup_and_trust.md R93). The functions stand in the model's order, under the file that defines
them.
-/
namespace Sys2Proof.Machine

/-- The fuses of a machine. -/
def Mach.fuses (m : Mach) : Nat × Nat × Nat := m.boot.fuses

@[simp] theorem fuses_mk (r e p b s tl mem j ra ps ks ft hi xp o d) :
    (Mach.mk r e p b s tl mem j ra ps ks ft hi xp o d).fuses = b.fuses := by rfl
@[simp] theorem fuses_fold (m : Mach) : m.boot.fuses = m.fuses := by rfl
@[simp] theorem fuses_bootMk (rev fw tr a b t c w ms ml q n0 n1 lv mg) :
    (Boot.mk rev fw tr a b t c w ms ml q n0 n1 lv mg).fuses = (fw, tr, rev) := by rfl
@[simp] theorem fuses_parts (b : Boot) : (b.fwMinSvn, b.trMinSvn, b.revoked) = b.fuses := by rfl
@[simp] theorem fuses_bootSetSlot (b : Boot) (i x) : (b.setSlot i x).fuses = b.fuses := by
  unfold Boot.setSlot
  split <;> rfl
@[simp] theorem fuses_ite (c : Prop) [Decidable c] (a b : Mach) :
    (if c then a else b).fuses = if c then a.fuses else b.fuses := apply_ite _ _ _ _
@[simp] theorem fuses_foldl {β : Type} (f : Mach → β → Mach) (h : ∀ m x, (f m x).fuses = m.fuses) (l : List β)
    (m : Mach) : (l.foldl f m).fuses = m.fuses := foldl_keeps Mach.fuses h l m
theorem fuses_foldl_option {σ β : Type} {f : Option (σ × Mach) → β → Option (σ × Mach)} (hn : ∀ x, f none x = none)
    (hs : ∀ s m x s' m', f (some (s, m)) x = some (s', m') → m'.fuses = m.fuses) {l : List β} {s s' : σ} {m m' : Mach}
    (h : l.foldl f (some (s, m)) = some (s', m')) : m'.fuses = m.fuses :=
  foldl_option_keeps (P := fun n => n.fuses = m.fuses) hn (fun _ _ _ _ _ hm e => (hs _ _ _ _ _ e).trans hm) rfl h
theorem fuses_getD {o : Option Mach} {x : Nat × Nat × Nat} {n : Mach} (ho : ∀ k, o = some k → k.fuses = x)
    (hn : n.fuses = x) : (o.getD n).fuses = x := by
  cases o with
  | none => exact hn
  | some k => exact ho k rfl

section
variable (m : Mach)

/-! #### Machine/Ops -/

@[simp] theorem fuses_setReg (off v) : (m.setReg off v).fuses = m.fuses := by simp [Mach.setReg]
@[simp] theorem fuses_setFld (off hi lo v) : (m.setFld off hi lo v).fuses = m.fuses := by simp [Mach.setFld]
@[simp] theorem fuses_setBit (off i b) : (m.setBit off i b).fuses = m.fuses := by simp [Mach.setBit]
@[simp] theorem fuses_addFld (off hi lo n) : (m.addFld off hi lo n).fuses = m.fuses := by simp [Mach.addFld]
@[simp] theorem fuses_satFld (off hi lo n) : (m.satFld off hi lo n).fuses = m.fuses := by simp [Mach.satFld]
@[simp] theorem fuses_send (o) : (m.send o).fuses = m.fuses := by simp [Mach.send]
@[simp] theorem fuses_draw : m.draw.fuses = m.fuses := by simp [Mach.draw]
@[simp] theorem fuses_recordAs (inj typ src status payload) :
    (m.recordAs inj typ src status payload).fuses = m.fuses := by
  simp [Mach.recordAs]
@[simp] theorem fuses_record (typ src status payload) : (m.record typ src status payload).fuses = m.fuses := by
  simp [Mach.record]
@[simp] theorem fuses_notice (code src arg status) : (m.notice code src arg status).fuses = m.fuses := by
  simp [Mach.notice]
@[simp] theorem fuses_rejected (src off val reason) : (m.rejected src off val reason).fuses = m.fuses := by
  simp [Mach.rejected]
@[simp] theorem fuses_notifyLast : m.notifyLast.fuses = m.fuses := by
  unfold Mach.notifyLast
  split <;> simp
@[simp] theorem fuses_setPort (p x) : (m.setPort p x).fuses = m.fuses := by simp [Mach.setPort]
@[simp] theorem fuses_setCtl (p c) : (m.setCtl p c).fuses = m.fuses := by simp [Mach.setCtl]
@[simp] theorem fuses_nvmePost (n sct sc dw1 data) : (m.nvmePost n sct sc dw1 data).fuses = m.fuses := by
  simp [Mach.nvmePost]
@[simp] theorem fuses_nvmeDone (n code data) : (m.nvmeDone n code data).fuses = m.fuses := by simp [Mach.nvmeDone]
@[simp] theorem fuses_nvmeStd (n sct sc) : (m.nvmeStd n sct sc).fuses = m.fuses := by simp [Mach.nvmeStd]

/-! #### Machine/BootOps -/

@[simp] theorem fuses_measure (i typ digest name) : (m.measure i typ digest name).fuses = m.fuses := by
  simp [Mach.measure]
@[simp] theorem fuses_measureData (i content) : (m.measureData i content).fuses = m.fuses := by simp [Mach.measureData]
@[simp] theorem fuses_bootRecord : m.bootRecord.fuses = m.fuses := by simp [Mach.bootRecord]
@[simp] theorem fuses_startBoot : m.startBoot.fuses = m.fuses := (startBoot_boot rfl).2.1
@[simp] theorem fuses_storeImage (slot image) : (m.storeImage slot image).fuses = m.fuses := by simp [Mach.storeImage]

/-! #### Machine/Variants -/

@[simp] theorem fuses_setTile (t x) : (m.setTile t x).fuses = m.fuses := by rfl
@[simp] theorem fuses_setClus (c x) : (m.setClus c x).fuses = m.fuses := by rfl
@[simp] theorem fuses_setDieQueue (d q) : (m.setDieQueue d q).fuses = m.fuses := by simp [Mach.setDieQueue]

/-! #### Machine/KeyBase -/

@[simp] theorem fuses_setKey (k) : (m.setKey k).fuses = m.fuses := by simp [Mach.setKey]
@[simp] theorem fuses_countSeal (k) : (m.countSeal k).fuses = m.fuses := by simp [Mach.countSeal]
@[simp] theorem fuses_countDenied (st) : (m.countDenied st).fuses = m.fuses := by simp [Mach.countDenied]

/-! #### Machine/HostBase -/

@[simp] theorem fuses_nvmeServe (n k) {f : Mach → Mach} (h : (f m).fuses = m.fuses) :
    (m.nvmeServe n k f).fuses = m.fuses := by
  unfold Mach.nvmeServe; repeat' split
  all_goals simp [h]

/-! #### Machine/CfgOps -/

@[simp] theorem fuses_cfgBusy (blk) : (m.cfgBusy blk).fuses = m.fuses := by simp [Mach.cfgBusy]

/-! #### Machine/JobBase -/

@[simp] theorem fuses_setJob (j x) : (m.setJob j x).fuses = m.fuses := by simp [Mach.setJob]
@[simp] theorem fuses_jobEnd (j final code) : (m.jobEnd j final code).fuses = m.fuses := by
  unfold Mach.jobEnd
  split <;> simp
@[simp] theorem fuses_jobFail (j code) : (m.jobFail j code).fuses = m.fuses := by simp [Mach.jobFail]

/-! #### Machine/UnitOps -/

theorem fuses_placeDie {m m' : Mach} {d e} (h : m.placeDie d e = some m') : m'.fuses = m.fuses := by
  simp only [Mach.placeDie] at h
  split at h <;> cases h
  rfl
@[simp] theorem fuses_injected : m.injected.fuses = m.fuses := by
  unfold Mach.injected
  split <;> simp
@[simp] theorem fuses_mismatchRecord (t job seq tiles status outcome) :
    (m.mismatchRecord t job seq tiles status outcome).fuses = m.fuses := by
  simp [Mach.mismatchRecord]
@[simp] theorem fuses_runRecords (job seq runs n) : (m.runRecords job seq runs n).fuses = m.fuses := by
  induction runs generalizing m n with
  | nil => rfl
  | cons r rest ih => rw [Mach.runRecords, ih]; split <;> simp
@[simp] theorem fuses_compared (t res) : (m.compared t res).fuses = m.fuses := by simp [Mach.compared]

/-! #### Machine/MemErr -/

@[simp] theorem fuses_eccCe (v inj a) : (m.eccCe v inj a).fuses = m.fuses := by simp [Mach.eccCe]
@[simp] theorem fuses_eccUe (v inj a status outcome) : (m.eccUe v inj a status outcome).fuses = m.fuses := by
  simp [Mach.eccUe]
@[simp] theorem fuses_wordGood (a) : (m.wordGood a).fuses = m.fuses := by simp [Mach.wordGood]
@[simp] theorem fuses_written (a n) : (m.written a n).fuses = m.fuses := by simp [Mach.written]
@[simp] theorem fuses_meetCe (v a n) : (m.meetCe v a n).fuses = m.fuses := by simp [Mach.meetCe]

/-! #### Machine/QueueOps -/

@[simp] theorem fuses_applyTilecfg (t cfg) : (m.applyTilecfg t cfg).fuses = m.fuses := by simp [Mach.applyTilecfg]

/-! #### Machine/MemOps -/

@[simp] theorem fuses_retrainBegin (c trig) : (m.retrainBegin c trig).fuses = m.fuses := by simp [Mach.retrainBegin]
@[simp] theorem fuses_retrainStart (v c trig) : (m.retrainStart v c trig).fuses = m.fuses := by simp [Mach.retrainStart]
@[simp] theorem fuses_retrainNext : m.retrainNext.fuses = m.fuses := by simp [Mach.retrainNext]
@[simp] theorem fuses_retrainRecord (c trig result rate status) :
    (m.retrainRecord c trig result rate status).fuses = m.fuses := by
  simp [Mach.retrainRecord]
@[simp] theorem fuses_retrainEnd (c pass) : (m.retrainEnd c pass).fuses = m.fuses := by
  unfold Mach.retrainEnd
  split <;> simp
@[simp] theorem fuses_retrainReq (v w bits) : (m.retrainReq v w bits).fuses = m.fuses := by simp [Mach.retrainReq]
@[simp] theorem fuses_setPool (k p) : (m.setPool k p).fuses = m.fuses := by simp [Mach.setPool]
@[simp] theorem fuses_takeBuf (k owner tag) : (m.takeBuf k owner tag).fuses = m.fuses := by
  unfold Mach.takeBuf; dsimp only
  split <;> simp
@[simp] theorem fuses_serveBufs (n) (k) : (Mach.serveBufs n m k).fuses = m.fuses := by
  induction n generalizing m with
  | zero => rfl
  | succ n ih => rw [Mach.serveBufs]; split <;> simp [ih]
@[simp] theorem fuses_alloc (u owner size) : (m.alloc u owner size).fuses = m.fuses := by
  unfold Mach.alloc
  (repeat' split) <;> simp
@[simp] theorem fuses_freeOk (h) : (m.freeOk h).fuses = m.fuses := by simp [Mach.freeOk]
@[simp] theorem fuses_freeBuf (u owner h) : (m.freeBuf u owner h).fuses = m.fuses := by simp [Mach.freeBuf]
@[simp] theorem fuses_chuckRefill (k) : (m.chuckRefill k).fuses = m.fuses := by
  unfold Mach.chuckRefill; dsimp only
  split <;> simp
@[simp] theorem fuses_poolFill (k count) : (m.poolFill k count).fuses = m.fuses := by simp [Mach.poolFill]
@[simp] theorem fuses_poolEnable (w k count) : (m.poolEnable w k count).fuses = m.fuses := by simp [Mach.poolEnable]
@[simp] theorem fuses_poolDisable (w k count) : (m.poolDisable w k count).fuses = m.fuses := by simp [Mach.poolDisable]
@[simp] theorem fuses_hostLimit (w val) : (m.hostLimit w val).fuses = m.fuses := by simp [Mach.hostLimit]
theorem fuses_carveArea {m m' : Mach} {job n a} (h : m.carveArea job n = some (a, m')) : m'.fuses = m.fuses := by
  unfold Mach.carveArea at h
  split at h <;> cases h
  rfl
@[simp] theorem fuses_setSlot (s x) : (m.setSlot s x).fuses = m.fuses := by simp [Mach.setSlot]
@[simp] theorem fuses_ctxFill (s) : (m.ctxFill s).fuses = m.fuses := by simp [Mach.ctxFill]
@[simp] theorem fuses_ctxFlushEnd : m.ctxFlushEnd.fuses = m.fuses := by simp [Mach.ctxFlushEnd]

/-! #### Machine/FtlOps -/

@[simp] theorem fuses_setNs (nsid x) : (m.setNs nsid x).fuses = m.fuses := by simp [Mach.setNs]
@[simp] theorem fuses_setSb (i b) : (m.setSb i b).fuses = m.fuses := by simp [Mach.setSb]
theorem fuses_placeSlots {m m' : Mach} {k n w a b} (h : m.placeSlots k n w = some (a, b, m')) : m'.fuses = m.fuses := by
  simp only [Mach.placeSlots] at h
  (repeat' split at h) <;> cases h <;> rfl
@[simp] theorem fuses_flashFault (inj chan kind block status) :
    (m.flashFault inj chan kind block status).fuses = m.fuses := by
  simp [Mach.flashFault]
@[simp] theorem fuses_mediaRecord (chan nsid unit) : (m.mediaRecord chan nsid unit).fuses = m.fuses := by
  simp [Mach.mediaRecord]
@[simp] theorem fuses_applyChange (c) : (m.applyChange c).fuses = m.fuses := by
  unfold Mach.applyChange
  (repeat' split) <;> simp
@[simp] theorem fuses_journal (c d) : (m.journal c d).fuses = m.fuses := by simp [Mach.journal]
@[simp] theorem fuses_flashDone (d) : (m.flashDone d).fuses = m.fuses := by
  unfold Mach.flashDone
  split <;> simp
theorem fuses_tryWrite {m m' : Mach} {w} (h : m.tryWrite w = some m') : m'.fuses = m.fuses := by
  simp only [Mach.tryWrite] at h
  split at h
  · cases h; rfl
  · split at h
    · cases h
    · split at h
      · next e =>
        cases h
        rw [fuses_journal, fuses_addFld, fuses_foldl_option (fun _ => rfl) _ e, fuses_mk, fuses_fold]
        intro s m i s' m' h
        dsimp only at h
        split at h
        · next hp =>
          cases h
          split <;> simp [fuses_placeSlots hp]
        · cases h
      · cases h
@[simp] theorem fuses_flashWrite (w) : (m.flashWrite w).fuses = m.fuses := by
  unfold Mach.flashWrite
  split
  · split
    · next h => exact fuses_tryWrite h
    · rfl
  · rfl
@[simp] theorem fuses_serveWrites (n) : (Mach.serveWrites n m).fuses = m.fuses := by
  induction n generalizing m with
  | zero => rfl
  | succ n ih =>
    rw [Mach.serveWrites]
    split
    · split
      · next h => simp [ih, fuses_tryWrite h]
      · rfl
    · rfl
@[simp] theorem fuses_journalPage : m.journalPage.fuses = m.fuses := by simp [Mach.journalPage]
@[simp] theorem fuses_checkpoint : m.checkpoint.fuses = m.fuses := by simp [Mach.checkpoint]
@[simp] theorem fuses_retireBlock (i) : (m.retireBlock i).fuses = m.fuses := by
  unfold Mach.retireBlock; dsimp only
  (repeat' split) <;> simp
@[simp] theorem fuses_queueSb (i) : (m.queueSb i).fuses = m.fuses := by simp [Mach.queueSb]
@[simp] theorem fuses_programFail (inj i b) : (m.programFail inj i b).fuses = m.fuses := by
  unfold Mach.programFail
  split
  · extract_lets m₁ redo m₂
    have hr (m : Mach) (c) : (redo m c).2.fuses = m.fuses := by
      unfold redo
      split
      · split
        · split
          · split
            · split
              · next h => exact fuses_placeSlots h
              · rfl
            · rfl
          · rfl
        · rfl
      · rfl
    have h₂ : m₂.fuses = m.fuses := by
      unfold m₂
      split <;> simp [hr, m₁]
    simp [h₂]
  · rfl
theorem fuses_copyUnits {m m' : Mach} {us l} (h : m.copyUnits us = some (l, m')) : m'.fuses = m.fuses := by
  refine fuses_foldl_option (fun _ => rfl) (fun s m u s' m' h => ?_) h
  dsimp only at h
  split at h
  · cases h; rfl
  · split at h
    · next hp => cases h; simp [fuses_placeSlots hp]
    · cases h
@[simp] theorem fuses_copyFailed (dst program) : (m.copyFailed dst program).fuses = m.fuses := by
  unfold Mach.copyFailed
  (repeat' split) <;> simp
@[simp] theorem fuses_foldStep (b) : (m.foldStep b).fuses = m.fuses := by
  simp only [Mach.foldStep]
  split
  · rfl
  · split
    · rfl
    · split
      · next h => simp [fuses_copyUnits h]
      · simp
@[simp] theorem fuses_gcStep (b f) : (m.gcStep b f).fuses = m.fuses := by
  simp only [Mach.gcStep]
  split
  · rfl
  · split
    · next h => simp [fuses_copyUnits h]
    · simp
@[simp] theorem fuses_flashRead (i step half nsid unit) : (m.flashRead i step half nsid unit).fuses = m.fuses := by
  unfold Mach.flashRead
  split <;> simp
@[simp] theorem fuses_carrierChans (n state) : (m.carrierChans n state).fuses = m.fuses := by simp [Mach.carrierChans]
@[simp] theorem fuses_mountSet (info set) : (m.mountSet info set).fuses = m.fuses := by
  unfold Mach.mountSet
  extract_lets cs id m₁ ours _
  clear_value cs ours
  split
  · rfl
  · extract_lets same good m₂ _ m₃ opened m₄ m₅ m₆ need m₇ m₈ m₉ m₁₀ m₁₁ m₁₂ m₁₃ m₁₄ m₁₅
    have h₁ : m₁.fuses = m.fuses := by simp only [m₁, fuses_ite, fuses_draw, ite_self]
    have h₃ : m₃.fuses = m.fuses := by
      have h₂ : m₂.fuses = m.fuses := h₁
      unfold m₃
      split <;> exact h₂
    have h₄ : m₄.fuses = m.fuses := by
      rw [← h₃]
      refine fuses_foldl _ (fun m i => ?_) _ _
      split <;> simp
    simp only [m₁₅, m₁₄, m₁₃, m₁₂, m₁₁, m₁₀, m₉, m₈, m₇, m₆, m₅, fuses_checkpoint, fuses_foldl,
      fuses_setReg, fuses_setBit,
      fuses_setFld, fuses_carrierChans, fuses_notice, implies_true, h₄]
@[simp] theorem fuses_mountFlash (info) : (m.mountFlash info).fuses = m.fuses := by
  unfold Mach.mountFlash; dsimp only
  split <;> simp
@[simp] theorem fuses_ftlMount (info) : (m.ftlMount info).fuses = m.fuses := by
  unfold Mach.ftlMount; dsimp only
  (repeat' split) <;> simp
@[simp] theorem fuses_adoptSel (w sel) : (m.adoptSel w sel).fuses = m.fuses := by
  unfold Mach.adoptSel
  (repeat' split) <;> simp
@[simp] theorem fuses_closeCarrier (n) : (m.closeCarrier n).fuses = m.fuses := by simp [Mach.closeCarrier]
@[simp] theorem fuses_carrierFall (n) : (m.carrierFall n).fuses = m.fuses := by
  unfold Mach.carrierFall; dsimp only
  (repeat' split) <;> simp
@[simp] theorem fuses_carrierRise (info) : (m.carrierRise info).fuses = m.fuses := by
  have counted (f : Nat → Nat) (l : List Nat) (m : Mach) :
      (l.foldl (fun m i => m.addFld (f i) 15 0 1) m).fuses = m.fuses := by simp
  simp only [Mach.carrierRise, fuses_ite, fuses_notice, fuses_setBit, fuses_carrierChans, fuses_mk, fuses_fold,
    counted, ite_self]
@[simp] theorem fuses_dieFails (chan die) : (m.dieFails chan die).fuses = m.fuses := by simp [Mach.dieFails]
@[simp] theorem fuses_channelRecal (v) (c t p) : (m.channelRecal v c t p).fuses = m.fuses := by
  unfold Mach.channelRecal; dsimp only
  (repeat' split) <;> simp
@[simp] theorem fuses_recalReq (v w bits) : (m.recalReq v w bits).fuses = m.fuses := by simp [Mach.recalReq]
@[simp] theorem fuses_writeMediaTime (val) : (m.writeMediaTime val).fuses = m.fuses := by simp [Mach.writeMediaTime]
@[simp] theorem fuses_writeStoredCfg (w val) : (m.writeStoredCfg w val).fuses = m.fuses := by simp [Mach.writeStoredCfg]

/-! #### Machine/NvmeOps -/

@[simp] theorem fuses_nvmeErr (n e) : (m.nvmeErr n e).fuses = m.fuses := by simp [Mach.nvmeErr]
@[simp] theorem fuses_createCq (n qid size vector ien) : (m.createCq n qid size vector ien).fuses = m.fuses := by
  simp [Mach.createCq]
@[simp] theorem fuses_createSq (n qid size cqid) : (m.createSq n qid size cqid).fuses = m.fuses := by
  simp [Mach.createSq]
@[simp] theorem fuses_deleteSq (n qid) : (m.deleteSq n qid).fuses = m.fuses := by simp [Mach.deleteSq]
@[simp] theorem fuses_deleteCq (n qid) : (m.deleteCq n qid).fuses = m.fuses := by simp [Mach.deleteCq]
@[simp] theorem fuses_reserve (n nsid f) : (m.reserve n nsid f).fuses = m.fuses := by
  unfold Mach.reserve
  (repeat' split) <;> simp
@[simp] theorem fuses_reserveReport (n nsid) : (m.reserveReport n nsid).fuses = m.fuses := by
  unfold Mach.reserveReport
  split <;> simp
@[simp] theorem fuses_onNs (n nsid) {f : Ns → Mach} (h : ∀ x, (f x).fuses = m.fuses) :
    (m.onNs n nsid f).fuses = m.fuses := by
  unfold Mach.onNs; (repeat' split) <;> simp [h]
@[simp] theorem fuses_stopWith (n e) : (m.stopWith n e).fuses = m.fuses := by
  unfold Mach.stopWith
  split <;> simp
@[simp] theorem fuses_nvmWrite (n nsid slba data bad) : (m.nvmWrite n nsid slba data bad).fuses = m.fuses := by
  refine fuses_onNs _ _ _ fun x => ?_
  simp only [fuses_ite, fuses_nvmeDone, fuses_nvmeErr]
  (repeat' split) <;> simp
@[simp] theorem fuses_nvmRead (n nsid slba nlb bad tag) : (m.nvmRead n nsid slba nlb bad tag).fuses = m.fuses := by
  refine fuses_onNs _ _ _ fun x => ?_
  simp only [fuses_ite, fuses_nvmeDone, fuses_nvmeErr]
  (repeat' split) <;> simp
@[simp] theorem fuses_dealloc (x nsid off n d) : (m.dealloc x nsid off n d).fuses = m.fuses := by
  unfold Mach.dealloc; dsimp only
  split <;> simp
@[simp] theorem fuses_writeZeroes (n nsid slba nlb) : (m.writeZeroes n nsid slba nlb).fuses = m.fuses := by
  refine fuses_onNs _ _ _ fun x => ?_
  simp only [fuses_ite, fuses_nvmeDone, fuses_nvmeErr]
  (repeat' split) <;> simp
@[simp] theorem fuses_datasetMgmt (n nsid d ranges) : (m.datasetMgmt n nsid d ranges).fuses = m.fuses := by
  refine fuses_onNs _ _ _ fun x => ?_
  simp only [fuses_ite, fuses_nvmeDone, fuses_nvmeErr]
  (repeat' split) <;> simp
@[simp] theorem fuses_nvmFlush (n nsid) : (m.nvmFlush n nsid).fuses = m.fuses := by simp [Mach.nvmFlush]
@[simp] theorem fuses_nsCreate (n nsze lbaf iu kind key rsvd) :
    (m.nsCreate n nsze lbaf iu kind key rsvd).fuses = m.fuses := by
  unfold Mach.nsCreate
  (repeat' split) <;> simp
@[simp] theorem fuses_nsDelete (n nsid) : (m.nsDelete n nsid).fuses = m.fuses := by
  unfold Mach.nsDelete
  (repeat' split) <;> simp
@[simp] theorem fuses_nsAttach (n nsid ports attach) : (m.nsAttach n nsid ports attach).fuses = m.fuses := by
  unfold Mach.nsAttach
  split <;> simp
@[simp] theorem fuses_setFeature (n f val hostId) : (m.setFeature n f val hostId).fuses = m.fuses := by
  simp [Mach.setFeature]
@[simp] theorem fuses_getFeature (n f) : (m.getFeature n f).fuses = m.fuses := by simp [Mach.getFeature]
@[simp] theorem fuses_aer (n) : (m.aer n).fuses = m.fuses := by simp [Mach.aer]
@[simp] theorem fuses_abortCmd (n qid cid) : (m.abortCmd n qid cid).fuses = m.fuses := by simp [Mach.abortCmd]
@[simp] theorem fuses_identify (n cns nsid) : (m.identify n cns nsid).fuses = m.fuses := by
  unfold Mach.identify
  dsimp only
  (repeat' split) <;> simp only [fuses_nvmeDone, fuses_nvmeErr]
@[simp] theorem fuses_getLog (n lid off len) : (m.getLog n lid off len).fuses = m.fuses := by
  unfold Mach.getLog
  split <;> simp
@[simp] theorem fuses_miSend (p r) : (m.miSend p r).fuses = m.fuses := by
  unfold Mach.miSend
  split <;> simp
@[simp] theorem fuses_miServe (p) {f : Mach → Mach} (h : (f m).fuses = m.fuses) : (m.miServe p f).fuses = m.fuses := by
  unfold Mach.miServe; split <;> simp [h]
@[simp] theorem fuses_miRun (p op arg) : (m.miRun p op arg).fuses = m.fuses := by simp [Mach.miRun]
@[simp] theorem fuses_miConfigSet (p arg val) : (m.miConfigSet p arg val).fuses = m.fuses := by simp [Mach.miConfigSet]
@[simp] theorem fuses_nvmeMiReply (op) : (m.nvmeMiReply op).fuses = m.fuses := by simp [Mach.nvmeMiReply]
@[simp] theorem fuses_eraseNs (p) : (m.eraseNs p).fuses = m.fuses := by simp [Mach.eraseNs]
@[simp] theorem fuses_sanitizeStart (n k) : (m.sanitizeStart n k).fuses = m.fuses := by
  unfold Mach.sanitizeStart
  (repeat' split) <;> simp
@[simp] theorem fuses_formatStart (n nsid ses lbaf) : (m.formatStart n nsid ses lbaf).fuses = m.fuses := by
  simp [Mach.formatStart]
@[simp] theorem fuses_exitFailure (n) : (m.exitFailure n).fuses = m.fuses := by simp [Mach.exitFailure]
@[simp] theorem fuses_sanitizeEnd (ok) : (m.sanitizeEnd ok).fuses = m.fuses := by
  unfold Mach.sanitizeEnd
  split <;> simp
@[simp] theorem fuses_formatEnd : m.formatEnd.fuses = m.fuses := by
  unfold Mach.formatEnd
  (repeat' split) <;> simp

/-! #### Machine/PipeOps -/

@[simp] theorem fuses_setPipe (p q x) : (m.setPipe p q x).fuses = m.fuses := by simp [Mach.setPipe]
@[simp] theorem fuses_createPipe (n q sqLog cqLog vector ien sqBase cqBase) :
    (m.createPipe n q sqLog cqLog vector ien sqBase cqBase).fuses = m.fuses := by
  simp [Mach.createPipe]
@[simp] theorem fuses_deletePipe (n q) : (m.deletePipe n q).fuses = m.fuses := by
  unfold Mach.deletePipe; dsimp only
  split <;> simp
@[simp] theorem fuses_dbError (by_ p q off val reason) : (m.dbError by_ p q off val reason).fuses = m.fuses := by
  simp [Mach.dbError]
@[simp] theorem fuses_sqTail (by_ p q tail) : (m.sqTail by_ p q tail).fuses = m.fuses := by
  unfold Mach.sqTail
  (repeat' split) <;> simp
@[simp] theorem fuses_pipeWrite (p q x c) : (m.pipeWrite p q x c).fuses = m.fuses := by simp [Mach.pipeWrite]
@[simp] theorem fuses_pipePost (p q c) : (m.pipePost p q c).fuses = m.fuses := by
  unfold Mach.pipePost
  split <;> simp
@[simp] theorem fuses_pipeServe (n) (p q) : (Mach.pipeServe n m p q).fuses = m.fuses := by
  induction n generalizing m with
  | zero => rfl
  | succ n ih => rw [Mach.pipeServe]; (repeat' split) <;> simp [ih]
@[simp] theorem fuses_cqHead (b p q head) : (m.cqHead b p q head).fuses = m.fuses := by
  unfold Mach.cqHead
  (repeat' split) <;> simp
@[simp] theorem fuses_pipeTake (c) {f : Nat → Mach → Mach} (h : ∀ n m, (f n m).fuses = m.fuses) :
    (m.pipeTake c f).fuses = m.fuses := by
  simp only [Mach.pipeTake]
  (repeat' split) <;> simp [h]
@[simp] theorem fuses_pipeDone (p q cid serial result status) :
    (m.pipeDone p q cid serial result status).fuses = m.fuses := by
  unfold Mach.pipeDone
  split <;> simp
@[simp] theorem fuses_pipeEnd (p q cid serial result status) :
    (m.pipeEnd p q cid serial result status).fuses = m.fuses := by
  unfold Mach.pipeEnd
  split <;> simp
@[simp] theorem fuses_pipeNow (c) {f : Mach → Nat × Nat × Mach} (h : ∀ m, (f m).2.2.fuses = m.fuses) :
    (m.pipeNow c f).fuses = m.fuses := by
  refine fuses_pipeTake _ _ fun n m => ?_
  rw [fuses_pipeDone, h]
@[simp] theorem fuses_moveOwner (to_ how) : (m.moveOwner to_ how).fuses = m.fuses := by simp [Mach.moveOwner]
@[simp] theorem fuses_handover (p claimToo) : (m.handover p claimToo).fuses = m.fuses := by simp [Mach.handover]
@[simp] theorem fuses_claim (p) : (m.claim p).fuses = m.fuses := by simp [Mach.claim]

/-! #### Machine/JobOps -/

theorem fuses_carveAreas {j l as} {m m' : Mach} (h : m.carveAreas j l = some (as, m')) : m'.fuses = m.fuses := by
  induction l generalizing m m' as with
  | nil => cases h; rfl
  | cons n r ih =>
    rw [Mach.carveAreas] at h
    split at h
    · next b m₁ h₁ =>
      split at h <;> cases h
      next h₂ => rw [ih h₂, fuses_carveArea h₁]
    · cases h
@[simp] theorem fuses_putDigest (reg d) : (m.putDigest reg d).fuses = m.fuses := by simp [Mach.putDigest]
@[simp] theorem fuses_startRunning (j x launch late) : (m.startRunning j x launch late).fuses = m.fuses := by
  simp [Mach.startRunning]
@[simp] theorem fuses_fixLaunch (j launch) : (m.fixLaunch j launch).fuses = m.fuses := by
  unfold Mach.fixLaunch
  split <;> simp
@[simp] theorem fuses_tablesLoaded (j) : (m.tablesLoaded j).fuses = m.fuses := by
  unfold Mach.tablesLoaded
  split <;> simp
@[simp] theorem fuses_bindChans (j chans cs) : (m.bindChans j chans cs).fuses = m.fuses := by simp [Mach.bindChans]
@[simp] theorem fuses_openCache (j base c) : (m.openCache j base c).fuses = m.fuses := by
  unfold Mach.openCache; dsimp only
  split <;> simp
@[simp] theorem fuses_countPolicy (st) : (m.countPolicy st).fuses = m.fuses := by simp [Mach.countPolicy]
@[simp] theorem fuses_launchJob (j) : (m.launchJob j).fuses = m.fuses := by
  unfold Mach.launchJob
  (repeat' split) <;> simp
@[simp] theorem fuses_reportJob (x digest) : (m.reportJob x digest).fuses = m.fuses := by
  unfold Mach.reportJob
  split <;> simp
@[simp] theorem fuses_runLane (n) (j i k) : (Mach.runLane n m j i k).fuses = m.fuses := by
  induction n generalizing m with
  | zero => rfl
  | succ n ih => 
    unfold Mach.runLane; dsimp only
    (repeat' split) <;> simp [ih]
@[simp] theorem fuses_sampleKnown (j e p r) : (m.sampleKnown j e p r).fuses = m.fuses := by
  unfold Mach.sampleKnown; dsimp only
  (repeat' split) <;> simp
theorem fuses_takeBufs {m m' : Mach} {o n l} (h : m.takeBufs o n = some (l, m')) : m'.fuses = m.fuses := by
  simp only [Mach.takeBufs] at h
  split at h
  · cases h
  · split at h <;> cases h
    simp
@[simp] theorem fuses_countKernel (st r) : (m.countKernel st r).fuses = m.fuses := by simp [Mach.countKernel]
@[simp] theorem fuses_collectSample (v j e r) : (m.collectSample v j e r).fuses = m.fuses := by
  unfold Mach.collectSample
  (repeat' split) <;> simp
@[simp] theorem fuses_setChan (k c) : (m.setChan k c).fuses = m.fuses := by simp [Mach.setChan]
@[simp] theorem fuses_batchStart (k) : (m.batchStart k).fuses = m.fuses := by
  unfold Mach.batchStart
  (repeat' split) <;> simp
@[simp] theorem fuses_deliver (chan c n bytes) : (m.deliver chan c n bytes).fuses = m.fuses := by simp [Mach.deliver]
@[simp] theorem fuses_digStat (j valid nonrepro n) : (m.digStat j valid nonrepro n).fuses = m.fuses := by
  simp [Mach.digStat]
@[simp] theorem fuses_jobDone (j) : (m.jobDone j).fuses = m.fuses := by
  unfold Mach.jobDone
  split <;> simp
@[simp] theorem fuses_jobProgress (j) : (m.jobProgress j).fuses = m.fuses := by
  unfold Mach.jobProgress
  (repeat' split) <;> simp
@[simp] theorem fuses_recordEmit (j e p) : (m.recordEmit j e p).fuses = m.fuses := by
  unfold Mach.recordEmit; dsimp only
  (repeat' split) <;> simp
@[simp] theorem fuses_writeAugReady (w j val) : (m.writeAugReady w j val).fuses = m.fuses := by
  unfold Mach.writeAugReady
  (repeat' split) <;> simp
@[simp] theorem fuses_dropWaits (owner) : (m.dropWaits owner).fuses = m.fuses := by simp [Mach.dropWaits]
@[simp] theorem fuses_closeCache (j) : (m.closeCache j).fuses = m.fuses := by
  unfold Mach.closeCache; dsimp only
  (repeat' split) <;> simp

/-! #### Machine/KeyOps -/

@[simp] theorem fuses_storeChanged : m.storeChanged.fuses = m.fuses := by simp [Mach.storeChanged]
@[simp] theorem fuses_addKey (n policy flags signer material) :
    (m.addKey n policy flags signer material).fuses = m.fuses := by
  unfold Mach.addKey
  (repeat' split) <;> simp
@[simp] theorem fuses_keyCreate (n policy flags signer) : (m.keyCreate n policy flags signer).fuses = m.fuses := by
  simp [Mach.keyCreate]
@[simp] theorem fuses_keyImport (n policy flags signer kem iv ct tag) :
    (m.keyImport n policy flags signer kem iv ct tag).fuses = m.fuses := by
  unfold Mach.keyImport; dsimp only
  (repeat' split) <;> simp
@[simp] theorem fuses_withKey (n k) {f : KeyRec → Mach} (h : ∀ x, (f x).fuses = m.fuses) :
    (m.withKey n k f).fuses = m.fuses := by
  unfold Mach.withKey; split <;> simp [h]
@[simp] theorem fuses_keyNarrow (n h policy) : (m.keyNarrow n h policy).fuses = m.fuses := by simp [Mach.keyNarrow]
@[simp] theorem fuses_keyDestroy (n h) : (m.keyDestroy n h).fuses = m.fuses := by simp [Mach.keyDestroy]
@[simp] theorem fuses_keyList (n) : (m.keyList n).fuses = m.fuses := by simp [Mach.keyList]
@[simp] theorem fuses_keyRequest (source) : (m.keyRequest source).fuses = m.fuses := by simp [Mach.keyRequest]
@[simp] theorem fuses_migNonce (v dst nonce) : (m.migNonce v dst nonce).fuses = m.fuses := by
  unfold Mach.migNonce
  split <;> simp
@[simp] theorem fuses_migAttest (cert report node esc) : (m.migAttest cert report node esc).fuses = m.fuses := by
  unfold Mach.migAttest
  split <;> simp
@[simp] theorem fuses_migPackage (p) : (m.migPackage p).fuses = m.fuses := by
  simp only [Mach.migPackage]
  (repeat' split) <;> simp
@[simp] theorem fuses_migReceipt (receipt) : (m.migReceipt receipt).fuses = m.fuses := by simp [Mach.migReceipt]

/-! #### Machine/SpinOps -/

@[simp] theorem fuses_updSpn (f) : (m.updSpn f).fuses = m.fuses := by simp [Mach.updSpn]
@[simp] theorem fuses_stepCount (by_) : (m.stepCount by_).fuses = m.fuses := by simp [Mach.stepCount]
@[simp] theorem fuses_setSlew (d) : (m.setSlew d).fuses = m.fuses := by simp [Mach.setSlew]
@[simp] theorem fuses_setSync (st) : (m.setSync st).fuses = m.fuses := by simp [Mach.setSync]
@[simp] theorem fuses_setErr (e) : (m.setErr e).fuses = m.fuses := by simp [Mach.setErr]
@[simp] theorem fuses_restartWindows : m.restartWindows.fuses = m.fuses := by simp [Mach.restartWindows]
@[simp] theorem fuses_windowAccepted (th dl est) : (m.windowAccepted th dl est).fuses = m.fuses := by
  simp [Mach.windowAccepted]
@[simp] theorem fuses_exchange (a b c d e) : (m.exchange a b c d e).fuses = m.fuses := by
  unfold Mach.exchange; dsimp only
  (repeat' split) <;> simp
@[simp] theorem fuses_tell (node c) : (m.tell node c).fuses = m.fuses := by simp [Mach.tell]
@[simp] theorem fuses_setMember (node x) : (m.setMember node x).fuses = m.fuses := by simp [Mach.setMember]
@[simp] theorem fuses_onMember (node f) : (m.onMember node f).fuses = m.fuses := by
  unfold Mach.onMember
  split <;> simp
@[simp] theorem fuses_joinRefused (node st) : (m.joinRefused node st).fuses = m.fuses := by simp [Mach.joinRefused]
@[simp] theorem fuses_greet : m.greet.fuses = m.fuses := by simp [Mach.greet]
@[simp] theorem fuses_newManager (node) : (m.newManager node).fuses = m.fuses := by simp [Mach.newManager]
@[simp] theorem fuses_gotHello (node) : (m.gotHello node).fuses = m.fuses := by simp [Mach.gotHello]
@[simp] theorem fuses_gotNonce (v node n) : (m.gotNonce v node n).fuses = m.fuses := by simp [Mach.gotNonce]
@[simp] theorem fuses_gotJoin (node cert report caps fdoms hasJob t1 t2 t3 t4) :
    (m.gotJoin node cert report caps fdoms hasJob t1 t2 t3 t4).fuses = m.fuses := by
  unfold Mach.gotJoin
  split <;> simp
@[simp] theorem fuses_gotWelcome (node tol) : (m.gotWelcome node tol).fuses = m.fuses := by simp [Mach.gotWelcome]
@[simp] theorem fuses_gotRefuse (node st) : (m.gotRefuse node st).fuses = m.fuses := by simp [Mach.gotRefuse]
@[simp] theorem fuses_sendSync (node t1) : (m.sendSync node t1).fuses = m.fuses := by
  unfold Mach.sendSync
  split <;> simp
@[simp] theorem fuses_gotSync (node t1 t2 t3 t4 est) : (m.gotSync node t1 t2 t3 t4 est).fuses = m.fuses := by
  unfold Mach.gotSync; dsimp only
  (repeat' split) <;> simp
@[simp] theorem fuses_gotSyncReply (node t2 t3 t4) : (m.gotSyncReply node t2 t3 t4).fuses = m.fuses := by
  unfold Mach.gotSyncReply
  (repeat' split) <;> simp
@[simp] theorem fuses_toHoldover : m.toHoldover.fuses = m.fuses := by simp [Mach.toHoldover]
@[simp] theorem fuses_toUnsync : m.toUnsync.fuses = m.fuses := by simp [Mach.toUnsync]
@[simp] theorem fuses_tickSpindle : m.tickSpindle.fuses = m.fuses := by simp [Mach.tickSpindle]
@[simp] theorem fuses_spnSet (w val) : (m.spnSet w val).fuses = m.fuses := by simp [Mach.spnSet]
@[simp] theorem fuses_setStart (r) : (m.setStart r).fuses = m.fuses := by simp [Mach.setStart]
@[simp] theorem fuses_cancelStart (r a) : (m.cancelStart r a).fuses = m.fuses := by
  simp only [Mach.cancelStart, fuses_pipeDone, fuses_setStart]
  split
  · rw [fuses_jobEnd, fuses_foldl]
    exact fun m x => by split <;> simp
  · exact fuses_foldl _ (fun m x => by split <;> simp) _ _
@[simp] theorem fuses_tryGo (r) : (m.tryGo r).fuses = m.fuses := by
  simp only [Mach.tryGo]
  split
  · rw [fuses_pipeDone]
    split
    · rw [fuses_fixLaunch, fuses_setStart, fuses_foldl]
      exact fun m x => by split <;> simp
    · rw [fuses_setStart, fuses_foldl]
      exact fun m x => by split <;> simp
  · rfl
@[simp] theorem fuses_ownReady (j) : (m.ownReady j).fuses = m.fuses := by
  unfold Mach.ownReady
  (repeat' split) <;> simp
@[simp] theorem fuses_sayReady (j) : (m.sayReady j).fuses = m.fuses := by
  unfold Mach.sayReady
  (repeat' split) <;> simp
@[simp] theorem fuses_gotPrepare (v) (node planSeq nonce digest len k modules l children homes) :
    (m.gotPrepare v node planSeq nonce digest len k modules l children homes).fuses = m.fuses := by
  simp only [Mach.gotPrepare]
  split
  · split
    · next h => simp [fuses_carveArea h]
    · simp
  · rfl
@[simp] theorem fuses_dropArea (a) : (m.dropArea a).fuses = m.fuses := by simp [Mach.dropArea]
@[simp] theorem fuses_gotGo (node planSeq launch) : (m.gotGo node planSeq launch).fuses = m.fuses := by
  unfold Mach.gotGo
  split <;> simp
@[simp] theorem fuses_gotCancel (a b) : (m.gotCancel a b).fuses = m.fuses := by
  unfold Mach.gotCancel; dsimp only
  (repeat' split) <;> simp
@[simp] theorem fuses_moduleLost (j k) : (m.moduleLost j k).fuses = m.fuses := by
  unfold Mach.moduleLost
  split <;> simp
@[simp] theorem fuses_gotLost (node planSeq k) : (m.gotLost node planSeq k).fuses = m.fuses := by
  unfold Mach.gotLost
  split <;> simp
@[simp] theorem fuses_gotReady (node planSeq count) : (m.gotReady node planSeq count).fuses = m.fuses := by
  unfold Mach.gotReady
  split <;> simp
@[simp] theorem fuses_gotRefusePlan (node planSeq st) : (m.gotRefusePlan node planSeq st).fuses = m.fuses := by
  unfold Mach.gotRefusePlan
  split <;> simp
@[simp] theorem fuses_prepareTimeout (planSeq) : (m.prepareTimeout planSeq).fuses = m.fuses := by
  unfold Mach.prepareTimeout
  split <;> simp
@[simp] theorem fuses_formDigest (r) : (m.formDigest r).fuses = m.fuses := by simp [Mach.formDigest]
@[simp] theorem fuses_gotReport (node planSeq stats digest) :
    (m.gotReport node planSeq stats digest).fuses = m.fuses := by
  unfold Mach.gotReport
  split <;> simp
@[simp] theorem fuses_ownDigest (j) : (m.ownDigest j).fuses = m.fuses := by
  unfold Mach.ownDigest
  (repeat' split) <;> simp
@[simp] theorem fuses_workerLost (a) : (m.workerLost a).fuses = m.fuses := by
  unfold Mach.workerLost
  dsimp only
  rw [fuses_foldl, fuses_onMember]
  intro m r
  split
  · rfl
  · refine fuses_foldl _ (fun m p => ?_) _ _
    split
    · split
      · rw [fuses_moduleLost, fuses_foldl, fuses_setStart]
        exact fun m y => by (repeat' split) <;> simp
      · rw [fuses_foldl, fuses_setStart]
        exact fun m y => by (repeat' split) <;> simp
    · rfl
@[simp] theorem fuses_gotLeave (node) : (m.gotLeave node).fuses = m.fuses := by simp [Mach.gotLeave]
@[simp] theorem fuses_workerSilent (node) : (m.workerSilent node).fuses = m.fuses := by
  unfold Mach.workerSilent
  split <;> simp
@[simp] theorem fuses_rejoin : m.rejoin.fuses = m.fuses := by simp [Mach.rejoin]
@[simp] theorem fuses_settleDigests : m.settleDigests.fuses = m.fuses := by simp [Mach.settleDigests]
@[simp] theorem fuses_sendPrepare (node planSeq digest len k modules l children homes) :
    (m.sendPrepare node planSeq digest len k modules l children homes).fuses = m.fuses := by
  simp [Mach.sendPrepare]
@[simp] theorem fuses_jobCancel (c slot) : (m.jobCancel c slot).fuses = m.fuses := by simp [Mach.jobCancel]

/-! #### Machine/DcOps -/

@[simp] theorem fuses_setDc (d) : (m.setDc d).fuses = m.fuses := by simp [Mach.setDc]
@[simp] theorem fuses_dcBad (j key crcFailed) : (m.dcBad j key crcFailed).fuses = m.fuses := by simp [Mach.dcBad]
@[simp] theorem fuses_dcLocal (j key a b f) : (m.dcLocal j key a b f).2.fuses = m.fuses := by
  unfold Mach.dcLocal
  (repeat' split) <;> simp
@[simp] theorem fuses_dcRemote (j key a b r) : (m.dcRemote j key a b r).2.fuses = m.fuses := by
  unfold Mach.dcRemote
  (repeat' split) <;> simp
@[simp] theorem fuses_dcWalk (j own key a b f l) : (m.dcWalk j own key a b f l).2.fuses = m.fuses := by
  induction l generalizing m with
  | nil => rfl
  | cons p l ih =>
    have hx : ∀ c : Prop, ∀ _ : Decidable c,
      (if c then m.dcLocal j key a b f else m.dcRemote j key a b p.2).2.fuses = m.fuses := by
      intro c _; split <;> simp
    rw [Mach.dcWalk]; split <;> simp [ih, hx]
@[simp] theorem fuses_dcOffer (v) (j epoch p payload index bad) :
    (m.dcOffer v j epoch p payload index bad).fuses = m.fuses := by
  unfold Mach.dcOffer; dsimp only
  (repeat' split) <;> simp
@[simp] theorem fuses_dcInsert (v) (p) : (m.dcInsert v p).fuses = m.fuses := by
  unfold Mach.dcInsert; dsimp only
  (repeat' split) <;> simp
@[simp] theorem fuses_segmentReuse : m.segmentReuse.fuses = m.fuses := by simp [Mach.segmentReuse]

/-! #### Machine/RecorderCmds -/

@[simp] theorem fuses_selectRecord (w p seq) : (m.selectRecord w p seq).fuses = m.fuses := by simp [Mach.selectRecord]

/-! #### Machine/CodecOps -/

@[simp] theorem fuses_codecStart (v) (p addr) : (m.codecStart v p addr).fuses = m.fuses := by
  refine fuses_pipeTake _ _ fun n m => ?_
  (repeat' split) <;> simp
@[simp] theorem fuses_makeFrame (c b) : (m.makeFrame c b).2.2.fuses = m.fuses := by
  unfold Mach.makeFrame
  (repeat' split) <;> simp
@[simp] theorem fuses_codecItem (v) (c i) : (m.codecItem v c i).2.2.fuses = m.fuses := by
  unfold Mach.codecItem; dsimp only
  (repeat' split) <;> simp
@[simp] theorem fuses_codecAll (v) (c l) : (m.codecAll v c l).2.fuses = m.fuses := by
  induction l generalizing m with
  | nil => rfl
  | cons i l ih => simp [Mach.codecAll, ih]
@[simp] theorem fuses_codecEnd (j x c final st) : (m.codecEnd j x c final st).fuses = m.fuses := by
  unfold Mach.codecEnd
  split <;> simp

/-! #### Machine/XptOps -/

@[simp] theorem fuses_setFab (p x) : (m.setFab p x).fuses = m.fuses := by simp [Mach.setFab]
@[simp] theorem fuses_setPeer (node x) : (m.setPeer node x).fuses = m.fuses := by simp [Mach.setPeer]
@[simp] theorem fuses_onPath (node path f) : (m.onPath node path f).fuses = m.fuses := by
  unfold Mach.onPath
  (repeat' split) <;> simp
@[simp] theorem fuses_pathTimeout (node path) : (m.pathTimeout node path).fuses = m.fuses := by simp [Mach.pathTimeout]
@[simp] theorem fuses_pathProbe (node path acked) : (m.pathProbe node path acked).fuses = m.fuses := by
  simp [Mach.pathProbe]
@[simp] theorem fuses_portPathsBad (port) : (m.portPathsBad port).fuses = m.fuses := by simp [Mach.portPathsBad]
@[simp] theorem fuses_qPut (ref off n val) : (m.qPut ref off n val).fuses = m.fuses := by simp [Mach.qPut]
@[simp] theorem fuses_qAdd (ref off k) : (m.qAdd ref off k).fuses = m.fuses := by simp [Mach.qAdd]
@[simp] theorem fuses_qSat (ref off) : (m.qSat ref off).fuses = m.fuses := by simp [Mach.qSat]
@[simp] theorem fuses_setXq (ref x) : (m.setXq ref x).fuses = m.fuses := by simp [Mach.setXq]
@[simp] theorem fuses_keyResult (id gen st) : (m.keyResult id gen st).fuses = m.fuses := by simp [Mach.keyResult]
@[simp] theorem fuses_addXkey (c o) : (m.addXkey c o).2.fuses = m.fuses := rfl
@[simp] theorem fuses_xkeyCreate (v) (w c) : (m.xkeyCreate v w c).fuses = m.fuses := by simp [Mach.xkeyCreate]
@[simp] theorem fuses_dropXkey (id) : (m.dropXkey id).fuses = m.fuses := by
  unfold Mach.dropXkey
  split <;> simp
@[simp] theorem fuses_xkeyInvalidate (w id) : (m.xkeyInvalidate w id).fuses = m.fuses := by
  unfold Mach.xkeyInvalidate
  split <;> simp
@[simp] theorem fuses_markRx (ref d) : (m.markRx ref d).fuses = m.fuses := by simp [Mach.markRx]
theorem fuses_nextPath {m m' : Mach} {n l p} (h : m.nextPath n l = some (p, m')) : m'.fuses = m.fuses := by
  simp only [Mach.nextPath] at h
  split at h
  · cases h
  · split at h <;> cases h
    simp
@[simp] theorem fuses_emitPkt (ref path typ flags psn msgSeq key addr msgLen off payload) :
    (m.emitPkt ref path typ flags psn msgSeq key addr msgLen off payload).fuses = m.fuses := by
  simp [Mach.emitPkt]
@[simp] theorem fuses_sendAck (r) : (m.sendAck r).fuses = m.fuses := by
  simp only [Mach.sendAck]
  split
  · next h => simp [fuses_nextPath h]
  · simp
@[simp] theorem fuses_sendNak (r s t) : (m.sendNak r s t).fuses = m.fuses := by
  simp only [Mach.sendNak]
  split
  · next h => simp [fuses_nextPath h]
  · simp
@[simp] theorem fuses_countAccepted (ref) : (m.countAccepted ref).fuses = m.fuses := by simp [Mach.countAccepted]
@[simp] theorem fuses_ackTimer (ref) : (m.ackTimer ref).fuses = m.fuses := by simp [Mach.ackTimer]
@[simp] theorem fuses_countDone (n) (r) : (Mach.countDone n m r).fuses = m.fuses := by
  induction n generalizing m with
  | zero => rfl
  | succ n ih => rw [Mach.countDone]; split <;> simp [ih]
@[simp] theorem fuses_pump (n) (r) : (Mach.pump n m r).fuses = m.fuses := by
  induction n generalizing m with
  | zero => rfl
  | succ n ih =>
    simp only [Mach.pump]
    split
    · rfl
    · split
      · rfl
      · split
        · rfl
        · next h => simp [ih, fuses_nextPath h]
@[simp] theorem fuses_sendMsg (ref typ flags msgSeq key addr msgLen parts) :
    (m.sendMsg ref typ flags msgSeq key addr msgLen parts).fuses = m.fuses := by
  simp [Mach.sendMsg]
theorem fuses_receive {m m' : Mach} {t p o} (h : m.receive t p = (o, m')) : m'.fuses = m.fuses := by
  have hr : (m.receive t p).2.fuses = m.fuses := by
    simp only [Mach.receive]
    (repeat' split) <;> simp
  rwa [h] at hr
/-- The PSN is judged by a variable in place of `judgePsn`: unfolded, the kernel would run its sums with 2^32 in
unary. -/
theorem fuses_sequenced {m m' : Mach} {r t p o} (h : m.sequenced r t p = (o, m')) : m'.fuses = m.fuses := by
  obtain ⟨f, hf⟩ : ∃ f, f = Mach.sequenced := ⟨_, rfl⟩
  obtain ⟨judge, hj⟩ : ∃ j, j = judgePsn := ⟨_, rfl⟩
  rw [← hf] at h
  unfold Mach.sequenced at hf
  rw [← hj] at hf
  subst hf
  dsimp only at h
  (repeat' split at h) <;> cases h <;> simp
@[simp] theorem fuses_withPacket (t p) {f : Mach → Nat → Nat → List Byte → Mach} (h : ∀ m r d b,
    (f m r d b).fuses = m.fuses) :
    (m.withPacket t p f).fuses = m.fuses := by
  have hs (m m' : Mach) (r o) : m.sequenced r t p = (o, m') → m'.fuses = m.fuses := fuses_sequenced
  unfold Mach.withPacket
  obtain ⟨sequenced, e⟩ : ∃ g, g = Mach.sequenced := ⟨_, rfl⟩
  rw [← e] at hs ⊢
  split
  · next h₁ => split <;> next h₂ => simp [h, hs _ _ _ _ h₂, fuses_receive h₁]
  · next h₁ => exact fuses_receive h₁
@[simp] theorem fuses_refusePkt (ref d msgSeq st) : (m.refusePkt ref d msgSeq st).fuses = m.fuses := by
  simp [Mach.refusePkt]
@[simp] theorem fuses_rxCount (r p b) : (m.rxCount r p b).2.fuses = m.fuses := by
  unfold Mach.rxCount; dsimp only
  split <;> simp
@[simp] theorem fuses_gotReadReq (v) (p bad) : (m.gotReadReq v p bad).fuses = m.fuses := by
  refine fuses_withPacket _ _ _ fun m r d b => ?_
  simp only [fuses_ite, fuses_refusePkt, fuses_sendMsg]
  (repeat' split) <;> simp
@[simp] theorem fuses_xptReject (w off val reason) : (m.xptReject w off val reason).fuses = m.fuses := by
  simp [Mach.xptReject]
@[simp] theorem fuses_xptDoorbell (w ref tail) : (m.xptDoorbell w ref tail).fuses = m.fuses := by
  unfold Mach.xptDoorbell
  split <;> simp
@[simp] theorem fuses_xptDelete (w ref) : (m.xptDelete w ref).fuses = m.fuses := by
  unfold Mach.xptDelete
  split <;> simp
@[simp] theorem fuses_cqConsumed (w ref count) : (m.cqConsumed w ref count).fuses = m.fuses := by
  unfold Mach.cqConsumed
  split <;> simp
@[simp] theorem fuses_qConnect (c ref peer) : (m.qConnect c ref peer).fuses = m.fuses := by
  refine fuses_pipeNow _ _ fun m => ?_
  split <;> simp
@[simp] theorem fuses_nodePath (v) (c a) : (m.nodePath v c a).fuses = m.fuses := by
  refine fuses_pipeNow _ _ fun m => ?_
  simp only [apply_ite Prod.snd, fuses_ite, fuses_mk, fuses_fold, fuses_setPeer, ite_self]
@[simp] theorem fuses_gotTime (node t2 t3) : (m.gotTime node t2 t3).fuses = m.fuses := by simp [Mach.gotTime]

/-! #### Machine/SessOps -/

@[simp] theorem fuses_setSess (j s) : (m.setSess j s).fuses = m.fuses := by
  unfold Mach.setSess
  split <;> simp
@[simp] theorem fuses_setSeq (j q) : (m.setSeq j q).fuses = m.fuses := by
  unfold Mach.setSeq
  split <;> simp
theorem fuses_takeFrom {m m' : Mach} {k o l} (h : m.takeFrom k o = some (l, m')) : m'.fuses = m.fuses := by
  simp only [Mach.takeFrom] at h
  split at h
  · split at h <;> cases h
    simp
  · cases h
@[simp] theorem fuses_refuseOpen (c st) : (m.refuseOpen c st).fuses = m.fuses := by simp [Mach.refuseOpen]
@[simp] theorem fuses_endSeq (j ref status flags) : (m.endSeq j ref status flags).fuses = m.fuses := by
  unfold Mach.endSeq
  (repeat' split) <;> simp
@[simp] theorem fuses_seqStale (j ref) : (m.seqStale j ref).fuses = m.fuses := by simp [Mach.seqStale]
@[simp] theorem fuses_outputWrite (j) : (m.outputWrite j).fuses = m.fuses := by
  unfold Mach.outputWrite
  (repeat' split) <;> simp

/-! #### Machine/FabOps -/

@[simp] theorem fuses_marginLow (src val) : (m.marginLow src val).fuses = m.fuses := by simp [Mach.marginLow]
@[simp] theorem fuses_laneEvent (p lane kind dir) : (m.laneEvent p lane kind dir).fuses = m.fuses := by
  simp [Mach.laneEvent]
@[simp] theorem fuses_resetMaps (p) : (m.resetMaps p).fuses = m.fuses := by simp [Mach.resetMaps]
@[simp] theorem fuses_fabLinkUp (v p app) : (m.fabLinkUp v p app).fuses = m.fuses := by simp [Mach.fabLinkUp]
@[simp] theorem fuses_fabLinkDown (p) : (m.fabLinkDown p).fuses = m.fuses := by simp [Mach.fabLinkDown]
@[simp] theorem fuses_gotHelloAnswer (p) : (m.gotHelloAnswer p).fuses = m.fuses := by simp [Mach.gotHelloAnswer]
@[simp] theorem fuses_askSwap (p lane) : (m.askSwap p lane).fuses = m.fuses := by simp [Mach.askSwap]
@[simp] theorem fuses_fabReq (p) : (m.fabReq p).fuses = m.fuses := by simp [Mach.fabReq]
@[simp] theorem fuses_fabRevert (p) : (m.fabRevert p).fuses = m.fuses := by simp [Mach.fabRevert]
@[simp] theorem fuses_gotSpareReq (p lane) : (m.gotSpareReq p lane).fuses = m.fuses := by simp [Mach.gotSpareReq]
@[simp] theorem fuses_gotSpareAck (p) : (m.gotSpareAck p).fuses = m.fuses := by
  unfold Mach.gotSpareAck
  split <;> simp
@[simp] theorem fuses_gotSpareDone (p) : (m.gotSpareDone p).fuses = m.fuses := by
  unfold Mach.gotSpareDone
  split <;> simp
@[simp] theorem fuses_spareAbandon (p) : (m.spareAbandon p).fuses = m.fuses := by
  unfold Mach.spareAbandon
  split <;> simp
@[simp] theorem fuses_swapRepeat (p) : (m.swapRepeat p).fuses = m.fuses := by
  unfold Mach.swapRepeat
  split <;> simp
@[simp] theorem fuses_cmisPoll (p r) : (m.cmisPoll p r).fuses = m.fuses := by simp [Mach.cmisPoll]
@[simp] theorem fuses_oeFlags (p lanes) : (m.oeFlags p lanes).fuses = m.fuses := by simp [Mach.oeFlags]
@[simp] theorem fuses_oeRemoved (p) : (m.oeRemoved p).fuses = m.fuses := by simp [Mach.oeRemoved]
@[simp] theorem fuses_oeInserted (p) : (m.oeInserted p).fuses = m.fuses := by simp [Mach.oeInserted]
@[simp] theorem fuses_fabEnable (p en) : (m.fabEnable p en).fuses = m.fuses := by simp [Mach.fabEnable]
@[simp] theorem fuses_marginSweep (p l) : (m.marginSweep p l).fuses = m.fuses := by simp [Mach.marginSweep]
@[simp] theorem fuses_otherFrame (p pause) : (m.otherFrame p pause).fuses = m.fuses := by simp [Mach.otherFrame]

/-! #### Machine/PortOps -/

@[simp] theorem fuses_onPort (p f) : (m.onPort p f).fuses = m.fuses := by simp [Mach.onPort]
@[simp] theorem fuses_linkTraining (p) : (m.linkTraining p).fuses = m.fuses := by simp [Mach.linkTraining]
@[simp] theorem fuses_configReady (p speed width flit) : (m.configReady p speed width flit).fuses = m.fuses := by
  simp [Mach.configReady]
@[simp] theorem fuses_configRequest (p) : (m.configRequest p).fuses = m.fuses := by simp [Mach.configRequest]
@[simp] theorem fuses_linkState (p st) : (m.linkState p st).fuses = m.fuses := by simp [Mach.linkState]
@[simp] theorem fuses_marginCommand (p) : (m.marginCommand p).fuses = m.fuses := by simp [Mach.marginCommand]
@[simp] theorem fuses_gotLtr (p snoop noSnoop) : (m.gotLtr p snoop noSnoop).fuses = m.fuses := by simp [Mach.gotLtr]
@[simp] theorem fuses_dropCompletions (p) : (m.dropCompletions p).fuses = m.fuses := by simp [Mach.dropCompletions]
@[simp] theorem fuses_ctlOff (p) : (m.ctlOff p).fuses = m.fuses := by simp [Mach.ctlOff]
@[simp] theorem fuses_ctlOn (p) : (m.ctlOn p).fuses = m.fuses := by simp [Mach.ctlOn]
@[simp] theorem fuses_ctlReady (p) : (m.ctlReady p).fuses = m.fuses := by simp [Mach.ctlReady]
@[simp] theorem fuses_toD3 (p) : (m.toD3 p).fuses = m.fuses := by simp [Mach.toD3]
@[simp] theorem fuses_toD0 (p) : (m.toD0 p).fuses = m.fuses := by simp [Mach.toD0]
@[simp] theorem fuses_cancelStarts (p) : (m.cancelStarts p).fuses = m.fuses := by simp [Mach.cancelStarts]
@[simp] theorem fuses_portReset (p) : (m.portReset p).fuses = m.fuses := by simp [Mach.portReset]
@[simp] theorem fuses_perstAssert (p) : (m.perstAssert p).fuses = m.fuses := by simp [Mach.perstAssert]
@[simp] theorem fuses_hotReset (p) : (m.hotReset p).fuses = m.fuses := by simp [Mach.hotReset]
@[simp] theorem fuses_surpriseDown (p) : (m.surpriseDown p).fuses = m.fuses := by simp [Mach.surpriseDown]
@[simp] theorem fuses_win4Refused (p a restricted) : (m.win4Refused p a restricted).fuses = m.fuses := by
  simp [Mach.win4Refused]
@[simp] theorem fuses_win4Read (v p a n) : (m.win4Read v p a n).fuses = m.fuses := by simp [Mach.win4Read]

/-! #### Machine/PsOps -/

@[simp] theorem fuses_noteRefuser (abort s r who) : (m.noteRefuser abort s r who).fuses = m.fuses := by
  simp [Mach.noteRefuser]
@[simp] theorem fuses_updPs (f) : (m.updPs f).fuses = m.fuses := by simp [Mach.updPs]
@[simp] theorem fuses_resetPages (f) : (m.resetPages f).fuses = m.fuses := by simp [Mach.resetPages]
@[simp] theorem fuses_ps3Enter : m.ps3Enter.fuses = m.fuses := by simp [Mach.ps3Enter]
@[simp] theorem fuses_psEnter (s r ev) {f : Mach → Mach} (h : ∀ m, (f m).fuses = m.fuses) :
    (m.psEnter s r ev f).fuses = m.fuses := by
  unfold Mach.psEnter; dsimp only
  (repeat' split) <;> simp [h]
@[simp] theorem fuses_tryPs3 (v ev) : (m.tryPs3 v ev).fuses = m.fuses := by simp [Mach.tryPs3]
@[simp] theorem fuses_ps2Exit (r) : (m.ps2Exit r).fuses = m.fuses := by simp [Mach.ps2Exit]
@[simp] theorem fuses_wakeTraining (c rate) : (m.wakeTraining c rate).fuses = m.fuses := by simp [Mach.wakeTraining]
@[simp] theorem fuses_resample (found) : (m.resample found).fuses = m.fuses := by simp [Mach.resample]
@[simp] theorem fuses_knownWake (v) : (m.knownWake v).fuses = m.fuses := by
  unfold Mach.knownWake
  split <;> simp
@[simp] theorem fuses_wakeReached : m.wakeReached.fuses = m.fuses := by simp [Mach.wakeReached]
@[simp] theorem fuses_residency : m.residency.fuses = m.fuses := by
  unfold Mach.residency; dsimp only
  split <;> simp

/-! #### Machine/RasOps -/

@[simp] theorem fuses_injectWord (uncorrectable) : (m.injectWord uncorrectable).fuses = m.fuses := by
  unfold Mach.injectWord
  split <;> simp
@[simp] theorem fuses_injectLane : m.injectLane.fuses = m.fuses := by
  unfold Mach.injectLane
  split <;> simp
@[simp] theorem fuses_injectProgram (sb block) : (m.injectProgram sb block).fuses = m.fuses := by
  unfold Mach.injectProgram
  split <;> simp
@[simp] theorem fuses_disarm : m.disarm.fuses = m.fuses := by simp [Mach.disarm]
@[simp] theorem fuses_injDisarm (w) : (m.injDisarm w).fuses = m.fuses := by simp [Mach.injDisarm]
@[simp] theorem fuses_armCommitted : m.armCommitted.fuses = m.fuses := by simp [Mach.armCommitted]
@[simp] theorem fuses_putMargin (reg src x low) : (m.putMargin reg src x low).fuses = m.fuses := by
  simp [Mach.putMargin]
@[simp] theorem fuses_marginReading (v eyes lanes0 lanes1 supplies) :
    (m.marginReading v eyes lanes0 lanes1 supplies).fuses = m.fuses := by
  simp [Mach.marginReading]
@[simp] theorem fuses_noteScore (v) : (m.noteScore v).fuses = m.fuses := by simp [Mach.noteScore]
@[simp] theorem fuses_toolRestReady : m.toolRestReady.fuses = m.fuses := by simp [Mach.toolRestReady]
@[simp] theorem fuses_scrubRead (v a) : (m.scrubRead v a).fuses = m.fuses := by
  unfold Mach.scrubRead; dsimp only
  split <;> simp

/-! #### Machine/SystemOps -/

@[simp] theorem fuses_writeOff (c) : (m.writeOff c).fuses = m.fuses := by simp [Mach.writeOff]
@[simp] theorem fuses_bootInit (v) : (Mach.bootInit v m).fuses = m.fuses :=
  congrArg Boot.fuses (pastBoot_boot.bootInit v m)
@[simp] theorem fuses_quiesceJobs : m.quiesceJobs.fuses = m.fuses := by simp [Mach.quiesceJobs]
@[simp] theorem fuses_tickCluster (c) : (m.tickCluster c).fuses = m.fuses := by simp [Mach.tickCluster]
@[simp] theorem fuses_tick (v) : (m.tick v).fuses = m.fuses := by simp [Mach.tick]

/-! #### Machine/PowerCmds -/

@[simp] theorem fuses_startCheck : m.startCheck.fuses = m.fuses := by simp [Mach.startCheck]
@[simp] theorem fuses_supplyRecord (sensor kind) : (m.supplyRecord sensor kind).fuses = m.fuses := by
  simp [Mach.supplyRecord]
@[simp] theorem fuses_coolantRecord (sensor status) : (m.coolantRecord sensor status).fuses = m.fuses := by
  simp [Mach.coolantRecord]
@[simp] theorem fuses_thermalRecord (sensor kind temp) : (m.thermalRecord sensor kind temp).fuses = m.fuses := by
  simp [Mach.thermalRecord]
@[simp] theorem fuses_setFlow (flow) : (m.setFlow flow).fuses = m.fuses := by simp [Mach.setFlow]
@[simp] theorem fuses_setInlet (t) : (m.setInlet t).fuses = m.fuses := by simp [Mach.setInlet]
@[simp] theorem fuses_handOver : m.handOver.fuses = m.fuses := by simp [Mach.handOver]

/-! #### Machine/BootCmds -/

@[simp] theorem fuses_fwUpdateRecord (core old new failing) :
    (m.fwUpdateRecord core old new failing).fuses = m.fuses := by
  simp [Mach.fwUpdateRecord]

/-! #### Machine/RegOps -/

@[simp] theorem fuses_pendField (off f val src) : (m.pendField off f val src).fuses = m.fuses := by
  simp [Mach.pendField]
@[simp] theorem fuses_storeField (w off f val whole) : (m.storeField w off f val whole).fuses = m.fuses := by
  simp [Mach.storeField]
@[simp] theorem fuses_writeField (w off whole f) : (m.writeField w off whole f).fuses = m.fuses := by
  unfold Mach.writeField
  split <;> simp
@[simp] theorem fuses_writeFields (w r off val) : (m.writeFields w r off val).fuses = m.fuses := by
  simp [Mach.writeFields]
@[simp] theorem fuses_commitLatch (blk) : (m.commitLatch blk).fuses = m.fuses := by simp [Mach.commitLatch]
@[simp] theorem fuses_discardPending (blk) : (m.discardPending blk).fuses = m.fuses := by simp [Mach.discardPending]
@[simp] theorem fuses_writeCfgctl (blk val) : (m.writeCfgctl blk val).fuses = m.fuses := by simp [Mach.writeCfgctl]
@[simp] theorem fuses_writeArea (w p val) : (m.writeArea w p val).fuses = m.fuses := by simp [Mach.writeArea]
@[simp] theorem fuses_writeAdmin (w val claimToo) : (m.writeAdmin w val claimToo).fuses = m.fuses := by
  unfold Mach.writeAdmin
  (repeat' split) <;> simp
@[simp] theorem fuses_writeDoorbell (w off val) : (m.writeDoorbell w off val).fuses = m.fuses := by
  unfold Mach.writeDoorbell
  split <;> simp
@[simp] theorem fuses_afterStore (off val) : (m.afterStore off val).fuses = m.fuses := by
  unfold Mach.afterStore
  split <;> simp
@[simp] theorem fuses_applyPend (p) : (m.applyPend p).fuses = m.fuses := by
  unfold Mach.applyPend
  split <;> simp
@[simp] theorem fuses_commitKeycmd (v) (c) : (m.commitKeycmd v c).fuses = m.fuses := by
  unfold Mach.commitKeycmd; dsimp only
  (repeat' split) <;> simp
@[simp] theorem fuses_commitInject (c) : (m.commitInject c).fuses = m.fuses := by
  unfold Mach.commitInject; dsimp only
  (repeat' split) <;> simp
@[simp] theorem fuses_commitFab (v) (c) : (m.commitFab v c).fuses = m.fuses := by
  unfold Mach.commitFab
  exact fuses_foldl _ (fun m p => by split <;> simp) _ _

/-! #### Machine/DevMem -/

@[simp] theorem fuses_putLoc (l b) : (m.putLoc l b).fuses = m.fuses := by
  unfold Mach.putLoc
  split <;> simp
@[simp] theorem fuses_devWrite (v a bs) : (m.devWrite v a bs).fuses = m.fuses := by
  induction bs generalizing m a with
  | nil => rfl
  | cons b r ih => rw [Mach.devWrite, ih, fuses_putLoc]
@[simp] theorem fuses_jobWrite (v self a bs) : (m.jobWrite v self a bs).fuses = m.fuses := by
  induction bs generalizing m a with
  | nil => rfl
  | cons b r ih => simp [Mach.jobWrite, ih]

/-! #### Machine/UnitOps -/

@[simp] theorem fuses_putEntry (l e) : (m.putEntry l e).fuses = m.fuses := by
  unfold Mach.putEntry
  split <;> simp
theorem fuses_placeCluster {m m' : Mach} {c e} (h : m.placeCluster c e = some m') : m'.fuses = m.fuses := by
  simp only [Mach.placeCluster] at h
  split at h <;> cases h
  rfl
@[simp] theorem fuses_placeCluster_getD (c e) : ((m.placeCluster c e).getD m).fuses = m.fuses :=
  fuses_getD (fun _ => fuses_placeCluster) rfl
@[simp] theorem fuses_placeDie_getD (d e) : ((m.placeDie d e).getD m).fuses = m.fuses :=
  fuses_getD (fun _ => fuses_placeDie) rfl
@[simp] theorem fuses_selectHeld (t) : (m.selectHeld t).fuses = m.fuses := by
  unfold Mach.selectHeld; dsimp only
  (repeat' split) <;> simp
@[simp] theorem fuses_makeSuspect (t) : (m.makeSuspect t).fuses = m.fuses := by simp [Mach.makeSuspect]
@[simp] theorem fuses_charge (t job seq tiles) : (m.charge t job seq tiles).fuses = m.fuses := by simp [Mach.charge]
@[simp] theorem fuses_afterRun (l e r) : (m.afterRun l e r).fuses = m.fuses := by
  unfold Mach.afterRun; dsimp only
  (repeat' split) <;> simp
@[simp] theorem fuses_unitDrop (t how keep) : (m.unitDrop t how keep).fuses = m.fuses := by
  unfold Mach.unitDrop; dsimp only
  (repeat' split) <;> simp
@[simp] theorem fuses_tileExc (t eng cause pc code) : (m.tileExc t eng cause pc code).fuses = m.fuses := by
  simp [Mach.tileExc]
@[simp] theorem fuses_applyAdds (v adds) : (m.applyAdds v adds).fuses = m.fuses := by
  induction adds generalizing m with
  | nil => rfl
  | cons p r ih => rw [Mach.applyAdds, ih, fuses_devWrite]
@[simp] theorem fuses_chargeRuns (job seq runs) : (m.chargeRuns job seq runs).fuses = m.fuses := by
  simp [Mach.chargeRuns]
@[simp] theorem fuses_entryDone (l status adds) : (m.entryDone l status adds).fuses = m.fuses := by
  unfold Mach.entryDone
  split <;> simp
@[simp] theorem fuses_calSettle (v job seq r) : (m.calSettle v job seq r).fuses = m.fuses := by
  unfold Mach.calSettle; dsimp only
  split <;> simp
@[simp] theorem fuses_calJudge (v job seq) : (m.calJudge v job seq).fuses = m.fuses := by
  unfold Mach.calJudge; dsimp only
  (repeat' split) <;> simp
@[simp] theorem fuses_calDone (v job seq r) : (m.calDone v job seq r).fuses = m.fuses := by simp [Mach.calDone]
@[simp] theorem fuses_unitDone (v t status) : (m.unitDone v t status).fuses = m.fuses := by
  unfold Mach.unitDone; dsimp only
  (repeat' split) <;> simp

/-! #### Machine/KernelOps -/

@[simp] theorem fuses_finishUnit (v t status) : (m.finishUnit v t status).fuses = m.fuses := by
  unfold Mach.finishUnit
  (repeat' split) <;> simp

/-! #### Machine/MemErr -/

@[simp] theorem fuses_unitUe (v t w) : (m.unitUe v t w).fuses = m.fuses := by
  unfold Mach.unitUe
  split <;> simp

/-! #### Machine/TileOps -/

@[simp] theorem fuses_signalObj (t k) : (m.signalObj t k).fuses = m.fuses := by simp [Mach.signalObj]
@[simp] theorem fuses_flagSignal (t detail) : (m.flagSignal t detail).fuses = m.fuses := by simp [Mach.flagSignal]
@[simp] theorem fuses_programSignal (t k pc) : (m.programSignal t k pc).fuses = m.fuses := by simp [Mach.programSignal]
@[simp] theorem fuses_unfence (t) : (m.unfence t).fuses = m.fuses := by simp [Mach.unfence]
@[simp] theorem fuses_fenced (t w) : (m.fenced t w).fuses = m.fuses := by simp [Mach.fenced]
@[simp] theorem fuses_progStore (v t a bs) : (m.progStore v t a bs).fuses = m.fuses := by simp [Mach.progStore]
@[simp] theorem fuses_vecRun (v t e) : (m.vecRun v t e).fuses = m.fuses := by
  unfold Mach.vecRun
  split <;> simp
@[simp] theorem fuses_vecDrain (v n) (t) : (Mach.vecDrain v n m t).fuses = m.fuses := by
  induction n generalizing m with
  | zero => rfl
  | succ n ih =>
    simp only [Mach.vecDrain]
    (repeat' split) <;> simp [ih]
@[simp] theorem fuses_completeDesc (v) (o : DescOut) (t e d) : (Mach.completeDesc v o t e d).fuses = o.m.fuses := by
  simp [Mach.completeDesc]
@[simp] theorem fuses_settle (v n) (t e) : (Mach.settle v n m t e).fuses = m.fuses := by
  induction n generalizing m with
  | zero => rfl
  | succ n ih =>
    simp only [Mach.settle]
    (repeat' split) <;> simp [ih]
@[simp] theorem fuses_jump (t target link) : (m.jump t target link).fuses = m.fuses := by simp [Mach.jump]
@[simp] theorem fuses_issueNow (v t i) : (m.issueNow v t i).fuses = m.fuses := by
  unfold Mach.issueNow; dsimp only
  (repeat' split) <;> simp
@[simp] theorem fuses_issue (v t i) : (m.issue v t i).fuses = m.fuses := by simp [Mach.issue]
@[simp] theorem fuses_unstall (v t) : (m.unstall v t).fuses = m.fuses := by
  unfold Mach.unstall; dsimp only
  split <;> simp
@[simp] theorem fuses_tileInstr (v t i) : (m.tileInstr v t i).fuses = m.fuses := by simp [Mach.tileInstr]
@[simp] theorem fuses_release (v t e) : (m.release v t e).fuses = m.fuses := by
  unfold Mach.release
  split <;> simp

/-! #### Machine/GougeOps -/

@[simp] theorem fuses_descWrite (v t a bs) : (m.descWrite v t a bs).fuses = m.fuses := by simp [Mach.descWrite]
@[simp] theorem fuses_stepStream (v) (t a rec) : (stepStream v m t a rec).1.fuses = m.fuses := by
  unfold stepStream; dsimp only
  (repeat' split) <;> simp
@[simp] theorem fuses_stepStreams (v t a l) : (stepStreams v t a l m).1.fuses = m.fuses := by
  induction l generalizing m with
  | nil => rfl
  | cons rec r ih => rw [stepStreams]; simp [ih]

/-! #### Machine/DmaOps -/

@[simp] theorem fuses_cntAdd (v t d) : (m.cntAdd v t d).fuses = m.fuses := by simp [Mach.cntAdd]
@[simp] theorem fuses_runDesc {m : Mach} {v t e op} {f : Variant → Mach → Nat → List Byte → DescOut} (h : ∀ m d,
    (f v m t d).m.fuses = m.fuses) :
    (m.runDesc v t e op f).fuses = m.fuses := by
  simp only [Mach.runDesc]
  (repeat' split) <;> simp [h, failWith]

/-! #### Machine/QueueOps -/

@[simp] theorem fuses_setLimit (kind cs mhz) : (m.setLimit kind cs mhz).fuses = m.fuses := by simp [Mach.setLimit]
@[simp] theorem fuses_clockStep (c) : (m.clockStep c).fuses = m.fuses := by simp [Mach.clockStep]
theorem fuses_placeAt {m m' : Mach} {b n e} (h : m.placeAt b n e = some m') : m'.fuses = m.fuses := by
  unfold Mach.placeAt at h
  split at h
  · exact fuses_placeDie h
  · exact fuses_placeCluster h
@[simp] theorem fuses_placeUnit (b n e) : (m.placeUnit b n e).fuses = m.fuses := by
  unfold Mach.placeUnit
  split
  · split
    · next h => exact fuses_getD (fun _ h' => (fuses_placeAt h').trans (fuses_placeAt h)) rfl
    · rfl
  · exact fuses_getD (fun _ => fuses_placeAt) rfl
@[simp] theorem fuses_takeEntry (v t l) : (m.takeEntry v t l).fuses = m.fuses := by
  unfold Mach.takeEntry; dsimp only
  (repeat' split) <;> simp
@[simp] theorem fuses_putGrant (g val) : (m.putGrant g val).fuses = m.fuses := rfl
@[simp] theorem fuses_serve (c job loaded) : (m.serve c job loaded).fuses = m.fuses := by simp [Mach.serve]
@[simp] theorem fuses_moveGrant (v g es) : (m.moveGrant v g es).fuses = m.fuses := by
  unfold Mach.moveGrant; dsimp only
  (repeat' split) <;> simp
@[simp] theorem fuses_dieFault (v d cause) : (m.dieFault v d cause).fuses = m.fuses := by simp [Mach.dieFault]

/-! #### Machine/MemOps -/

@[simp] theorem fuses_carve (v) : (m.carve v).fuses = m.fuses := by simp [Mach.carve]
@[simp] theorem fuses_gddrReady (v) : (m.gddrReady v).fuses = m.fuses := by simp [Mach.gddrReady]
@[simp] theorem fuses_writeBack (v s) : (m.writeBack v s).fuses = m.fuses := by simp [Mach.writeBack]
theorem fuses_ctxCreate {m m' : Mach} {v kind owner body r} (h : m.ctxCreate v kind owner body = some (r, m')) :
    m'.fuses = m.fuses := by
  unfold Mach.ctxCreate at h
  split at h <;> cases h
  simp
@[simp] theorem fuses_ctxRelease (v ref) : (m.ctxRelease v ref).2.fuses = m.fuses := by
  simp only [Mach.ctxRelease]
  split <;> simp
@[simp] theorem fuses_ctxOut (v unit s pin) : (m.ctxOut v unit s pin).fuses = m.fuses := by
  unfold Mach.ctxOut; dsimp only
  (repeat' split) <;> simp
@[simp] theorem fuses_ctxServe (v) : (m.ctxServe v).fuses = m.fuses := by simp [Mach.ctxServe]
@[simp] theorem fuses_ctxIn (v unit s body unpin) : (m.ctxIn v unit s body unpin).fuses = m.fuses := by
  unfold Mach.ctxIn
  (repeat' split) <;> simp
@[simp] theorem fuses_ctxFlush (v w) : (m.ctxFlush v w).fuses = m.fuses := by simp [Mach.ctxFlush]
@[simp] theorem fuses_ctxMake (v kind owner body) : (m.ctxMake v kind owner body).fuses = m.fuses := by
  unfold Mach.ctxMake
  split
  · next h => simp [fuses_ctxCreate h]
  · simp
@[simp] theorem fuses_ctxDrop (v ref) : (m.ctxDrop v ref).fuses = m.fuses := by simp [Mach.ctxDrop]
@[simp] theorem fuses_ctxAsk (v unit ref pin) : (m.ctxAsk v unit ref pin).fuses = m.fuses := by simp [Mach.ctxAsk]

/-! #### Machine/RasBase -/

@[simp] theorem fuses_takeover (c) : (m.takeover c).fuses = m.fuses := by
  unfold Mach.takeover
  split <;> simp

/-! #### Machine/JobOps -/

theorem fuses_makeCursors {m m' : Mach} {v j k i l} (h : m.makeCursors v j k i = some (l, m')) :
    m'.fuses = m.fuses := by
  refine fuses_foldl_option (fun _ => rfl) (fun s m x s' m' hs => ?_) h
  dsimp only at hs
  split at hs
  · next hp => cases hs; exact fuses_ctxCreate hp
  · cases hs
@[simp] theorem fuses_tableSetLoaded (c j) : (m.tableSetLoaded c j).fuses = m.fuses := by simp [Mach.tableSetLoaded]
theorem fuses_grantJob {m m' : Mach} {v r i a j} (h : m.grantJob v r i a = some (j, m')) : m'.fuses = m.fuses := by
  unfold Mach.grantJob at h
  split at h
  · cases h
  · extract_lets ordered chans cacheSz plan tabs hot at h
    split at h
    · cases h
    · split at h
      · next ha _ =>
        extract_lets _ m₁ batchAreas at h
        split at h
        · cases h
        · next hc =>
          have hm₁ : m₁.fuses = m.fuses := by simpa [m₁] using fuses_carveAreas ha
          have h₁ := (fuses_makeCursors hc).trans hm₁
          extract_lets m₂ m₃ m₄ m₅ m₆ m₇ at h
          have h₂ : m₂.fuses = m.fuses := (fuses_foldl _ (fun m c => by dsimp only; split <;> simp) _ _).trans h₁
          have h₅ : m₅.fuses = m.fuses := by
            unfold m₅; split <;> simpa [m₄, m₃] using h₂
          have h₇ : m₇.fuses = m.fuses := by
            unfold m₇; split <;> simpa [m₆] using h₅
          cases h
          split
          · exact h₇
          · simpa using h₇
      · cases h
@[simp] theorem fuses_jobAccept (v a) : (m.jobAccept v a).2.2.fuses = m.fuses := by
  simp only [Mach.jobAccept]
  split
  · simp
  · split
    · next h => simp [fuses_grantJob h]
    · rfl
@[simp] theorem fuses_fillBufs (v hs b) : (m.fillBufs v hs b).fuses = m.fuses := by simp [Mach.fillBufs]
@[simp] theorem fuses_keepFrame (v j epoch p ns f crc cur) :
    (m.keepFrame v j epoch p ns f crc cur).fuses = m.fuses := by
  unfold Mach.keepFrame
  split
  · next h =>
    dsimp only
    split <;> simp [fuses_takeBufs h]
  · rfl
@[simp] theorem fuses_sampleFetch (v j epoch p ns remote bad) :
    (m.sampleFetch v j epoch p ns remote bad).fuses = m.fuses := by
  unfold Mach.sampleFetch; dsimp only
  (repeat' split) <;> simp
@[simp] theorem fuses_entryCollect (v l r) : (m.entryCollect v l r).fuses = m.fuses := by
  unfold Mach.entryCollect; dsimp only
  (repeat' split) <;> simp
@[simp] theorem fuses_batchBoundary (j) : (m.batchBoundary j).fuses = m.fuses := by simp [Mach.batchBoundary]
@[simp] theorem fuses_batchEmit (v k) : (m.batchEmit v k).fuses = m.fuses := by
  unfold Mach.batchEmit; dsimp only
  (repeat' split) <;> simp
@[simp] theorem fuses_freeOwned (owner zero) : (m.freeOwned owner zero).fuses = m.fuses := by simp [Mach.freeOwned]
@[simp] theorem fuses_freeCtx (v owner) : (m.freeCtx v owner).fuses = m.fuses := by simp [Mach.freeCtx]
@[simp] theorem fuses_clearWork (j zero) : (m.clearWork j zero).fuses = m.fuses := by simp [Mach.clearWork]
@[simp] theorem fuses_jobRelease (v j) : (m.jobRelease v j).fuses = m.fuses := by
  unfold Mach.jobRelease
  (repeat' split) <;> simp

/-! #### Machine/KeyOps -/

@[simp] theorem fuses_keyRevoke (n k) : (m.keyRevoke n k).fuses = m.fuses := by simp [Mach.keyRevoke]

/-! #### Machine/SpinOps -/

@[simp] theorem fuses_tableLoaded (c j) : (m.tableLoaded c j).fuses = m.fuses := by simp [Mach.tableLoaded]
@[simp] theorem fuses_imageStaged (v planSeq image) : (m.imageStaged v planSeq image).fuses = m.fuses := by
  unfold Mach.imageStaged
  split <;> simp
@[simp] theorem fuses_startMany (v c serial addr len launch ns) :
    (m.startMany v c serial addr len launch ns).fuses = m.fuses := by
  unfold Mach.startMany
  extract_lets r i seq m₁ l homes ws digest m₂ m₃ st m₄
  have h₂ : m₂.fuses = m.fuses := fuses_foldl _ (fun m p => by split <;> simp) _ _
  have h₃ : m₃.fuses = m.fuses := (fuses_foldl _ (fun m p => by simp) _ _).trans h₂
  have h₄ : m₄.fuses = m.fuses := by simpa [m₄] using h₃
  clear_value m₄
  split
  · exact h₄
  · dsimp only
    split <;> simp [h₄]
@[simp] theorem fuses_jobStart (v c addr len launch list count) :
    (m.jobStart v c addr len launch list count).fuses = m.fuses := by
  refine fuses_pipeTake _ _ fun serial m => ?_
  extract_lets fin modules shape st ids alone seq m₁ own a
  have hfin (n : Mach) (r s) : (fin n r s).fuses = n.fuses := fuses_pipeDone _ _ _ _ _ _ _
  have h₁ : m₁.fuses = m.fuses := by unfold m₁; split <;> rfl
  have ha : a.2.2.fuses = m.fuses := (fuses_jobAccept _ _ _).trans h₁
  clear_value fin a m₁
  (repeat' split) <;> simp [hfin, ha]
@[simp] theorem fuses_entryPlace (v toDie n bytes slotLen rows frees kind) :
    (m.entryPlace v toDie n bytes slotLen rows frees kind).fuses = m.fuses := by
  simp [Mach.entryPlace]

/-! #### Machine/DcOps -/

@[simp] theorem fuses_dcLookup (v j epoch p index found bad flashBad) :
    (m.dcLookup v j epoch p index found bad flashBad).fuses = m.fuses := by
  unfold Mach.dcLookup; dsimp only
  iterate 5
    split
    · rfl
  split
  · simp
  · split
    · next h => simp [fuses_takeBufs h]
    · simp

/-! #### Machine/CodecOps -/

@[simp] theorem fuses_codecWrite (v c l) : (m.codecWrite v c l).fuses = m.fuses := by simp [Mach.codecWrite]
@[simp] theorem fuses_codecComplete (v j) : (m.codecComplete v j).fuses = m.fuses := by
  unfold Mach.codecComplete
  (repeat' split) <;> simp

/-! #### Machine/XptOps -/

@[simp] theorem fuses_writeCqe (v ref e st bytes) : (m.writeCqe v ref e st bytes).2.fuses = m.fuses := by
  simp only [Mach.writeCqe]
  (repeat' split) <;> simp
@[simp] theorem fuses_closeEntry (v ref index st) : (m.closeEntry v ref index st).2.fuses = m.fuses := by
  simp only [Mach.closeEntry]
  split <;> simp
@[simp] theorem fuses_queueError (v ref st) : (m.queueError v ref st).fuses = m.fuses := by simp [Mach.queueError]
@[simp] theorem fuses_completeEntry (v ref index st) : (m.completeEntry v ref index st).fuses = m.fuses := by
  simp [Mach.completeEntry]
@[simp] theorem fuses_retransmit (v ref psn) : (m.retransmit v ref psn).fuses = m.fuses := by
  unfold Mach.retransmit
  extract_lets x node again
  have hagain (n : Mach) (k) : (again n k).fuses = n.fuses := by simp [again]
  clear_value again
  split
  · split
    · rfl
    · dsimp only
      split
      · rfl
      · split
        · split <;> simp
        · split
          · simp [hagain]
          · next h => simp [hagain, fuses_nextPath h]
  · rfl
@[simp] theorem fuses_startEntry (v ref op) : (m.startEntry v ref op).fuses = m.fuses := by
  unfold Mach.startEntry
  (repeat' split) <;> simp
@[simp] theorem fuses_gotWrite (v p) : (m.gotWrite v p).fuses = m.fuses := by simp [Mach.gotWrite]
@[simp] theorem fuses_gotAtomic (v p cas) : (m.gotAtomic v p cas).fuses = m.fuses := by simp [Mach.gotAtomic]
@[simp] theorem fuses_gotReadResp (v p) : (m.gotReadResp v p).fuses = m.fuses := by
  refine fuses_withPacket _ _ _ fun m r d b => ?_
  dsimp only
  (repeat' split) <;> simp
@[simp] theorem fuses_gotAtomicResp (v p) : (m.gotAtomicResp v p).fuses = m.fuses := by
  refine fuses_withPacket _ _ _ fun m r d b => ?_
  dsimp only
  split <;> simp
@[simp] theorem fuses_gotSend (v p) : (m.gotSend v p).fuses = m.fuses := by
  refine fuses_withPacket _ _ _ fun m r d b => ?_
  dsimp only
  (repeat' split) <;> simp
@[simp] theorem fuses_ackEntries (v ref) : (m.ackEntries v ref).fuses = m.fuses := by simp [Mach.ackEntries]
@[simp] theorem fuses_gotAck (v p) : (m.gotAck v p).fuses = m.fuses := by
  unfold Mach.gotAck
  split
  · next h => simp [fuses_receive h]
  · next h => exact fuses_receive h
@[simp] theorem fuses_gotNak (v p) : (m.gotNak v p).fuses = m.fuses := by
  unfold Mach.gotNak
  split
  · next h =>
    dsimp only
    (repeat' split) <;> simp [fuses_receive h]
  · next h => exact fuses_receive h
@[simp] theorem fuses_readTimeout (v ref index) : (m.readTimeout v ref index).fuses = m.fuses := by
  unfold Mach.readTimeout
  (repeat' split) <;> simp
@[simp] theorem fuses_drainEnd (v ref) : (m.drainEnd v ref).fuses = m.fuses := by
  unfold Mach.drainEnd
  split <;> simp
@[simp] theorem fuses_qCreate (v c a) : (m.qCreate v c a).fuses = m.fuses := by
  refine fuses_pipeNow _ _ fun m => ?_
  extract_lets rl cl area fields st body
  split
  · rfl
  · split
    · next h => simp [fuses_ctxCreate h]
    · rfl

/-! #### Machine/SessOps -/

theorem fuses_giveResult {m m' : Mach} {v j ref r keep} (h : m.giveResult v j ref r keep = some m') :
    m'.fuses = m.fuses := by
  unfold Mach.giveResult at h
  split at h
  · cases h
  · split at h
    · cases h
    · extract_lets x m₁ fits spilled r' at h
      have h₁ : m₁.fuses = m.fuses := by
        unfold m₁; split <;> simp
      have hs {k n} (hs : spilled = some (k, n)) : n.fuses = m.fuses := by
        unfold spilled at hs
        split at hs
        · cases hs; exact h₁
        · exact (fuses_takeFrom hs).trans h₁
      clear_value spilled
      split at h
      · cases h
      · have h₂ := hs rfl
        extract_lets a m₂ b m₃ at h
        have h₂' : m₂.fuses = m.fuses := by
          unfold m₂; split <;> simp [h₂]
        cases h
        simpa [m₃] using h₂'
theorem fuses_giveResult_getD {m n : Mach} {v j ref r keep} (h : m.fuses = n.fuses) :
    ((m.giveResult v j ref r keep).getD n).fuses = n.fuses :=
  fuses_getD (fun _ hk => (fuses_giveResult hk).trans h) rfl
theorem fuses_keepOutput {m m' : Mach} {v j ref b} (h : m.keepOutput v j ref b = some m') : m'.fuses = m.fuses := by
  unfold Mach.keepOutput at h
  split at h
  · cases h
  · split at h
    · cases h; rfl
    · split at h
      · cases h
      · extract_lets out need taken at h
        have ht {c n} (ht : taken = some (c, n)) : n.fuses = m.fuses := by
          refine fuses_foldl_option (fun _ => rfl) (fun s m i s' m' hs => ?_) ht
          dsimp only at hs
          split at hs
          · next hf => cases hs; exact fuses_takeFrom hf
          · cases hs
        clear_value taken
        split at h
        · cases h
        · cases h
          simp [ht rfl]
@[simp] theorem fuses_seqOpen (v j cmd) : (m.seqOpen v j cmd).fuses = m.fuses := by
  unfold Mach.seqOpen
  split
  · rfl
  · extract_lets c ts fl g sp voc rl endTok ok t start sStart max mk force body
    clear_value ok t mk force body
    split
    · simp
    · split
      · simp
      · split
        · simp
        · next hc =>
          have hm := fuses_ctxCreate hc
          dsimp only
          split <;> refine fuses_giveResult_getD ?_ <;> split <;> simp [hm]
theorem fuses_finishSeq {m m' : Mach} {v j ref r} (h : m.finishSeq v j ref r = some m') : m'.fuses = m.fuses := by
  unfold Mach.finishSeq at h
  split at h
  · cases h
  · next hk => simp [fuses_giveResult h, fuses_keepOutput hk]
@[simp] theorem fuses_seqStep (v j ref stepNo tok) : (m.seqStep v j ref stepNo tok).fuses = m.fuses := by
  unfold Mach.seqStep
  split
  · rfl
  · split
    · simp
    · extract_lets x fl steps again t gs st forced cur allowed b include_ stopR m₁ all w nx dead force depth hold ret
        y₁ y₂ y₃ m₂ m₃ m₄ r fin
      have h₁ : m₁.fuses = m.fuses := by simp [m₁]
      have h₄ : m₄.fuses = m.fuses := by
        unfold m₄; split <;> simpa [m₃, m₂] using h₁
      clear_value m₄ m₁ t cur allowed all ret stopR force
      have hf {n} (hf : fin = some n) : n.fuses = m.fuses := by
        unfold fin at hf
        split at hf
        · exact (fuses_finishSeq hf).trans ((fuses_addFld _ _ _ _ _).trans h₁)
        · split at hf
          · exact (fuses_finishSeq hf).trans h₁
          · split at hf
            · exact (fuses_finishSeq hf).trans h₁
            · split at hf
              · exact (fuses_finishSeq hf).trans ((fuses_addFld _ _ _ _ _).trans h₁)
              · split at hf
                · cases hf
                · next hk => exact (fuses_giveResult hf).trans ((fuses_keepOutput hk).trans h₄)
      clear_value fin
      split
      · simp [again]
      · split
        · exact fuses_giveResult_getD rfl
        · split
          · exact fuses_giveResult_getD rfl
          · exact fuses_getD (fun _ => hf) rfl
@[simp] theorem fuses_dropSeq (v j q) : (m.dropSeq v j q).fuses = m.fuses := by
  unfold Mach.dropSeq; dsimp only
  (repeat' split) <;> simp
@[simp] theorem fuses_seqClose (v j ref) : (m.seqClose v j ref).fuses = m.fuses := by
  unfold Mach.seqClose
  split
  · rfl
  · split
    · simp
    · extract_lets ended done
      have hd {n} (hd : done = some n) : n.fuses = m.fuses := by
        unfold done at hd
        split at hd
        · cases hd; rfl
        · exact fuses_finishSeq hd
      clear_value done
      split
      · rfl
      · split <;> simp [hd rfl]
@[simp] theorem fuses_seqCommand (v j c) : (m.seqCommand v j c).fuses = m.fuses := by
  unfold Mach.seqCommand
  split <;> simp
@[simp] theorem fuses_seqMessage (v j b) : (m.seqMessage v j b).fuses = m.fuses := by
  unfold Mach.seqMessage; dsimp only
  split <;> simp
@[simp] theorem fuses_sessionMessage (v j q) : (m.sessionMessage v j q).fuses = m.fuses := by
  unfold Mach.sessionMessage; dsimp only
  (repeat' split) <;> simp
@[simp] theorem fuses_sessionStart (v c addr) : (m.sessionStart v c addr).fuses = m.fuses := by
  refine fuses_pipeTake _ _ fun serial m => ?_
  extract_lets fin b st
  have hfin (n : Mach) (r s) : (fin n r s).fuses = n.fuses := fuses_pipeDone _ _ _ _ _ _ _
  clear_value fin
  (repeat' split) <;> simp [hfin]
@[simp] theorem fuses_releaseSlot (v j) : (m.releaseSlot v j).fuses = m.fuses := by
  unfold Mach.releaseSlot
  (repeat' split) <;> simp

/-! #### Machine/PortOps -/

@[simp] theorem fuses_win4Store (v used) (a bs) : (Mach.win4Store v used m a bs).fuses = m.fuses := by
  induction bs generalizing m a with
  | nil => rfl
  | cons b r ih => rw [Mach.win4Store, ih]; split <;> simp
@[simp] theorem fuses_win4Write (v p a bs) : (m.win4Write v p a bs).fuses = m.fuses := by simp [Mach.win4Write]

/-! #### Machine/PsOps -/

@[simp] theorem fuses_ps1Enter (c) : (m.ps1Enter c).fuses = m.fuses := by simp [Mach.ps1Enter]
@[simp] theorem fuses_ps2Enter (r) : (m.ps2Enter r).fuses = m.fuses := by simp [Mach.ps2Enter]
@[simp] theorem fuses_ps4Enter (v) : (m.ps4Enter v).fuses = m.fuses := by simp [Mach.ps4Enter]
@[simp] theorem fuses_tryPs1 (v c) : (m.tryPs1 v c).fuses = m.fuses := by simp [Mach.tryPs1]
@[simp] theorem fuses_tryPs2 (v r ev) : (m.tryPs2 v r ev).fuses = m.fuses := by simp [Mach.tryPs2]
@[simp] theorem fuses_tryPs4 (v ev) : (m.tryPs4 v ev).fuses = m.fuses := by simp [Mach.tryPs4]
@[simp] theorem fuses_tryRefused (v r) : (m.tryRefused v r).fuses = m.fuses := by
  unfold Mach.tryRefused
  (repeat' split) <;> simp
@[simp] theorem fuses_ps1Exit (c) : (m.ps1Exit c).fuses = m.fuses := by simp [Mach.ps1Exit]
@[simp] theorem fuses_psEnforce (v) : (m.psEnforce v).fuses = m.fuses := by simp [Mach.psEnforce]
@[simp] theorem fuses_ps3Exit (v failed) : (m.ps3Exit v failed).fuses = m.fuses := by simp [Mach.ps3Exit]
@[simp] theorem fuses_ps4Exit (v failed) : (m.ps4Exit v failed).fuses = m.fuses := by simp [Mach.ps4Exit]
@[simp] theorem fuses_setWakeAt (v val) : (m.setWakeAt v val).fuses = m.fuses := by simp [Mach.setWakeAt]
@[simp] theorem fuses_idleSlow (v c) : (m.idleSlow v c).fuses = m.fuses := by simp [Mach.idleSlow]

/-! #### Machine/RasOps -/

@[simp] theorem fuses_applyDerate (c) : (m.applyDerate c).fuses = m.fuses := by simp [Mach.applyDerate]
@[simp] theorem fuses_bandChange (v c temp) : (m.bandChange v c temp).fuses = m.fuses := by simp [Mach.bandChange]
@[simp] theorem fuses_retire (t reason) : (m.retire t reason).fuses = m.fuses := by simp [Mach.retire]
@[simp] theorem fuses_quarantineTile (t) : (m.quarantineTile t).fuses = m.fuses := by simp [Mach.quarantineTile]
@[simp] theorem fuses_beginStorm (t) : (m.beginStorm t).fuses = m.fuses := by simp [Mach.beginStorm]
@[simp] theorem fuses_derateTile (t mhz) : (m.derateTile t mhz).fuses = m.fuses := by simp [Mach.derateTile]
@[simp] theorem fuses_confirm (t reason derateAt) : (m.confirm t reason derateAt).fuses = m.fuses := by
  unfold Mach.confirm; dsimp only
  (repeat' split) <;> simp
@[simp] theorem fuses_suite (r) : (m.suite r).2.fuses = m.fuses := by
  simp only [Mach.suite]
  (repeat' split) <;> simp
@[simp] theorem fuses_slotSuite (v r) : (m.slotSuite v r).fuses = m.fuses := by simp [Mach.slotSuite]
@[simp] theorem fuses_selftestSlot (v r rs) : (m.selftestSlot v r rs).fuses = m.fuses := by simp [Mach.selftestSlot]
@[simp] theorem fuses_tileFault (v r) : (m.tileFault v r).fuses = m.fuses := by
  unfold Mach.tileFault
  split <;> simp
@[simp] theorem fuses_suites (l) : (Mach.suites l m).2.fuses = m.fuses := by
  induction l generalizing m with
  | nil => rfl
  | cons r rest ih => rw [Mach.suites]; split <;> simp [ih]
@[simp] theorem fuses_suspectEnd (t rs d) : (m.suspectEnd t rs d).fuses = m.fuses := by simp [Mach.suspectEnd]
@[simp] theorem fuses_hardFault (v t) : (m.hardFault v t).fuses = m.fuses := by simp [Mach.hardFault]
@[simp] theorem fuses_stormEnd (w1c) : (m.stormEnd w1c).fuses = m.fuses := by simp [Mach.stormEnd]
@[simp] theorem fuses_spareTakeover (c) : (m.spareTakeover c).fuses = m.fuses := by simp [Mach.spareTakeover]
@[simp] theorem fuses_derateClear (go t) : (m.derateClear go t).fuses = m.fuses := by simp [Mach.derateClear]
@[simp] theorem fuses_applyMap : m.applyMap.fuses = m.fuses := by simp [Mach.applyMap]
@[simp] theorem fuses_tilesReady (v rs) : (m.tilesReady v rs).fuses = m.fuses := by simp [Mach.tilesReady]

/-! #### Machine/SystemOps -/

@[simp] theorem fuses_warmReset (v) : (m.warmReset v).fuses = m.fuses := by
  rw [Mach.warmReset, fuses_startBoot, fuses_bootInit]
  split
  · exact fuses_foldl _ (fun m p => fuses_setLimit _ _ _ _) _ _
  · rfl

/-! #### Machine/PowerCmds -/

@[simp] theorem fuses_powerDown : m.powerDown.fuses = m.fuses := by rfl
@[simp] theorem fuses_hardDown (cause) : (m.hardDown cause).fuses = m.fuses := by rfl

/-! #### Machine/SlotErr -/

@[simp] theorem fuses_slotError (v s) : (m.slotError v s).fuses = m.fuses := by
  unfold Mach.slotError
  extract_lets x ref m₁ m₂ r
  have h₂ : m₂.fuses = m.fuses := by simp [m₂, m₁]
  clear_value m₂
  split
  · split <;> simpa using h₂
  · split
    · split
      · next h => exact (fuses_finishSeq h).trans h₂
      · simpa using h₂
    · exact h₂
  · exact (fuses_queueError _ _ _ _).trans h₂
  · exact h₂
@[simp] theorem fuses_slotFilled (v s) : (m.slotFilled v s).fuses = m.fuses := by
  unfold Mach.slotFilled; dsimp only
  (repeat' split) <;> simp

/-! #### Machine/QueueCmds -/

@[simp] theorem fuses_tileDeadlock (t) : (m.tileDeadlock t).fuses = m.fuses := by simp [Mach.tileDeadlock]
@[simp] theorem fuses_dependencyMet (c pos) : (m.dependencyMet c pos).fuses = m.fuses := by
  unfold Mach.dependencyMet
  split <;> simp
@[simp] theorem fuses_workUnitTake (v t) : (m.workUnitTake v t).fuses = m.fuses := by
  unfold Mach.workUnitTake
  (repeat' split) <;> simp
@[simp] theorem fuses_spill (c) : (m.spill c).fuses = m.fuses := by
  unfold Mach.spill; dsimp only
  split
  · split
    · split
      · next h => simp [fuses_placeDie h]
      · rfl
    · rfl
  · rfl
@[simp] theorem fuses_clusterDeadlock (v c) : (m.clusterDeadlock v c).fuses = m.fuses := by simp [Mach.clusterDeadlock]
@[simp] theorem fuses_freeWaiting (c j) : (m.freeWaiting c j).fuses = m.fuses := by simp [Mach.freeWaiting]
@[simp] theorem fuses_deadlockExamine (c yft planned) : (m.deadlockExamine c yft planned).fuses = m.fuses := by
  simp [Mach.deadlockExamine]

/-! #### Machine/RegOps -/

/-- The machine that a function may answer has the fuses x. -/
def AnswersFuses (x : Nat × Nat × Nat) (o : Option Mach) : Prop := ∀ m, o = some m → m.fuses = x
theorem answersFuses_none {x} : AnswersFuses x none := fun _ e => nomatch e
theorem answersFuses_some {x} {m : Mach} (h : m.fuses = x) : AnswersFuses x (some m) := by
  rintro _ ⟨⟩
  exact h
theorem answersFuses_ite {x} {c : Prop} [Decidable c] {a b : Option Mach} (ha : AnswersFuses x a)
    (hb : AnswersFuses x b) : AnswersFuses x (if c then a else b) := by
  split
  · exact ha
  · exact hb
theorem fuses_writeSpecial (v w off val) : AnswersFuses m.fuses (m.writeSpecial v w off val) := by
  unfold Mach.writeSpecial
  iterate 5 refine answersFuses_ite (answersFuses_some (by simp)) ?_
  refine answersFuses_ite (answersFuses_ite answersFuses_none (answersFuses_some (by simp))) ?_
  iterate 16 refine answersFuses_ite (answersFuses_some (by simp)) ?_
  split
  · exact answersFuses_some (by split <;> simp)
  · exact answersFuses_some (by simp)
  · exact answersFuses_none
@[simp] theorem fuses_writeReg (v w off val) : (m.writeReg v w off val).fuses = m.fuses := by
  unfold Mach.writeReg
  split
  · rfl
  · split
    · simp
    · split
      · rfl
      · split
        · next h => exact fuses_writeSpecial _ _ _ _ _ _ h
        · simp
@[simp] theorem fuses_writeOne (v l x) : (m.writeOne v l x).fuses = m.fuses := by simp [Mach.writeOne]
@[simp] theorem fuses_writeCycle (v l) : (m.writeCycle v l).fuses = m.fuses := by simp [Mach.writeCycle]
@[simp] theorem fuses_regWrites (v ws) : (m.regWrites v ws).fuses = m.fuses := by simp [Mach.regWrites]
@[simp] theorem fuses_cfgWrite (v w blk val also) : (m.cfgWrite v w blk val also).fuses = m.fuses := by
  simp [Mach.cfgWrite]
@[simp] theorem fuses_commitTilecfg (v c) : (m.commitTilecfg v c).fuses = m.fuses := by
  unfold Mach.commitTilecfg
  split <;> simp
@[simp] theorem fuses_commitEffect (v c) : (m.commitEffect v c).fuses = m.fuses := by
  unfold Mach.commitEffect
  split <;> simp
@[simp] theorem fuses_commitPoint (v blk) : (m.commitPoint v blk).fuses = m.fuses := by
  unfold Mach.commitPoint
  split <;> simp

end

end Sys2Proof.Machine
end

section
/-!
SUPPORT. The fuses under the descriptors' operations and under every command: RAISE_SECURITY_VERSION alone writes
one, and only upwards (03_startup_and_trust.md R93, R97).
-/
namespace Sys2Proof.Machine

section
variable (v : Variant) (m : Mach) (t : Nat) (d : List Byte)

@[simp] theorem fuses_gougeHash : (gougeHash v m t d).m.fuses = m.fuses := by
  unfold gougeHash; dsimp only
  (repeat' split) <;> simp [failWith]
@[simp] theorem fuses_gougeLookup : (gougeLookup v m t d).m.fuses = m.fuses := by
  unfold gougeLookup; dsimp only
  (repeat' split) <;> simp [failWith]
@[simp] theorem fuses_gougeLzexec : (gougeLzexec v m t d).m.fuses = m.fuses := by
  unfold gougeLzexec; dsimp only
  (repeat' split) <;> simp [failWith]
@[simp] theorem fuses_gougeHuff : (gougeHuff v m t d).m.fuses = m.fuses := by
  unfold gougeHuff; dsimp only
  (repeat' split) <;> simp [failWith]
@[simp] theorem fuses_gougeTans : (gougeTans v m t d).m.fuses = m.fuses := by
  unfold gougeTans; dsimp only
  (repeat' split) <;> simp [failWith]
@[simp] theorem fuses_gougeStep : (gougeStep v m t d).m.fuses = m.fuses := by
  unfold gougeStep; dsimp only
  (repeat' split) <;> simp [failWith]
@[simp] theorem fuses_dmaRun (fields bad f) : (dmaRun v m t d fields bad f).m.fuses = m.fuses := by
  unfold dmaRun; dsimp only
  (repeat' split) <;> simp [failWith]
@[simp] theorem fuses_dmaCopy : (dmaCopy v m t d).m.fuses = m.fuses := fuses_dmaRun _ _ _ _ _ _ _
@[simp] theorem fuses_dmaFill : (dmaFill v m t d).m.fuses = m.fuses := fuses_dmaRun _ _ _ _ _ _ _
@[simp] theorem fuses_dmaCopy2d : (dmaCopy2d v m t d).m.fuses = m.fuses := fuses_dmaRun _ _ _ _ _ _ _
@[simp] theorem fuses_dmaCount : (dmaCount v m t d).m.fuses = m.fuses := fuses_dmaRun _ _ _ _ _ _ _
@[simp] theorem fuses_aesRun (srcN dstN mayUse) {f : Mach → KeyRec → DescOut} (hf : ∀ m k, (f m k).m.fuses = m.fuses) :
    (aesRun v m t d srcN dstN f mayUse).m.fuses = m.fuses := by
  unfold aesRun; dsimp only
  (repeat' split) <;> simp [failWith, hf]
@[simp] theorem fuses_aesDecrypt : (aesDecrypt v m t d).m.fuses = m.fuses := by
  refine fuses_aesRun _ _ _ _ _ _ _ fun m k => ?_
  dsimp only
  split <;> simp
@[simp] theorem fuses_aesEncrypt : (aesEncrypt v m t d).m.fuses = m.fuses :=
  fuses_aesRun _ _ _ _ _ _ _ fun m k => by simp
end

/-! ### The commands that leave the fuses -/

/-- The outcome of a command on s, when it is a state, has the fuses of s. -/
def KeepsFuses (s : State) (o : Res) : Prop := ∀ t, o = .next t → t.mach.fuses = s.mach.fuses

theorem keepsFuses_of {s : State} {m : Mach} {o : Res} (ho : o = .next { s with mach := m })
    (h : m.fuses = s.mach.fuses) : KeepsFuses s o := by
  subst ho
  rintro _ ⟨⟩
  exact h
@[simp] theorem fuses_setNonce (b : Boot) (p n) : (b.setNonce p n).fuses = b.fuses := by
  unfold Boot.setNonce
  split <;> rfl

theorem keepsFuses_offRecord {s : State} : KeepsFuses s (execOffRecord s) := by
  refine keepsFuses_of rfl ?_
  dsimp only
  split
  · split <;> rfl
  · rfl
theorem keepsFuses_svcReqRelease {s : State} : KeepsFuses s (execSvcReqRelease s) := by
  refine keepsFuses_of rfl ?_
  dsimp only
  split <;> rfl
theorem keepsFuses_mgmtRequest {s : State} {req} : KeepsFuses s (execMgmtRequest req s) := by
  refine keepsFuses_of rfl ?_
  dsimp only
  (repeat' split) <;> simp
theorem keepsFuses_flowLossDeadline {s : State} : KeepsFuses s (execFlowLossDeadline s) := by
  refine keepsFuses_of rfl ?_
  dsimp only
  (repeat' split) <;> simp
theorem keepsFuses_coresRelease {s : State} : KeepsFuses s (execCoresRelease s) := by
  refine keepsFuses_of rfl ?_
  dsimp only
  split
  · rfl
  · split
    · rfl
    · simp [apply_ite Boot.fuses]
theorem keepsFuses_stageReady {s : State} : KeepsFuses s (execStageReady s) := by
  refine keepsFuses_of rfl ?_
  dsimp only
  split
  · rfl
  · rw [fuses_setFld]
    split
    · split
      · exact fuses_bootSetSlot _ _ _
      · rfl
    · rfl
theorem keepsFuses_firmwareImageDownload {s : State} {n slot image} :
    KeepsFuses s (execFirmwareImageDownload n slot image s) := by
  refine keepsFuses_of rfl (fuses_nvmeServe _ _ _ ?_)
  dsimp only
  (repeat' split) <;> simp
theorem keepsFuses_firmwareCommit {s : State} {n slot action} : KeepsFuses s (execFirmwareCommit n slot action s) := by
  refine keepsFuses_of rfl (fuses_nvmeServe _ _ _ ?_)
  dsimp only
  (repeat' split) <;> simp
theorem keepsFuses_liveUpdateCore {s : State} {pass} : KeepsFuses s (execLiveUpdateCore pass s) := by
  refine keepsFuses_of rfl ?_
  dsimp only
  split
  · rfl
  · split
    · simp
    · split <;> simp
theorem keepsFuses_securitySend {s : State} {n data} : KeepsFuses s (execSecuritySend n data s) := by
  refine keepsFuses_of rfl (fuses_nvmeServe _ _ _ ?_)
  split <;> simp
theorem keepsFuses_securityReceive {s : State} {n alloc} : KeepsFuses s (execSecurityReceive n alloc s) := by
  refine keepsFuses_of rfl (fuses_nvmeServe _ _ _ ?_)
  (repeat' split) <;> simp

/-! ### RAISE_SECURITY_VERSION -/

/-- From b to b' no minimum version falls or passes its bound, and the revoked keys stay the same. -/
structure FusesRise (b b' : Boot) : Prop where
  fw : b.fwMinSvn ≤ b'.fwMinSvn
  tr : b.trMinSvn ≤ b'.trMinSvn
  revoked : b'.revoked = b.revoked
  bounds : FuseBounds b → FuseBounds b'

theorem FusesRise.of_fuses {b b' : Boot} (h : b'.fuses = b.fuses) : FusesRise b b' := by
  simp only [Boot.fuses, Prod.mk.injEq] at h
  obtain ⟨hfw, htr, hrev⟩ := h
  exact ⟨hfw.ge, htr.ge, hrev, fun hb => by rwa [FuseBounds, hfw, htr, hrev]⟩

/-- Raise Security Version blows a fuse only upwards, and within the fuses that there are (R97). -/
theorem fusesRise_raiseSvn (m : Mach) (n tr val) : FusesRise m.boot (m.raiseSvn n tr val).boot := by
  unfold Mach.raiseSvn
  extract_lets b old confirmed ok m₁
  split
  · exact .of_fuses (by simp)
  · split
    · next hok =>
      rw [Mach.nvmeDone_boot, Mach.record_boot]
      cases tr with
      | true =>
        have hold : m.boot.trMinSvn ≤ val ∧ val ≤ 16 := by
          simp only [ok, old, b, if_true, Bool.and_eq_true, decide_eq_true_eq] at hok
          tauto
        exact ⟨le_rfl, hold.1, rfl, fun ⟨hfw, _, hrev⟩ => ⟨hfw, hold.2, hrev⟩⟩
      | false =>
        have hold : m.boot.fwMinSvn < val ∧ val ≤ 64 := by
          simp only [ok, old, b, Bool.false_eq_true, if_false, Bool.and_eq_true, decide_eq_true_eq] at hok
          tauto
        exact ⟨hold.1.le, le_rfl, rfl, fun ⟨_, htr, hrev⟩ => ⟨hold.2, htr, hrev⟩⟩
    · exact .of_fuses (by simp)

/-- A command that NVMe does not serve leaves the fuses. -/
theorem fusesRise_nvmeServe {m : Mach} {n k} {f : Mach → Mach} (h : FusesRise m.boot (f m).boot) :
    FusesRise m.boot (m.nvmeServe n k f).boot := by
  unfold Mach.nvmeServe
  split
  · split
    · exact .of_fuses (by simp)
    · exact h
  · exact .of_fuses rfl

/-! ### Every command -/

/-- Every command but RAISE_SECURITY_VERSION leaves the fuses: those not named are made of functions that leave them. -/
theorem exec_raises_or_keepsFuses (c : Instr) (s : State) :
    (∃ n tr val, c = .raiseSecurityVersion n tr val) ∨ KeepsFuses s (exec c s) := by
  cases c with
  | raiseSecurityVersion n tr val => exact .inl ⟨n, tr, val, rfl⟩
  | offRecord => exact .inr keepsFuses_offRecord
  | svcReqRelease => exact .inr keepsFuses_svcReqRelease
  | mgmtRequest => exact .inr keepsFuses_mgmtRequest
  | flowLossDeadline => exact .inr keepsFuses_flowLossDeadline
  | coresRelease => exact .inr keepsFuses_coresRelease
  | firmwareImageDownload => exact .inr keepsFuses_firmwareImageDownload
  | firmwareCommit => exact .inr keepsFuses_firmwareCommit
  | liveUpdateCore => exact .inr keepsFuses_liveUpdateCore
  | securityReceive => exact .inr keepsFuses_securityReceive
  | stageReady => exact .inr keepsFuses_stageReady
  | securitySend => exact .inr keepsFuses_securitySend
  | _ => exact .inr (keepsFuses_of rfl (by simp))

/-- Whatever command runs, no fuse is taken back and none is blown past its bound. -/
theorem exec_fusesRise {s t : State} (c : Instr) (h : exec c s = .next t) : FusesRise s.mach.boot t.mach.boot := by
  obtain ⟨n, tr, val, rfl⟩ | hkeeps := exec_raises_or_keepsFuses c s
  · cases h
    exact fusesRise_nvmeServe (fusesRise_raiseSvn _ _ _ _)
  · exact .of_fuses (hkeeps t h)

/-- Settles O54: RAISE_SECURITY_VERSION alone writes a fuse, and only upwards and within its bound. -/
theorem fusesNeverFall : Obligations.FusesNeverFall := by
  intro s t hst
  have rise : FusesRise s.mach.boot t.mach.boot := by
    obtain ⟨-, rfl⟩ | ⟨c, r, m, -, hc, -⟩ := step_cases hst
    · exact .of_fuses (fuses_tick _ _)
    · exact exec_fusesRise (s := { s with pending := r }) c hc
  exact ⟨⟨rise.fw, rise.tr, fun i hi => by rwa [rise.revoked]⟩, rise.bounds⟩

end Sys2Proof.Machine
end

section
/-!
SUPPORT. The boot state that a module leaves the factory with (03_startup_and_trust.md R93, R625).
-/
namespace Sys2Proof.Machine

/-- A shipped image passes the checks of R96 while no minimum version stands in its place. -/
theorem imageCheck_shipped {b : Boot} {place : Nat} (h : (if place = 1 then b.fwMinSvn else b.trMinSvn) = 0) :
    imageCheck b place .shipped = none := by
  rw [imageCheck, h]
  exact if_neg (Nat.not_lt_zero _)

/-- Settles O52: the factory's boot state, whose images are the shipped ones and whose fuses are open. -/
theorem factoryState : Obligations.FactoryState := by
  rintro b rfl
  exact ⟨rfl, rfl, imageCheck_shipped rfl, rfl, imageCheck_shipped rfl, rfl, rfl, fun i => Nat.zero_testBit i, rfl⟩

/-- Settles O53: the reset state is the factory's, whose memories are empty. -/
theorem invariantsAtReset : Obligations.InvariantsAtReset :=
  ⟨⟨Nat.zero_le _, Nat.zero_le _, Nat.two_pow_pos 4⟩, (memoriesWf_iff _).mpr wf_factory, rfl, rfl⟩

end Sys2Proof.Machine
end

section
/-!
SUPPORT. Slots and measurements (03_startup_and_trust.md R98, R109): what reads back after a slot or a measurement
register is written, and what stays.
-/
namespace Sys2Proof.Machine

/-- What a command does can be said more weakly. -/
theorem does_mono {c : Instr} {s : State} {r q : Mach → Mach → Prop} (h : Does c s r)
    (hrq : ∀ m', r s.mach m' → q s.mach m') : Does c s q :=
  let ⟨m, he, hr⟩ := h
  ⟨m, he, hrq m hr⟩

/-- A bit reads as before where another was written. -/
theorem Mach.bit_setBit_apart (m : Mach) (off : Nat) {i j : Nat} (x : Bool) (h64 : i < 64) (h : j ≠ i) :
    (m.setBit off i x).bit off j = m.bit off j := by
  rw [Mach.bit, Mach.setBit, Mach.setFld, Mach.reg_setReg_same, getLsbD_putField le_rfl h64, if_neg (by omega)]; rfl

/-! ### Slots (R98) -/

@[simp] theorem Boot.slot_setSlot_same (b : Boot) (i : Nat) (x : Slot) : (b.setSlot i x).slot i = x := by
  unfold Boot.slot Boot.setSlot; split <;> rfl
@[simp] theorem Boot.setSlot_toolRest (b : Boot) (i : Nat) (x : Slot) : (b.setSlot i x).toolRest = b.toolRest := by
  unfold Boot.setSlot; split <;> rfl
@[simp] theorem Boot.setSlot_chosen (b : Boot) (i : Nat) (x : Slot) : (b.setSlot i x).chosen = b.chosen := by
  unfold Boot.setSlot; split <;> rfl
@[simp] theorem Boot.setSlot_meas (b : Boot) (i : Nat) (x : Slot) : (b.setSlot i x).meas = b.meas := by
  unfold Boot.setSlot; split <;> rfl
@[simp] theorem Boot.setSlot_measSeq (b : Boot) (i : Nat) (x : Slot) : (b.setSlot i x).measSeq = b.measSeq := by
  unfold Boot.setSlot; split <;> rfl
@[simp] theorem Boot.setSlot_fuses (b : Boot) (i : Nat) (x : Slot) : (b.setSlot i x).fuses = b.fuses := by
  unfold Boot.setSlot; split <;> rfl

/-- A slot whose image stays leaves every image. -/
theorem Boot.image_setSlot (b : Boot) {i : Nat} {x : Slot} (h : x.image = (b.slot i).image) :
    (b.setSlot i x).image i = b.image i := by
  rw [Boot.image, Boot.image, Boot.slot_setSlot_same, Boot.setSlot_toolRest, h]

theorem Boot.fuses_eq_iff {b c : Boot} :
    b.fuses = c.fuses ↔ b.fwMinSvn = c.fwMinSvn ∧ b.trMinSvn = c.trMinSvn ∧ b.revoked = c.revoked := by
  simp only [Boot.fuses, Prod.mk.injEq]

/-! ### Measurements (R109) -/

section
variable (m : Mach) {i j : Nat} (c : List Byte)

@[simp] theorem Mach.measureData_regs : (m.measureData i c).regs = m.regs := rfl
@[simp] theorem Mach.measureData_power : (m.measureData i c).power = m.power := rfl
@[simp] theorem Mach.measureData_spn : (m.measureData i c).spn = m.spn := rfl
@[simp] theorem Mach.measureData_evr : (m.measureData i c).evr = m.evr := rfl
@[simp] theorem Mach.measureData_out : (m.measureData i c).out = m.out := rfl
@[simp] theorem Mach.measureData_slot (k : Nat) : (m.measureData i c).boot.slot k = m.boot.slot k := rfl
@[simp] theorem Mach.measureData_chosen : (m.measureData i c).boot.chosen = m.boot.chosen := rfl
@[simp] theorem Mach.measureData_bootFuses : (m.measureData i c).boot.fuses = m.boot.fuses := rfl
@[simp] theorem Mach.measureData_measSeq :
    (m.measureData i c).boot.measSeq = (m.boot.measSeq + 1) % 2 ^ 32 := rfl
@[simp] theorem Mach.measureData_length : (m.measureData i c).boot.meas.length = m.boot.meas.length :=
  List.length_set

/-- The register measured holds the hash of what it held, the type and the digest. -/
theorem Mach.meas_measureData_same (h : i < m.boot.meas.length) : (m.measureData i c).boot.meas.getD i [] =
    shake256 (m.boot.meas.getD i [] ++ leBytes 2 (Config.freeNat 10 i % 2 ^ 16) ++
      sliceBytes (shake256 c 64) 0 64) 64 := by
  rw [List.getD_eq_getElem?_getD, Mach.measureData, Mach.measure]
  dsimp only
  rw [List.getElem?_set_self h, Option.getD_some]

/-- Every other register holds what it held. -/
theorem Mach.meas_measureData_other (h : j ≠ i) :
    (m.measureData i c).boot.meas.getD j [] = m.boot.meas.getD j [] := by
  rw [List.getD_eq_getElem?_getD, List.getD_eq_getElem?_getD, Mach.measureData, Mach.measure]
  dsimp only
  rw [List.getElem?_set_ne h.symm]

end

end Sys2Proof.Machine
end

section
/-!
SUPPORT. The boot from its image to READY (03_startup_and_trust.md R98 to R101, R103, R106, R109;
01_architecture.md R33).
-/
namespace Sys2Proof.Machine

@[simp] theorem Mach.bootRecord_boot (m : Mach) : m.bootRecord.boot = m.boot := by simp [Mach.bootRecord]
@[simp] theorem Mach.bootRecord_power (m : Mach) : m.bootRecord.power = m.power := by simp [Mach.bootRecord]
@[simp] theorem Mach.bootRecord_spn (m : Mach) : m.bootRecord.spn = m.spn := by simp [Mach.bootRecord]
@[simp] theorem Mach.reg_bootRecord (m : Mach) {o : Nat} (h : o ≠ Reg.evrStatus) : m.bootRecord.reg o = m.reg o :=
  Mach.reg_record _ _ _ _ _ h

/-- The boot state once an attempt to start image i is counted: only a slot has a count. -/
def Boot.attempted (b : Boot) (i : Nat) : Boot :=
  if i < 2 then b.setSlot i { b.slot i with count := (b.slot i).count + 1 } else b

/-- The boot state once image i has come up to READY: only a slot is confirmed, and the watchdog stops. -/
def Boot.confirmed (b : Boot) (i : Nat) : Boot :=
  { (if i < 2 then b.setSlot i { b.slot i with state := .confirmed, count := 0 } else b) with watchdog := false }

@[simp] theorem Boot.attempted_fuses (b : Boot) (i : Nat) : (b.attempted i).fuses = b.fuses := by
  unfold Boot.attempted; split <;> simp
@[simp] theorem Boot.attempted_meas (b : Boot) (i : Nat) : (b.attempted i).meas = b.meas := by
  unfold Boot.attempted; split <;> simp
@[simp] theorem Boot.attempted_measSeq (b : Boot) (i : Nat) : (b.attempted i).measSeq = b.measSeq := by
  unfold Boot.attempted; split <;> simp
@[simp] theorem Boot.attempted_image (b : Boot) (i : Nat) : (b.attempted i).image i = b.image i := by
  unfold Boot.attempted
  split
  · exact b.image_setSlot rfl
  · rfl
theorem Boot.attempted_count (b : Boot) {i : Nat} (h : i < 2) :
    ((b.attempted i).slot i).count = (b.slot i).count + 1 := by
  rw [Boot.attempted, if_pos h, Boot.slot_setSlot_same]

@[simp] theorem Boot.confirmed_chosen (b : Boot) (i : Nat) : (b.confirmed i).chosen = b.chosen := by
  unfold Boot.confirmed; dsimp only; split <;> simp
theorem Boot.confirmed_slot (b : Boot) {i : Nat} (h : i < 2) :
    (b.confirmed i).slot i = ⟨.confirmed, 0, (b.slot i).image⟩ := by
  rw [Boot.confirmed, if_pos h]
  exact Boot.slot_setSlot_same _ _ _

/-- What the boot ROM measures into MEAS0: its constants and the fuses. -/
def Boot.romMeasured (b : Boot) : List Byte :=
  Config.measuredConst 0 ++ leBytes 1 b.fwMinSvn ++ leBytes 1 b.trMinSvn ++ leBytes 1 b.revoked

theorem Boot.romMeasured_congr {b c : Boot} (h : b.fuses = c.fuses) : b.romMeasured = c.romMeasured := by
  obtain ⟨hfw, htr, hrev⟩ := Boot.fuses_eq_iff.mp h
  rw [Boot.romMeasured, Boot.romMeasured, hfw, htr, hrev]

/-- What is measured at the release: the boot ROM's constants and the fuses, image i, straps and capabilities. -/
def Mach.measureBoot (v : Variant) (m : Mach) (i : Nat) : Mach :=
  ((m.measureData 0 m.boot.romMeasured).measureData (if i = 2 then 2 else 1) (m.boot.image i).measured).measureData 3
    (leBytes 4 (m.reg Reg.glbStraps).toNat ++ (capWords v).flatMap (leBytes 4))

/-- Three measurements were taken, in registers whose numbers run on. -/
theorem Mach.measSeq_measureBoot (v : Variant) (m : Mach) (i : Nat) :
    (m.measureBoot v i).boot.measSeq = (m.boot.measSeq + 3) % 2 ^ 32 := by
  simp only [Mach.measureBoot, Mach.measureData_measSeq]
  omega

/-- MEAS0 is extended once, by the constants and the fuses. -/
theorem Mach.meas_measureBoot (v : Variant) (m : Mach) (i : Nat) (h : 0 < m.boot.meas.length) :
    (m.measureBoot v i).boot.meas.getD 0 [] = shake256 (m.boot.meas.getD 0 [] ++
      leBytes 2 (Config.freeNat 10 0 % 2 ^ 16) ++ sliceBytes (shake256 m.boot.romMeasured 64) 0 64) 64 := by
  rw [Mach.measureBoot, Mach.meas_measureData_other _ _ (by decide),
    Mach.meas_measureData_other _ _ (by split <;> decide), Mach.meas_measureData_same _ _ h]

section
variable {s : State} {i : Nat}

theorem coresRelease_otherStage (hchosen : s.mach.boot.chosen = some i) (h : s.mach.fld Reg.glbBootStatus 7 0 ≠ 2) :
    Does .coresRelease s (fun m m' => m' = m) := by
  refine does_of rfl fun n hn => ?_
  simp only [hchosen, if_pos h] at hn
  exact hn.symm

/-- The image starts: its attempt is counted and measured, and its cores run. -/
theorem coresRelease_image (hchosen : s.mach.boot.chosen = some i) (h : s.mach.fld Reg.glbBootStatus 7 0 = 2) :
    Does .coresRelease s (fun m m' =>
      m'.boot = (({ m with boot := m.boot.attempted i }).measureBoot s.variant i).boot ∧
      m'.power = { m.power with offSinceBoot := false } ∧ m'.spn = m.spn ∧
      m'.fld Reg.glbBootStatus 7 0 = 3 ∧ m'.fld Reg.glbBootStatus 11 8 = i % 2 ^ 4 ∧
      m'.fld Reg.glbCcStatus 7 0 = 0xFF ∧ m'.reg Reg.glbFwVersion = BitVec.ofNat 64 (m.boot.image i).version) := by
  refine does_of rfl fun n hn => ?_
  beta_reduce at hn
  rw [hchosen] at hn
  change (if s.mach.fld Reg.glbBootStatus 7 0 ≠ 2 then s.mach else _) = n at hn
  rw [if_neg (not_not_intro h)] at hn
  extract_lets _ _ b _ _ _ _ _ _ _ m₁ m₂ m₃ m₄ at hn
  have hb : b = s.mach.boot.attempted i := rfl
  subst hn
  have hstatus : m₄.bootRecord.reg Reg.glbBootStatus = m₂.reg Reg.glbBootStatus := by
    rw [Mach.reg_bootRecord _ (by decide), Mach.reg_setReg_other _ _ (by decide),
      Mach.reg_setFld_other _ _ _ _ (by decide)]
  refine ⟨m₄.bootRecord_boot, m₄.bootRecord_power, m₄.bootRecord_spn, ?_, ?_, ?_, ?_⟩
  · rw [Mach.fld_congr hstatus, Mach.fld_setFld_same _ _ _ (by decide) (by decide)]; rfl
  · rw [Mach.fld_congr hstatus, Mach.fld_setFld_apart _ _ _ (by decide) (by decide) (by decide),
      Mach.fld_setFld_same _ _ _ (by decide) (by decide)]
  · rw [Mach.fld_congr (Mach.reg_bootRecord _ (by decide)), Mach.fld_congr (Mach.reg_setReg_other _ _ (by decide)),
      Mach.fld_setFld_same _ _ _ (by decide) (by decide)]
    rfl
  · rw [Mach.reg_bootRecord _ (by decide), Mach.reg_setReg_same, hb, Boot.attempted_image]

/-- The image is up: its slot is confirmed, and the watchdog stops. -/
theorem stageReady_ready (hchosen : s.mach.boot.chosen = some i) (h : s.mach.fld Reg.glbBootStatus 7 0 = 7) :
    Does .stageReady s (fun m m' =>
      m' = { m with boot := m.boot.confirmed i }.setFld Reg.glbBootStatus 7 0 8) := by
  refine does_of rfl fun n hn => ?_
  beta_reduce at hn
  simp only [if_neg (not_not_intro h), hchosen] at hn
  exact hn.symm

theorem stageReady_otherStage (h : s.mach.fld Reg.glbBootStatus 7 0 ≠ 7) :
    Does .stageReady s (fun m m' => m' = m) :=
  does_of rfl fun _ hn => hn.symm.trans (if_pos h)

/-- A boot that starts again has measured nothing. -/
theorem startBoot_measLog (m : Mach) : m.startBoot.boot.measLog = [] := by
  unfold Mach.startBoot
  extract_lets
  split
  · rfl
  · exact congrArg Boot.measLog (Mach.bootRecord_boot _)

/-- The watchdog writes off record 0x0A, and the boot starts again with count and fuses kept. -/
theorem bootWatchdog_runs (hdog : s.mach.boot.watchdog = true) (hok : s.mach.power.pwrOk = true) :
    Does .bootWatchdog s (fun m m' => m'.power.offRecs = ⟨0x0A, false⟩ :: m.power.offRecs ∧
      m'.spn.count = m.spn.count ∧ m'.boot.fuses = m.boot.fuses ∧ m'.boot.measLog = [] ∧
      (m'.fld Reg.glbBootStatus 7 0 = 2 ∨ m'.fld Reg.glbBootStatus 7 0 = 0xFF)) := by
  refine does_of rfl fun n hn => ?_
  beta_reduce at hn
  rw [if_pos (by simp [hdog, hok])] at hn
  obtain ⟨hpower, hcount, -, -, -, hfuses, -⟩ := warmReset_kept s.variant (s.mach.writeOff 0x0A)
  rw [hn] at hpower hcount hfuses
  obtain ⟨-, -, hstage⟩ := startBoot_boot hn
  refine ⟨by rw [hpower]; rfl, hcount, hfuses, hn ▸ startBoot_measLog _, ?_⟩
  rw [hstage]
  exact (Bool.eq_false_or_eq_true _).imp (fun h => if_pos h) (fun h => if_neg (by simp [h]))

/-- The fault is shown in GLB_CC_STATUS beside the cores' own state. -/
theorem rootOfTrustFault_shown : Does .rootOfTrustFault s (fun m m' =>
    m' = (m.setBit Reg.glbCcStatus 17 true).setBit Reg.glbCcStatus 16 false) := does_of rfl fun _ hn => hn.symm

end

/-- Settles O25: the release, READY, the watchdog and the fault, each by its own lemma. -/
theorem bootStages : Obligations.BootStages := by
  intro s i hchosen
  refine ⟨fun hstage hi hlen => does_mono (coresRelease_image hchosen hstage) ?_, coresRelease_otherStage hchosen,
    fun hstage => does_mono (stageReady_ready hchosen hstage) ?_, stageReady_otherStage,
    fun hdog hok => does_mono (bootWatchdog_runs hdog hok) ?_, does_mono rootOfTrustFault_shown ?_⟩
  · rintro n ⟨hboot, hpower, hspn, h7, h11, hcores, hversion⟩
    have hfuses : n.boot.fuses = s.mach.boot.fuses := by rw [hboot]; exact s.mach.boot.attempted_fuses i
    obtain ⟨hfw, -, -⟩ := Boot.fuses_eq_iff.mp hfuses
    have himage : i % 2 ^ 4 = i := Nat.mod_eq_of_lt (by omega)
    refine ⟨h7, h11.trans himage, hcores, hversion, fun hslot => ?_, ?_, ?_, ?_, ?_, hfw, hspn⟩
    · rw [hboot]; exact s.mach.boot.attempted_count hslot
    · rintro rfl
      rw [hboot]; exact ⟨rfl, rfl⟩
    · rw [hboot, Mach.measSeq_measureBoot, Boot.attempted_measSeq]
    · have hmeas := s.mach.boot.attempted_meas i
      rw [hboot, Mach.meas_measureBoot _ _ _ (by dsimp only; rw [hmeas, hlen]; decide), hmeas,
        Boot.romMeasured_congr (s.mach.boot.attempted_fuses i)]
      rfl
    · rw [hpower]
  · rintro n rfl
    refine ⟨Mach.fld_setFld_same _ _ _ (by decide) (by decide), rfl, fun hslot => ?_, ?_, rfl, rfl⟩
    · simp [s.mach.boot.confirmed_slot hslot]
    · exact (s.mach.boot.confirmed_chosen i).trans hchosen
  · rintro n ⟨hoff, hcount, hfuses, hlog, hstage⟩
    obtain ⟨hfw, -, hrev⟩ := Boot.fuses_eq_iff.mp hfuses
    exact ⟨hoff, hcount, hfw, hrev, hlog, hstage⟩
  · rintro n rfl
    refine ⟨?_, Mach.bit_setBit_same _ _ _ (by decide), ?_, rfl⟩
    · rw [Mach.bit_setBit_apart _ _ _ (by decide) (by decide), Mach.bit_setBit_same _ _ _ (by decide)]
    · rw [Mach.fld_setBit_apart _ _ _ (by decide) (by decide), Mach.fld_setBit_apart _ _ _ (by decide) (by decide)]

end Sys2Proof.Machine
end

section
/-!
SUPPORT. NVMe commands that are served, and what their completions change (14_host_ports_and_command_queues.md R502,
R508).
-/
namespace Sys2Proof.Machine

/-- A served command is done. -/
theorem Mach.nvmeServe_served {m : Mach} {n : NvmeCtx} {k : NvmeKind} (h : Served m n k) (f : Mach → Mach) :
    m.nvmeServe n k f = f m := by
  obtain ⟨hrdy, hqueue, hstop⟩ := h
  rw [Mach.nvmeServe, if_pos (by rw [hrdy, hqueue]; rfl), hstop]

/-- A served command is done where the machine that it leaves is as described. -/
theorem does_served {c : Instr} {s : State} {n : NvmeCtx} {k : NvmeKind} {f : Mach → Mach}
    {r : Mach → Mach → Prop} (hs : Served s.mach n k) (h : exec c s = .next { s with mach := s.mach.nvmeServe n k f })
    (hr : ∀ m', f s.mach = m' → r s.mach m') : Does c s r :=
  does_of h fun m' hm => hr m' ((Mach.nvmeServe_served hs f).symm.trans hm)

/-- A completion is what is sent. -/
@[simp] theorem Mach.nvmePost_out (m : Mach) (n : NvmeCtx) (sct sc dw1 : Nat) (data : List Byte) :
    (m.nvmePost n sct sc dw1 data).out = m.out ++ [completion n sct sc dw1 data] := by
  simp only [Mach.nvmePost]
  split
  · rfl
  · exact congrArg (· ++ _) (Mach.setCtl_out _ _ _)
@[simp] theorem Mach.nvmeStd_out (m : Mach) (n : NvmeCtx) (sct sc : Nat) :
    (m.nvmeStd n sct sc).out = m.out ++ [completion n sct sc 0 []] := m.nvmePost_out n sct sc 0 []
theorem Mach.nvmeDone_ok (m : Mach) (n : NvmeCtx) (data : List Byte) :
    m.nvmeDone n St.ok data = m.send (completion n 0 0 0 data) := rfl

/-- A command ends with one completion, no register written and nothing recorded. -/
def Completes (n : NvmeCtx) (sct sc : Nat) (m m' : Mach) : Prop :=
  m'.out = m.out ++ [completion n sct sc 0 []] ∧ m'.regs = m.regs ∧ m'.evr = m.evr

/-- A refusal keeps the boot state. -/
theorem completes_nvmeStd (m : Mach) (n : NvmeCtx) (sct sc : Nat) :
    Completes n sct sc m (m.nvmeStd n sct sc) ∧ (m.nvmeStd n sct sc).boot = m.boot :=
  ⟨⟨m.nvmeStd_out n sct sc, m.nvmeStd_regs n sct sc, m.nvmeStd_evr n sct sc⟩, m.nvmeStd_boot n sct sc⟩

/-- Success after a change of the boot state alone. -/
theorem completes_boot (m : Mach) (n : NvmeCtx) (b : Boot) :
    Completes n 0 0 m (({ m with boot := b }).nvmeDone n St.ok []) ∧
      (({ m with boot := b }).nvmeDone n St.ok []).boot = b := ⟨⟨rfl, rfl, rfl⟩, rfl⟩

/-- ST_INVALID_FIELD keeps the boot state. -/
theorem nvmeDone_invalidField (m : Mach) (n : NvmeCtx) : (m.nvmeDone n St.invalidField []).boot = m.boot ∧
    (m.nvmeDone n St.invalidField []).out = m.out ++ [completion n 0 2 St.invalidField []] :=
  ⟨m.nvmeDone_boot n _ [], m.nvmePost_out n 0 2 St.invalidField []⟩

end Sys2Proof.Machine
end

section
/-!
SUPPORT. Firmware download, commit and live update (03_startup_and_trust.md R94 to R98, R112 to R115).
-/
namespace Sys2Proof.Machine

/-! ### Download and commit, with no live update in progress -/

section
variable {s : State} {n : NvmeCtx} {slot : Fin 4} {action : Fin 8} {image : List Byte}
  (hs : Served s.mach n ⟨true, true, false, false⟩) (hlive : s.mach.boot.live = none)
include hs hlive

theorem firmwareImageDownload_noSlot (h : slot.val = 0) : Does (.firmwareImageDownload n slot image) s (fun m m' =>
    Completes n 1 6 m m' ∧ m'.boot = m.boot) := by
  refine does_served hs rfl fun m' hm => ?_
  simp only [hlive, if_pos h] at hm
  exact hm ▸ completes_nvmeStd _ _ _ _

/-- An image for slot 1 or 2 is stored PENDING with count 0. -/
theorem firmwareImageDownload_slot (h0 : slot.val ≠ 0) (h3 : slot.val ≠ 3) (htyp : leAt image 6 2 ≠ 2) :
    Does (.firmwareImageDownload n slot image) s (fun m m' => Completes n 0 0 m m' ∧
      m'.boot = m.boot.setSlot (slot.val - 1) ⟨.pending, 0, .bytes image⟩) := by
  refine does_served hs rfl fun m' hm => ?_
  simp only [hlive, if_neg h0, if_pos (propext (iff_of_false htyp h3))] at hm
  rw [← hm, Mach.storeImage, if_neg h3]
  exact completes_boot _ _ _

/-- An image of Tool rest is stored in its area. -/
theorem firmwareImageDownload_toolRest (h : slot.val = 3) (htyp : leAt image 6 2 = 2) :
    Does (.firmwareImageDownload n slot image) s (fun m m' => Completes n 0 0 m m' ∧
      m'.boot = { m.boot with toolRest := .bytes image }) := by
  have h0 : slot.val ≠ 0 := by omega
  refine does_served hs rfl fun m' hm => ?_
  simp only [hlive, if_neg h0, if_pos (propext (iff_of_true htyp h))] at hm
  rw [← hm, Mach.storeImage, if_pos h]
  exact completes_boot _ _ _

theorem firmwareImageDownload_wrongType (h : slot.val ≠ 0) (htyp : ¬ (leAt image 6 2 = 2 ↔ slot.val = 3)) :
    Does (.firmwareImageDownload n slot image) s (fun m m' => Completes n 1 7 m m' ∧ m'.boot = m.boot) := by
  refine does_served hs rfl fun m' hm => ?_
  simp only [hlive, if_neg h, if_neg (mt iff_of_eq htyp)] at hm
  exact hm ▸ completes_nvmeStd _ _ _ _

/-- A commit of an image that fails its checks. -/
theorem firmwareCommit_invalid (h : slot.val ≠ 0) (hcheck : imageCheck s.mach.boot
    (if slot.val - 1 = 2 then 2 else 1) (s.mach.boot.image (slot.val - 1)) ≠ none) :
    Does (.firmwareCommit n slot action) s (fun m m' => Completes n 1 7 m m' ∧ m'.boot = m.boot) := by
  obtain ⟨e, he⟩ := Option.ne_none_iff_exists'.mp hcheck
  refine does_served hs rfl fun m' hm => ?_
  simp only [hlive, if_neg h, he] at hm
  exact hm ▸ completes_nvmeStd _ _ _ _

section
variable (h : slot.val ≠ 0) (hcheck : imageCheck s.mach.boot
    (if slot.val - 1 = 2 then 2 else 1) (s.mach.boot.image (slot.val - 1)) = none)
include h hcheck

/-- A commit of a valid image for the next boot. -/
theorem firmwareCommit_valid (haction : action.val ≠ 3) :
    Does (.firmwareCommit n slot action) s (fun m m' => Completes n 0 0 m m' ∧ m'.boot = m.boot) := by
  refine does_served hs rfl fun m' hm => ?_
  simp only [hlive, if_neg h, hcheck, if_pos haction] at hm
  exact hm ▸ completes_boot _ _ _

/-- A commit that starts a live update, from core 7 down. -/
theorem firmwareCommit_live {r : Nat} (hslot : slot.val ≠ 3) (hchosen : s.mach.boot.chosen = some r) (hr : r < 2)
    (hcompat : (s.mach.boot.image (slot.val - 1)).liveCompat = (s.mach.boot.image r).liveCompat) :
    Does (.firmwareCommit n slot 3) s (fun m m' => m' = { m with boot :=
      { m.boot with live := some ⟨slot.val - 1, 7, [], n.port.val, n.cid.toNat⟩ } }) := by
  have hboth : (slot.val - 1 = 2 || r = 2 ||
      (s.mach.boot.image (slot.val - 1)).liveCompat ≠ (s.mach.boot.image r).liveCompat) = false := by
    simp [hcompat]; omega
  refine does_served hs rfl fun m' hm => ?_
  simp only [hlive, if_neg h, hcheck, hchosen, hboth] at hm
  rw [if_neg (by decide), if_neg (by decide), if_neg (by decide)] at hm
  rw [← hm, ← hchosen]

end
end

/-! ### The cores of a live update -/

@[simp] theorem Mach.fwUpdateRecord_boot (m : Mach) (core old new failing : Nat) :
    (m.fwUpdateRecord core old new failing).boot = m.boot := by simp [Mach.fwUpdateRecord]
@[simp] theorem Mach.reg_fwUpdateRecord (m : Mach) (core old new failing : Nat) {o : Nat} (h : o ≠ Reg.evrStatus) :
    (m.fwUpdateRecord core old new failing).reg o = m.reg o := Mach.reg_record _ _ _ _ _ h

section
variable {s : State} {l : LiveUpdate} (hlive : s.mach.boot.live = some l)
include hlive

/-- A core that passes, and the next takes its turn. -/
theorem liveUpdateCore_next (h : l.core ≠ 0) : Does (.liveUpdateCore true) s (fun m m' =>
    m'.boot.live = some { l with core := l.core - 1, updated := l.core :: l.updated } ∧ m'.out = m.out ∧
    m'.regs = m.regs ∧ m'.boot.chosen = m.boot.chosen ∧ m'.boot.measSeq = (m.boot.measSeq + 1) % 2 ^ 32) := by
  refine does_of rfl fun m' hm => ?_
  simp only [hlive, if_neg h, Bool.not_true, Bool.false_eq_true, if_false] at hm
  subst hm
  exact ⟨rfl, rfl, rfl, rfl, rfl⟩

/-- Core 0 passes: the new image runs, and its commit completes. -/
theorem liveUpdateCore_last (h : l.core = 0) : Does (.liveUpdateCore true) s (fun m m' =>
    m'.boot.live = none ∧ m'.boot.chosen = some l.slot ∧
    m'.boot.slot l.slot = { m.boot.slot l.slot with state := .confirmed, count := 0 } ∧
    m'.reg Reg.glbFwVersion = BitVec.ofNat 64 (m.boot.image l.slot).version ∧
    ∃ o, m'.out = o ++ [completion ⟨if l.port = 0 then 0 else 1, 0, BitVec.ofNat 16 l.cid⟩ 0 0 0 []]) := by
  refine does_of rfl fun m' hm => ?_
  simp only [hlive, if_pos h, Bool.not_true, Bool.false_eq_true, if_false, Mach.nvmeDone_ok] at hm
  subst hm
  have hboot (k : Mach) := k.fwUpdateRecord_boot 0 (s.mach.reg Reg.glbFwVersion).toNat
    (s.mach.boot.image l.slot).version 0xFF
  refine ⟨congrArg Boot.live (hboot _), congrArg Boot.chosen (hboot _), ?_, ?_, _, rfl⟩
  · exact (congrArg (Boot.slot · l.slot) (hboot _)).trans (Boot.slot_setSlot_same _ _ _)
  · exact (Mach.reg_fwUpdateRecord _ _ _ _ _ (by decide)).trans
      ((Mach.reg_setFld_other _ _ _ _ (by decide)).trans (Mach.reg_setReg_same _ _ _))

/-- A core that fails: the update ends, and the slot is FAILED. -/
theorem liveUpdateCore_fails : Does (.liveUpdateCore false) s (fun m m' =>
    m'.boot.live = none ∧ m'.boot.chosen = m.boot.chosen ∧
    m'.boot.slot l.slot = { m.boot.slot l.slot with state := .failed } ∧
    m'.reg Reg.glbFwVersion = m.reg Reg.glbFwVersion) := by
  refine does_of rfl fun m' hm => ?_
  simp only [hlive, Bool.not_false, if_true] at hm
  subst hm
  have hboot (k : Mach) (n : NvmeCtx) := (Mach.nvmeStd_boot _ n 1 0x13).trans
    (k.fwUpdateRecord_boot l.core (s.mach.reg Reg.glbFwVersion).toNat (s.mach.boot.image l.slot).version l.core)
  refine ⟨congrArg Boot.live (hboot _ _), ?_, ?_, ?_⟩
  · exact (congrArg Boot.chosen (hboot _ _)).trans (Boot.setSlot_chosen _ _ _)
  · exact (congrArg (Boot.slot · l.slot) (hboot _ _)).trans (Boot.slot_setSlot_same _ _ _)
  · exact (Mach.reg_congr (Mach.nvmeStd_regs _ _ _ _) _).trans (Mach.reg_fwUpdateRecord _ _ _ _ _ (by decide))

end

end Sys2Proof.Machine
end

section
/-!
SUPPORT. Nonces, reports and the protocol list (03_startup_and_trust.md R109 to R111;
14_host_ports_and_command_queues.md R502).
-/
namespace Sys2Proof.Machine

/-- A nonce is set for its own port alone. -/
theorem Boot.nonce_setNonce (b : Boot) (p q : Nat) (x : Option (List Byte)) :
    (b.setNonce p x).nonce q = if (q = 0 ↔ p = 0) then x else b.nonce q := by
  unfold Boot.nonce Boot.setNonce
  by_cases hp : p = 0 <;> by_cases hq : q = 0 <;> simp [hp, hq]
@[simp] theorem Boot.setNonce_meas (b : Boot) (p : Nat) (x) : (b.setNonce p x).meas = b.meas := by
  unfold Boot.setNonce; split <;> rfl
@[simp] theorem Boot.setNonce_measSeq (b : Boot) (p : Nat) (x) : (b.setNonce p x).measSeq = b.measSeq := by
  unfold Boot.setNonce; split <;> rfl

section
variable {s : State} {n : NvmeCtx} {data x : List Byte} {alloc : Nat}
  (hs : Served s.mach n ⟨false, true, false, false⟩)
include hs

/-- A nonce is measured and kept for its port. -/
theorem securitySend_nonce (h : data.length = 32) :
    Does (.securitySend n data) s (fun m m' => m'.boot.nonce n.port.val = some data ∧
      m'.boot.nonce (1 - n.port.val) = m.boot.nonce (1 - n.port.val) ∧
      m'.boot.measSeq = (m.boot.measSeq + 1) % 2 ^ 32 ∧ m'.boot.meas = (m.measureData 7 data).boot.meas ∧
      m'.out = m.out ++ [completion n 0 0 0 []] ∧ m'.regs = m.regs) := by
  refine does_served hs rfl fun m' hm => ?_
  rw [if_pos h] at hm
  subst hm
  refine ⟨?_, ?_, ?_, Boot.setNonce_meas _ _ _, rfl, rfl⟩
  · exact (Boot.nonce_setNonce _ _ _ _).trans (if_pos Iff.rfl)
  · exact (Boot.nonce_setNonce _ _ _ _).trans (if_neg (by omega))
  · exact (Boot.setNonce_measSeq _ _ _).trans (Mach.measureData_measSeq _ _)

theorem securitySend_otherLength (h : data.length ≠ 32) : Does (.securitySend n data) s (fun m m' =>
    m'.boot = m.boot ∧ m'.out = m.out ++ [completion n 0 2 St.invalidField []]) := by
  refine does_served hs rfl fun m' hm => ?_
  rw [if_neg h] at hm
  exact hm ▸ nvmeDone_invalidField _ _

/-- The report with the nonce that waits. -/
theorem securityReceive_report (h : s.mach.boot.nonce n.port.val = some x)
    (hrot : s.mach.bit Reg.glbCcStatus 17 = false) : Does (.securityReceive n alloc) s (fun m m' =>
      m' = ({ m with boot := m.boot.setNonce n.port.val none }).send
        (completion n 0 0 0 ((m.attestation (capWords s.variant) x).take alloc))) := by
  refine does_served hs rfl fun m' hm => ?_
  simp only [h, hrot, Bool.false_eq_true, if_false] at hm
  exact hm.symm

theorem securityReceive_noNonce (h : s.mach.boot.nonce n.port.val = none) :
    Does (.securityReceive n alloc) s (fun m m' => m'.boot = m.boot ∧
      m'.out = m.out ++ [completion n 0 2 St.invalidField []]) := by
  refine does_served hs rfl fun m' hm => ?_
  simp only [h] at hm
  exact hm ▸ nvmeDone_invalidField _ _

theorem securityProtocolList_listed : Does (.securityProtocolList n) s (fun m m' =>
    m' = m.send (completion n 0 0 0 protocolList)) :=
  does_served hs rfl fun _ hm => hm.symm

end

/-- Settles O26: download and commit, live update, and attestation, each command by its own lemmas. -/
theorem firmwareAndAttestation : Obligations.FirmwareAndAttestation := by
  refine ⟨fun s n slot action image l r => ⟨fun hs hlive => ?_, fun hlive => ?_⟩, fun s n data x alloc hs => ?_⟩
  · have hplace : (if slot = 3 then 2 else 1) = if slot.val - 1 = 2 then 2 else 1 := by decide +revert
    refine ⟨fun h htyp => firmwareImageDownload_slot hs hlive (by omega) (by omega) htyp,
      fun h htyp => firmwareImageDownload_toolRest hs hlive (by omega) htyp,
      fun h => firmwareImageDownload_noSlot hs hlive (by omega),
      fun htyp h => firmwareImageDownload_wrongType hs hlive (by omega) fun e => htyp (propext (by omega)),
      fun h hcheck => firmwareCommit_invalid hs hlive (by omega) (hplace ▸ hcheck),
      fun h hcheck haction => firmwareCommit_valid hs hlive (by omega) (hplace ▸ hcheck) (by omega),
      fun h hcheck hchosen hr hcompat => firmwareCommit_live hs hlive (by omega) ?_ (by omega) hchosen hr hcompat⟩
    rwa [if_neg (by omega)]
  · refine ⟨liveUpdateCore_next hlive, fun h _ => does_mono (liveUpdateCore_last hlive h) ?_,
      fun _ => does_mono (liveUpdateCore_fails hlive) ?_⟩
    · rintro m' ⟨hl, hc, hslot, hversion, o, ho⟩
      have hport : (if l.port = 0 then (0 : Port) else 1).val = if l.port = 0 then 0 else 1 := by split <;> rfl
      refine ⟨hl, hc, congrArg Slot.state hslot, congrArg Slot.count hslot, hversion, ?_⟩
      rw [ho, List.getLast?_concat, completion, hport]
      rfl
    · rintro m' ⟨hl, hc, hslot, hversion⟩
      exact ⟨hl, hc, congrArg Slot.state hslot, hversion⟩
  · refine ⟨fun hdata hlen => does_mono (securitySend_nonce hs hdata) ?_, securitySend_otherLength hs,
      securityReceive_report hs, securityReceive_noNonce hs, securityProtocolList_listed hs⟩
    rintro m' ⟨hnonce, hother, hseq, hmeas, hout, hregs⟩
    rw [hmeas]
    exact ⟨hnonce, hother, hseq, Mach.meas_measureData_same _ _ (by omega),
      fun _ hi => Mach.meas_measureData_other _ _ hi, hout, hregs⟩

end Sys2Proof.Machine
end

section
/-!
SUPPORT. GQ, AQ and DQ on their engine's queue: the head that starts, the head that waits, the descriptor put behind it,
and the full queue that holds the scalar core (04_tiles_clusters_regions.md R121 to R125;
05_falesk_instruction_set.md R200).
-/
namespace Sys2Proof.Machine

/-! ### The head of an engine's queue (04 R125) -/

@[simp] theorem Tile.waiting_advance (x : Tile) (n : Nat) (k : EngNo) : (x.advance n).waiting k = x.waiting k := rfl

@[simp] theorem Tile.engQ_advance (x : Tile) (n : Nat) (e : EngId) : (x.advance n).engQ e = x.engQ e := by cases e <;> rfl

theorem Tile.setEngQ_advance (x : Tile) (n : Nat) (e : EngId) (q : EngineQ) :
    (x.setEngQ e q).advance n = (x.advance n).setEngQ e q := by cases e <;> rfl

/-- Waits and counts stand apart from the queues. -/
theorem Tile.beginWait_setEngQ (x : Tile) (e : EngId) (q : EngineQ) {n : EngNo} {k : SyncId} (h : x.sync[k] = 0) :
    (x.setEngQ e q).beginWait n k =
      (({ x with waits := x.waits ++ [⟨n, k, false⟩] } : Tile).setEngQ e q, false) := by
  cases e <;> simp [Tile.beginWait, Tile.count, Tile.setEngQ, h]

section
variable {x : Tile} {e : EngId}

theorem Tile.startHead_nil (h : (x.engQ e).q = []) : x.startHead e = x := by simp [Tile.startHead, h]

/-- An engine that waits starts nothing. -/
theorem Tile.startHead_waiting (h : x.waiting e.no = true) : x.startHead e = x := by
  simp only [Tile.startHead, h, Bool.or_true, if_true]
  split <;> rfl

variable {d : List Byte} {r : List (List Byte)}

/-- A head that waits for nothing starts. -/
theorem Tile.startHead_starts (hw : x.waiting e.no = false) (hd : descWaitEn d = false) :
    (x.setEngQ e ⟨d :: r, false⟩).startHead e = x.setEngQ e ⟨d :: r, true⟩ := by
  simp [Tile.startHead, hw, hd]

/-- A head whose object has no count begins to wait. -/
theorem Tile.startHead_waits (hw : x.waiting e.no = false) (hd : descWaitEn d = true) (hk : x.sync[descWaitObj d] = 0) :
    (x.setEngQ e ⟨d :: r, false⟩).startHead e =
      ({ x with waits := x.waits ++ [⟨e.no, descWaitObj d, false⟩] } : Tile).setEngQ e ⟨d :: r, false⟩ := by
  simp [Tile.startHead, hw, hd, Tile.beginWait_setEngQ x e _ hk]

end

/-! ### Enqueueing (05 R200) -/

/-- An instruction whose issue replaces its tile does nothing else. -/
theorem does_onTile {c : Instr} {s : State} {t : TileId} {i : Tile → TInstr} {y : Tile} (hc : exec c s = onTile t i s)
    (h : s.mach.tileInstr s.variant t.val i = s.mach.setTile t.val y) : Does c s (OnlyTile t.val y) :=
  ⟨_, by rw [hc, onTile, act, h], onlyTile_setTile _ _ _⟩

section
variable {c : Instr} {s : State} {t : TileId} {e : EngId} {vs : VReg}
  (hc : exec c s = onTile t (fun _ => .enq e vs) s) (hready : ScalarReady s.mach t.val 4)
include hc hready

/-- A full queue holds the scalar core (04 R123). -/
theorem enq_full (hfull : e.depth ≤ ((s.mach.tile t.val).engQ e).q.length) :
    Does c s (OnlyTile t.val { s.mach.tile t.val with stalled := some (.enq e vs) }) := by
  obtain ⟨hfree, hpc⟩ := hready
  exact does_onTile hc (by simp [Mach.tileInstr, Mach.issue, hfree, TInstr.size, hpc, Tile.mustStall, hfull])

/-- With room, the bytes of vs go to the end of the queue and PC moves on; then the head may start, and it is all that
happens when it has not started or is of a known operation. -/
theorem enq_room (hvq : (s.mach.tile t.val).vq = []) (hroom : ((s.mach.tile t.val).engQ e).q.length < e.depth) {y : Tile}
    (hy : (((s.mach.tile t.val).advance 4).setEngQ e ⟨((s.mach.tile t.val).engQ e).q ++
      [vecBytes ((s.mach.tile t.val).vr vs)], ((s.mach.tile t.val).engQ e).started⟩).startHead e = y)
    (hknown : (y.engQ e).started = true → ∀ (d : List Byte) (r : List (List Byte)), (y.engQ e).q = d :: r →
      descKnownOp e d = true) : Does c s (OnlyTile t.val y) := by
  have hgo : (s.mach.tile t.val).mustStall (.enq e vs) = false := by
    simpa [Tile.mustStall, hvq] using hroom
  refine does_onTile hc ?_
  rw [Mach.tileInstr_ready (i := fun _ => .enq e vs) hready hgo]
  simp only [Mach.issueNow, TInstr.size, Tile.setEngQ_advance]
  rw [Mach.settle_stop (x := y) (by rw [Mach.tile_setTile_same, hy]) (fun d r hq hs => hknown hs d r hq),
    Mach.setTile_setTile]

variable (hvq : (s.mach.tile t.val).vq = [])
include hvq

theorem enq_starts (hq : (s.mach.tile t.val).engQ e = ⟨[], false⟩) (hw : (s.mach.tile t.val).waiting e.no = false)
    (hknown : descKnownOp e (vecBytes ((s.mach.tile t.val).vr vs)) = true)
    (hwait : descWaitEn (vecBytes ((s.mach.tile t.val).vr vs)) = false) :
    Does c s (OnlyTile t.val (((s.mach.tile t.val).advance 4).setEngQ e
      ⟨[vecBytes ((s.mach.tile t.val).vr vs)], true⟩)) := by
  refine enq_room hc hready hvq (by rw [hq]; cases e <;> decide) (by rw [hq]; exact Tile.startHead_starts hw hwait) ?_
  intro _ d r hd
  rw [Tile.engQ_setEngQ, List.cons.injEq] at hd
  exact hd.1 ▸ hknown

theorem enq_waits (hq : (s.mach.tile t.val).engQ e = ⟨[], false⟩) (hw : (s.mach.tile t.val).waiting e.no = false)
    (hwait : descWaitEn (vecBytes ((s.mach.tile t.val).vr vs)) = true)
    (hcount : (s.mach.tile t.val).sync[descWaitObj (vecBytes ((s.mach.tile t.val).vr vs))] = 0) :
    Does c s (OnlyTile t.val (({ (s.mach.tile t.val).advance 4 with waits := (s.mach.tile t.val).waits ++
      [⟨e.no, descWaitObj (vecBytes ((s.mach.tile t.val).vr vs)), false⟩] } : Tile).setEngQ e
        ⟨[vecBytes ((s.mach.tile t.val).vr vs)], false⟩)) :=
  enq_room hc hready hvq (by rw [hq]; cases e <;> decide) (by rw [hq]; exact Tile.startHead_waits hw hwait hcount)
    (by rw [Tile.engQ_setEngQ]; exact nofun)

theorem enq_appended (hidle : ((s.mach.tile t.val).engQ e).started = false)
    (hroom : ((s.mach.tile t.val).engQ e).q.length < e.depth) (hw : (s.mach.tile t.val).waiting e.no = true) :
    Does c s (OnlyTile t.val (((s.mach.tile t.val).advance 4).setEngQ e
      ⟨((s.mach.tile t.val).engQ e).q ++ [vecBytes ((s.mach.tile t.val).vr vs)], false⟩)) :=
  enq_room hc hready hvq hroom (by rw [hidle]; exact Tile.startHead_waiting (by simpa using hw))
    (by rw [Tile.engQ_setEngQ]; exact nofun)

end

/-- Settles O15: each of the three instructions enqueues to its own engine, by the lemmas on the queue's head. -/
theorem descriptorQueues : Obligations.DescriptorQueues := by
  intro s t vs hready hvq x d queue
  have each (c : Instr) (e : EngId) (hc : exec c s = onTile t (fun _ => .enq e vs) s) : queue c e :=
    ⟨enq_starts hc hready hvq, enq_waits hc hready hvq, fun _ => enq_appended hc hready hvq, enq_full hc hready⟩
  exact ⟨each _ _ rfl, each _ _ rfl, each _ _ rfl⟩

end Sys2Proof.Machine
end

section
/-!
SUPPORT. What the operations of descriptors leave alone on their tile: the engines' queues, the sync objects with their
waits, the instruction held back, and fence audit (04_tiles_clusters_regions.md R124; 05_falesk_instruction_set.md R202,
R203).
-/
namespace Sys2Proof.Machine

/-- What the completion of a descriptor reads of its tile besides the SRAM. -/
structure Flow where
  gq : EngineQ
  aq : EngineQ
  dq : EngineQ
  sync : Vector Nat 16
  waits : List WaitRec
  stalled : Option TInstr

def Tile.flow (x : Tile) : Flow := ⟨x.gq, x.aq, x.dq, x.sync, x.waits, x.stalled⟩

/-- The same of a tile of a machine, with its audit mode. -/
def Mach.flow (m : Mach) (t : Nat) : Flow × Bool := ((m.tile t).flow, m.bit (Reg.tileAudit t) 16)

theorem Tile.flow_eq_iff {x y : Tile} : x.flow = y.flow ↔
    x.gq = y.gq ∧ x.aq = y.aq ∧ x.dq = y.dq ∧ x.sync = y.sync ∧ x.waits = y.waits ∧ x.stalled = y.stalled := by
  simp [Tile.flow]

theorem flow_eq_iff {m n : Mach} {t : Nat} : n.flow t = m.flow t ↔
    (n.tile t).flow = (m.tile t).flow ∧ n.bit (Reg.tileAudit t) 16 = m.bit (Reg.tileAudit t) 16 :=
  Prod.mk_inj

theorem Tile.engQ_of_flow {x y : Tile} (h : x.flow = y.flow) (e : EngId) : x.engQ e = y.engQ e := by
  obtain ⟨hg, ha, hd, -⟩ := Tile.flow_eq_iff.mp h
  cases e
  · exact hg
  · exact ha
  · exact hd

section
variable {m : Mach} {t : Nat}

theorem flow_congr {n : Mach} (htl : n.tl = m.tl) (hreg : n.reg (Reg.tileAudit t) = m.reg (Reg.tileAudit t)) :
    n.flow t = m.flow t := flow_eq_iff.mpr ⟨by rw [Mach.tile_congr htl], Mach.bit_congr hreg _⟩

/-- A tile replaced by one of the same flow. -/
theorem flow_editTile {k : Nat} {x : Tile} (hx : x.flow = (m.tile k).flow := by rfl) : (m.setTile k x).flow t = m.flow t := by
  refine flow_eq_iff.mpr ⟨?_, rfl⟩
  rw [Mach.tile_setTile]
  split
  next h => exact h ▸ hx
  next => rfl

theorem flow_addFld {off : Nat} (hi lo n : Nat) (h : Reg.tileAudit t ≠ off) : (m.addFld off hi lo n).flow t = m.flow t :=
  flow_congr rfl (Mach.reg_setFld_other _ _ _ _ h)

/-! #### Writes of job code -/

@[simp] theorem flow_putLoc (l : Loc) (b : Byte) : (m.putLoc l b).flow t = m.flow t := by
  cases l with
  | tile k off => exact flow_editTile
  | _ => rfl

@[simp] theorem flow_written (a n : Nat) : (m.written a n).flow t = m.flow t := rfl

@[simp] theorem flow_jobWrite (v : Variant) (k a : Nat) (bs : List Byte) : (m.jobWrite v k a bs).flow t = m.flow t := by
  induction bs generalizing m a with
  | nil => rfl
  | cons b r ih =>
    rw [Mach.jobWrite, ih]
    generalize locOf v (some k) a = l
    split_ifs
    · exact flow_editTile
    · exact flow_putLoc _ _

@[simp] theorem flow_descWrite (v : Variant) (k a : Nat) (bs : List Byte) : (m.descWrite v k a bs).flow t = m.flow t := by
  simp [Mach.descWrite]

/-! #### Gouge

Every branch of an operation fails with the machine as it was, or writes bytes. -/

@[simp] theorem flow_stepStream (v : Variant) (k : Nat) (a : Automaton) (rec : Nat) :
    (stepStream v m k a rec).1.flow t = m.flow t := by
  unfold stepStream
  extract_lets r src len blk st st' b o m₁
  split_ifs
  · simp
  · simp [m₁]

@[simp] theorem flow_stepStreams (v : Variant) (k : Nat) (a : Automaton) (l : List Nat) :
    (stepStreams v k a l m).1.flow t = m.flow t := by
  induction l generalizing m with
  | nil => rfl
  | cons rec r ih => rw [stepStreams]; simp [ih]

@[simp] theorem flow_failWith (st : Nat) : (failWith m st).m.flow t = m.flow t := rfl

variable (v : Variant) (d : List Byte)

theorem flow_gougeHash : (gougeHash v m t d).m.flow t = m.flow t := by
  unfold gougeHash; dsimp only
  (repeat' split) <;> simp
theorem flow_gougeLookup : (gougeLookup v m t d).m.flow t = m.flow t := by
  unfold gougeLookup; dsimp only
  (repeat' split) <;> simp
theorem flow_gougeLzexec : (gougeLzexec v m t d).m.flow t = m.flow t := by
  unfold gougeLzexec; dsimp only
  (repeat' split) <;> simp
theorem flow_gougeHuff : (gougeHuff v m t d).m.flow t = m.flow t := by
  unfold gougeHuff; dsimp only
  (repeat' split) <;> simp
theorem flow_gougeTans : (gougeTans v m t d).m.flow t = m.flow t := by
  unfold gougeTans; dsimp only
  (repeat' split) <;> simp
theorem flow_gougeStep : (gougeStep v m t d).m.flow t = m.flow t := by
  unfold gougeStep; dsimp only
  (repeat' split) <;> simp

/-! #### DMA -/

@[simp] theorem flow_cntAdd : (m.cntAdd v t d).flow t = m.flow t := by
  unfold Mach.cntAdd; dsimp only
  split_ifs
  · rfl
  · exact flow_descWrite ..
  · exact flow_editTile
  · rfl

theorem flow_foldl_descWrite (l : List (Nat × List Byte)) :
    (l.foldl (fun m p => m.descWrite v t p.1 p.2) m).flow t = m.flow t :=
  foldl_keeps (fun m => m.flow t) (fun _ _ => flow_descWrite ..) l m

theorem flow_dmaRun (fields : List (Nat × Nat)) (bad : Bool) (f : Nat × List (Nat × List Byte)) :
    (dmaRun v m t d fields bad f).m.flow t = m.flow t := by
  unfold dmaRun; dsimp only
  split_ifs
  · rfl
  · rfl
  · exact flow_cntAdd v d
  · rw [flow_cntAdd, flow_addFld _ _ _ (by simp [Reg.tileAudit, Reg.tilePerfDmaBytes]), flow_foldl_descWrite]

theorem flow_dmaCopy : (dmaCopy v m t d).m.flow t = m.flow t := flow_dmaRun v d _ _ _
theorem flow_dmaFill : (dmaFill v m t d).m.flow t = m.flow t := flow_dmaRun v d _ _ _
theorem flow_dmaCopy2d : (dmaCopy2d v m t d).m.flow t = m.flow t := flow_dmaRun v d _ _ _
theorem flow_dmaCount : (dmaCount v m t d).m.flow t = m.flow t := flow_dmaRun v d _ _ _

/-! #### AES-GCM -/

@[simp] theorem flow_countDenied (st : Nat) : (m.countDenied st).flow t = m.flow t := by
  unfold Mach.countDenied
  split
  · exact flow_addFld _ _ _ (by simp only [Reg.tileAudit, Reg.secDenied]; omega)
  · rfl

@[simp] theorem flow_countSeal (k : KeyRec) : (m.countSeal k).flow t = m.flow t := by
  unfold Mach.countSeal; dsimp only
  split
  · exact flow_congr (Mach.record_tl ..) (Mach.reg_record _ _ _ _ _ (by simp only [Reg.tileAudit, Reg.evrStatus]; omega))
  · rfl

theorem flow_aesRun (srcN dstN : Nat) (mayUse : KeyRec → Bool) {f : Mach → KeyRec → DescOut}
    (hf : ∀ m k, (f m k).m.flow t = m.flow t) : (aesRun v m t d srcN dstN f mayUse).m.flow t = m.flow t := by
  unfold aesRun; dsimp only
  (repeat' split)
  · rfl
  · exact flow_countDenied _
  · exact flow_countDenied _
  · rfl
  · rw [hf, flow_editTile]

theorem flow_aesDecrypt : (aesDecrypt v m t d).m.flow t = m.flow t := by
  unfold aesDecrypt
  refine flow_aesRun v d _ _ _ fun m k => ?_
  dsimp only
  split <;> simp

theorem flow_aesEncrypt : (aesEncrypt v m t d).m.flow t = m.flow t := by
  unfold aesEncrypt
  exact flow_aesRun v d _ _ _ fun m k => by simp

end
end Sys2Proof.Machine
end

section
/-!
SUPPORT. Little-endian numbers read back from a memory, and job code's writes to its own tile's SRAM (00_scope.md R9;
01_architecture.md R44, R45).
-/
namespace Sys2Proof

@[simp] theorem length_leBytes (n x : Nat) : (leBytes n x).length = n := by
  induction n generalizing x with
  | zero => rfl
  | succ n ih => simp [leBytes, ih]

theorem ofLe_leBytes (n x : Nat) : ofLe (leBytes n x) = x % 256 ^ n := by
  induction n generalizing x with
  | zero => simp [leBytes, ofLe, Nat.mod_one]
  | succ n ih => rw [Nat.pow_succ', Nat.mod_mul, leBytes, ofLe, ih, BitVec.toNat_ofNat]

/-- What is read back from the middle of what was written. -/
theorem memRead_memWrite (m : Memory) (a : Nat) (l b r : List Byte) :
    memRead (memWrite m a (l ++ b ++ r)) (a + l.length) b.length = b := by
  refine List.ext_getElem (by simp [memRead]) fun i _ hi => ?_
  have hin : a ≤ a + l.length + i ∧ a + l.length + i < a + (l ++ b ++ r).length := by simp; omega
  have hoff : a + l.length + i - a = l.length + i := by omega
  simp only [memRead, List.getElem_map, List.getElem_range, memByte_write, if_pos hin, hoff]
  simp [List.getElem?_append, hi]

theorem memNat_memWrite (m : Memory) (a n x : Nat) (l r : List Byte) :
    memNat (memWrite m a (l ++ leBytes n x ++ r)) (a + l.length) n = x % 256 ^ n := by
  have h := memRead_memWrite m a l (leBytes n x) r
  rw [length_leBytes] at h
  rw [memNat, h, ofLe_leBytes]

namespace Machine

/-- The top window of a tile's engines is its own SRAM. -/
theorem locOf_ownWindow (v : Variant) (t : Nat) {off : Nat} (h : off < 0x80000) :
    locOf v (some t) (0x5FFFFFF80000 + off) = .tile t off := by
  have htop : gddrTop v ≤ 0xC00000000 := by cases v <;> decide
  have hdies : dieCount v ≤ 4 := by cases v <;> decide
  have hclus : clusterCount v ≤ 32 := by cases v <;> decide
  rw [locOf, if_neg (by omega), if_neg (by omega), if_neg (by omega), if_neg (by omega)]
  rw [if_neg (by omega), if_pos (by omega), Nat.add_sub_cancel_left]

/-- A write through that window lands in the SRAM, also in a run whose writes go aside. -/
theorem Mach.tile_jobWrite_ownWindow (v : Variant) (m : Mach) (t : Nat) {off : Nat} {bs : List Byte}
    (h : off + bs.length ≤ 0x80000) :
    (m.jobWrite v t (0x5FFFFFF80000 + off) bs).tile t = { m.tile t with sram := memWrite (m.tile t).sram off bs } := by
  induction bs generalizing m off with
  | nil => rfl
  | cons b r ih =>
    rw [List.length_cons] at h
    rw [Mach.jobWrite, locOf_ownWindow v t (by omega), Nat.add_assoc, ih _ (by omega)]
    simp [Mach.putLoc, memWrite]

/-- Bytes of memory do not see a tile replaced by one with its SRAM. -/
theorem Mach.locByte_editTile {m : Mach} {t : Nat} {x : Tile} (h : x.sram = (m.tile t).sram) (l : Loc) :
    (m.setTile t x).locByte l = m.locByte l := by
  cases l with
  | tile k off =>
    simp only [Mach.locByte, Mach.tile_setTile]
    split
    next hk => rw [h, hk]
    next => rfl
  | _ => rfl

end Machine
end Sys2Proof
end

section
/-!
SUPPORT. The completion of the head descriptor of an engine's queue, outside audit mode: what becomes of its tile, and of
the rest of memory (04_tiles_clusters_regions.md R124 to R127; 06_synchronisation_and_work_stealing.md R214, R217).
-/
namespace Sys2Proof.Machine

/-! ### The tile -/

/-- A tile one of whose sync objects is signalled. -/
def Tile.signalled (x : Tile) (k : SyncId) : Tile :=
  if x.count k = 0xFFFF then x else (x.setCount k (x.count k + 1)).serve k

/-- A tile with the status word of a descriptor written, where it asks for one and its header is good. -/
def Tile.statusWritten (x : Tile) (d : List Byte) (status result : Nat) : Tile :=
  if descStatusEn d && !descBadHeader d then
    { x with sram := memWrite x.sram (descStatusOff d) (leBytes 4 status ++ leBytes 4 result) }
  else x

/-- The head of an engine's queue dropped. -/
def Tile.popped (x : Tile) (e : EngId) : Tile := x.setEngQ e ⟨(x.engQ e).q.drop 1, false⟩

/-- A tile once the head descriptor of an engine has completed. -/
def Tile.descDone (x : Tile) (e : EngId) (d : List Byte) (status result : Nat) : Tile :=
  let y := (x.popped e).statusWritten d status result
  if descSignalEn d then y.signalled (descSignalObj d) else y

theorem Mach.tile_signalObj (m : Mach) (t : Nat) (k : SyncId) : (m.signalObj t k).tile t = (m.tile t).signalled k := by
  unfold Mach.signalObj Tile.signalled; dsimp only
  split
  · rfl
  · exact Mach.tile_setTile_same _ _ _

/-- The status word of a good header lies in the SRAM whole. -/
theorem descStatusOff_le {d : List Byte} (h : descBadHeader d = false) : descStatusOff d + 8 ≤ 0x80000 := by
  have hlt : descStatusOff d < 2 ^ 19 := Nat.mod_lt _ (by decide)
  have h8 : descStatusOff d % 8 = 0 := by
    by_contra hne
    simp [descBadHeader, hne] at h
  omega

@[simp] theorem Mach.tile_written (m : Mach) (a n t : Nat) : (m.written a n).tile t = m.tile t := rfl

/-- The write of the status word, as a completion makes it. -/
theorem Mach.tile_statusWritten (v : Variant) (m : Mach) (t : Nat) (d : List Byte) (status result : Nat) :
    (if descStatusEn d && !descBadHeader d then
      (m.jobWrite v t (0x5FFFFFF80000 + descStatusOff d) (leBytes 4 status ++ leBytes 4 result)).written
        (normAddr v t (0x5FFFFFF80000 + descStatusOff d)) 8
      else m).tile t = (m.tile t).statusWritten d status result := by
  unfold Tile.statusWritten
  split
  next h =>
    simp only [Bool.and_eq_true, Bool.not_eq_true'] at h
    rw [Mach.tile_written, Mach.tile_jobWrite_ownWindow v m t (by simpa using descStatusOff_le h.2)]
  next => rfl

/-- Outside audit mode no completion is flagged, and the tile is what descDone says. -/
theorem Mach.tile_completeDesc {v : Variant} {o : DescOut} {t : Nat} {e : EngId} {d : List Byte}
    (h : o.m.bit (Reg.tileAudit t) 16 = false) :
    (Mach.completeDesc v o t e d).tile t = (o.m.tile t).descDone e d o.status o.result := by
  unfold Mach.completeDesc
  extract_lets m x m₁ m₂ wrote m₃ m₄
  have h₂ : m₂.tile t = (x.popped e).statusWritten d o.status o.result := by
    unfold m₂
    rw [Mach.tile_statusWritten, Mach.tile_setTile_same]; rfl
  have haudit : m₂.bit (Reg.tileAudit t) 16 = false := by
    have hflow : m₂.flow t = m₁.flow t := by unfold m₂; split <;> simp
    rw [(flow_eq_iff.mp hflow).2]; exact h
  have h₃ : m₃ = m₂ := by simp [m₃, haudit]
  have h₄ : m₄.tile t = m₂.tile t := by unfold m₄; rw [h₃]; split <;> rfl
  unfold Tile.descDone
  rw [← h₂, ← h₄]
  split
  · exact Mach.tile_signalObj _ _ _
  · rfl

section
variable (x : Tile) (e : EngId) (d : List Byte) (status result : Nat)

@[simp] theorem Tile.engQ_popped : (x.popped e).engQ e = ⟨(x.engQ e).q.drop 1, false⟩ := Tile.engQ_setEngQ _ _ _
@[simp] theorem Tile.stalled_popped : (x.popped e).stalled = x.stalled := by cases e <;> rfl
@[simp] theorem Tile.sync_popped : (x.popped e).sync = x.sync := by cases e <;> rfl
@[simp] theorem Tile.waits_popped : (x.popped e).waits = x.waits := by cases e <;> rfl
@[simp] theorem Tile.sram_popped : (x.popped e).sram = x.sram := sram_setEngQ _ _ _

@[simp] theorem Tile.engQ_statusWritten : (x.statusWritten d status result).engQ e = x.engQ e := by
  unfold Tile.statusWritten
  cases e <;> split <;> rfl
@[simp] theorem Tile.stalled_statusWritten : (x.statusWritten d status result).stalled = x.stalled := by
  unfold Tile.statusWritten; split <;> rfl
@[simp] theorem Tile.sync_statusWritten : (x.statusWritten d status result).sync = x.sync := by
  unfold Tile.statusWritten; split <;> rfl
@[simp] theorem Tile.waits_statusWritten : (x.statusWritten d status result).waits = x.waits := by
  unfold Tile.statusWritten; split <;> rfl

@[simp] theorem Tile.engQ_serve (k : SyncId) : (x.serve k).engQ e = x.engQ e := by
  unfold Tile.serve
  cases e <;> split <;> rfl
@[simp] theorem Tile.stalled_serve (k : SyncId) : (x.serve k).stalled = x.stalled := by unfold Tile.serve; split <;> rfl
/-- Where no unit waits, no wait is served. -/
theorem Tile.serve_idle (k : SyncId) (hw : x.waits = []) : x.serve k = x := by simp [Tile.serve, hw]

@[simp] theorem Tile.engQ_signalled (k : SyncId) : (x.signalled k).engQ e = x.engQ e := by
  unfold Tile.signalled
  split
  · rfl
  · rw [Tile.engQ_serve]; cases e <;> rfl
@[simp] theorem Tile.stalled_signalled (k : SyncId) : (x.signalled k).stalled = x.stalled := by
  unfold Tile.signalled
  split
  · rfl
  · rw [Tile.stalled_serve]; rfl
@[simp] theorem Tile.sram_signalled (k : SyncId) : (x.signalled k).sram = x.sram := by
  unfold Tile.signalled; split <;> simp

@[simp] theorem Tile.engQ_descDone : (x.descDone e d status result).engQ e = ⟨(x.engQ e).q.drop 1, false⟩ := by
  unfold Tile.descDone; split <;> simp
@[simp] theorem Tile.stalled_descDone : (x.descDone e d status result).stalled = x.stalled := by
  unfold Tile.descDone; split <;> simp

/-- Where no unit waits, a signal below the largest count counts one up (06 R214, R217). -/
theorem Tile.sync_signalled {k : SyncId} (hlt : x.sync[k] < 0xFFFF) (hw : x.waits = []) :
    (x.signalled k).sync[k] = x.sync[k] + 1 := by
  have hne : x.count k ≠ 0xFFFF := Nat.ne_of_lt hlt
  rw [Tile.signalled, if_neg hne, Tile.serve_idle (x.setCount k _) k hw]
  exact Vector.getElem_set_self _

theorem Tile.sync_descDone_signal (hsig : descSignalEn d = true) (hlt : x.sync[descSignalObj d] < 0xFFFF)
    (hw : x.waits = []) : (x.descDone e d status result).sync[descSignalObj d] = x.sync[descSignalObj d] + 1 := by
  have h := ((x.popped e).statusWritten d status result).sync_signalled (k := descSignalObj d) (by simpa using hlt)
    (by simpa using hw)
  simpa [Tile.descDone, hsig] using h

theorem Tile.sync_descDone_silent (hsig : descSignalEn d = false) : (x.descDone e d status result).sync = x.sync := by
  simp [Tile.descDone, hsig]

/-- The status word of a good header holds status and result (04 R126). -/
theorem Tile.statusWord_descDone (hbad : descBadHeader d = false) (hst : descStatusEn d = true) :
    memNat (x.descDone e d status result).sram (descStatusOff d) 4 = status % 2 ^ 32 ∧
      memNat (x.descDone e d status result).sram (descStatusOff d + 4) 4 = result % 2 ^ 32 := by
  have hsram : (x.descDone e d status result).sram =
      memWrite x.sram (descStatusOff d) (leBytes 4 status ++ leBytes 4 result) := by
    unfold Tile.descDone
    split <;> simp [Tile.statusWritten, hbad, hst]
  rw [hsram]
  exact ⟨memNat_memWrite _ _ 4 _ [] _, by simpa using memNat_memWrite _ _ 4 _ (leBytes 4 status) []⟩

end

/-! ### The rest of the machine -/

/-- A completion without status word and signal leaves every byte. -/
theorem Mach.locByte_completeDesc {v : Variant} {o : DescOut} {t : Nat} {e : EngId} {d : List Byte}
    (hst : descStatusEn d = false) (hsig : descSignalEn d = false) (l : Loc) :
    (Mach.completeDesc v o t e d).locByte l = o.m.locByte l := by
  have hpop : (o.m.setTile t ((o.m.tile t).popped e)).locByte l = o.m.locByte l :=
    Mach.locByte_editTile (Tile.sram_popped _ _) l
  unfold Mach.completeDesc
  simp only [hst, hsig, Bool.false_and, Bool.and_false, Bool.false_eq_true, if_false]
  split
  · exact hpop
  · exact hpop

/-- With nothing left in the queue and nothing held back, no more happens after a completion. -/
theorem Mach.settle_unstall_idle {v : Variant} {m : Mach} {t n : Nat} {e : EngId} (hq : ((m.tile t).engQ e).q = [])
    (hs : (m.tile t).stalled = none) : (Mach.settle v (n + 1) m t e).unstall v t = m.setTile t (m.tile t) := by
  rw [Mach.settle_stop (Tile.startHead_nil hq) (by rw [hq]; exact nofun)]
  simp [Mach.unstall, hs]

/-! ### The row of a descriptor -/

/-- What a started descriptor comes to: its operation, unless a reserved header value stops it (04 R127). -/
def descOutcome (v : Variant) (m : Mach) (t : Nat) (d : List Byte) (f : Variant → Mach → Nat → List Byte → DescOut) :
    DescOut :=
  if descBadHeader d then failWith m St.invalidField else f v m t d

theorem Mach.ueHit_none {m : Mach} (hbad : m.mem.badWords = []) (hchans : m.mem.chansOut = []) (v : Variant) (a n : Nat) :
    m.ueHit v a n = none := by
  simp [Mach.ueHit, hbad, hchans]

theorem Mach.meetCe_none {m : Mach} (hce : m.mem.ceWords = []) (v : Variant) (a n : Nat) : m.meetCe v a n = m := by
  simp [Mach.meetCe, Mach.ceHits, hce]

/-- Where memory holds no error, the row of a started head completes it with its outcome. -/
theorem Mach.runDesc_started {v : Variant} {m : Mach} {t : Nat} {e : EngId} {op : Nat} {d : List Byte}
    {r : List (List Byte)} {f : Variant → Mach → Nat → List Byte → DescOut} (hbad : m.mem.badWords = [])
    (hchans : m.mem.chansOut = []) (hce : m.mem.ceWords = []) (hq : (m.tile t).engQ e = ⟨d :: r, true⟩)
    (hop : descOp d = op) : m.runDesc v t e op f =
      ((Mach.completeDesc v (descOutcome v m t d f) t e d).settle v 17 t e).unstall v t := by
  have hue : (descReads e d).findSome? (fun p => m.ueHit v (normAddr v t p.1) p.2) = none := by
    simp [Mach.ueHit_none hbad hchans]
  have hmeet : (descReads e d).foldl (fun m p => m.meetCe v (normAddr v t p.1) p.2) m = m :=
    List.foldl_fixed' (fun p => Mach.meetCe_none hce v _ _) _
  unfold Mach.runDesc descOutcome
  simp only [hq, hop, hue, hmeet, decide_true, Bool.and_true, if_true]
  split <;> rfl

end Sys2Proof.Machine
end

section
/-!
SUPPORT. The twelve operations of descriptors, each the only one of its queue (04_tiles_clusters_regions.md R124 to R127;
05_falesk_instruction_set.md R202, R203).
-/
namespace Sys2Proof.Machine

section
variable {s : State} {t : TileId} {d : List Byte} {c : Instr} {e : EngId} {op : Nat}
  {f : Variant → Mach → Nat → List Byte → DescOut}

/-- The row of the only descriptor of a queue answers a machine whose tile is the outcome's with the completion made, and
whose other bytes are the outcome's where the descriptor asks for neither status word nor signal. -/
theorem does_onlyDesc (hstalled : (s.mach.tile t.val).stalled = none) (hbad : s.mach.mem.badWords = [])
    (hchans : s.mach.mem.chansOut = []) (hce : s.mach.mem.ceWords = [])
    (haudit : s.mach.bit (Reg.tileAudit t.val) 16 = false) (hq : (s.mach.tile t.val).engQ e = ⟨[d], true⟩)
    (hop : descOp d = op) (hc : exec c s = act (fun v m => m.runDesc v t.val e op f) s)
    (hflow : (f s.variant s.mach t.val d).m.flow t.val = s.mach.flow t.val) :
    Does c s (fun m m' =>
      let r := descOutcome s.variant m t.val d f
      (r.m.tile t.val).flow = (m.tile t.val).flow ∧ m'.tile t.val = (r.m.tile t.val).descDone e d r.status r.result ∧
      (descStatusEn d = false → descSignalEn d = false → ∀ l : Loc, m'.locByte l = r.m.locByte l)) := by
  refine ⟨_, hc, ?_⟩
  dsimp only
  generalize hout : descOutcome s.variant s.mach t.val d f = r
  have hr : r.m.flow t.val = s.mach.flow t.val := by
    rw [← hout, descOutcome]
    split
    · rfl
    · exact hflow
  obtain ⟨htile, hbit⟩ := flow_eq_iff.mp hr
  have hdone : (Mach.completeDesc s.variant r t.val e d).tile t.val = (r.m.tile t.val).descDone e d r.status r.result :=
    Mach.tile_completeDesc (hbit.trans haudit)
  have hend : s.mach.runDesc s.variant t.val e op f = (Mach.completeDesc s.variant r t.val e d).setTile t.val
      ((Mach.completeDesc s.variant r t.val e d).tile t.val) := by
    rw [Mach.runDesc_started hbad hchans hce hq hop, hout, Mach.settle_unstall_idle]
    · rw [hdone, Tile.engQ_descDone, Tile.engQ_of_flow htile, hq]; rfl
    · rw [hdone, Tile.stalled_descDone, ← hstalled]; exact congrArg Flow.stalled htile
  rw [hend, Mach.tile_setTile_same]
  exact ⟨htile, hdone, fun hst hsig l => (Mach.locByte_editTile rfl l).trans (Mach.locByte_completeDesc hst hsig l)⟩

end

/-- Settles O16: each operation leaves the flow of its tile, so its completion does what descDone says. -/
theorem descriptorsComplete : Obligations.DescriptorsComplete := by
  intro s t d hstalled hbad hchans hce haudit x runs
  have each (c : Instr) (e : EngId) (op : Nat) (f : Variant → Mach → Nat → List Byte → DescOut)
      (hc : exec c s = act (fun v m => m.runDesc v t.val e op f) s)
      (hflow : (f s.variant s.mach t.val d).m.flow t.val = s.mach.flow t.val) : runs c e op f := by
    intro hq hop
    refine does_mono (does_onlyDesc hstalled hbad hchans hce haudit hq hop hc hflow) ?_
    rintro m' ⟨htile, hdone, hbytes⟩
    obtain ⟨-, -, -, hsync, hwaits, -⟩ := Tile.flow_eq_iff.mp htile
    refine ⟨?_, fun hgood hst => ?_, hbytes, fun hsig hlt hw => ?_, fun hsig => ?_⟩
    · rw [hdone, Tile.engQ_descDone, Tile.engQ_of_flow htile, hq]; rfl
    · rw [hdone]
      exact Tile.statusWord_descDone _ _ _ _ _ hgood hst
    · rw [← hsync] at hlt ⊢
      rw [hdone, Tile.sync_descDone_signal _ _ _ _ _ hsig hlt (hwaits.trans hw)]
    · rw [hdone, Tile.sync_descDone_silent _ _ _ _ _ hsig, hsync]
  exact ⟨each _ _ _ _ rfl (flow_gougeHash _ _), each _ _ _ _ rfl (flow_gougeLookup _ _),
    each _ _ _ _ rfl (flow_gougeLzexec _ _), each _ _ _ _ rfl (flow_gougeHuff _ _),
    each _ _ _ _ rfl (flow_gougeTans _ _), each _ _ _ _ rfl (flow_gougeStep _ _),
    each _ _ _ _ rfl (flow_dmaCopy _ _), each _ _ _ _ rfl (flow_dmaFill _ _),
    each _ _ _ _ rfl (flow_dmaCopy2d _ _), each _ _ _ _ rfl (flow_dmaCount _ _),
    each _ _ _ _ rfl (flow_aesDecrypt _ _), each _ _ _ _ rfl (flow_aesEncrypt _ _)⟩

end Sys2Proof.Machine
end

section
/-!
SUPPORT. What the scalar core does with the instructions that write one g register or PC: one rule per form of
instruction, and what the operations give (05_falesk_instruction_set.md R167 to R171, R193).
-/
namespace Sys2Proof.Machine

/-! ### Results of the operations (05 R167 to R170) -/

theorem salu_slt (a b : U64) : salu .slt a b = if a.toInt < b.toInt then 1 else 0 := by
  simp [salu, BitVec.slt]

theorem salu_sltu (a b : U64) : salu .sltu a b = if a.toNat < b.toNat then 1 else 0 := by
  simp [salu, BitVec.ult]

theorem salu_min (a b : U64) : salu .min a b = if a.toInt < b.toInt then a else b := by
  simp [salu, BitVec.slt]

theorem salu_max (a b : U64) : salu .max a b = if a.toInt < b.toInt then b else a := by
  simp [salu, BitVec.slt]

theorem salu_minu (a b : U64) : salu .minu a b = if a.toNat < b.toNat then a else b := by
  simp [salu, BitVec.ult]

theorem salu_maxu (a b : U64) : salu .maxu a b = if a.toNat < b.toNat then b else a := by
  simp [salu, BitVec.ult]

theorem salu_popc (a b : U64) :
    salu .popc a b = BitVec.ofNat 64 ((List.range 64).countP (fun i => a.getLsbD i)) := by
  rw [List.countP_eq_length_filter]; rfl

/-- A shift amount below 64 is the amount of the operation. -/
theorem toNat_shiftAmount (n : Nat) : (BitVec.ofNat 64 (n % 64)).toNat % 64 = n % 64 := by
  rw [BitVec.toNat_ofNat]; omega

/-- The two halves of LI (R168). -/
theorem li_high (imm : BitVec 32) (a : U64) : (imm.setWidth 64 <<< 32) ||| ((a.setWidth 32).setWidth 64) =
    BitVec.ofNat 64 (imm.toNat * 2 ^ 32 + a.toNat % 2 ^ 32) := by
  have himm := imm.isLt
  have hlow : a.toNat % 2 ^ 32 < 2 ^ 32 := Nat.mod_lt _ (by decide)
  refine BitVec.eq_of_toNat_eq ?_
  have hor := Nat.shiftLeft_add_eq_or_of_lt hlow imm.toNat
  simp only [Nat.shiftLeft_eq] at hor
  simp only [BitVec.toNat_or, BitVec.toNat_shiftLeft, BitVec.toNat_setWidth, BitVec.toNat_ofNat, Nat.shiftLeft_eq]
  rw [Nat.mod_eq_of_lt (show imm.toNat < 2 ^ 64 by omega), Nat.mod_eq_of_lt (show imm.toNat * 2 ^ 32 < 2 ^ 64 by omega),
    Nat.mod_eq_of_lt (show a.toNat % 2 ^ 32 < 2 ^ 64 by omega), ← hor,
    Nat.mod_eq_of_lt (show imm.toNat * 2 ^ 32 + a.toNat % 2 ^ 32 < 2 ^ 64 by omega)]

/-! ### One rule per form -/

@[simp] theorem legal_false (i : TInstr) : legal false i = .illegal := rfl

/-- An instruction whose encoding is legal. -/
theorem onTile_legal {t : TileId} {i : Tile → TInstr} {b : Bool} {s : State} (hb : b = true) :
    onTile t (fun x => legal b (i x)) s = onTile t i s := by
  subst hb; rfl

section
variable {c : Instr} {s : State} {t : TileId} {rd : GReg}

/-- An instruction that nothing holds back and that writes g[rd]. -/
theorem setsG_issue {i : Tile → TInstr} {x : U64} {n : Nat} (hc : exec c s = onTile t i s)
    (hr : ScalarReady s.mach t.val (i (s.mach.tile t.val)).size)
    (hs : (s.mach.tile t.val).mustStall (i (s.mach.tile t.val)) = false)
    (hi : s.mach.issueNow s.variant t.val (i (s.mach.tile t.val)) =
      s.mach.setTile t.val (((s.mach.tile t.val).setG rd x).advance n)) : SetsG c s t.val rd x n :=
  setsG_of (by rw [hc, onTile, act, Mach.tileInstr_ready hr hs, hi])

/-- An instruction that nothing holds back and that moves PC alone. -/
theorem setsPc_issue {i : Tile → TInstr} {a : Nat} (hc : exec c s = onTile t i s)
    (hr : ScalarReady s.mach t.val (i (s.mach.tile t.val)).size)
    (hs : (s.mach.tile t.val).mustStall (i (s.mach.tile t.val)) = false)
    (hi : s.mach.issueNow s.variant t.val (i (s.mach.tile t.val)) =
      s.mach.setTile t.val { s.mach.tile t.val with pc := a }) : SetsPc c s t.val a :=
  setsPc_of (by rw [hc, onTile, act, Mach.tileInstr_ready hr hs, hi])

theorem setsG_salu {op : SOp} {rs1 rs2 : GReg} (hc : exec c s = onTile t (fun _ => .salu op rd rs1 rs2) s)
    (hr : ScalarReady s.mach t.val 4) :
    SetsG c s t.val rd (salu op ((s.mach.tile t.val).gr rs1) ((s.mach.tile t.val).gr rs2)) 4 :=
  setsG_issue hc hr rfl rfl

theorem setsG_saluImm {op : SOp} {rs1 : GReg} {imm : U64} (hc : exec c s = onTile t (fun _ => .saluImm op rd rs1 imm) s)
    (hr : ScalarReady s.mach t.val 4) : SetsG c s t.val rd (salu op ((s.mach.tile t.val).gr rs1) imm) 4 :=
  setsG_issue hc hr rfl rfl

theorem setsG_hash {op : HashOp} {rs1 rs2 : GReg} (hc : exec c s = onTile t (fun _ => .hash op rd rs1 rs2) s)
    (hr : ScalarReady s.mach t.val 4) :
    SetsG c s t.val rd (hashOp op ((s.mach.tile t.val).gr rs1) ((s.mach.tile t.val).gr rs2)) 4 :=
  setsG_issue hc hr rfl rfl

theorem setsG_li {high : Bool} {imm : BitVec 32} (hr : ScalarReady s.mach t.val 8) :
    SetsG (.li t rd high imm) s t.val rd
      (if high then BitVec.ofNat 64 (imm.toNat * 2 ^ 32 + ((s.mach.tile t.val).gr rd).toNat % 2 ^ 32)
        else imm.signExtend 64) 8 := by
  rw [← li_high]
  exact setsG_issue (i := fun _ => .li rd high imm) rfl hr rfl rfl

/-- SHI shifts by IMM[5:0] with the operation that IMM[7:6] names (R167). -/
theorem setsG_shi {rs1 : GReg} {imm : BitVec 16} (hr : ScalarReady s.mach t.val 4) (himm : imm.toNat < 256) :
    SetsG (.shi t rd rs1 imm) s t.val rd
      (salu (shiOp imm) ((s.mach.tile t.val).gr rs1) (BitVec.ofNat 64 (imm.toNat % 64))) 4 := by
  have hhigh : bitsOf imm.toNat 15 8 = 0 := by rw [bitsOf]; omega
  have hlow : bitsOf imm.toNat 5 0 = imm.toNat % 64 := by simp [bitsOf]
  rw [← hlow]
  exact setsG_saluImm (onTile_legal (decide_eq_true hhigh)) hr

/-- A branch that is taken to a good target, and one that is not taken. -/
theorem setsPc_br {op : BrOp} {rs1 rs2 : GReg} {off : BitVec 16} (hc : exec c s = onTile t (fun _ => .br op rs1 rs2 off) s)
    (hr : ScalarReady s.mach t.val 4) :
    (brTaken op ((s.mach.tile t.val).gr rs1) ((s.mach.tile t.val).gr rs2) = true →
      (s.mach.tile t.val).goodPc (addOff (s.mach.tile t.val).pc (off.toInt * 4)) 4 = true →
      SetsPc c s t.val (addOff (s.mach.tile t.val).pc (off.toInt * 4))) ∧
    (brTaken op ((s.mach.tile t.val).gr rs1) ((s.mach.tile t.val).gr rs2) = false →
      SetsPc c s t.val ((s.mach.tile t.val).pc + 4)) := by
  refine ⟨fun hb hg => setsPc_issue hc hr rfl ?_, fun hb => setsPc_issue hc hr rfl ?_⟩
  · simp [Mach.issueNow, hb, Mach.jump, hg]
  · simp [Mach.issueNow, hb, Tile.advance, TInstr.size]

/-- An offset that stays in range is added as it is. -/
theorem addOff_eq {pc : Nat} {off : Int} (h0 : 0 ≤ (pc : Int) + off) (hlt : ((pc : Int) + off).toNat < 2 ^ 64) :
    addOff pc off = ((pc : Int) + off).toNat := by
  rw [addOff, unsignedOf, Int.emod_eq_of_lt h0 (by omega)]

end

/-- Settles O1: each operation is a SALU instruction, whose result the table gives. -/
theorem scalarArithmetic : Obligations.ScalarArithmetic := by
  intro s t rd rs1 rs2 hr a b
  have each (c : Instr) (op : SOp) (x : U64) (hc : exec c s = onTile t (fun _ => .salu op rd rs1 rs2) s)
      (hx : salu op a b = x) : SetsG c s t.val rd x 4 := hx ▸ setsG_salu hc hr
  exact ⟨each _ .add _ rfl rfl, each _ .sub _ rfl rfl, each _ .and _ rfl rfl, each _ .or _ rfl rfl, each _ .xor _ rfl rfl,
    each _ .shl _ rfl rfl, each _ .shr _ rfl rfl, each _ .sar _ rfl rfl, each _ .ror _ rfl rfl,
    each _ .slt _ rfl (salu_slt a b), each _ .sltu _ rfl (salu_sltu a b), each _ .min _ rfl (salu_min a b),
    each _ .max _ rfl (salu_max a b), each _ .minu _ rfl (salu_minu a b), each _ .maxu _ rfl (salu_maxu a b),
    each _ .mul _ rfl rfl, each _ .mulh _ rfl rfl, each _ .mulhu _ rfl rfl, each _ .div _ rfl rfl,
    each _ .divu _ rfl rfl, each _ .rem _ rfl rfl, each _ .remu _ rfl rfl⟩

/-- Settles O2: the operations of one operand, the hash steps and the immediates by the rule of their form, the corners
of division by computing them. -/
theorem scalarOneOperandAndHash : Obligations.ScalarOneOperandAndHash := by
  refine ⟨?_, fun s t rd rs1 rs2 hr => ?_⟩
  · intro s t rd rs1 rs2 imm long hr a b
    have unary (c : Instr) (op : SOp) (x : U64) (hc : exec c s = onTile t (fun _ => .salu op rd rs1 0) s)
        (hx : salu op a 0 = x) : SetsG c s t.val rd x 4 := hx ▸ setsG_salu (rs2 := 0) hc hr
    have hash (c : Instr) (op : HashOp) (hc : exec c s = onTile t (fun _ => .hash op rd rs1 rs2) s) :
        SetsG c s t.val rd (hashOp op a b) 4 := setsG_hash hc hr
    have immediate (c : Instr) (op : SOp) (y x : U64) (hc : exec c s = onTile t (fun _ => .saluImm op rd rs1 y) s)
        (hx : salu op a y = x) : SetsG c s t.val rd x 4 := hx ▸ setsG_saluImm hc hr
    have shift (op : SOp) (x : U64) (himm : imm.toNat < 256) (hop : shiOp imm = op)
        (hx : salu op a (BitVec.ofNat 64 (imm.toNat % 64)) = x) : SetsG (.shi t rd rs1 imm) s t.val rd x 4 :=
      hx ▸ hop ▸ setsG_shi hr himm
    have mode {k : Nat} (hlo : 64 * k ≤ imm.toNat) (hhi : imm.toNat < 64 * k + 64) (hk : k < 4) :
        bitsOf imm.toNat 7 6 = k := by simp only [bitsOf]; omega
    refine ⟨unary _ .clz _ rfl rfl, unary _ .ctz _ rfl rfl, unary _ .popc _ rfl (salu_popc a 0), unary _ .bswap _ rfl rfl,
      hash _ (.crc 1) rfl, hash _ (.crc 2) rfl, hash _ (.crc 4) rfl, hash _ (.crc 8) rfl, hash _ .ghinit rfl,
      hash _ .ghstep rfl, hash _ .ghfin rfl,
      immediate _ .add _ _ rfl rfl, immediate _ .and _ _ rfl rfl, immediate _ .or _ _ rfl rfl,
      immediate _ .xor _ _ rfl rfl, immediate _ .slt _ _ rfl (salu_slt _ _), immediate _ .sltu _ _ rfl (salu_sltu _ _),
      fun hlt => shift .shl _ (by omega) ?_ ?_, fun hlo hhi => shift .shr _ (by omega) ?_ ?_,
      fun hlo hhi => shift .sar _ (by omega) ?_ ?_, fun hlo hhi => shift .ror _ (by omega) ?_ ?_, ?_,
      fun h8 => setsG_li h8, fun h8 => setsG_li h8⟩
    · simp [shiOp, mode (k := 0) (by omega) (by omega) (by decide)]
    · rw [salu, toNat_shiftAmount, Nat.mod_eq_of_lt hlt]
    · simp [shiOp, mode (k := 1) (by omega) (by omega) (by decide)]
    · rw [salu, toNat_shiftAmount]
    · simp [shiOp, mode (k := 2) (by omega) (by omega) (by decide)]
    · rw [salu, toNat_shiftAmount]
    · simp [shiOp, mode (k := 3) (by omega) (by omega) (by decide)]
    · rw [salu, toNat_shiftAmount]
    · have h := setsG_saluImm (c := .lui t rd 0 imm) (op := .add) (rs1 := 0) rfl hr
      rwa [show salu .add ((s.mach.tile t.val).gr 0) (imm.signExtend 64 <<< 16) = imm.signExtend 64 <<< 16 from
        BitVec.zero_add _] at h
  · have each (c : Instr) (op : SOp) (x : U64) (hc : exec c s = onTile t (fun _ => .salu op rd rs1 rs2) s)
        (hx : salu op ((s.mach.tile t.val).gr rs1) ((s.mach.tile t.val).gr rs2) = x) : SetsG c s t.val rd x 4 :=
      hx ▸ setsG_salu hc hr
    refine ⟨fun ha hb => ⟨each _ .div _ rfl ?_, each _ .rem _ rfl ?_⟩,
      fun hb => ⟨each _ .div _ rfl ?_, each _ .divu _ rfl ?_, each _ .rem _ rfl ?_, each _ .remu _ rfl ?_⟩⟩
    · rw [ha, hb]; decide
    · rw [ha, hb]; decide
    all_goals rw [hb]; rfl

/-- Settles O3: a branch by its condition, a jump by its target, both through the target's range. -/
theorem branchesAndJumps : Obligations.BranchesAndJumps := by
  refine ⟨?_, ?_⟩
  · intro s t rs1 rs2 off hr x a b target h0 hlt
    have htarget : addOff x.pc (off.toInt * 4) = target := addOff_eq h0 hlt
    have each (c : Instr) (op : BrOp) (p : Prop) (hc : exec c s = onTile t (fun _ => .br op rs1 rs2 off) s)
        (hp : brTaken op a b = true ↔ p) : (p → x.goodPc target 4 = true → SetsPc c s t.val target) ∧
          (¬ p → SetsPc c s t.val (x.pc + 4)) := by
      have h := setsPc_br hc hr
      rw [htarget] at h
      exact ⟨fun h1 => h.1 (hp.mpr h1), fun h1 => h.2 (Bool.eq_false_iff.mpr fun h2 => h1 (hp.mp h2))⟩
    obtain ⟨h1, h2⟩ := each (.beq t rs1 rs2 off) .eq (a = b) rfl (by simp [brTaken])
    obtain ⟨h3, h4⟩ := each (.bne t rs1 rs2 off) .ne (a ≠ b) rfl (by simp [brTaken])
    obtain ⟨h5, h6⟩ := each (.blt t rs1 rs2 off) .lt (a.toInt < b.toInt) rfl (by simp [brTaken, BitVec.slt])
    obtain ⟨h7, h8⟩ := each (.bge t rs1 rs2 off) .ge (b.toInt ≤ a.toInt) rfl (by simp [brTaken, BitVec.slt])
    obtain ⟨h9, h10⟩ := each (.bltu t rs1 rs2 off) .ltu (a.toNat < b.toNat) rfl (by simp [brTaken, BitVec.ult])
    obtain ⟨h11, h12⟩ := each (.bgeu t rs1 rs2 off) .geu (b.toNat ≤ a.toNat) rfl (by simp [brTaken, BitVec.ult])
    exact ⟨h1, h2, h3, h4, h5, h6, h7, h8, h9, h10, h11, h12⟩
  · intro s t rd rs1 off imm hr x near far links
    have jump (c : Instr) (i : TInstr) (a : Nat) (hc : exec c s = onTile t (fun _ => i) s) (hsize : i.size = 4)
        (hs : x.mustStall i = false) (hi : s.mach.issueNow s.variant t.val i = s.mach.jump t.val a (some rd))
        (hg : x.goodPc a 4 = true) : links c a := by
      refine ⟨{ x.setG rd (BitVec.ofNat 64 (x.pc + 4)) with pc := a }, does_onTile hc ?_, fun r => ?_, ?_⟩
      · rw [Mach.tileInstr_ready (by rw [hsize]; exact hr) hs, hi]
        exact if_pos hg
      · exact Tile.gr_setG x rd r _
      · unfold Tile.setG; split <;> rfl
    refine ⟨fun h0 hlt hg => jump _ (.jal rd off) _ rfl rfl rfl ?_ hg, fun hg => jump _ (.jalr rd rs1 imm) _ rfl rfl rfl rfl hg⟩
    rw [Mach.issueNow, addOff_eq h0 hlt]

end Sys2Proof.Machine
end

section
/-!
SUPPORT. Exceptions of the scalar core on the first run of a unit (05_falesk_instruction_set.md R165, R171, R209 to R211).
-/
namespace Sys2Proof.Machine

/-- The entry of a first run that has ended without DONE is READY again, and the job goes on (R211). -/
theorem Mach.afterRun_first {m : Mach} {l : QLoc} {e : QEntry} {r : RunRec} (h : e.runs = []) :
    m.afterRun l e r = m.putEntry l (some { e with state := .ready, runs := [r], takenBy := none }) := by
  simp [Mach.afterRun, h]

@[simp] theorem Mach.entryAt_setTile (m : Mach) (t : Nat) (x : Tile) (l : QLoc) : (m.setTile t x).entryAt l = m.entryAt l := by
  cases l <;> rfl

@[simp] theorem Mach.entryAt_setReg (m : Mach) (off : Nat) (x : U64) (l : QLoc) : (m.setReg off x).entryAt l = m.entryAt l := by
  cases l <;> rfl

/-- What an exception of the scalar core does to the first run of a unit (R210, R211). -/
theorem Mach.tileExc_first {m : Mach} {t : Nat} {u : WorkUnit} {e : QEntry} (h : FirstRun m t u e) (cause pc code : Nat) :
    m.tileExc t 0 cause pc code =
      ((m.setReg (Reg.tileExc t) (BitVec.ofNat 64 (pc % 2 ^ 32 * 2 ^ 32 + cause))).setTile t
        ((m.tile t).endUnit true)).putEntry u.loc
          (some { e with state := .ready, runs := [⟨t, .exception cause pc code⟩], takenBy := none }) := by
  obtain ⟨hunit, hrun, hentry, hfirst⟩ := h
  simp [Mach.tileExc, Mach.unitDrop, hunit, hrun, hentry, Mach.afterRun_first hfirst]

section
variable {s : State} {t : TileId} {u : WorkUnit} {e : QEntry} {i : Tile → TInstr} {cause code : Nat} {c : Instr}
  (hfree : (s.mach.tile t.val).scalarFree = true) (hfirst : FirstRun s.mach t.val u e) (hc : exec c s = onTile t i s)
include hfree hfirst hc

/-- An instruction whose issue is an exception. -/
theorem raisesFirst_of_issue (hi : s.mach.issue s.variant t.val (i (s.mach.tile t.val)) =
    s.mach.tileExc t.val 0 cause (s.mach.tile t.val).pc code) : RaisesFirst c s t.val cause code u e := by
  refine ⟨_, hc, ?_⟩
  dsimp only
  rw [Mach.tileInstr, if_pos hfree, hi, Mach.tileExc_first hfirst]

/-- Execution outside the code object raises TARGET (R171). -/
theorem raisesFirst_badPc (hpc : (s.mach.tile t.val).goodPc (s.mach.tile t.val).pc (i (s.mach.tile t.val)).size = false) :
    RaisesFirst c s t.val 5 0 u e :=
  raisesFirst_of_issue hfree hfirst hc (by simp [Mach.issue, hpc])

/-- An instruction in the code object that nothing holds back, and that is an exception. -/
theorem raisesFirst_issueNow (hpc : (s.mach.tile t.val).goodPc (s.mach.tile t.val).pc (i (s.mach.tile t.val)).size = true)
    (hs : (s.mach.tile t.val).mustStall (i (s.mach.tile t.val)) = false)
    (hi : s.mach.issueNow s.variant t.val (i (s.mach.tile t.val)) =
      s.mach.tileExc t.val 0 cause (s.mach.tile t.val).pc code) : RaisesFirst c s t.val cause code u e :=
  raisesFirst_of_issue hfree hfirst hc (by simp [Mach.issue, hpc, hs, hi])

end

/-- Settles O4: each command issues an exception of the scalar core, and the unit's first run ends by it. -/
theorem trapsAndBadTargets : Obligations.TrapsAndBadTargets := by
  intro s t u e hfree hfirst
  refine ⟨fun rd rs1 imm hpc => raisesFirst_badPc (i := fun _ => .saluImm .add rd rs1 (imm.signExtend 64)) hfree hfirst rfl hpc,
    fun hpc => ?_⟩
  have raises (c : Instr) (i : TInstr) (cause code : Nat) (hc : exec c s = onTile t (fun _ => i) s) (hsize : i.size = 4)
      (hs : (s.mach.tile t.val).mustStall i = false)
      (hi : s.mach.issueNow s.variant t.val i = s.mach.tileExc t.val 0 cause (s.mach.tile t.val).pc code) :
      RaisesFirst c s t.val cause code u e :=
    raisesFirst_issueNow hfree hfirst hc (by rw [hsize]; exact hpc) hs hi
  refine ⟨fun code => raises _ (.trap code) _ _ rfl rfl rfl rfl,
    fun rs => ⟨raises _ (.csrw 1 rs) _ _ rfl rfl rfl rfl, raises _ (.csrw 2 rs) _ _ rfl rfl rfl rfl⟩, fun rd rs1 rs2 hrs => ?_,
    fun rd rs1 off => raises _ .illegal _ _ rfl rfl rfl rfl,
    fun rd rs1 imm hbad => raises _ (.jalr rd rs1 imm) _ _ rfl rfl rfl (if_neg (by simpa using hbad))⟩
  have reserved (c : Instr) (i : TInstr) (hc : exec c s = onTile t (fun _ => legal (rs2 = 0) i) s) :
      RaisesFirst c s t.val 1 0 u e := raises c .illegal 1 0 (by rw [hc]; simp [hrs]) rfl rfl rfl
  exact ⟨reserved _ _ rfl, reserved _ _ rfl, reserved _ _ rfl, reserved _ _ rfl⟩

end Sys2Proof.Machine
end

section
/-!
SUPPORT. Vector operations of an idle vector unit that touch registers alone: one rule per form of operation, saying
which lanes or which predicate it writes and what FSTAT takes (05_falesk_instruction_set.md R173 to R195).
-/
namespace Sys2Proof.Machine

/-! ### Writes of a lane or a predicate -/

/-- Lanes count modulo their width. -/
theorem setsLanes_congr {c : Instr} {s : State} {t n w fl fl' : Nat} {vd : VReg} {on : Nat → Bool} {f g : Nat → Nat}
    (h : SetsLanes c s t n w vd on f fl) (hf : ∀ k, f k % 2 ^ w = g k % 2 ^ w) (hfl : fl = fl') :
    SetsLanes c s t n w vd on g fl' := by
  obtain ⟨y, hdoes, hlanes, hother, hy⟩ := h
  exact ⟨y, hdoes, fun k hk => by rw [hlanes k hk, hf k], hother, hfl ▸ hy⟩

@[simp] theorem Tile.setP_fstat (x : Tile) (r : PReg) (v : U64) : (x.setP r v).fstat = x.fstat := by
  unfold Tile.setP; split <;> rfl

/-- An operation that writes a predicate and sets FSTAT. -/
theorem setsP_of {c : Instr} {s : State} {t n : Nat} {pd : PReg} {x : U64} {fl : Nat} {z : Tile}
    (h : exec c s = .next { s with mach := s.mach.setTile t z })
    (hz : z = { ({ s.mach.tile t with pc := (s.mach.tile t).pc + n } : Tile).setP pd x with fstat := fl }) :
    SetsP c s t n pd x fl := by
  refine ⟨z, ⟨_, h, onlyTile_setTile _ _ _⟩, fun r => ?_, ?_⟩
  · rw [hz]; exact Tile.pr_setP { s.mach.tile t with pc := (s.mach.tile t).pc + n } pd r x
  · rw [hz]; unfold Tile.setP; split <;> rfl

/-- The same of an operation that leaves FSTAT. -/
theorem setsP_plain {c : Instr} {s : State} {t n : Nat} {pd : PReg} {x : U64} {z : Tile}
    (h : exec c s = .next { s with mach := s.mach.setTile t z })
    (hz : z = ({ s.mach.tile t with pc := (s.mach.tile t).pc + n } : Tile).setP pd x) :
    SetsP c s t n pd x (s.mach.tile t).fstat := by
  refine setsP_of h (hz.trans ?_)
  unfold Tile.setP; split <;> rfl

section
variable {c : Instr} {s : State} {t : TileId}

/-- An operation of an idle vector unit that touches registers alone. -/
theorem does_vec {op : VOp} (hc : exec c s = onTile t (fun _ => .vec op) s)
    (h : VectorReady s.mach t.val (TInstr.vec op).size) (hop : op.regOnly = true) :
    Does c s (OnlyTile t.val
      (vecReg { s.mach.tile t.val with pc := (s.mach.tile t.val).pc + (TInstr.vec op).size } op)) :=
  ⟨_, hc.trans (onTile_vec rfl h hop), onlyTile_setTile _ _ _⟩

/-! ### Arithmetic on lanes (R176, R181, R182) -/

theorem setsLanes_fp {o : FpOp} {a : VArgs} {f : FpFmt} (hc : exec c s = onTile t (fun _ => .vec (.fp o a)) s)
    (h : VectorReady s.mach t.val 4) (hf : arithFmt a.ty = some f) :
    let x := s.mach.tile t.val
    let w := typeWidth a.ty
    let r := fun k : Nat => fpLane o f (laneOf w (x.vr a.vs1) k) (laneOf w (x.vr a.vs2) k)
    SetsLanes c s t.val 4 w a.vd (laneOn (x.pr a.pg) a.pn) (fun k => (r k).1)
      (flagsAfter x (512 / w) (laneOn (x.pr a.pg) a.pn) (fun k => (r k).2)) := by
  refine setsLanes_merge (hc.trans (onTile_vec rfl h rfl)) ?_
  simp only [vecReg, hf]; rfl

theorem setsLanes_fma {o : FmaOp} {a : VArgs} {vs3 : VReg} {f : FpFmt}
    (hc : exec c s = onTile t (fun _ => .vec (.fma o a vs3)) s) (h : VectorReady s.mach t.val 8) (hf : arithFmt a.ty = some f) :
    let x := s.mach.tile t.val
    let w := typeWidth a.ty
    let r := fun k : Nat => fpFma f (o = .fnma || o = .fnms) (o = .fms || o = .fnms) (laneOf w (x.vr a.vs1) k)
      (laneOf w (x.vr a.vs2) k) (laneOf w (x.vr vs3) k)
    SetsLanes c s t.val 8 w a.vd (laneOn (x.pr a.pg) a.pn) (fun k => (r k).1)
      (flagsAfter x (512 / w) (laneOn (x.pr a.pg) a.pn) (fun k => (r k).2)) := by
  refine setsLanes_merge (hc.trans (onTile_vec rfl h rfl)) ?_
  simp only [vecReg, hf]; rfl

theorem setsLanes_int {o : IntOp} {a : VArgs} (hc : exec c s = onTile t (fun _ => .vec (.int o a)) s)
    (h : VectorReady s.mach t.val 4) :
    let x := s.mach.tile t.val
    let w := typeWidth a.ty
    let r := fun k : Nat => intLane o w (laneOf w (x.vr a.vd) k) (laneOf w (x.vr a.vs1) k) (laneOf w (x.vr a.vs2) k)
    SetsLanes c s t.val 4 w a.vd (laneOn (x.pr a.pg) a.pn) (fun k => (r k).1)
      (flagsAfter x (512 / w) (laneOn (x.pr a.pg) a.pn) (fun k => (r k).2)) :=
  setsLanes_merge (hc.trans (onTile_vec rfl h rfl)) rfl

theorem setsLanes_dot {u : Bool} {a : VArgs} (hc : exec c s = onTile t (fun _ => .vec (.dot u a)) s)
    (h : VectorReady s.mach t.val 4) :
    let x := s.mach.tile t.val
    let w := typeWidth a.ty
    let r := fun k : Nat => dotLane u a.ty (laneOf 32 (x.vr a.vd) k)
      ((List.range (32 / w)).map (fun j => laneOf w (x.vr a.vs1) (32 / w * k + j)))
      ((List.range (32 / w)).map (fun j => laneOf w (x.vr a.vs2) (32 / w * k + j)))
    SetsLanes c s t.val 4 32 a.vd (laneOn (x.pr a.pg) a.pn) (fun k => (r k).1)
      (flagsAfter x 16 (laneOn (x.pr a.pg) a.pn) (fun k => (r k).2)) :=
  setsLanes_merge (hc.trans (onTile_vec rfl h rfl)) rfl

theorem setsLanes_bit {o : BitOp} {a : VArgs} (hc : exec c s = onTile t (fun _ => .vec (.bit o a)) s)
    (h : VectorReady s.mach t.val 4) :
    let x := s.mach.tile t.val
    let w := typeWidth a.ty
    SetsLanes c s t.val 4 w a.vd (laneOn (x.pr a.pg) a.pn)
      (fun k => bitLane o w a.vs2.val (laneOf w (x.vr a.vs1) k) (laneOf w (x.vr a.vs2) k)) x.fstat :=
  setsLanes_plain (hc.trans (onTile_vec rfl h rfl)) rfl

/-! ### Permutes and tables (R178, R179) -/

/-- A permute other than COMPRESS and SEL keeps inactive lanes. -/
theorem setsLanes_perm {o : PermOp} {a : VArgs} (hc : exec c s = onTile t (fun _ => .vec (.perm o a)) s)
    (h : VectorReady s.mach t.val 4) (hcompress : o ≠ .compress) (hsel : o ≠ .sel) :
    let x := s.mach.tile t.val
    let w := typeWidth a.ty
    SetsLanes c s t.val 4 w a.vd (laneOn (x.pr a.pg) a.pn) (permLane o w (x.vr a.vs1) (x.vr a.vs2)) x.fstat := by
  refine setsLanes_plain (hc.trans (onTile_vec rfl h rfl)) ?_
  cases o with
  | compress => exact absurd rfl hcompress
  | sel => exact absurd rfl hsel
  | _ => rfl

end

/-! ### Types (R173, R185) -/

theorem isArith_of_fmt {ty : Fin 8} {f : FpFmt} (h : arithFmt ty = some f) : isArith ty = true := by
  revert f; decide +revert

/-- The sign is the top bit of an element. -/
theorem signBit_of_fmt {ty : Fin 8} {f : FpFmt} (h : arithFmt ty = some f) : f.signBit = 2 ^ (typeWidth ty - 1) := by
  fin_cases ty <;> simp_all [arithFmt] <;> subst h <;> rfl

theorem typeWidth_pos (ty : Fin 8) : 0 < typeWidth ty := by revert ty; decide

/-- A sign bit inverted, modulo the width. -/
theorem invert_signBit {w a : Nat} (hw : 0 < w) :
    (if a < 2 ^ (w - 1) then a + 2 ^ (w - 1) else a - 2 ^ (w - 1)) % 2 ^ w = (a + 2 ^ (w - 1)) % 2 ^ w := by
  have hpow : 2 ^ w = 2 * 2 ^ (w - 1) := by rw [← pow_succ', Nat.sub_add_cancel hw]
  split
  · rfl
  · rw [← Nat.add_mod_right, hpow]
    congr 1
    omega

/-- Settles O6: each operation by the rule of its form; ABS and NEG through the place of the sign bit. -/
theorem vectorFloat : Obligations.VectorFloat := by
  intro s t a f h x on w p q hf
  have each (c : Instr) (o : FpOp) (hc : exec c s = onTile t (fun _ => legal (isArith a.ty) (.vec (.fp o a))) s) :
      SetsLanes c s t.val 4 w a.vd on (fun k => (fpLane o f (p k) (q k)).1)
        (flagsAfter x (512 / w) on (fun k => (fpLane o f (p k) (q k)).2)) :=
    setsLanes_fp (hc.trans (onTile_legal (isArith_of_fmt hf))) h hf
  have hsign : f.signBit = 2 ^ (w - 1) := signBit_of_fmt hf
  refine ⟨each _ .add rfl, each _ .sub rfl, each _ .mul rfl, each _ .div rfl, fun hvs2 => ?_, each _ .min rfl,
    each _ .max rfl, each _ .floor rfl, each _ .ceil rfl, each _ .trunc rfl, each _ .rint rfl,
    setsLanes_congr (each _ .abs rfl) (fun k => ?_) rfl,
    setsLanes_congr (each _ .neg rfl) (fun k => ?_) rfl⟩
  · have hlegal : (isArith a.ty && a.vs2 = 0) = true := by rw [isArith_of_fmt hf, Bool.true_and, decide_eq_true hvs2]
    exact setsLanes_fp (c := .sqrt t a) (onTile_legal hlegal) h hf
  · simp only [fpLane, hsign]
  · simp only [fpLane, hsign]
    exact invert_signBit (typeWidth_pos a.ty)

/-- Settles O7: the three forms by their rules, each legal for the TYPEs it is stated for. -/
theorem vectorFused : Obligations.VectorFused := by
  intro s t a vs3 f fn g rm h x on w p q r
  refine ⟨fun h8 hf => ?_, fun hty => ?_, fun h8 hlegal hrm => ?_⟩
  · have each (c : Instr) (o : FmaOp) (hc : exec c s = onTile t (fun _ => legal (isArith a.ty) (.vec (.fma o a vs3))) s) :=
      setsLanes_fma (o := o) (vs3 := vs3) (hc.trans (onTile_legal (isArith_of_fmt hf))) h8 hf
    exact ⟨each _ .fma rfl, each _ .fms rfl, each _ .fnma rfl, each _ .fnms rfl⟩
  · have hlegal : (a.ty = 5 && fn.val ≤ 1 || 1 ≤ a.ty.val && a.ty.val ≤ 4 && fn = 0) = true := by simpa [and_assoc] using hty
    exact setsLanes_dot (onTile_legal hlegal) h
  · refine ⟨_, does_vec (op := .cvt g) (onTile_legal hlegal) h8 rfl, ?_⟩
    simp only [vecReg, hrm]
    refine ⟨?_, fun u hu => ?_, rfl⟩
    · exact (Tile.vr_setV _ g.vd g.vd _).trans (if_pos rfl)
    · exact (Tile.vr_setV _ g.vd u _).trans (if_neg hu)

/-! ### Integers modulo a width -/

theorem unsignedOf_lt (w : Nat) (z : Int) : unsignedOf w z < 2 ^ w := by
  have hpos : (0 : Int) < 2 ^ w := by positivity
  have := Int.emod_lt_of_pos z hpos
  have := Int.emod_nonneg z hpos.ne'
  rw [unsignedOf, Int.toNat_lt this]
  exact_mod_cast ‹z % 2 ^ w < 2 ^ w›

/-- A number of w bits is an integer modulo 2^w. -/
theorem cast_unsignedOf (w : Nat) (z : Int) : (unsignedOf w z : Int) = z % 2 ^ w :=
  Int.toNat_of_nonneg (Int.emod_nonneg z (by positivity))

theorem unsignedOf_natCast (w n : Nat) : unsignedOf w n = n % 2 ^ w := by
  rw [unsignedOf, ← Int.toNat_natCast (n % 2 ^ w)]; norm_cast

/-- A difference wraps at 2^w. -/
theorem unsignedOf_sub {w a b : Nat} (hb : b ≤ 2 ^ w) : unsignedOf w ((a : Int) - b) = (a + (2 ^ w - b)) % 2 ^ w := by
  rw [← unsignedOf_natCast, unsignedOf, unsignedOf]
  congr 1
  push_cast [hb]
  rw [show (a : Int) + (2 ^ w - b) = a - b + 2 ^ w by ring, Int.add_emod_right]

theorem clampInt_eq {lo hi : Int} (h : lo ≤ hi) (z : Int) :
    clampInt lo hi z = (max lo (min hi z), if lo ≤ z ∧ z ≤ hi then 0 else Flags.sat) := by
  unfold clampInt
  split
  · rw [min_eq_right (by omega), max_eq_left (by omega), if_neg (by omega)]
  · split
    · rw [min_eq_left (by omega), max_eq_right h, if_neg (by omega)]
    · rw [min_eq_right (by omega), max_eq_right (by omega), if_pos (by omega)]

/-- Settles O8: each operation by the rule of the form, its lane function modulo the width. -/
theorem vectorInteger : Obligations.VectorInteger := by
  intro s t a h x on w p q sp sq lo hi um plain hint
  have hw : 0 < w := typeWidth_pos a.ty
  have hpow : (0 : Int) < 2 ^ (w - 1) := by positivity
  have hpow' : (0 : Int) < 2 ^ w := by positivity
  have hq (k : Nat) : q k ≤ 2 ^ w := (laneOf_lt _ _ _).le
  have each (c : Instr) (o : IntOp) (f : Nat → Nat) (g : Nat → Flags)
      (hc : exec c s = onTile t (fun _ => legal (isIntType a.ty) (.vec (.int o a))) s)
      (hf : ∀ k, (intLane o w (laneOf w (x.vr a.vd) k) (p k) (q k)).1 % 2 ^ w = f k % 2 ^ w)
      (hg : ∀ k, (intLane o w (laneOf w (x.vr a.vd) k) (p k) (q k)).2 = g k) :
      SetsLanes c s t.val 4 w a.vd on f (flagsAfter x (512 / w) on g) :=
    setsLanes_congr (setsLanes_int (hc.trans (onTile_legal hint)) h) hf (congrArg (flagsAfter x (512 / w) on) (funext hg))
  refine ⟨each _ .add _ _ rfl (fun k => Nat.mod_mod _ _) fun k => rfl,
    each _ .sub _ _ rfl (fun k => ?_) fun k => rfl,
    each _ .mul _ _ rfl (fun k => Nat.mod_mod _ _) fun k => rfl,
    each _ .madd _ _ rfl (fun k => Nat.mod_mod _ _) fun k => rfl,
    each _ .min _ _ rfl (fun k => rfl) fun k => rfl, each _ .max _ _ rfl (fun k => rfl) fun k => rfl,
    each _ .minu _ _ rfl (fun k => rfl) fun k => rfl, each _ .maxu _ _ rfl (fun k => rfl) fun k => rfl,
    each _ .mulhs _ _ rfl (fun k => rfl) fun k => rfl, each _ .mulhu _ _ rfl (fun k => rfl) fun k => rfl,
    each _ .absdiffu _ _ rfl (fun k => ?_) fun k => rfl,
    each _ .adds _ _ rfl (fun k => ?_) fun k => ?_, each _ .addus _ _ rfl (fun k => ?_) fun k => ?_,
    each _ .subs _ _ rfl (fun k => ?_) fun k => ?_, each _ .subus _ _ rfl (fun k => ?_) fun k => ?_⟩
  · simp only [intLane, unsignedOf_sub (hq k), Nat.mod_mod]
  · congr 1
    simp only [intLane]
    split <;> omega
  all_goals simp only [intLane]; rw [clampInt_eq (by omega)]

/-- Settles O9: bitwise operations by the rule of the form, permutes by theirs, COMPRESS and SEL as writes of every lane. -/
theorem vectorBitsAndPermutes : Obligations.VectorBitsAndPermutes := by
  intro s t a vi h x on w n p q
  refine ⟨fun hint => ?_, ?_⟩
  · have each (c : Instr) (o : BitOp) (f : Nat → Nat)
        (hc : exec c s = onTile t (fun _ => legal (isIntType a.ty) (.vec (.bit o a))) s)
        (hf : ∀ k, bitLane o w a.vs2.val (p k) (q k) % 2 ^ w = f k % 2 ^ w) : SetsLanes c s t.val 4 w a.vd on f x.fstat :=
      setsLanes_congr (setsLanes_bit (hc.trans (onTile_legal hint)) h) hf rfl
    refine ⟨each _ .and _ rfl fun k => rfl, each _ .or _ rfl fun k => rfl, each _ .xor _ rfl fun k => rfl,
      each _ .andn _ rfl fun k => rfl, each _ .shl _ rfl fun k => Nat.mod_mod _ _, each _ .shr _ rfl fun k => rfl,
      each _ .sar _ rfl fun k => rfl, each _ .shli _ rfl fun k => Nat.mod_mod _ _, each _ .shri _ rfl fun k => rfl,
      each _ .sari _ rfl fun k => rfl, each _ .abs _ rfl fun k => ?_, each _ .avgu _ rfl fun k => rfl⟩
    have habs : (if signedOf w (p k) < 0 then -(signedOf w (p k)) else signedOf w (p k)) = ((signedOf w (p k)).natAbs : Int) := by
      split <;> omega
    rw [bitLane, habs, unsignedOf_natCast, Nat.mod_mod]
  · have each (c : Instr) (o : PermOp) (hc : exec c s = onTile t (fun _ => .vec (.perm o a)) s) (hcompress : o ≠ .compress)
        (hsel : o ≠ .sel) : SetsLanes c s t.val 4 w a.vd on (permLane o w (x.vr a.vs1) (x.vr a.vs2)) x.fstat :=
      setsLanes_perm hc h hcompress hsel
    refine ⟨each _ .rev rfl nofun nofun, setsLanes_congr (each _ .ziplo rfl nofun nofun) (fun k => ?_) rfl,
      each _ .ziphi rfl nofun nofun, each _ .unzipe rfl nofun nofun, each _ .unzipo rfl nofun nofun,
      each _ .dup rfl nofun nofun, setsLanes_all (onTile_vec rfl h rfl) rfl, setsLanes_all (onTile_vec rfl h rfl) rfl,
      fun h8 hty => ?_⟩
    · simp only [permLane, Nat.zero_add, p, q, x, w]
    · have hc : exec (.vtbl t a vi) s = onTile t (fun _ => .vec (.tbl a vi)) s := onTile_legal (decide_eq_true hty)
      exact setsLanes_plain (hc.trans (onTile_vec rfl h8 rfl)) rfl

/-- A VCMP writes a bit of its predicate for each active lane. -/
theorem setsP_cmp {c : Instr} {s : State} {t : TileId} {o : CmpOp} {a : VArgs}
    (hc : exec c s = onTile t (fun _ => .vec (.cmp o a)) s) (h : VectorReady s.mach t.val 4) :
    let x := s.mach.tile t.val
    let w := typeWidth a.ty
    let r := fun k : Nat => cmpLane o a.ty (laneOf w (x.vr a.vs1) k) (laneOf w (x.vr a.vs2) k)
    SetsP c s t.val 4 (Fin.ofNat 8 a.vd.val) (predOf (512 / w) (fun k => laneOn (x.pr a.pg) a.pn k && (r k).1))
      (flagsAfter x (512 / w) (laneOn (x.pr a.pg) a.pn) (fun k => (r k).2)) := by
  refine setsP_of (hc.trans (onTile_vec rfl h rfl)) ?_
  rw [flagsAfter, ← laneFlags_eq]
  simp only [vecReg, Tile.addFlags, Tile.setP_fstat]
  rfl

theorem arithFmt_of_int {ty : Fin 8} (h : isIntType ty = true) : arithFmt ty = none := by decide +revert

/-- Settles O10: one rule for the form, and the integer comparisons read off the lane function. -/
theorem vectorCompares : Obligations.VectorCompares := by
  intro s t a h x on w p q bits hvd
  have each (c : Instr) (o : CmpOp) (b : Bool) (hc : exec c s = onTile t (fun _ => legal (b && a.vd.val < 8) (.vec (.cmp o a))) s)
      (hb : b = true) : SetsP c s t.val 4 (Fin.ofNat 8 a.vd.val) (bits (fun k => (cmpLane o a.ty (p k) (q k)).1))
        (flagsAfter x (512 / w) on (fun k => (cmpLane o a.ty (p k) (q k)).2)) :=
    setsP_cmp (hc.trans (onTile_legal (by rw [hb, Bool.true_and, decide_eq_true hvd]))) h
  refine ⟨each _ .eq _ rfl, each _ .ne _ rfl, each _ .lt _ rfl, each _ .le _ rfl, each _ .ltu _ rfl, each _ .leu _ rfl,
    each _ .unord _ rfl, fun hint k => ?_⟩
  simp [cmpLane, arithFmt_of_int hint, w]

/-! ### PRED, moves and CSRs (R162, R197, R198) -/

theorem setsP_pred {c : Instr} {s : State} {t : TileId} {o : PredOp} {pd pa pb : PReg}
    (hc : exec c s = onTile t (fun _ => .vec (.pred o pd pa pb)) s) (h : VectorReady s.mach t.val 4) :
    SetsP c s t.val 4 pd (predOp o ((s.mach.tile t.val).pr pa) ((s.mach.tile t.val).pr pb)) (s.mach.tile t.val).fstat :=
  setsP_plain (hc.trans (onTile_vec rfl h rfl)) rfl

end Sys2Proof.Machine
end

section
/-!
SUPPORT. Predicates, moves between the register files, and CSRs (05_falesk_instruction_set.md R162, R163, R194, R195,
R197, R198, R201).
-/
namespace Sys2Proof.Machine

/-! ### Predicates of a bit for each lane -/

theorem testBit_bitMask (l : List Nat) (i : Nat) : (bitMask l).testBit i = decide (i ∈ l) := by
  have hfold (l : List Nat) (a : Nat) :
      (l.foldl (fun a i => a ||| 2 ^ i) a).testBit i = (a.testBit i || decide (i ∈ l)) := by
    induction l generalizing a with
    | nil => simp
    | cons b r ih =>
      rw [List.foldl_cons, ih, Nat.testBit_or, Nat.testBit_two_pow, Bool.or_assoc]
      congr 1
      simp [eq_comm]
  simpa [bitMask] using hfold l 0

/-- Bits below the least of n and 64 (R198). -/
theorem predOf_firstN (n : Nat) : predOf 64 (fun k => decide (k < n)) = BitVec.ofNat 64 (2 ^ min n 64 - 1) := by
  refine BitVec.eq_of_getLsbD_eq fun i hi => ?_
  rw [predOf, BitVec.getLsbD_ofNat, BitVec.getLsbD_ofNat, testBit_bitMask, Nat.testBit_two_pow_sub_one]
  simp [hi]

/-! ### What holds the core, and what does not -/

section
variable {c : Instr} {s : State} {t : TileId}

/-- An instruction that an interlock holds back is kept, and nothing else happens (04 R123). -/
theorem does_stall {i : TInstr} (hc : exec c s = onTile t (fun _ => i) s) (hr : ScalarReady s.mach t.val i.size)
    (hs : (s.mach.tile t.val).mustStall i = true) :
    Does c s (OnlyTile t.val { s.mach.tile t.val with stalled := some i }) := by
  obtain ⟨hfree, hpc⟩ := hr
  exact does_onTile hc (by simp [Mach.tileInstr, Mach.issue, hfree, hpc, hs])

theorem setsLanes_vhash {o : HashOp} {a : VArgs} (hc : exec c s = onTile t (fun _ => .vec (.vhash o a)) s)
    (h : VectorReady s.mach t.val 4) :
    let x := s.mach.tile t.val
    SetsLanes c s t.val 4 64 a.vd (laneOn (x.pr a.pg) a.pn) (fun k =>
      (hashOp o (BitVec.ofNat 64 (laneOf 64 (x.vr a.vs1) k)) (BitVec.ofNat 64 (laneOf 64 (x.vr a.vs2) k))).toNat) x.fstat :=
  setsLanes_plain (hc.trans (onTile_vec rfl h rfl)) rfl

/-- GTOV writes the lane that g[rs2] names (R197). -/
theorem setsLanes_gtov {vd : VReg} {rs rl : GReg} {size : Fin 4} (h : VectorReady s.mach t.val 4) :
    let x := s.mach.tile t.val
    let w := sizeWidth size
    SetsLanes (.gtov t vd rs rl size) s t.val 4 w vd (fun k => decide (k = (x.gr rl).toNat % (512 / w)))
      (fun _ => (x.gr rs).toNat) x.fstat := by
  refine setsLanes_of (onTile_vec rfl h rfl) rfl fun k hk => ?_
  rw [laneOf_ofLanes _ hk]
  by_cases hlane : k = ((s.mach.tile t.val).gr rl).toNat % (512 / sizeWidth size)
  · rw [if_pos hlane, if_pos (decide_eq_true hlane)]
  · rw [if_neg hlane, if_neg (by simpa using hlane)]
    exact Nat.mod_eq_of_lt (laneOf_lt _ _ _)

end

/-- Settles O12: predicates, moves and hashes each by the rule of its form; VTOG, PRED and CSRW are held back or run. -/
theorem predicatesAndMoves : Obligations.PredicatesAndMoves := by
  refine ⟨?_, ?_⟩
  · intro s t a pd pa pb vd vs rs rl size h x on w p q
    refine ⟨setsP_pred (o := .and) rfl h, setsP_pred (o := .or) rfl h, setsP_pred (o := .xor) rfl h,
      setsP_pred (o := .andn) rfl h, setsP_pred (o := .not) (pb := 0) rfl h, setsP_plain (onTile_vec rfl h rfl) rfl,
      predOf_firstN _ ▸ setsP_plain (onTile_vec rfl h rfl) rfl, setsLanes_gtov h,
      setsLanes_all (onTile_vec rfl h rfl) rfl, setsLanes_of (onTile_vec rfl h rfl) rfl fun k hk => ?_, fun hty => ?_,
      setsLanes_plain (onTile_vec rfl h rfl) rfl⟩
    · exact (Nat.mod_eq_of_lt (laneOf_lt 8 _ k)).symm
    · have each (c : Instr) (o : HashOp) (hc : exec c s = onTile t (fun _ => legal (a.ty = 0) (.vec (.vhash o a))) s) :
          SetsLanes c s t.val 4 64 a.vd on (fun k => (hashOp o (BitVec.ofNat 64 (p k)) (BitVec.ofNat 64 (q k))).toNat) x.fstat :=
        setsLanes_vhash (hc.trans (onTile_legal (decide_eq_true hty))) h
      refine ⟨each _ .ghinit rfl, each _ .ghstep rfl, each _ .ghfin rfl, setsLanes_congr (each _ (.crc 8) rfl) (fun k => ?_) rfl⟩
      have hp : (BitVec.ofNat 64 (p k)).setWidth 32 = BitVec.ofNat 32 (p k) := by
        refine BitVec.eq_of_toNat_eq ?_
        simp
      have hq : (BitVec.ofNat 64 (q k)).toNat = q k := Nat.mod_eq_of_lt (laneOf_lt 64 _ k)
      rw [hashOp, hp, hq]
  · intro s t rd rs vs pa size hr x w
    refine ⟨setsG_issue (i := fun _ => .csrr rd 1) rfl hr rfl rfl, setsG_issue (i := fun _ => .csrr rd 2) rfl hr rfl rfl,
      setsPc_issue (i := fun _ => .nop) rfl hr rfl rfl, fun hvq => ?_, fun hvq => ?_⟩
    · have free (i : TInstr) (hi : x.mustStall i = !x.vq.isEmpty) : x.mustStall i = false := by rw [hi, hvq]; rfl
      refine ⟨setsG_issue rfl hr (free (.vtog rd vs rs size) rfl) rfl, setsG_issue rfl hr (free (.predToG rd pa) rfl) rfl, ?_,
        setsG_issue rfl hr (free (.csrr rd 0) rfl) rfl,
        does_onTile rfl (Mach.tileInstr_ready (i := fun _ => .csrw 0 rs) hr (free (.csrw 0 rs) rfl))⟩
      rw [← salu_popc _ 0]
      exact setsG_issue rfl hr (free (.predPopc rd pa) rfl) rfl
    · have held (i : TInstr) (hi : x.mustStall i = !x.vq.isEmpty) : x.mustStall i = true := by rw [hi]; simpa using hvq
      exact ⟨does_stall rfl hr (held _ rfl), does_stall rfl hr (held _ rfl), does_stall rfl hr (held _ rfl)⟩

end Sys2Proof.Machine
end

section
/-!
SUPPORT. Reductions: what the fixed order of combining keeps, the width of floating-point results, and the write of one
result into lane 0 (05_falesk_instruction_set.md R184 to R186, R191).
-/
namespace Sys2Proof.Machine

/-! ### The fixed order (R191) -/

section
variable {op : Nat → Nat → Nat × Flags}

theorem length_redPass : ∀ l : List Nat, (redPass op l).1.length = (l.length + 1) / 2
  | [] => rfl
  | [_] => by simp [redPass]
  | _ :: _ :: r => by
    simp only [redPass, List.length_cons, length_redPass r]; omega

/-- What every pass keeps of a list of 2^k lanes holds of the lane that is left. -/
theorem redTree_keeps {Q : List Nat → Prop} (hstep : ∀ l, Q l → Q (redPass op l).1) {k : Nat} {l : List Nat} {fl : Flags}
    (hlen : l.length = 2 ^ k) (hQ : Q l) : Q [(redTree op k (l, fl)).1] := by
  induction k generalizing l fl with
  | zero =>
    obtain ⟨a, rfl⟩ := List.length_eq_one_iff.mp hlen
    exact hQ
  | succ k ih => exact ih (by rw [length_redPass, hlen, pow_succ]; omega) (hstep l hQ)

theorem redLanes_keeps {Q : List Nat → Prop} (hstep : ∀ l, Q l → Q (redPass op l).1) {k : Nat} {l : List Nat}
    (hlen : l.length = 2 ^ k) (hQ : Q l) : Q [(redLanes op l).1] := by
  rw [redLanes, hlen, Nat.log2_two_pow]
  exact redTree_keeps hstep hlen hQ

/-- A property of lanes that the operation keeps. -/
theorem redPass_forall {P : Nat → Prop} (hop : ∀ a b, P a → P b → P (op a b).1) :
    ∀ l : List Nat, (∀ x ∈ l, P x) → ∀ x ∈ (redPass op l).1, P x
  | [], h => h
  | [_], h => h
  | a :: b :: r, h => by
    simp only [List.forall_mem_cons] at h
    obtain ⟨ha, hb, hr⟩ := h
    exact List.forall_mem_cons.mpr ⟨hop a b ha hb, redPass_forall hop r hr⟩

theorem redLanes_forall {P : Nat → Prop} (hop : ∀ a b, P a → P b → P (op a b).1) {k : Nat} {l : List Nat}
    (hlen : l.length = 2 ^ k) (h : ∀ x ∈ l, P x) : P (redLanes op l).1 :=
  redLanes_keeps (Q := fun l => ∀ x ∈ l, P x) (redPass_forall hop) hlen h _ (List.mem_singleton_self _)

/-- An operation that adds modulo M keeps the sum modulo M. -/
theorem sum_redPass {M : Nat} (hop : ∀ a b, (op a b).1 ≡ a + b [MOD M]) : ∀ l : List Nat, (redPass op l).1.sum ≡ l.sum [MOD M]
  | [] => rfl
  | [_] => rfl
  | a :: b :: r => by
    simp only [redPass, List.sum_cons, ← Nat.add_assoc a b]
    exact (hop a b).add (sum_redPass hop r)

theorem sum_redLanes {M k : Nat} (hop : ∀ a b, (op a b).1 ≡ a + b [MOD M]) {l : List Nat} (hlen : l.length = 2 ^ k) :
    (redLanes op l).1 ≡ l.sum [MOD M] := by
  simpa using redLanes_keeps (Q := fun m => m.sum ≡ l.sum [MOD M]) (fun m hm => (sum_redPass hop m).trans hm) hlen rfl

/-- Every lane stands in relation R to one of the lanes that a pass makes. -/
theorem redPass_covers {R : Nat → Nat → Prop} (hrefl : ∀ a, R a a) (hop : ∀ a b, R (op a b).1 a ∧ R (op a b).1 b) :
    ∀ l : List Nat, ∀ y ∈ l, ∃ x ∈ (redPass op l).1, R x y
  | [], y, hy => ⟨y, hy, hrefl y⟩
  | [_], y, hy => ⟨y, hy, hrefl y⟩
  | a :: b :: r, y, hy => by
    rw [List.mem_cons, List.mem_cons] at hy
    rcases hy with rfl | rfl | hy
    · exact ⟨_, List.mem_cons_self, (hop _ _).1⟩
    · exact ⟨_, List.mem_cons_self, (hop _ _).2⟩
    · obtain ⟨x, hx, hR⟩ := redPass_covers hrefl hop r y hy
      exact ⟨x, List.mem_cons_of_mem _ hx, hR⟩

/-- An operation that takes the lesser of two lanes reduces to a least lane. -/
theorem redLanes_least {R : Nat → Nat → Prop} (hrefl : ∀ a, R a a) (htrans : ∀ a b c, R a b → R b c → R a c)
    (hop : ∀ a b, R (op a b).1 a ∧ R (op a b).1 b) (hsel : ∀ a b, (op a b).1 = a ∨ (op a b).1 = b) {k : Nat} {l : List Nat}
    (hlen : l.length = 2 ^ k) : (redLanes op l).1 ∈ l ∧ ∀ y ∈ l, R (redLanes op l).1 y := by
  refine ⟨redLanes_forall (P := fun x => x ∈ l) (fun a b ha hb => ?_) hlen fun _ => id, ?_⟩
  · rcases hsel a b with h | h <;> rwa [h]
  · have h := redLanes_keeps (op := op) (Q := fun m => ∀ y ∈ l, ∃ x ∈ m, R x y) (fun m hm y hy => ?_) hlen
      (fun y hy => ⟨y, hy, hrefl y⟩)
    · simpa using h
    · obtain ⟨x, hx, hxy⟩ := hm y hy
      obtain ⟨z, hz, hzx⟩ := redPass_covers hrefl hop m x hx
      exact ⟨z, hz, htrans _ _ _ hzx hxy⟩

/-- An operation without flags reduces without flags. -/
theorem flags_redPass (hop : ∀ a b, (op a b).2 = 0) : ∀ l : List Nat, (redPass op l).2 = 0
  | [] => rfl
  | [_] => rfl
  | a :: b :: r => by simp [redPass, hop, flags_redPass hop r]

theorem flags_redLanes (hop : ∀ a b, (op a b).2 = 0) (l : List Nat) : (redLanes op l).2 = 0 := by
  unfold redLanes
  generalize Nat.log2 l.length = k
  induction k generalizing l with
  | zero => rfl
  | succ k ih => simpa [redTree, flags_redPass hop] using ih (redPass op l).1

end

/-! ### Widths of floating-point results (R184) -/

/-- The patterns that a format's operations make lie below n. -/
def FpFmt.Fits (f : FpFmt) (n : Nat) : Prop :=
  f.nan < n ∧ f.infinity false < n ∧ f.infinity true < n ∧ f.maxFinite + f.signBit < n

section
variable {f : FpFmt} {n : Nat}

theorem overflowed_lt (h : f.Fits n) (ov : OvfRule) (rm : Rm) (s : Bool) : f.overflowed ov rm s < n := by
  obtain ⟨-, hpos, hneg, htop⟩ := h
  have hinf : f.infinity s < n := by cases s <;> assumption
  have hmax : f.maxFinite + (if s then f.signBit else 0) < n := by split <;> omega
  unfold FpFmt.overflowed
  cases ov
  · exact hinf
  · exact hmax
  · dsimp only
    split <;> assumption

/-- A rounded result has the width of its format. -/
theorem round_lt (h : f.Fits n) (rm : Rm) (ov : OvfRule) (s : Bool) (m : Nat) (e : Int) : (f.round rm ov s m e).1 < n := by
  obtain ⟨-, -, -, htop⟩ := id h
  have hsign : (if s then f.signBit else 0) ≤ f.signBit := by split <;> omega
  unfold FpFmt.round
  dsimp only
  generalize (if s then f.signBit else 0) = sg at hsign
  split
  · dsimp only; omega
  · generalize (if _ < 2 ^ f.fb then _ else _ : Nat) = pat
    split
    · exact overflowed_lt h ov rm s
    · dsimp only; omega

theorem sumOf_lt (h : f.Fits n) (l : List Fp) : (f.sumOf l).1 < n := by
  obtain ⟨hnan, hpos, hneg, -⟩ := id h
  unfold FpFmt.sumOf
  dsimp only
  split_ifs
  · exact hnan
  · exact hnan
  · exact hpos
  · exact hneg
  · exact round_lt h ..
  · exact round_lt h ..

theorem fpMinMax_lt (h : f.Fits n) (isMax : Bool) {a b : Nat} (ha : a < n) (hb : b < n) : (fpMinMax f isMax a b).1 < n := by
  obtain ⟨hnan, -⟩ := h
  unfold fpMinMax
  dsimp only
  split_ifs <;> assumption

theorem fpToFp_lt {g : FpFmt} (h : g.Fits n) (rm : Rm) (sat : Bool) (a : Nat) : (fpToFp f g rm sat a).1 < n := by
  obtain ⟨hnan, hpos, hneg, -⟩ := id h
  unfold fpToFp
  split
  · exact hnan
  next s _ =>
    have hinf : g.infinity s < n := by cases s <;> assumption
    have hmax : g.overflowed .saturate rm s < n := overflowed_lt h ..
    split <;> assumption
  · exact round_lt h ..

end

theorem fits_of_fmt {ty : Fin 8} {f : FpFmt} (h : arithFmt ty = some f) : f.Fits (2 ^ typeWidth ty) := by
  fin_cases ty <;> simp_all [arithFmt] <;> subst h <;> unfold FpFmt.Fits <;> decide

theorem fits_fp32 : fp32.Fits (2 ^ 32) := by unfold FpFmt.Fits; decide

/-! ### Lane 0 (R191) -/

/-- The command completes and puts r into lane 0 of v[vd], of w bits, and 0 into every other lane; FSTAT takes the flags
and PC moves on. -/
def SetsFirstLane (c : Instr) (s : State) (t w : Nat) (vd : VReg) (r : Nat × Flags) : Prop :=
  ∃ y : Tile, Does c s (OnlyTile t y) ∧ (∀ k : Nat, k < 512 / w → laneOf w (y.vr vd) k = if k = 0 then r.1 % 2 ^ w else 0) ∧
    (∀ u : VReg, u ≠ vd → y.vr u = (s.mach.tile t).vr u) ∧
    y = { s.mach.tile t with v := y.v, fstat := ((s.mach.tile t).fstat ||| r.2) % 64, pc := (s.mach.tile t).pc + 4 }

/-- A number of w bits lies in lane 0 alone. -/
theorem laneOf_ofNat {w z k : Nat} (hz : z < 2 ^ w) (hk : k < 512 / w) :
    laneOf w (BitVec.ofNat 512 z) k = if k = 0 then z else 0 := by
  have hw : w ≤ 512 := by
    by_contra h
    rw [Nat.div_eq_of_lt (by omega)] at hk
    omega
  have hwide (n : Nat) (hn : w ≤ n) : z < 2 ^ n := hz.trans_le (Nat.pow_le_pow_right Nat.two_pos hn)
  rw [laneOf, BitVec.toNat_ofNat, Nat.mod_eq_of_lt (hwide 512 hw)]
  split
  next h => subst h; simpa using Nat.mod_eq_of_lt hz
  next h =>
    rw [Nat.div_eq_of_lt (hwide _ (Nat.le_mul_of_pos_right _ (by omega))), Nat.zero_mod]

section
variable {c : Instr} {s : State} {t : TileId} {o : RedOp} {a : VArgs} {w : Nat} {r : Nat × Flags}

theorem setsFirstLane_congr {vd : VReg} {r' : Nat × Flags} (h : SetsFirstLane c s t w vd r) (hval : r.1 ≡ r'.1 [MOD 2 ^ w])
    (hfl : r.2 = r'.2) : SetsFirstLane c s t w vd r' := by
  unfold SetsFirstLane at h ⊢
  rwa [hval, hfl] at h

/-- A reduction whose result has the width. -/
theorem setsFirstLane_red (hc : exec c s = onTile t (fun _ => .vec (.red o a)) s) (h : VectorReady s.mach t.val 4)
    (hlt : (vred o a.ty ((s.mach.tile t.val).pr a.pg) a.pn ((s.mach.tile t.val).vr a.vs1)).1 < 2 ^ w)
    (hval : (vred o a.ty ((s.mach.tile t.val).pr a.pg) a.pn ((s.mach.tile t.val).vr a.vs1)).1 = r.1 % 2 ^ w)
    (hfl : (vred o a.ty ((s.mach.tile t.val).pr a.pg) a.pn ((s.mach.tile t.val).vr a.vs1)).2 |||
      redWidenFlags o a.ty ((s.mach.tile t.val).pr a.pg) a.pn ((s.mach.tile t.val).vr a.vs1) = r.2) :
    SetsFirstLane c s t.val w a.vd r := by
  refine ⟨_, does_vec hc h rfl, fun k hk => ?_, fun u hu => ?_, ?_⟩
  · rw [← hval, ← laneOf_ofNat hlt hk]
    exact congrArg (laneOf w · k) ((Tile.vr_setV _ a.vd a.vd _).trans (if_pos rfl))
  · exact (Tile.vr_setV _ a.vd u _).trans (if_neg hu)
  · rw [← hfl]; rfl

end

/-- The lanes of a TYPE are 2^k in number. -/
theorem lanes_pow (ty : Fin 8) : ∃ k, 512 / typeWidth ty = 2 ^ k := by
  fin_cases ty
  exacts [⟨4, rfl⟩, ⟨5, rfl⟩, ⟨5, rfl⟩, ⟨6, rfl⟩, ⟨6, rfl⟩, ⟨6, rfl⟩, ⟨5, rfl⟩, ⟨4, rfl⟩]

theorem typeFmt_of_arith {ty : Fin 8} {f : FpFmt} (h : arithFmt ty = some f) : typeFmt ty = some f := by
  revert f; decide +revert

theorem typeFmt_of_int {ty : Fin 8} (h : isIntType ty = true) : typeFmt ty = none := by decide +revert

theorem isFp8_of_arith {ty : Fin 8} {f : FpFmt} (h : arithFmt ty = some f) : isFp8 ty = false := by
  revert f; decide +revert

theorem isFp8_of_int {ty : Fin 8} (h : isIntType ty = true) : isFp8 ty = false := by decide +revert

/-- Inactive lanes counted as 0 add nothing. -/
theorem sum_ite_zero (l : List Nat) (on : Nat → Bool) (f : Nat → Nat) :
    (l.map (fun k => if on k then f k else 0)).sum = ((l.filter on).map f).sum := by
  induction l with
  | nil => rfl
  | cons k l ih =>
    rw [List.map_cons, List.sum_cons, ih, List.filter_cons]
    split <;> simp

/-- Numbers of w bits add up as the integers do, modulo 2^w. -/
theorem sum_unsignedOf (w : Nat) (l : List Nat) (z : Nat → Int) :
    (l.map (fun k => unsignedOf w (z k))).sum ≡ unsignedOf w (l.map z).sum [MOD 2 ^ w] := by
  rw [← Int.natCast_modEq_iff]
  induction l with
  | nil => rfl
  | cons k l ih =>
    simp only [List.map_cons, List.sum_cons, Nat.cast_add, cast_unsignedOf, Nat.cast_pow, Nat.cast_ofNat] at ih ⊢
    exact ((Int.mod_modEq _ _).add (ih.trans (Int.mod_modEq _ _))).trans (Int.mod_modEq _ _).symm

/-- The lesser of two signed lanes. -/
theorem intLane_min_le (w d a b : Nat) :
    signedOf w (intLane .min w d a b).1 ≤ signedOf w a ∧ signedOf w (intLane .min w d a b).1 ≤ signedOf w b := by
  simp only [intLane]
  split <;> omega

theorem le_intLane_max (w d a b : Nat) :
    signedOf w a ≤ signedOf w (intLane .max w d a b).1 ∧ signedOf w b ≤ signedOf w (intLane .max w d a b).1 := by
  simp only [intLane]
  split <;> omega

theorem modEq_intLane_add (w d a b : Nat) : (intLane .add w d a b).1 ≡ a + b [MOD 2 ^ w] := Nat.mod_modEq _ _

theorem intLane_add_lt (w d a b : Nat) : (intLane .add w d a b).1 < 2 ^ w := Nat.mod_lt _ (by positivity)

theorem redWidenFlags_of_int {ty : Fin 8} (h : isIntType ty = true) (o : RedOp) (p : U64) (pn : Bool) (v : V512) :
    redWidenFlags o ty p pn v = 0 := by
  cases o <;> simp [redWidenFlags, typeFmt_of_int h]

/-- The lanes that a reduction combines: g of each active lane, and for an inactive one the identity (R191). -/
def redInput (x : Tile) (a : VArgs) (ident : Nat) (g : Nat → Nat) : List Nat :=
  (List.range (512 / typeWidth a.ty)).map (fun k =>
    if laneOn (x.pr a.pg) a.pn k then g (laneOf (typeWidth a.ty) (x.vr a.vs1) k) else ident)

section
variable {x : Tile} {a : VArgs} {i : Nat} {g : Nat → Nat}

theorem length_redInput (x : Tile) (a : VArgs) (i : Nat) (g : Nat → Nat) : ∃ k, (redInput x a i g).length = 2 ^ k := by
  simpa [redInput] using lanes_pow a.ty

theorem forall_redInput {P : Nat → Prop} (hi : P i) (hg : ∀ k, P (g (laneOf (typeWidth a.ty) (x.vr a.vs1) k))) :
    ∀ z ∈ redInput x a i g, P z := by
  intro z hz
  obtain ⟨k, -, rfl⟩ := List.mem_map.mp hz
  split
  · exact hg k
  · exact hi

/-- An operation that takes the lesser of two lanes, on the lanes as they are: the result is the identity or an active
lane, and no active lane is less. -/
theorem redInput_least {op : Nat → Nat → Nat × Flags} {R : Nat → Nat → Prop} (hrefl : ∀ y, R y y)
    (htrans : ∀ y z u, R y z → R z u → R y u) (hop : ∀ y z, R (op y z).1 y ∧ R (op y z).1 z)
    (hsel : ∀ y z, (op y z).1 = y ∨ (op y z).1 = z) :
    ((redLanes op (redInput x a i id)).1 = i ∨ ∃ k, k < 512 / typeWidth a.ty ∧ laneOn (x.pr a.pg) a.pn k = true ∧
      (redLanes op (redInput x a i id)).1 = laneOf (typeWidth a.ty) (x.vr a.vs1) k) ∧
    ∀ k, k < 512 / typeWidth a.ty → laneOn (x.pr a.pg) a.pn k = true →
      R (redLanes op (redInput x a i id)).1 (laneOf (typeWidth a.ty) (x.vr a.vs1) k) := by
  obtain ⟨n, hlen⟩ := length_redInput x a i id
  obtain ⟨hmem, hall⟩ := redLanes_least hrefl htrans hop hsel hlen
  refine ⟨?_, fun k hk hon => hall _ (List.mem_map.mpr ⟨k, List.mem_range.mpr hk, if_pos hon⟩)⟩
  obtain ⟨k, hk, he⟩ := List.mem_map.mp hmem
  by_cases hon : laneOn (x.pr a.pg) a.pn k = true
  · exact .inr ⟨k, List.mem_range.mp hk, hon, he.symm.trans (if_pos hon)⟩
  · exact .inl (he.symm.trans (if_neg hon))

end

section
variable {c : Instr} {s : State} {t : TileId} {o : RedOp} {a : VArgs} {b : Bool} {w i : Nat} {g : Nat → Nat}
  (h : VectorReady s.mach t.val 4) (hc : exec c s = onTile t (fun _ => legal b (.vec (.red o a))) s) (hb : b = true)
  (hi : i < 2 ^ w) (hg : ∀ k, g (laneOf (typeWidth a.ty) ((s.mach.tile t.val).vr a.vs1) k) < 2 ^ w)
include h hc hb hi hg

/-- A reduction by an operation of width w. -/
theorem setsFirstLane_redLanes {op : Nat → Nat → Nat × Flags} {fl : Flags}
    (hred : vred o a.ty ((s.mach.tile t.val).pr a.pg) a.pn ((s.mach.tile t.val).vr a.vs1) =
      redLanes op (redInput (s.mach.tile t.val) a i g))
    (hfl : redWidenFlags o a.ty ((s.mach.tile t.val).pr a.pg) a.pn ((s.mach.tile t.val).vr a.vs1) = fl)
    (hop : ∀ y z, y < 2 ^ w → z < 2 ^ w → (op y z).1 < 2 ^ w) :
    SetsFirstLane c s t.val w a.vd ((redLanes op (redInput (s.mach.tile t.val) a i g)).1,
      (redLanes op (redInput (s.mach.tile t.val) a i g)).2 ||| fl) := by
  obtain ⟨k, hlen⟩ := length_redInput (s.mach.tile t.val) a i g
  have hlt := redLanes_forall hop hlen (forall_redInput hi hg)
  exact setsFirstLane_red (hc.trans (onTile_legal hb)) h (by rwa [hred]) (by rw [hred, Nat.mod_eq_of_lt hlt]) (by rw [hred, hfl])

/-- A reduction of integers by an operation without flags, with any result that agrees modulo 2^w. -/
theorem setsFirstLane_int {io : IntOp} {r : Nat} (hint : isIntType a.ty = true)
    (hred : vred o a.ty ((s.mach.tile t.val).pr a.pg) a.pn ((s.mach.tile t.val).vr a.vs1) =
      redLanes (intLane io w 0) (redInput (s.mach.tile t.val) a i g))
    (hfl : ∀ y z, (intLane io w 0 y z).2 = 0)
    (hop : ∀ y z, y < 2 ^ w → z < 2 ^ w → (intLane io w 0 y z).1 < 2 ^ w)
    (hr : (redLanes (intLane io w 0) (redInput (s.mach.tile t.val) a i g)).1 ≡ r [MOD 2 ^ w]) :
    SetsFirstLane c s t.val w a.vd (r, 0) :=
  setsFirstLane_congr (setsFirstLane_redLanes h hc hb hi hg hred (redWidenFlags_of_int hint ..) hop) hr
    (by rw [flags_redLanes hfl]; rfl)

end

/-- Settles O11: every reduction by the rule of the form, its result by what the fixed order keeps. -/
theorem vectorReductions : Obligations.VectorReductions := by
  intro s t a h x on w p ls one
  have hp (k : Nat) : p k < 2 ^ w := laneOf_lt _ _ _
  refine ⟨fun f hf => ?_, fun f hf hty => ?_, fun hint => ?_⟩
  · obtain ⟨hnan, hpos, hneg, htop⟩ := id (fits_of_fmt hf)
    have each (c : Instr) (o : RedOp) (op : Nat → Nat → Nat × Flags) (i : Nat)
        (hc : exec c s = onTile t (fun _ => legal (!isFp8 a.ty) (.vec (.red o a))) s)
        (hred : vred o a.ty (x.pr a.pg) a.pn (x.vr a.vs1) = redLanes op (ls i id))
        (hfl : redWidenFlags o a.ty (x.pr a.pg) a.pn (x.vr a.vs1) = 0)
        (hop : ∀ y z, y < 2 ^ w → z < 2 ^ w → (op y z).1 < 2 ^ w) (hi : i < 2 ^ w) : one c w (redLanes op (ls i id)) :=
      setsFirstLane_congr (setsFirstLane_redLanes h hc (by rw [isFp8_of_arith hf]; rfl) hi hp hred hfl hop) rfl (Nat.or_zero _)
    refine ⟨each _ .sum _ _ rfl ?_ rfl (fun y z _ _ => sumOf_lt (fits_of_fmt hf) _) (by positivity),
      each _ .min _ _ rfl ?_ rfl (fun y z => fpMinMax_lt (fits_of_fmt hf) false) hpos,
      each _ .max _ _ rfl ?_ rfl (fun y z => fpMinMax_lt (fits_of_fmt hf) true) hneg⟩
    all_goals simp only [vred, typeFmt_of_arith hf]; rfl
  · intro r
    have hty7 : a.ty ≠ 7 := by rintro h7; rw [h7] at hf; exact nomatch hf
    exact setsFirstLane_redLanes (o := .sumw) (g := fun z => (fpToFp f fp32 .rne false z).1) h rfl (by simp [hty, hty7])
      (by positivity) (fun k => fpToFp_lt fits_fp32 _ _ _) (by simp only [vred, hf]; rfl) (by simp only [redWidenFlags, hf]; rfl)
      fun y z _ _ => sumOf_lt fits_fp32 _
  · have hnone := typeFmt_of_int hint
    have hfp8 : (!isFp8 a.ty) = true := by rw [isFp8_of_int hint]; rfl
    have hmin (y z : Nat) : (intLane .min w 0 y z).1 = y ∨ (intLane .min w 0 y z).1 = z := by
      simp only [intLane]; split <;> simp
    have hmax (y z : Nat) : (intLane .max w 0 y z).1 = y ∨ (intLane .max w 0 y z).1 = z := by
      simp only [intLane]; split <;> simp
    have hhalf : 2 ^ (w - 1) < 2 ^ w := Nat.pow_lt_pow_right (by decide) (Nat.sub_lt (typeWidth_pos a.ty) Nat.one_pos)
    refine ⟨?_, fun hty => ?_, ⟨_, setsFirstLane_int (o := .min) (io := .min) (g := id) (i := 2 ^ (w - 1) - 1) h rfl hfp8
        ((Nat.sub_le _ _).trans_lt hhalf) hp hint (by simp only [vred, hnone]; rfl) (fun _ _ => rfl) (fun y z hy hz => ?_) rfl,
        redInput_least (R := fun y z => signedOf w y ≤ signedOf w z) (fun _ => le_rfl) (fun _ _ _ => le_trans)
          (intLane_min_le w 0) hmin⟩,
      ⟨_, setsFirstLane_int (o := .max) (io := .max) (g := id) (i := 2 ^ (w - 1)) h rfl hfp8 hhalf hp hint
        (by simp only [vred, hnone]; rfl) (fun _ _ => rfl) (fun y z hy hz => ?_) rfl,
        redInput_least (R := fun y z => signedOf w z ≤ signedOf w y) (fun _ => le_rfl) (fun _ _ _ h1 h2 => h2.trans h1)
          (le_intLane_max w 0) hmax⟩⟩
    · obtain ⟨k, hlen⟩ := length_redInput x a 0 id
      exact setsFirstLane_int (o := .sum) (io := .add) (g := id) (i := 0) h rfl hfp8 (by positivity) hp hint
        (by simp only [vred, hnone]; rfl) (fun _ _ => rfl) (fun y z _ _ => intLane_add_lt w 0 y z)
        ((sum_redLanes (modEq_intLane_add w 0) hlen).trans (congrArg (· % 2 ^ w) (sum_ite_zero ..)))
    · obtain ⟨k, hlen⟩ := length_redInput x a 0 (fun z => unsignedOf 32 (signedOf w z))
      have hty0 : a.ty ≠ 0 := by rintro h0; rw [h0] at hint; exact nomatch hint
      exact setsFirstLane_int (o := .sumw) (io := .add) (i := 0) h rfl (by simp [hty, hty0]) (by positivity)
        (fun k => unsignedOf_lt 32 _) hint (by simp only [vred, hnone]; rfl) (fun _ _ => rfl)
        (fun y z _ _ => intLane_add_lt 32 0 y z) ((sum_redLanes (modEq_intLane_add 32 0) hlen).trans
          (Nat.ModEq.trans (congrArg (· % 2 ^ 32) (sum_ite_zero ..)) (sum_unsignedOf 32 _ _)))
    · rcases hmin y z with hyz | hyz <;> rwa [hyz]
    · rcases hmax y z with hyz | hyz <;> rwa [hyz]

end Sys2Proof.Machine
end

section
/-!
SUPPORT. Bytes of memory after job code has written: what a place reads after a write of another, after a sequence of
writes, and what such writes leave alone (01_architecture.md R44 to R49; 06_synchronisation_and_work_stealing.md R226,
R227; 17_health_faults_event_recorder.md R593).
-/
namespace Sys2Proof.Machine

/-! ### Which address a place has (01 R44, R45) -/

section
variable {v : Variant} {t a : Nat}

theorem locOf_gddr {o : Nat} (h : locOf v (some t) a = .gddr o) : a = o := by
  unfold locOf at h
  split_ifs at h
  exact Loc.gddr.inj h

theorem locOf_regs {o : Nat} (h : locOf v (some t) a = .regs o) : a = 0x7F0000000000 + o := by
  unfold locOf at h
  dsimp only at h
  split_ifs at h with _ _ _ hr
  have := Loc.regs.inj h
  omega

/-- SRAM of a cluster answers in its window and in the own window of its tiles. -/
theorem locOf_cluster {c o : Nat} (h : locOf v (some t) a = .cluster c o) :
    a = 0x400000000000 + c * 0x800000 + o ∧ a < 0x400010000000 ∨ a = 0x4FFFFF800000 + o := by
  have hclus : clusterCount v ≤ 32 := by cases v <;> decide
  unfold locOf at h
  dsimp only at h
  split_ifs at h <;> obtain ⟨hc, ho⟩ := Loc.cluster.inj h <;> omega

/-- SRAM of a tile answers in its window and in its own one. -/
theorem locOf_tile {k o : Nat} (h : locOf v (some t) a = .tile k o) :
    a = 0x500000000000 + k * 0x80000 + o ∧ a < 0x500010000000 ∨ a = 0x5FFFFFF80000 + o := by
  have hdies : dieCount v ≤ 4 := by cases v <;> decide
  unfold locOf at h
  dsimp only at h
  split_ifs at h <;> obtain ⟨hc, ho⟩ := Loc.tile.inj h <;> omega

/-- Two addresses of one place lie far apart. -/
theorem locOf_inj {b : Nat} (h : locOf v (some t) a = locOf v (some t) b) (hbacked : locOf v (some t) a ≠ .unbacked)
    (hab : a < b + 2 ^ 32) (hba : b < a + 2 ^ 32) : a = b := by
  cases ha : locOf v (some t) a with
  | gddr o => exact (locOf_gddr ha).trans (locOf_gddr (h.symm.trans ha)).symm
  | regs o => exact (locOf_regs ha).trans (locOf_regs (h.symm.trans ha)).symm
  | unbacked => exact absurd ha hbacked
  | cluster c o => have := locOf_cluster ha; have := locOf_cluster (h.symm.trans ha); omega
  | tile k o => have := locOf_tile ha; have := locOf_tile (h.symm.trans ha); omega

end

/-! ### One byte -/

/-- A place whose byte is the last one written there: memory other than the queue state of a cluster (06 R226). -/
def Loc.holds : Loc → Bool
  | .gddr _ => true
  | .cluster _ off => off < 0x40000 || 0x50000 ≤ off
  | .tile _ _ => true
  | .regs _ => false
  | .unbacked => false

/-- What a place reads after a write. -/
theorem Mach.locByte_putLoc (m : Mach) (k l : Loc) (b : Byte) :
    (m.putLoc k b).locByte l = if k = l ∧ l.holds = true then b else m.locByte l := by
  have apart (h : k ≠ l) (he : (m.putLoc k b).locByte l = m.locByte l) :
      (m.putLoc k b).locByte l = if k = l ∧ l.holds = true then b else m.locByte l := by rw [if_neg fun hc => h hc.1, he]
  cases k with
  | gddr a =>
    cases l with
    | gddr a' =>
      refine (memByte_put _ _ _ _).trans ?_
      simp only [Loc.gddr.injEq, eq_comm (a := a'), Loc.holds, and_true]; rfl
    | _ => exact apart nofun rfl
  | cluster c off =>
    cases l with
    | cluster c' off' =>
      simp only [Mach.putLoc, Mach.locByte, Mach.clus_setClus, Mach.setClus_draws, Loc.cluster.injEq, Loc.holds,
        Bool.or_eq_true, decide_eq_true_eq]
      by_cases hq : 0x40000 ≤ off' ∧ off' < 0x50000
      · rw [if_pos hq, if_neg (by omega), if_pos hq]
      · rw [if_neg hq, if_neg hq]
        by_cases hc : c' = c
        · rw [if_pos hc, memByte_put, hc]
          by_cases ho : off' = off
          · rw [if_pos ho, if_pos (by omega)]
          · rw [if_neg ho, if_neg (by omega)]
        · rw [if_neg hc, if_neg (by omega)]
    | _ => exact apart nofun rfl
  | tile t off =>
    cases l with
    | tile t' off' =>
      simp only [Mach.putLoc, Mach.locByte, Mach.tile_setTile, Loc.tile.injEq, Loc.holds, and_true]
      by_cases ht : t' = t
      · rw [if_pos ht, memByte_put, ht]
        by_cases ho : off' = off
        · rw [if_pos ho, if_pos (by omega)]
        · rw [if_neg ho, if_neg (by omega)]
      · rw [if_neg ht, if_neg (by omega)]
    | _ => exact apart nofun rfl
  | regs off => exact (if_neg fun ⟨hc, hh⟩ => by rw [← hc] at hh; cases hh).symm
  | unbacked => exact (if_neg fun ⟨hc, hh⟩ => by rw [← hc] at hh; cases hh).symm

/-- What job code may write lies in memory. -/
theorem Loc.holds_of_mayWrite {x : Tile} {l : Loc} (h : x.mayWrite l = true) (hbacked : l ≠ .unbacked) : l.holds = true := by
  cases l with
  | cluster c off =>
    simp only [Tile.mayWrite, Tile.ownMailbox, Bool.and_eq_true, decide_eq_true_eq] at h
    simp only [Loc.holds, Bool.or_eq_true, decide_eq_true_eq]
    omega
  | regs off => cases h
  | unbacked => exact absurd rfl hbacked
  | _ => rfl

/-! ### A sequence of writes -/

/-- What a place that read d reads after writes in order. -/
def lastWritten (l : Loc) (d : Byte) (ws : List (Loc × Byte)) : Byte :=
  ws.foldl (fun d p => if p.1 = l ∧ l.holds = true then p.2 else d) d

theorem lastWritten_append (l : Loc) (d : Byte) (ws us : List (Loc × Byte)) :
    lastWritten l d (ws ++ us) = lastWritten l (lastWritten l d ws) us := List.foldl_append

/-- Writes elsewhere. -/
theorem lastWritten_elsewhere {l : Loc} {d : Byte} {ws : List (Loc × Byte)} (h : ∀ p ∈ ws, p.1 ≠ l) : lastWritten l d ws = d := by
  induction ws generalizing d with
  | nil => rfl
  | cons p ws ih =>
    obtain ⟨hp, hws⟩ := List.forall_mem_cons.mp h
    rw [lastWritten, List.foldl_cons, if_neg fun hc => hp hc.1]
    exact ih hws

/-- A place that is written, and with one byte whenever it is. -/
theorem lastWritten_eq {l : Loc} {d b : Byte} {ws : List (Loc × Byte)} (hl : l.holds = true) (hmem : (l, b) ∈ ws)
    (h : ∀ p ∈ ws, p.1 = l → p.2 = b) : lastWritten l d ws = b := by
  induction ws generalizing d with
  | nil => cases hmem
  | cons p ws ih =>
    obtain ⟨hp, hws⟩ := List.forall_mem_cons.mp h
    rw [lastWritten, List.foldl_cons]
    by_cases hin : (l, b) ∈ ws
    · exact ih hin hws
    · obtain rfl : (l, b) = p := (List.mem_cons.mp hmem).resolve_right hin
      rw [if_pos ⟨rfl, hl⟩]
      refine lastWritten_elsewhere fun q hq he => hin ?_
      rwa [← he, ← hws q hq he]

/-- The writes of bytes from an address up, as the engines of tile t see it. -/
def writesAt (v : Variant) (t : Nat) : Nat → List Byte → List (Loc × Byte)
  | _, [] => []
  | a, b :: r => (locOf v (some t) a, b) :: writesAt v t (a + 1) r

theorem mem_writesAt {v : Variant} {t a : Nat} {bs : List Byte} {p : Loc × Byte} :
    p ∈ writesAt v t a bs ↔ ∃ i < bs.length, p = (locOf v (some t) (a + i), bs.getD i 0) := by
  induction bs generalizing a with
  | nil => simp [writesAt]
  | cons b r ih =>
    rw [writesAt, List.mem_cons, ih]
    constructor
    · rintro (rfl | ⟨i, hi, rfl⟩)
      · exact ⟨0, by simp, rfl⟩
      · exact ⟨i + 1, by simpa using hi, by rw [Nat.add_right_comm, Nat.add_assoc]; rfl⟩
    · rintro ⟨i, hi, rfl⟩
      cases i with
      | zero => exact .inl rfl
      | succ i => exact .inr ⟨i, by simpa using hi, by rw [Nat.add_right_comm, Nat.add_assoc]; rfl⟩

/-- A range that ends less than 2^32 on, each byte at a place of its own: byte i is read back at its place. -/
theorem lastWritten_writesAt {v : Variant} {t a i : Nat} {bs : List Byte} {d : Byte} (hlen : bs.length ≤ 2 ^ 32) (hi : i < bs.length)
    (hl : (locOf v (some t) (a + i)).holds = true) :
    lastWritten (locOf v (some t) (a + i)) d (writesAt v t a bs) = bs.getD i 0 := by
  refine lastWritten_eq hl (mem_writesAt.mpr ⟨i, hi, rfl⟩) fun p hp he => ?_
  obtain ⟨j, hj, rfl⟩ := mem_writesAt.mp hp
  have hbacked : locOf v (some t) (a + j) ≠ .unbacked := by
    intro hu
    rw [← he] at hl
    rw [hu] at hl
    cases hl
  have hij := locOf_inj he hbacked (by omega) (by omega)
  rw [show j = i by omega]

/-! ### Writes of job code -/

/-- The tile but for what job code's writes touch: its SRAM, what is kept aside, and the unfenced flag. -/
def Tile.besidesWrites (x : Tile) : Tile := { x with sram := [], aside := [], unfenced := false }

/-- What job code's writes leave: that part of a tile, registers, recorder and jobs. -/
def Mach.besidesWrites (m : Mach) (t : Nat) := ((m.tile t).besidesWrites, m.regs, m.evr, m.jobs)

section
variable {m : Mach} {t : Nat}

theorem besidesWrites_eq_iff {n : Mach} : n.besidesWrites t = m.besidesWrites t ↔
    (n.tile t).besidesWrites = (m.tile t).besidesWrites ∧ n.regs = m.regs ∧ n.evr = m.evr ∧ n.jobs = m.jobs := by
  simp [Mach.besidesWrites]

theorem besidesWrites_editTile {k : Nat} {x : Tile} (hx : x.besidesWrites = (m.tile k).besidesWrites) :
    (m.setTile k x).besidesWrites t = m.besidesWrites t := by
  unfold Mach.besidesWrites
  rw [Mach.tile_setTile]
  split
  next h => rw [hx, h]; rfl
  next => rfl

@[simp] theorem besidesWrites_putLoc (l : Loc) (b : Byte) : (m.putLoc l b).besidesWrites t = m.besidesWrites t := by
  cases l with
  | tile k off => exact besidesWrites_editTile rfl
  | _ => rfl

@[simp] theorem besidesWrites_written (a n : Nat) : (m.written a n).besidesWrites t = m.besidesWrites t := rfl

@[simp] theorem besidesWrites_unfence (k : Nat) : (m.unfence k).besidesWrites t = m.besidesWrites t :=
  besidesWrites_editTile rfl

@[simp] theorem besidesWrites_jobWrite (v : Variant) (k a : Nat) (bs : List Byte) :
    (m.jobWrite v k a bs).besidesWrites t = m.besidesWrites t := by
  induction bs generalizing m a with
  | nil => rfl
  | cons b r ih =>
    rw [Mach.jobWrite, ih]
    generalize locOf v (some k) a = l
    split_ifs
    · exact besidesWrites_editTile rfl
    · exact besidesWrites_putLoc _ _

/-- Whether a run's writes go aside is no matter of what it has written. -/
theorem keepsAside_of_besidesWrites {n : Mach} (h : n.besidesWrites t = m.besidesWrites t) :
    (n.tile t).keepsAside = (m.tile t).keepsAside :=
  congrArg (fun p => Tile.keepsAside p.1) h

@[simp] theorem Mach.locByte_written (a n : Nat) (l : Loc) : (m.written a n).locByte l = m.locByte l := by cases l <;> rfl

@[simp] theorem Mach.locByte_unfence (k : Nat) (l : Loc) : (m.unfence k).locByte l = m.locByte l :=
  Mach.locByte_editTile (x := { m.tile k with unfenced := true }) rfl l

/-- What a place reads after job code has written bytes. -/
theorem Mach.locByte_jobWrite (v : Variant) (hk : (m.tile t).keepsAside = false) (a : Nat) (bs : List Byte) (l : Loc) :
    (m.jobWrite v t a bs).locByte l = lastWritten l (m.locByte l) (writesAt v t a bs) := by
  induction bs generalizing m a with
  | nil => rfl
  | cons b r ih =>
    rw [Mach.jobWrite]
    simp only [hk, Bool.false_and, Bool.false_eq_true, if_false]
    rw [ih ((keepsAside_of_besidesWrites (besidesWrites_putLoc _ _)).trans hk), Mach.locByte_putLoc]
    rfl

/-- A run whose writes go aside changes its own SRAM alone (17 R593). -/
theorem Mach.locByte_jobWrite_aside (v : Variant) (hk : (m.tile t).keepsAside = true) (a : Nat) (bs : List Byte) {l : Loc}
    (hl : ∀ o, l ≠ .tile t o) : (m.jobWrite v t a bs).locByte l = m.locByte l := by
  induction bs generalizing m a with
  | nil => rfl
  | cons b r ih =>
    rw [Mach.jobWrite, ih]
    · generalize locOf v (some t) a = k
      rw [hk]
      cases k with
      | tile k o =>
        by_cases hkt : k = t
        · rw [if_neg (by simp [hkt]), Mach.locByte_putLoc]
          exact if_neg fun ⟨he, _⟩ => hl o (by rw [← he, hkt])
        · rw [if_pos (by simp [hkt])]
          exact Mach.locByte_editTile (by rfl) l
      | _ => rw [if_pos (by simp)]; exact Mach.locByte_editTile (by rfl) l
    · generalize locOf v (some t) a = k
      refine (keepsAside_of_besidesWrites ?_).trans hk
      split_ifs
      · exact besidesWrites_editTile rfl
      · exact besidesWrites_putLoc _ _

end

/-! ### Little-endian bytes -/

theorem getD_leBytes {n i : Nat} (x : Nat) (h : i < n) : (leBytes n x).getD i 0 = BitVec.ofNat 8 (x / 256 ^ i) := by
  induction n generalizing x i with
  | zero => omega
  | succ n ih =>
    cases i with
    | zero => simp [leBytes]
    | succ i =>
      rw [leBytes, List.getD_cons_succ, ih _ (by omega), Nat.div_div_eq_div_mul, Nat.pow_succ']

theorem ofLe_lt (l : List Byte) : ofLe l < 256 ^ l.length := by
  induction l with
  | nil => simp [ofLe]
  | cons b r ih =>
    have hb : b.toNat < 256 := b.isLt
    rw [ofLe, List.length_cons, Nat.pow_succ']
    omega

@[simp] theorem Mach.length_jobRead (v : Variant) (m : Mach) (t a n : Nat) : (m.jobRead v t a n).length = n := by
  simp [Mach.jobRead]

/-! ### Accesses without an exception (05 R172) -/

section
variable {v : Variant} {m : Mach} {t a n align : Nat}

theorem Tile.mayWrite_congr {x y : Tile} (h : y.unit = x.unit) (l : Loc) : y.mayWrite l = x.mayWrite l := by
  have hentry (off n : Nat) : y.entryNat off n = x.entryNat off n := by unfold Tile.entryNat; rw [h]
  cases l <;> simp only [Tile.mayWrite, Tile.ownMailbox, hentry]

/-- An access sees of its tile the unit alone. -/
theorem accessCause_congr {n' : Mach} (h : (n'.tile t).unit = (m.tile t).unit) (store : Bool) :
    accessCause v n' t a n align store = accessCause v m t a n align store := by
  simp only [accessCause, Tile.mayWrite_congr h]

/-- Every byte of a store without an exception lies in memory. -/
theorem holds_of_accessCause (h : accessCause v m t a n align true = none) {i : Nat} (hi : i < n) :
    (locOf v (some t) (a + i)).holds = true := by
  unfold accessCause at h
  split_ifs at h with _ hreach hwrite
  simp only [Bool.true_and, Bool.not_eq_true', Bool.not_eq_false, List.all_eq_true, List.mem_range] at hwrite
  simp only [Bool.not_eq_true', Bool.not_eq_false, inOwnReach, List.all_eq_true, List.mem_range] at hreach
  refine Loc.holds_of_mayWrite (hwrite i hi) fun hu => ?_
  have := hreach i hi
  rw [hu] at this
  cases this

end

end Sys2Proof.Machine
end

section
/-!
SUPPORT. LOAD and STORE of the scalar core (05_falesk_instruction_set.md R172; 17_health_faults_event_recorder.md R593).
-/
namespace Sys2Proof.Machine

/-! ### The bytes of one range -/

/-- Bytes written to a range of memory: each is read back at its place, and every other byte is as before. -/
theorem Mach.locByte_jobWrite_range {v : Variant} {m : Mach} {t a : Nat} {bs : List Byte} (hk : (m.tile t).keepsAside = false)
    (hlen : bs.length ≤ 2 ^ 32) (hholds : ∀ i < bs.length, (locOf v (some t) (a + i)).holds = true) :
    (∀ i < bs.length, (m.jobWrite v t a bs).locByte (locOf v (some t) (a + i)) = bs.getD i 0) ∧
      ∀ l : Loc, (∀ i < bs.length, locOf v (some t) (a + i) ≠ l) → (m.jobWrite v t a bs).locByte l = m.locByte l := by
  refine ⟨fun i hi => ?_, fun l hl => ?_⟩
  · rw [Mach.locByte_jobWrite v hk]
    exact lastWritten_writesAt hlen hi (hholds i hi)
  · rw [Mach.locByte_jobWrite v hk]
    refine lastWritten_elsewhere fun p hp => ?_
    obtain ⟨i, hi, rfl⟩ := mem_writesAt.mp hp
    exact hl i hi

@[simp] theorem Mach.locByte_progStore (v : Variant) (m : Mach) (t a : Nat) (bs : List Byte) (l : Loc) :
    (m.progStore v t a bs).locByte l = (m.jobWrite v t a bs).locByte l := by simp [Mach.progStore]

@[simp] theorem besidesWrites_progStore (v : Variant) (m : Mach) (k t a : Nat) (bs : List Byte) :
    (m.progStore v k a bs).besidesWrites t = m.besidesWrites t := by simp [Mach.progStore]

/-! ### Widths (R172) -/

theorem loadWidth_eq {w : Fin 8} (h : w.val ≤ 6) : loadWidth w = ([1, 2, 4, 8, 1, 2, 4].getD w.val 1, decide (4 ≤ w.val)) := by
  decide +revert

theorem storeWidth_eq {w : Fin 8} (h : w.val ≤ 3) : (loadWidth w).1 = [1, 2, 4, 8].getD w.val 1 := by decide +revert

theorem loadBytes_le {w : Fin 8} (h : w.val ≤ 6) :
    0 < [1, 2, 4, 8, 1, 2, 4].getD w.val 1 ∧ [1, 2, 4, 8, 1, 2, 4].getD w.val 1 ≤ 8 := by decide +revert

theorem storeBytes_le {w : Fin 8} (h : w.val ≤ 3) : [1, 2, 4, 8].getD w.val 1 ≤ 8 := by decide +revert

/-- A number of k bits extended by its sign to 64 bits. -/
theorem unsignedOf_signedOf {k r : Nat} (hk : 0 < k) (hk64 : k ≤ 64) (hr : r < 2 ^ k) :
    unsignedOf 64 (signedOf k r) = if 2 ^ (k - 1) ≤ r then r + (2 ^ 64 - 2 ^ k) else r := by
  have hhalf : 2 ^ k = 2 * 2 ^ (k - 1) := by rw [← pow_succ', Nat.sub_add_cancel hk]
  have hle : 2 ^ k ≤ 2 ^ 64 := Nat.pow_le_pow_right Nat.two_pos hk64
  have hcast : ((2 ^ k : Nat) : Int) = 2 ^ k := by norm_cast
  simp only [signedOf, Nat.mod_eq_of_lt hr]
  by_cases h : 2 ^ (k - 1) ≤ r
  · rw [if_neg (by omega), if_pos h, unsignedOf, ← hcast, ← Int.add_emod_right, Int.emod_eq_of_lt (by omega) (by omega)]
    omega
  · rw [if_pos (by omega), if_neg h, unsignedOf_natCast, Nat.mod_eq_of_lt (by omega)]

/-! ### LOAD and STORE -/

section
variable {s : State} {t : TileId} {rd rs1 : GReg} {w : Fin 8} {off : BitVec 13}

/-- LOAD without an exception and without an error in the words it meets. -/
theorem setsG_load (hr : ScalarReady s.mach t.val 4) (hvq : (s.mach.tile t.val).vq = []) (hw : w.val ≤ 6) {a n : Nat}
    (ha : a = ((s.mach.tile t.val).gr rs1 + off.signExtend 64).toNat) (hn : n = [1, 2, 4, 8, 1, 2, 4].getD w.val 1)
    (hcause : accessCause s.variant s.mach t.val a n n false = none)
    (hue : s.mach.ueHit s.variant (normAddr s.variant t.val a) n = none)
    (hce : s.mach.ceHits (normAddr s.variant t.val a) n = []) :
    SetsG (.load t rd rs1 w off) s t.val rd (BitVec.ofNat 64 (if 4 ≤ w.val then
      unsignedOf 64 (signedOf (8 * n) (ofLe (s.mach.jobRead s.variant t.val a n))) else
        ofLe (s.mach.jobRead s.variant t.val a n))) 4 := by
  subst ha hn
  refine setsG_issue (i := fun _ => .load rd rs1 w off) (onTile_legal (decide_eq_true hw)) hr
    (by simp [Tile.mustStall, hvq]) ?_
  simp only [Mach.issueNow, loadWidth_eq hw, hcause, hue, Mach.meetCe, hce, List.foldl_nil, decide_eq_true_eq]
  rfl

/-- STORE without an exception writes its bytes past the instruction. -/
theorem exec_store (hr : ScalarReady s.mach t.val 4) (hvq : (s.mach.tile t.val).vq = []) (hw : w.val ≤ 3) {a n : Nat}
    (ha : a = ((s.mach.tile t.val).gr rs1 + off.signExtend 64).toNat) (hn : n = [1, 2, 4, 8].getD w.val 1)
    (hcause : accessCause s.variant s.mach t.val a n n true = none) :
    exec (.store t rd rs1 w off) s = .next { s with
      mach := (s.mach.setTile t.val ((s.mach.tile t.val).advance 4)).progStore s.variant t.val a
        (leBytes n ((s.mach.tile t.val).gr rd).toNat) } := by
  subst ha hn
  have hc : exec (.store t rd rs1 w off) s = onTile t (fun _ => .store rd rs1 w off) s :=
    onTile_legal (decide_eq_true hw)
  rw [hc, onTile, act, Mach.tileInstr_ready (i := fun _ => .store rd rs1 w off) hr (by simp [Tile.mustStall, hvq])]
  simp only [Mach.issueNow, storeWidth_eq hw, hcause]
  rfl

end

/-- Settles O5: a LOAD reads its bytes, and a STORE is one range of writes. -/
theorem scalarLoadsAndStores : Obligations.ScalarLoadsAndStores := by
  refine ⟨?_, ?_⟩
  · intro s t rd rs1 w off hr hvq hw a n hcause hue hce r
    have hload := setsG_load (rd := rd) hr hvq hw (a := a) (n := n) rfl rfl hcause hue hce
    obtain ⟨hn, hn8⟩ : 0 < n ∧ n ≤ 8 := loadBytes_le hw
    have hlt : r < 2 ^ (8 * n) := by simpa [Nat.pow_mul] using ofLe_lt (s.mach.jobRead s.variant t.val a n)
    rw [unsignedOf_signedOf (by omega) (by omega) hlt] at hload
    by_cases hw3 : w.val ≤ 3
    · rw [if_neg (by omega)] at hload
      rwa [if_pos hw3]
    · rw [if_pos (by omega)] at hload
      rwa [if_neg hw3]
  · intro s t rd rs1 w off hr hvq hw x a n hcause
    refine ⟨_, exec_store hr hvq hw (a := a) (n := n) rfl rfl hcause, ?_⟩
    dsimp only
    generalize hm : s.mach.setTile t.val (x.advance 4) = m
    have htile : m.tile t.val = x.advance 4 := hm ▸ Mach.tile_setTile_same _ _ _
    have hbytes (l : Loc) : m.locByte l = s.mach.locByte l := hm ▸ Mach.locByte_editTile (by rfl) l
    have haside : (m.tile t.val).keepsAside = x.keepsAside := by rw [htile]; rfl
    simp only [Mach.locByte_progStore, ← hbytes]
    refine ⟨fun hk => ?_, fun hk l hl => Mach.locByte_jobWrite_aside _ (haside.trans hk) _ _ hl, ?_⟩
    · have hlen : (leBytes n (x.gr rd).toNat).length = n := length_leBytes _ _
      have hn8 : n ≤ 8 := storeBytes_le hw
      have h := Mach.locByte_jobWrite_range (v := s.variant) (a := a) (bs := leBytes n (x.gr rd).toNat) (haside.trans hk)
        (by omega) (fun i hi => holds_of_accessCause hcause (by omega))
      rw [hlen] at h
      exact ⟨fun i hi => (h.1 i hi).trans (getD_leBytes _ hi), h.2⟩
    · obtain ⟨hcore, hregs, hevr, hjobs⟩ := besidesWrites_eq_iff.mp
        (besidesWrites_progStore s.variant m t.val t.val a (leBytes n (x.gr rd).toNat))
      rw [htile] at hcore
      exact ⟨(congrArg Tile.g hcore :), (congrArg Tile.pc hcore :), hregs.trans (by rw [← hm]; rfl), hevr.trans (by rw [← hm]; rfl),
        hjobs.trans (by rw [← hm]; rfl)⟩

end Sys2Proof.Machine
end

section
/-!
SUPPORT. The transfers of DMA: the bytes that COPY, FILL and COPY2D write, and the add of COUNT
(05_falesk_instruction_set.md R202, R203; 06_synchronisation_and_work_stealing.md R227, R232).
-/
namespace Sys2Proof.Machine

/-! ### Fields of a descriptor -/

@[simp] theorem length_sliceBytes (l : List Byte) (o n : Nat) : (sliceBytes l o n).length = n := by
  simp [sliceBytes]

theorem leAt_lt (l : List Byte) (o n : Nat) : leAt l o n < 256 ^ n := by
  simpa [leAt] using ofLe_lt (sliceBytes l o n)

/-- A byte of a part of a list that lies in the list. -/
theorem getD_sliceBytes {l : List Byte} {o n i : Nat} (hi : i < n) (hl : o + n ≤ l.length) :
    (sliceBytes l o n).getD i 0 = l.getD (o + i) 0 := by
  have hlen : ((l.drop o).take n).length = n := by simp; omega
  rw [sliceBytes, hlen, Nat.sub_self, List.replicate_zero, List.append_nil]
  simp [List.getD_eq_getElem?_getD, hi]

/-! ### Status codes (00 R20, 05 R203) -/

theorem St.first_eq_zero {a b : Nat} : St.first a b = 0 ↔ a = 0 ∧ b = 0 := by
  unfold St.first
  split_ifs <;> omega

theorem foldl_first_eq_zero {g : Nat → Nat} {l : List Nat} {st : Nat} :
    l.foldl (fun st i => St.first st (g i)) st = 0 ↔ st = 0 ∧ ∀ i ∈ l, g i = 0 := by
  induction l generalizing st with
  | nil => simp
  | cons i l ih => rw [List.foldl_cons, ih, St.first_eq_zero, List.forall_mem_cons, and_assoc]

/-- A range that DMA may write lies in memory. -/
theorem holds_of_dmaWriteStatus {v : Variant} {m : Mach} {t a n i : Nat} (h : m.dmaWriteStatus v t a n = 0) (hi : i < n) :
    (locOf v (some t) (a + i)).holds = true := by
  obtain ⟨hwrite, -⟩ := St.first_eq_zero.mp h
  unfold Mach.writeStatus at hwrite
  split at hwrite
  · cases hwrite
  · obtain ⟨-, hall⟩ := foldl_first_eq_zero.mp hwrite
    have hst := hall i (List.mem_range.mpr hi)
    split_ifs at hst with hreach hmay
    · cases hst
    · refine Loc.holds_of_mayWrite hmay fun hu => hreach ?_
      rw [hu]; rfl
    · cases hst

/-! ### The row of a descriptor without status word and signal -/

/-- Its completion drops it from the queue, and that is all. -/
theorem Mach.completeDesc_silent {v : Variant} {o : DescOut} {t : Nat} {d : List Byte} (hst : descStatusEn d = false)
    (hsig : descSignalEn d = false) :
    Mach.completeDesc v o t .dma d = o.m.setTile t ((o.m.tile t).popped .dma) := by
  simp [Mach.completeDesc, hst, hsig, Tile.popped]

section
variable {s : State} {t : TileId} {d : List Byte} {c : Instr} {op : Nat} {f : Variant → Mach → Nat → List Byte → DescOut}
  (hstalled : (s.mach.tile t.val).stalled = none) (hq : (s.mach.tile t.val).dq = ⟨[d], true⟩)
  (hbad : s.mach.mem.badWords = []) (hchans : s.mach.mem.chansOut = []) (hce : s.mach.mem.ceWords = [])
  (hhead : descBadHeader d = false) (hst : descStatusEn d = false) (hsig : descSignalEn d = false) (hop : descOp d = op)
  (hc : exec c s = act (fun v m => m.runDesc v t.val .dma op f) s)
  (hflow : (f s.variant s.mach t.val d).m.flow t.val = s.mach.flow t.val)
include hstalled hq hbad hchans hce hhead hst hsig hop hc hflow

/-- The row of the only descriptor of the DMA queue. -/
theorem exec_dmaSilent : exec c s = .next { s with
    mach := (f s.variant s.mach t.val d).m.setTile t.val (((f s.variant s.mach t.val d).m.tile t.val).popped .dma) } := by
  have hout : descOutcome s.variant s.mach t.val d f = f s.variant s.mach t.val d := by
    rw [descOutcome, hhead]; rfl
  rw [hc, act, Mach.runDesc_started hbad hchans hce (e := .dma) (r := []) hq hop, hout]
  generalize f s.variant s.mach t.val d = r at hflow
  obtain ⟨htile, -⟩ := flow_eq_iff.mp hflow
  rw [Mach.completeDesc_silent hst hsig, Mach.settle_unstall_idle, Mach.tile_setTile_same, Mach.setTile_setTile]
  · rw [Mach.tile_setTile_same, Tile.engQ_popped, Tile.engQ_of_flow htile]
    exact congrArg (fun q : EngineQ => q.q.drop 1) hq
  · rw [Mach.tile_setTile_same, Tile.stalled_popped, ← hstalled]
    exact congrArg Flow.stalled htile

/-- A descriptor whose outcome is one range of writes. -/
theorem does_dmaRange {dst : Nat} {bs : List Byte} (hk : (s.mach.tile t.val).keepsAside = false) (hlen : bs.length < 2 ^ 32)
    (hw : s.mach.dmaWriteStatus s.variant t.val dst bs.length = 0)
    (hbytes : ∀ l, (f s.variant s.mach t.val d).m.locByte l = (s.mach.jobWrite s.variant t.val dst bs).locByte l) :
    Does c s (fun m m' =>
      (∀ i < bs.length, m'.locByte (locOf s.variant (some t.val) (dst + i)) = bs.getD i 0) ∧
      (∀ l : Loc, (∀ i < bs.length, locOf s.variant (some t.val) (dst + i) ≠ l) → m'.locByte l = m.locByte l) ∧
      (m'.tile t.val).dq = ⟨[], false⟩) := by
  refine ⟨_, exec_dmaSilent hstalled hq hbad hchans hce hhead hst hsig hop hc hflow, ?_⟩
  obtain ⟨hin, hout⟩ := Mach.locByte_jobWrite_range (v := s.variant) (a := dst) hk hlen.le fun i hi => holds_of_dmaWriteStatus hw hi
  have hpop (l : Loc) : ((f s.variant s.mach t.val d).m.setTile t.val
      (((f s.variant s.mach t.val d).m.tile t.val).popped .dma)).locByte l = (s.mach.jobWrite s.variant t.val dst bs).locByte l :=
    (Mach.locByte_editTile (Tile.sram_popped _ .dma) l).trans (hbytes l)
  refine ⟨fun i hi => (hpop _).trans (hin i hi), fun l hl => (hpop l).trans (hout l hl), ?_⟩
  rw [Mach.tile_setTile_same]
  refine (Tile.engQ_popped _ .dma).trans ?_
  rw [Tile.engQ_of_flow (flow_eq_iff.mp hflow).1]
  exact congrArg (fun q : EngineQ => (⟨q.q.drop 1, false⟩ : EngineQ)) hq

end

/-! ### The operations -/

section
variable {v : Variant} {m : Mach} {t : Nat} {d : List Byte} {fields : List (Nat × Nat)} {l : List (Nat × List Byte)}

/-- A transfer that nothing stands against. -/
theorem dmaRun_transfers (hflags : descFlagsIn d 1 = true) (hres : descReserved0 d fields = true) (hcs : cntStatus v m t d = 0) :
    (dmaRun v m t d fields false (0, l)).m =
      ((l.foldl (fun m p => m.descWrite v t p.1 p.2) m).addFld (Reg.tilePerfDmaBytes t) 63 0
        (l.map (fun p => p.2.length)).sum).cntAdd v t d := by
  simp [dmaRun, hflags, hres, hcs, St.ok]

@[simp] theorem Mach.locByte_addFld (m : Mach) (off hi lo n : Nat) (l : Loc) : (m.addFld off hi lo n).locByte l = m.locByte l := by
  cases l <;> rfl

/-- The same of one range and without CNT_EN. -/
theorem locByte_dmaRun (hflags : descFlags d = 0) (hres : descReserved0 d fields = true) (a : Nat) (bs : List Byte) (k : Loc) :
    (dmaRun v m t d fields false (0, [(a, bs)])).m.locByte k = (m.jobWrite v t a bs).locByte k := by
  have hcnt : dmaCntEn d = false := by rw [dmaCntEn, hflags]; rfl
  rw [dmaRun_transfers (by rw [descFlagsIn, hflags]; rfl) hres (by simp [cntStatus, hcnt, St.ok])]
  simp [Mach.cntAdd, hcnt, Mach.descWrite]

theorem locByte_dmaFill (hflags : descFlags d = 0) (hres : descReserved0 d dmaFields = true)
    (hw : m.dmaWriteStatus v t (leAt d 0x10 8) (leAt d 0x18 4) = 0) (k : Loc) :
    (dmaFill v m t d).m.locByte k = (m.jobWrite v t (leAt d 0x10 8)
      ((List.range (leAt d 0x18 4)).map (fun i => (sliceBytes d 0x08 8).getD (i % 8) 0))).locByte k := by
  rw [dmaFill, hw]
  exact locByte_dmaRun hflags hres _ _ _

theorem locByte_dmaCopy (hflags : descFlags d = 0) (hres : descReserved0 d dmaFields = true)
    (hr : m.readStatus v t (leAt d 0x08 8) (leAt d 0x18 4) = 0) (hw : m.dmaWriteStatus v t (leAt d 0x10 8) (leAt d 0x18 4) = 0)
    (k : Loc) : (dmaCopy v m t d).m.locByte k =
      (m.jobWrite v t (leAt d 0x10 8) (m.jobRead v t (leAt d 0x08 8) (leAt d 0x18 4))).locByte k := by
  rw [dmaCopy, hr, hw]
  exact locByte_dmaRun hflags hres _ _ _

/-- The strides do not matter for one row. -/
theorem locByte_dmaCopy2d (hflags : descFlags d = 0) (hres : descReserved0 d dmaFields2d = true) (hrows : leAt d 0x28 4 = 1)
    (hover : overlap (leAt d 0x08 8) (leAt d 0x18 4) (leAt d 0x10 8) (leAt d 0x18 4) = false)
    (hr : m.readStatus v t (leAt d 0x08 8) (leAt d 0x18 4) = 0) (hw : m.dmaWriteStatus v t (leAt d 0x10 8) (leAt d 0x18 4) = 0)
    (k : Loc) : (dmaCopy2d v m t d).m.locByte k =
      (m.jobWrite v t (leAt d 0x10 8) (m.jobRead v t (leAt d 0x08 8) (leAt d 0x18 4))).locByte k := by
  rw [dmaCopy2d, hrows]
  simp only [List.range_one, List.foldl_cons, List.foldl_nil, List.map_cons, List.map_nil, Nat.zero_mul, Nat.add_zero,
    Nat.sub_self, Nat.zero_add, hover, hr, hw, Bool.and_false]
  exact locByte_dmaRun hflags hres _ _ _

/-- A counter in GDDR7 of a running unit: nothing stands against its first add. -/
theorem cntStatus_gddr (htop : leAt d 0x20 8 < gddrTop v) (h4 : leAt d 0x20 8 % 4 = 0) (hadds : (m.tile t).heldAdds = []) :
    cntStatus v m t d = 0 := by
  have htop48 : gddrTop v < 281474976710656 := by cases v <;> decide
  have hloc : locOf v (some t) (leAt d 0x20 8) = .gddr (leAt d 0x20 8) := if_pos htop
  unfold cntStatus
  simp only [hloc, hadds, Mach.reaches]
  simp [h4, St.ok, Nat.not_le.mpr (htop.trans htop48)]

/-- The add is held until DONE. -/
theorem cntAdd_gddr (hcnt : dmaCntEn d = true) (htop : leAt d 0x20 8 < gddrTop v) (hrun : (m.tile t).running = true)
    (hadds : (m.tile t).heldAdds = []) :
    m.cntAdd v t d = m.setTile t { m.tile t with heldAdds := [(leAt d 0x20 8, 1)] } := by
  have hloc : locOf v (some t) (leAt d 0x20 8) = .gddr (leAt d 0x20 8) := if_pos htop
  unfold Mach.cntAdd
  simp only [hcnt, hloc, hrun, hadds]
  rfl

/-- COUNT of such a counter adds there and does nothing else. -/
theorem dmaCount_gddr (hflags : descFlags d = 1) (hres : descReserved0 d dmaFields = true) (h4 : leAt d 0x20 8 % 4 = 0)
    (htop : leAt d 0x20 8 < gddrTop v) (hrun : (m.tile t).running = true) (hadds : (m.tile t).heldAdds = []) :
    (dmaCount v m t d).m = (m.addFld (Reg.tilePerfDmaBytes t) 63 0 0).setTile t
      { m.tile t with heldAdds := [(leAt d 0x20 8, 1)] } := by
  have hcnt : dmaCntEn d = true := by rw [dmaCntEn, hflags]; rfl
  rw [dmaCount, hcnt]
  exact (dmaRun_transfers (l := []) (by rw [descFlagsIn, hflags]; rfl) hres (cntStatus_gddr htop h4 hadds)).trans
    (cntAdd_gddr (m := m.addFld (Reg.tilePerfDmaBytes t) 63 0 0) hcnt htop hrun hadds)

end

/-- Settles O17: FILL, COPY and COPY2D of one row are each one range of writes, and COUNT holds its add. -/
theorem dmaTransfers : Obligations.DmaTransfers := by
  intro s t d hstalled hq hbad hchans hce hhead hst hsig hk hd m v x src dst len cnt place fills
  have hlen : len < 2 ^ 32 := leAt_lt d 0x18 4
  have range (c : Instr) (op : Nat) (f : Variant → Mach → Nat → List Byte → DescOut) (bs : List Byte) (g : Nat → Byte)
      (hc : exec c s = act (fun v m => m.runDesc v t.val .dma op f) s) (hop : descOp d = op)
      (hflow : (f v m t.val d).m.flow t.val = m.flow t.val) (hbs : bs.length = len) (hg : ∀ i < len, bs.getD i 0 = g i)
      (hw : m.dmaWriteStatus v t.val dst len = 0)
      (hbytes : ∀ l, (f v m t.val d).m.locByte l = (m.jobWrite v t.val dst bs).locByte l) : fills c g := by
    refine does_mono (does_dmaRange (dst := dst) (bs := bs) hstalled hq hbad hchans hce hhead hst hsig hop hc hflow hk
      (by omega) (by rwa [hbs]) hbytes) ?_
    rw [hbs]
    exact fun m' ⟨hin, hrest⟩ => ⟨fun i hi => (hin i hi).trans (hg i hi), hrest⟩
  have hread (a : Nat) : ∀ i < len, (m.jobRead v t.val a len).getD i 0 = m.jobByte t.val (place (a + i)) := by
    intro i hi
    simp [Mach.jobRead, hi, place]
  refine ⟨fun hop hflags hres hw => ?_, fun hop hflags hres hr hw => ?_, fun hop hflags hres hrows hover hr hw => ?_,
    fun hop hflags hres h4 htop hrun hadds => ?_⟩
  · refine range _ 2 dmaFill ((List.range len).map (fun i => (sliceBytes d 0x08 8).getD (i % 8) 0)) _ rfl hop
      (flow_dmaFill _ _) (by simp) (fun i hi => ?_) hw (locByte_dmaFill hflags hres hw)
    rw [← getD_sliceBytes (Nat.mod_lt i (by decide)) (by omega)]
    simp [hi]
  · exact range _ 1 dmaCopy (m.jobRead v t.val src len) _ rfl hop (flow_dmaCopy _ _) (by simp) (hread src) hw
      (locByte_dmaCopy hflags hres hr hw)
  · exact range _ 3 dmaCopy2d (m.jobRead v t.val src len) _ rfl hop (flow_dmaCopy2d _ _) (by simp) (hread src) hw
      (locByte_dmaCopy2d hflags hres hrows hover hr hw)
  · refine ⟨_, exec_dmaSilent (f := dmaCount) hstalled hq hbad hchans hce hhead hst hsig hop rfl (flow_dmaCount _ _), ?_, fun l => ?_⟩
    · rw [dmaCount_gddr hflags hres h4 htop hrun hadds, Mach.tile_setTile_same, Mach.tile_setTile_same]
      rfl
    · refine (Mach.locByte_editTile (Tile.sram_popped _ .dma) l).trans ?_
      rw [dmaCount_gddr hflags hres h4 htop hrun hadds]
      exact (Mach.locByte_editTile (m := m.addFld (Reg.tilePerfDmaBytes t.val) 63 0 0) (by rfl) l).trans (Mach.locByte_addFld ..)

end Sys2Proof.Machine
end

section
/-!
SUPPORT. The vector operations that touch memory: loads as writes of lanes, stores and scatters as one sequence of writes,
element after element (05_falesk_instruction_set.md R174, R175, R180, R183).
-/
namespace Sys2Proof.Machine

theorem vldSize_eq {mode : Fin 8} (h : mode.val ≤ 4) : vldSize mode = [64, 1, 2, 4, 8].getD mode.val 64 := by
  revert mode; decide

theorem gatherSize_eq (sz : Fin 8) : gatherSize sz = [1, 2, 4].getD sz.val 4 := by revert sz; decide

theorem gatherSize_le (sz : Fin 8) : gatherSize sz ≤ 4 := by revert sz; decide

theorem mem_gatherLanes {x : Tile} {g : GatherArgs} {i : Nat} :
    i ∈ gatherLanes x g ↔ i < 16 ∧ laneOn (x.pr g.pg) g.pn i = true := by
  rw [gatherLanes, List.mem_filter, List.mem_range]

/-- A place in memory is backed. -/
theorem Loc.backed_of_holds {l : Loc} (h : l.holds = true) : l ≠ .unbacked := by
  rintro rfl
  cases h

/-! ### An operation of an idle vector unit runs at once (04 R123, 05 R172) -/

section
variable {v : Variant} {m : Mach} {t : Nat}

/-- The exceptions of an operation see of the tile its unit and its registers. -/
theorem vecCause_editTile {y : Tile} (hunit : y.unit = (m.tile t).unit) (hv : y.v = (m.tile t).v) (hp : y.p = (m.tile t).p)
    (op : VOp) : vecCause v (m.setTile t y) t op = vecCause v m t op := by
  have hacc (a n align : Nat) (store : Bool) :
      accessCause v (m.setTile t y) t a n align store = accessCause v m t a n align store :=
    accessCause_congr (by rw [Mach.tile_setTile_same, hunit]) store
  have hgather (g : GatherArgs) (base : U64) (store : Bool) :
      gatherCause v (m.setTile t y) t g base store = gatherCause v m t g base store := by
    simp only [gatherCause, gatherLanes, gatherAddr, Tile.vr, Tile.pr, Mach.tile_setTile_same, hv, hp, hacc]
  cases op <;> simp only [vecCause, hacc, hgather]

/-- An operation other than WAIT against which no exception and no error of memory stands. -/
theorem Mach.vecNow_run {op : VOp} (h : VectorReady m t (TInstr.vec op).size) (hwait : ∀ k, op ≠ .wait k)
    (hcause : vecCause v m t op = none) (hue : ∀ p ∈ vecReads (m.tile t) op, m.ueHit v (normAddr v t p.1) p.2 = none)
    (hce : ∀ p ∈ vecReads (m.tile t) op, m.ceHits (normAddr v t p.1) p.2 = []) {m' : Mach}
    (hrun : (m.setTile t ((m.tile t).advance (TInstr.vec op).size)).vecRun v t ⟨op, (m.tile t).pc⟩ = m')
    (hvq : (m'.tile t).vq = []) : m.issueNow v t (.vec op) = m' := by
  obtain ⟨-, hq, hw⟩ := h
  generalize hx : ({ m.tile t with vq := (m.tile t).vq ++ [⟨op, (m.tile t).pc⟩] } : Tile).advance (TInstr.vec op).size = x
  have hqx : x.vq = [⟨op, (m.tile t).pc⟩] := by rw [← hx]; simp [Tile.advance, hq]
  have hwx : x.waiting 1 = false := by rw [← hx]; exact hw
  have hreads : vecReads x op = vecReads (m.tile t) op := by rw [← hx]; rfl
  have hcx : vecCause v (m.setTile t x) t op = none := by
    rw [vecCause_editTile (by rw [← hx]; rfl) (by rw [← hx]; rfl) (by rw [← hx]; rfl), hcause]
  have huex : (vecReads x op).findSome? (fun p => (m.setTile t x).ueHit v (normAddr v t p.1) p.2) = none := by
    rw [hreads]; exact List.findSome?_eq_none_iff.mpr hue
  have hcex : (vecReads x op).foldl (fun n p => n.meetCe v (normAddr v t p.1) p.2) (m.setTile t x) = m.setTile t x := by
    rw [hreads]
    generalize vecReads (m.tile t) op = l at hce
    induction l with
    | nil => rfl
    | cons p l ih =>
      obtain ⟨hp, hl⟩ := List.forall_mem_cons.mp hce
      have hmeet : (m.setTile t x).meetCe v (normAddr v t p.1) p.2 = m.setTile t x := by
        rw [Mach.meetCe, show (m.setTile t x).ceHits (normAddr v t p.1) p.2 = [] from hp]; rfl
      rw [List.foldl_cons, hmeet, ih hl]
  have hdrop : (m.setTile t x).setTile t { x with vq := [] } = m.setTile t ((m.tile t).advance (TInstr.vec op).size) := by
    rw [Mach.setTile_setTile, ← hx]
    simp only [Tile.advance, ← hq]
  simp only [Mach.issueNow, hx]
  rw [Mach.vecDrain]
  simp only [Mach.tile_setTile_same, hwx, hqx, hcx, huex, hcex, hdrop, hrun, Mach.vecDrain_nil hvq,
    Bool.false_eq_true, if_false]

/-- Moving PC on is not seen by a read. -/
theorem Mach.jobRead_advance (n a k : Nat) :
    (m.setTile t ((m.tile t).advance n)).jobRead v t a k = m.jobRead v t a k := by
  unfold Mach.jobRead Mach.jobByte
  simp only [Mach.tile_setTile_same, Mach.locByte_editTile (m := m) (t := t) (x := (m.tile t).advance n) rfl]
  rfl

/-! ### Loads (R175, R180, R183) -/

/-- A load with PC moved on: its tile, as it then stands. -/
theorem Mach.vecRun_vld (n pc : Nat) (vd : VReg) (pg : PReg) (mode : Fin 8) (a : U64) :
    (m.setTile t ((m.tile t).advance n)).vecRun v t ⟨.vld vd pg mode a, pc⟩ =
      m.setTile t (((m.tile t).advance n).setV vd (if mode = 0
        then mergeLanes 8 ((m.tile t).pr pg) false ((m.tile t).vr vd) (fun k => ((m.jobRead v t a.toNat (vldSize mode)).getD k 0).toNat)
        else mergeLanes (8 * vldSize mode) ((m.tile t).pr pg) false ((m.tile t).vr vd)
          (fun _ => ofLe (m.jobRead v t a.toNat (vldSize mode))))) := by
  simp only [Mach.vecRun, Mach.jobRead_advance, Mach.tile_setTile_same, Mach.setTile_setTile]
  rfl

theorem Mach.vecRun_gather (n pc : Nat) (g : GatherArgs) (base : U64) :
    (m.setTile t ((m.tile t).advance n)).vecRun v t ⟨.gather g base, pc⟩ =
      m.setTile t (((m.tile t).advance n).setV g.vd (mergeLanes 32 ((m.tile t).pr g.pg) g.pn ((m.tile t).vr g.vd)
        (fun k => ofLe (m.jobRead v t (gatherAddr (m.tile t) g base k) (gatherSize g.sz))))) := by
  simp only [Mach.vecRun, Mach.jobRead_advance, Mach.tile_setTile_same, Mach.setTile_setTile]
  rfl

theorem Mach.vecRun_cmx (n pc : Nat) (a : VArgs) (ad : U64) :
    (m.setTile t ((m.tile t).advance n)).vecRun v t ⟨.cmx a ad, pc⟩ =
      m.setTile t (vcmx ((m.tile t).advance n) a ((List.range 12).map (fun i => leAt (m.jobRead v t ad.toNat 64) (4 * i) 4))) := by
  simp only [Mach.vecRun, Mach.jobRead_advance, Mach.tile_setTile_same, Mach.setTile_setTile]

end

section
variable {c : Instr} {s : State} {t : TileId}

/-- A command whose instruction is such an operation. -/
theorem exec_vec {i : Tile → TInstr} {op : VOp} (hc : exec c s = onTile t i s) (hi : i (s.mach.tile t.val) = .vec op)
    (h : VectorReady s.mach t.val (TInstr.vec op).size) (hwait : ∀ k, op ≠ .wait k)
    (hcause : vecCause s.variant s.mach t.val op = none)
    (hue : ∀ p ∈ vecReads (s.mach.tile t.val) op, s.mach.ueHit s.variant (normAddr s.variant t.val p.1) p.2 = none)
    (hce : ∀ p ∈ vecReads (s.mach.tile t.val) op, s.mach.ceHits (normAddr s.variant t.val p.1) p.2 = []) {m' : Mach}
    (hrun : (s.mach.setTile t.val ((s.mach.tile t.val).advance (TInstr.vec op).size)).vecRun s.variant t.val
      ⟨op, (s.mach.tile t.val).pc⟩ = m')
    (hvq : (m'.tile t.val).vq = []) : exec c s = .next { s with mach := m' } := by
  rw [hc, onTile, act, Mach.tileInstr_ready (i := i) (by rw [hi]; exact h.1) (by rw [hi]; simp [Tile.mustStall, h.2.1]), hi,
    Mach.vecNow_run h hwait hcause hue hce hrun hvq]

/-- A load where memory holds no error: only its tile changes. -/
theorem exec_vecLoad {i : Tile → TInstr} {op : VOp} {z : Tile} (hbad : s.mach.mem.badWords = []) (hchans : s.mach.mem.chansOut = [])
    (hce : s.mach.mem.ceWords = []) (hc : exec c s = onTile t i s) (hi : i (s.mach.tile t.val) = .vec op)
    (h : VectorReady s.mach t.val (TInstr.vec op).size) (hwait : ∀ k, op ≠ .wait k)
    (hcause : vecCause s.variant s.mach t.val op = none)
    (hrun : (s.mach.setTile t.val ((s.mach.tile t.val).advance (TInstr.vec op).size)).vecRun s.variant t.val
      ⟨op, (s.mach.tile t.val).pc⟩ = s.mach.setTile t.val z)
    (hvq : z.vq = (s.mach.tile t.val).vq) : exec c s = .next { s with mach := s.mach.setTile t.val z } := by
  refine exec_vec hc hi h hwait hcause (fun p _ => Mach.ueHit_none hbad hchans _ _ _) (fun p _ => ?_) hrun ?_
  · rw [Mach.ceHits, hce]; rfl
  · rw [Mach.tile_setTile_same, hvq, h.2.1]

variable (hbad : s.mach.mem.badWords = []) (hchans : s.mach.mem.chansOut = []) (hce : s.mach.mem.ceWords = [])
include hbad hchans hce

/-- VLD of the active bytes. -/
theorem setsLanes_vldBytes {vd : VReg} {rs1 : GReg} {pg : PReg} {off : BitVec 10} (h : VectorReady s.mach t.val 4) {a : Nat}
    (ha : a = (vmAddr (s.mach.tile t.val) rs1 0 off).toNat) (hcause : accessCause s.variant s.mach t.val a 64 64 false = none) :
    SetsLanes (.vld t vd rs1 pg 0 off) s t.val 4 8 vd (laneOn ((s.mach.tile t.val).pr pg) false)
      (fun i => ((s.mach.jobRead s.variant t.val a 64).getD i 0).toNat) (s.mach.tile t.val).fstat := by
  subst ha
  refine setsLanes_plain (exec_vecLoad hbad hchans hce rfl (i := fun x => .vec (.vld vd pg 0 (vmAddr x rs1 0 off))) rfl h nofun
    hcause (Mach.vecRun_vld ..) rfl) ?_
  rfl

/-- VLD of one element, in every active lane. -/
theorem setsLanes_vldElement {vd : VReg} {rs1 : GReg} {pg : PReg} {mode : Fin 8} {off : BitVec 10}
    (h : VectorReady s.mach t.val 4) (hmode : 1 ≤ mode.val) (hmode4 : mode.val ≤ 4) {a n : Nat} (hn : vldSize mode = n)
    (ha : a = (vmAddr (s.mach.tile t.val) rs1 mode off).toNat)
    (hcause : accessCause s.variant s.mach t.val a n n false = none) :
    SetsLanes (.vld t vd rs1 pg mode off) s t.val 4 (8 * n) vd (laneOn ((s.mach.tile t.val).pr pg) false)
      (fun _ => ofLe (s.mach.jobRead s.variant t.val a n)) (s.mach.tile t.val).fstat := by
  subst ha hn
  have hne : mode ≠ 0 := fun h0 => by rw [h0] at hmode; cases hmode
  refine setsLanes_plain (exec_vecLoad hbad hchans hce (onTile_legal (decide_eq_true hmode4))
    (i := fun x => .vec (.vld vd pg mode (vmAddr x rs1 mode off))) rfl h nofun hcause (Mach.vecRun_vld ..) rfl) ?_
  rw [if_neg hne]
  rfl

/-- VGATHER of active elements without an exception. -/
theorem setsLanes_vgather {g : GatherArgs} (h : VectorReady s.mach t.val 8) (hsz : g.sz.val ≤ 2) {ad : Nat → Nat}
    (had : ∀ i, gatherAddr (s.mach.tile t.val) g ((s.mach.tile t.val).gr g.rs) i = ad i)
    (hcause : ∀ i ∈ gatherLanes (s.mach.tile t.val) g,
      accessCause s.variant s.mach t.val (ad i) (gatherSize g.sz) (gatherSize g.sz) false = none) :
    SetsLanes (.vgather t g) s t.val 8 32 g.vd (laneOn ((s.mach.tile t.val).pr g.pg) g.pn)
      (fun i => ofLe (s.mach.jobRead s.variant t.val (ad i) (gatherSize g.sz))) (s.mach.tile t.val).fstat := by
  obtain rfl := funext had
  exact setsLanes_plain (exec_vecLoad hbad hchans hce (onTile_legal (decide_eq_true hsz))
    (i := fun x => .vec (.gather g (x.gr g.rs))) rfl h nofun (List.findSome?_eq_none_iff.mpr hcause)
    (Mach.vecRun_gather ..) rfl) rfl

end

/-- What the pixel k of plane j comes to, with the flags of it. -/
def cmxPixel (x : Tile) (a : VArgs) (f : FpFmt) (c : List Nat) (j k : Nat) : Nat × Flags :=
  let src := fun i : Nat => laneOf (typeWidth a.ty) (x.vr (Fin.ofNat 32 (a.vs1.val + i))) k
  cmxLane f c j [src 0, src 1, src 2]

/-- Plane j of the result. -/
def cmxPlane (x : Tile) (a : VArgs) (f : FpFmt) (c : List Nat) (j : Nat) : V512 :=
  mergeLanes (typeWidth a.ty) (x.pr a.pg) a.pn (x.vr (Fin.ofNat 32 (a.vd.val + j))) (fun k => (cmxPixel x a f c j k).1)

section
variable {x : Tile} {a : VArgs} {f : FpFmt} {c : List Nat} (hf : arithFmt a.ty = some f)
include hf

theorem vcmx_eq : vcmx x a c = { x with
    v := (vcmx x a c).v
    fstat := (x.fstat ||| (List.range 3).foldl (fun z j => z ||| laneFlags (512 / typeWidth a.ty) (x.pr a.pg) a.pn
      (fun k => (cmxPixel x a f c j k).2)) 0) % 64 } := by
  simp only [vcmx, hf]
  rfl

/-- The three planes are written one after the other. -/
theorem vr_vcmx (u : VReg) : (vcmx x a c).vr u =
    if u = Fin.ofNat 32 (a.vd.val + 2) then cmxPlane x a f c 2 else if u = Fin.ofNat 32 (a.vd.val + 1) then cmxPlane x a f c 1
    else if u = a.vd then cmxPlane x a f c 0 else x.vr u := by
  simp only [vcmx, hf]
  refine (Tile.vr_setV _ _ u _).trans ?_
  rw [Tile.vr_setV, Tile.vr_setV]
  rfl

variable (hvd : a.vd.val ≤ 29)
include hvd

/-- They are three registers. -/
theorem vr_vcmx_plane {j : Nat} (hj : j < 3) : (vcmx x a c).vr (Fin.ofNat 32 (a.vd.val + j)) = cmxPlane x a f c j := by
  have hval (i : Nat) (hi : i < 3) : (Fin.ofNat 32 (a.vd.val + i)).val = a.vd.val + i := Nat.mod_eq_of_lt (by omega)
  have := hval j hj
  have := hval 1 (by decide)
  have := hval 2 (by decide)
  rw [vr_vcmx hf]
  simp only [Fin.ext_iff]
  obtain rfl | rfl | rfl : j = 0 ∨ j = 1 ∨ j = 2 := by omega
  · rw [if_neg (by omega), if_neg (by omega), if_pos (by omega)]
  · rw [if_neg (by omega), if_pos rfl]
  · rw [if_pos rfl]

theorem vr_vcmx_other {u : VReg} (hu : u.val < a.vd.val ∨ a.vd.val + 2 < u.val) : (vcmx x a c).vr u = x.vr u := by
  have hval (i : Nat) (hi : i < 3) : (Fin.ofNat 32 (a.vd.val + i)).val = a.vd.val + i := Nat.mod_eq_of_lt (by omega)
  have := hval 1 (by decide)
  have := hval 2 (by decide)
  rw [vr_vcmx hf]
  simp only [Fin.ext_iff]
  rw [if_neg (by omega), if_neg (by omega), if_neg (by omega)]

end

/-! ### Stores, element after element (R175, R180) -/

section
variable {v : Variant} {m : Mach} {t : Nat} {l : List Nat} {ad : Nat → Nat} {bs : Nat → List Byte}

/-- The store of element k: the bytes bs k at ad k. -/
def Mach.storeElement (v : Variant) (t : Nat) (ad : Nat → Nat) (bs : Nat → List Byte) (m : Mach) (k : Nat) : Mach :=
  (m.jobWrite v t (ad k) (bs k)).written (normAddr v t (ad k)) (bs k).length

theorem besidesWrites_storeElements (k : Nat) : (l.foldl (Mach.storeElement v t ad bs) m).besidesWrites k = m.besidesWrites k := by
  induction l generalizing m with
  | nil => rfl
  | cons i l ih => rw [List.foldl_cons, ih, Mach.storeElement, besidesWrites_written, besidesWrites_jobWrite]

theorem Mach.locByte_storeElements (hk : (m.tile t).keepsAside = false) (p : Loc) :
    (l.foldl (Mach.storeElement v t ad bs) m).locByte p =
      lastWritten p (m.locByte p) (l.flatMap (fun k => writesAt v t (ad k) (bs k))) := by
  induction l generalizing m with
  | nil => rfl
  | cons i l ih =>
    have hbeside : (Mach.storeElement v t ad bs m i).besidesWrites t = m.besidesWrites t := by
      rw [Mach.storeElement, besidesWrites_written, besidesWrites_jobWrite]
    rw [List.foldl_cons, List.flatMap_cons, lastWritten_append, ih ((keepsAside_of_besidesWrites hbeside).trans hk),
      Mach.storeElement, Mach.locByte_written, Mach.locByte_jobWrite v hk]

variable {n : Nat} (hlen : ∀ k, (bs k).length = n)
include hlen

/-- A place that no element touches. -/
theorem lastWritten_elements_elsewhere {p : Loc} {d : Byte} (h : ∀ k ∈ l, ∀ b < n, locOf v (some t) (ad k + b) ≠ p) :
    lastWritten p d (l.flatMap (fun k => writesAt v t (ad k) (bs k))) = d := by
  refine lastWritten_elsewhere fun q hq => ?_
  obtain ⟨k, hk, hqk⟩ := List.mem_flatMap.mp hq
  obtain ⟨b, hb, rfl⟩ := mem_writesAt.mp hqk
  exact h k hk b (hlen k ▸ hb)

/-- Byte b of element i stands where no later element touches its place. -/
theorem lastWritten_elements (hn : n ≤ 2 ^ 32) (hsorted : l.Pairwise (· < ·)) {i b : Nat} {d : Byte} (hi : i ∈ l) (hb : b < n)
    (hholds : (locOf v (some t) (ad i + b)).holds = true)
    (hlater : ∀ j ∈ l, i < j → ∀ c < n, locOf v (some t) (ad j + c) ≠ locOf v (some t) (ad i + b)) :
    lastWritten (locOf v (some t) (ad i + b)) d (l.flatMap (fun k => writesAt v t (ad k) (bs k))) = (bs i).getD b 0 := by
  obtain ⟨before, after, rfl⟩ := List.append_of_mem hi
  obtain ⟨-, hafter, -⟩ := List.pairwise_append.mp hsorted
  rw [List.pairwise_cons] at hafter
  rw [List.flatMap_append, List.flatMap_cons, lastWritten_append, lastWritten_append, lastWritten_elements_elsewhere hlen]
  · exact lastWritten_writesAt ((hlen i).trans_le hn) (by rwa [hlen i]) hholds
  · exact fun k hk => hlater k (by simp [hk]) (hafter.1 k hk)

end

section
variable {c : Instr} {s : State} {t : TileId}

/-- A vector store: its elements in order, past the instruction. -/
theorem does_storeElements {i : Tile → TInstr} {op : VOp} {l : List Nat} {ad : Nat → Nat} {bs : Nat → List Byte} {n : Nat}
    (hc : exec c s = onTile t i s) (hi : i (s.mach.tile t.val) = .vec op)
    (h : VectorReady s.mach t.val (TInstr.vec op).size) (hwait : ∀ k, op ≠ .wait k)
    (hcause : vecCause s.variant s.mach t.val op = none) (hreads : vecReads (s.mach.tile t.val) op = [])
    (hrun : (s.mach.setTile t.val ((s.mach.tile t.val).advance (TInstr.vec op).size)).vecRun s.variant t.val
      ⟨op, (s.mach.tile t.val).pc⟩ = (l.foldl (Mach.storeElement s.variant t.val ad bs)
        (s.mach.setTile t.val ((s.mach.tile t.val).advance (TInstr.vec op).size))).unfence t.val)
    (hk : (s.mach.tile t.val).keepsAside = false) (hlen : ∀ k, (bs k).length = n) (hn : n ≤ 2 ^ 32)
    (hsorted : l.Pairwise (· < ·)) (hholds : ∀ i ∈ l, ∀ b < n, (locOf s.variant (some t.val) (ad i + b)).holds = true) :
    let x := s.mach.tile t.val
    let place := fun a : Nat => locOf s.variant (some t.val) a
    Does c s (fun m m' => ((m'.tile t.val).g = x.g ∧ (m'.tile t.val).v = x.v ∧ (m'.tile t.val).p = x.p ∧
      (m'.tile t.val).pc = x.pc + (TInstr.vec op).size ∧ (m'.tile t.val).fstat = x.fstat ∧ m'.regs = m.regs ∧
      m'.evr = m.evr ∧ m'.jobs = m.jobs) ∧
      (∀ i ∈ l, ∀ b < n, (∀ j ∈ l, i < j → ∀ c < n, place (ad j + c) ≠ place (ad i + b)) →
        m'.locByte (place (ad i + b)) = (bs i).getD b 0) ∧
      (∀ p : Loc, (∀ i ∈ l, ∀ b < n, place (ad i + b) ≠ p) → m'.locByte p = m.locByte p)) := by
  intro x place
  obtain ⟨-, hq, -⟩ := id h
  generalize hm : s.mach.setTile t.val (x.advance (TInstr.vec op).size) = m at hrun
  have htile : m.tile t.val = x.advance (TInstr.vec op).size := hm ▸ Mach.tile_setTile_same _ _ _
  have hbytes (p : Loc) : m.locByte p = s.mach.locByte p := hm ▸ Mach.locByte_editTile (by rfl) p
  have haside : (m.tile t.val).keepsAside = false := by rw [htile]; exact hk
  have hbeside : ((l.foldl (Mach.storeElement s.variant t.val ad bs) m).unfence t.val).besidesWrites t.val =
      m.besidesWrites t.val := by rw [besidesWrites_unfence, besidesWrites_storeElements]
  obtain ⟨hcore, hregs, hevr, hjobs⟩ := besidesWrites_eq_iff.mp hbeside
  rw [htile] at hcore
  refine ⟨_, exec_vec hc hi h hwait hcause (by simp [hreads]) (by simp [hreads]) (hm ▸ hrun) ((congrArg Tile.vq hcore :).trans hq),
    ⟨(congrArg Tile.g hcore :), (congrArg Tile.v hcore :), (congrArg Tile.p hcore :), (congrArg Tile.pc hcore :),
      (congrArg Tile.fstat hcore :), hregs.trans (by rw [← hm]; rfl), hevr.trans (by rw [← hm]; rfl),
      hjobs.trans (by rw [← hm]; rfl)⟩, fun i hi b hb hlater => ?_, fun p hp => ?_⟩
  · rw [Mach.locByte_unfence, Mach.locByte_storeElements haside]
    exact lastWritten_elements hlen hn hsorted hi hb (hholds i hi b hb) hlater
  · rw [Mach.locByte_unfence, Mach.locByte_storeElements haside, lastWritten_elements_elsewhere hlen hp, hbytes]

/-- VST stores active bytes one by one. -/
theorem Mach.vecRun_vst {v : Variant} {m : Mach} {t : Nat} (n pc : Nat) (vd : VReg) (pg : PReg) (a : U64) :
    (m.setTile t ((m.tile t).advance n)).vecRun v t ⟨.vst vd pg a, pc⟩ =
      (((List.range 64).filter (laneOn ((m.tile t).pr pg) false)).foldl
        (Mach.storeElement v t (fun k => a.toNat + k) (fun k => [(vecBytes ((m.tile t).vr vd)).getD k 0]))
        (m.setTile t ((m.tile t).advance n))).unfence t := by
  rw [List.foldl_filter]
  simp only [Mach.vecRun, Mach.tile_setTile_same]
  rfl

theorem Mach.vecRun_scatter {v : Variant} {m : Mach} {t : Nat} (n pc : Nat) (g : GatherArgs) (base : U64) :
    (m.setTile t ((m.tile t).advance n)).vecRun v t ⟨.scatter g base, pc⟩ =
      ((gatherLanes (m.tile t) g).foldl (Mach.storeElement v t (gatherAddr (m.tile t) g base)
          (fun k => leBytes (gatherSize g.sz) (laneOf 32 ((m.tile t).vr g.vd) k)))
        (m.setTile t ((m.tile t).advance n))).unfence t := by
  unfold Mach.storeElement
  simp only [Mach.vecRun, length_leBytes, Mach.tile_setTile_same]
  rfl

theorem getD_vecBytes {x : V512} {k : Nat} (h : k < 64) : (vecBytes x).getD k 0 = BitVec.ofNat 8 (laneOf 8 x k) := by
  simp [vecBytes, h]

end

/-- Settles O14: loads write lanes of one register, VCMX three registers, and stores are writes of their active elements
in order. -/
theorem vectorLoadsAndStores : Obligations.VectorLoadsAndStores := by
  refine ⟨?_, ?_⟩
  · intro s t a g vd rs1 pg mode off h hbad hchans hce m v x n addr bs k ga gon w ca co
    refine ⟨fun hmode hcause => ?_, fun hmode hmode4 hcause => ?_, fun h8 hsz hcause => ?_, fun f hf hty hvs hvd h64 hin => ?_⟩
    · subst hmode
      exact setsLanes_vldBytes hbad hchans hce h rfl hcause
    · have hn : vldSize mode = n := vldSize_eq hmode4
      refine setsLanes_vldElement hbad hchans hce h hmode hmode4 hn ?_ hcause
      rw [vmAddr, hn]
    · have hk : gatherSize g.sz = k := gatherSize_eq g.sz
      have hload := setsLanes_vgather hbad hchans hce h8 hsz (ad := ga) (fun _ => rfl) fun i hi => by
        obtain ⟨hi16, hon⟩ := mem_gatherLanes.mp hi
        rw [hk]
        exact hcause i hi16 hon
      rwa [hk] at hload
    · intro src r on
      have hcause : vecCause v m t.val (.cmx a (x.gr a.vs2)) = none := by
        simp only [vecCause]
        rw [if_neg (not_not.mpr h64), if_pos hin]
      have hlegal : (a.ty.val ≤ 1 && a.vs1.val ≤ 29 && a.vd.val ≤ 29) = true := by simp [hty, hvs, hvd]
      have hexec := exec_vecLoad (c := .vcmx t a) hbad hchans hce (onTile_legal hlegal) (i := fun x => .vec (.cmx a (x.gr a.vs2)))
        rfl h nofun hcause (Mach.vecRun_cmx ..) (by rw [vcmx_eq hf]; rfl)
      refine ⟨_, ⟨_, hexec, onlyTile_setTile _ _ _⟩, fun j i hj hi => ?_, fun u hu => vr_vcmx_other hf hvd hu, vcmx_eq hf⟩
      rw [vr_vcmx_plane hf hvd hj]
      exact laneOf_mergeLanes _ _ _ _ hi
  · intro s t g vd rs1 pg off h hk v x addr k ga gon place kept
    refine ⟨fun hcause => ?_, fun h8 hsz hcause => ?_⟩
    · have hmem (i : Nat) : i ∈ (List.range 64).filter (laneOn (x.pr pg) false) ↔ i < 64 ∧ (x.pr pg).getLsbD i = true := by
        simp [laneOn]
      have hholds (i : Nat) (hi : i < 64) : (place (addr + i)).holds = true := holds_of_accessCause hcause hi
      have hapart (i j : Nat) (hi : i < 64) (hj : j < 64) (hij : i < j) : place (addr + j) ≠ place (addr + i) := fun he =>
        absurd (locOf_inj he (Loc.backed_of_holds (hholds j hj)) (by omega) (by omega)) (by omega)
      refine does_mono (does_storeElements (c := .vst t vd rs1 pg 0 off) (n := 1) rfl
        (i := fun x => .vec (.vst vd pg (vmAddr x rs1 0 off))) rfl h nofun hcause rfl (Mach.vecRun_vst ..) hk (fun _ => rfl)
        (by decide) (List.pairwise_lt_range.filter _) fun i hi b hb => ?_) fun m' ⟨hkept, hat, hrest⟩ =>
          ⟨hkept, fun i hi hon => ?_, fun l hl => hrest l fun i hi b hb => ?_⟩
      · obtain rfl : b = 0 := by omega
        exact hholds i ((hmem i).mp hi).1
      · refine (hat i ((hmem i).mpr ⟨hi, hon⟩) 0 Nat.one_pos fun j hj hij c hc => ?_).trans (getD_vecBytes hi)
        obtain rfl : c = 0 := by omega
        exact hapart i j hi ((hmem j).mp hj).1 hij
      · obtain rfl : b = 0 := by omega
        exact hl i ((hmem i).mp hi).1 ((hmem i).mp hi).2
    · have hsize : gatherSize g.sz = k := gatherSize_eq g.sz
      have hk4 : k ≤ 4 := hsize ▸ gatherSize_le g.sz
      have hacc (i : Nat) (hi : i ∈ gatherLanes x g) : accessCause v s.mach t.val (ga i) k k true = none :=
        hcause i (mem_gatherLanes.mp hi).1 (mem_gatherLanes.mp hi).2
      have hnone : vecCause v s.mach t.val (.scatter g (x.gr g.rs)) = none :=
        List.findSome?_eq_none_iff.mpr (by rw [hsize]; exact hacc)
      refine does_mono (does_storeElements (c := .vscatter t g) (n := k) (onTile_legal (decide_eq_true hsz))
        (i := fun x => .vec (.scatter g (x.gr g.rs))) rfl h8 nofun hnone rfl (Mach.vecRun_scatter ..) hk
        (fun _ => (length_leBytes _ _).trans hsize) (by omega) (List.pairwise_lt_range.filter _) fun i hi b hb =>
          holds_of_accessCause (hacc i hi) hb) fun m' ⟨hkept, hat, hrest⟩ =>
          ⟨hkept, fun i b hi hon hb hlater => ?_, fun l hl => hrest l fun i hi b hb => ?_⟩
      · refine (hat i (mem_gatherLanes.mpr ⟨hi, hon⟩) b hb fun j hj hij c hc => ?_).trans (getD_leBytes _ (hsize ▸ hb))
        exact hlater j c hij (mem_gatherLanes.mp hj).1 (mem_gatherLanes.mp hj).2 hc
      · exact hl i b (mem_gatherLanes.mp hi).1 (mem_gatherLanes.mp hi).2 hb

end Sys2Proof.Machine
end

section
/-!
SUPPORT. The sync objects of a tile: a wait that takes a count or begins, a signal that counts, serves or overflows, and
the release of a waiter that a signal has served (06_synchronisation_and_work_stealing.md R214 to R217, R220;
05_falesk_instruction_set.md R199).
-/
namespace Sys2Proof.Machine

/-! ### Waits and signals of a tile -/

/-- A waiter of an object that no signal has served. -/
def Tile.awaits (x : Tile) (k : SyncId) : Bool := x.waits.any (fun w => w.obj = k && !w.served)

section
variable {x : Tile} {k : SyncId}

/-- With a count and no earlier waiter, a wait takes one. -/
theorem Tile.beginWait_takes (e : EngNo) (hn : x.sync[k] ≠ 0) (hq : x.awaits k = false) :
    x.beginWait e k = ({ x with sync := x.sync.set k (x.sync[k] - 1) }, true) :=
  if_pos (by rw [Bool.and_eq_true, decide_eq_true_eq, Bool.not_eq_true']; exact ⟨hn, hq⟩)

/-- Otherwise its engine waits behind the earlier ones. -/
theorem Tile.beginWait_waits (e : EngNo) (h : x.sync[k] = 0 ∨ x.awaits k = true) :
    x.beginWait e k = ({ x with waits := x.waits ++ [⟨e, k, false⟩] }, false) := by
  refine if_neg fun hc => ?_
  rw [Bool.and_eq_true, decide_eq_true_eq, Bool.not_eq_true'] at hc
  obtain ⟨hn, hq⟩ := hc
  exact h.elim hn fun h => Bool.false_ne_true (hq.symm.trans h)

/-- A signal without a waiter adds 1. -/
theorem Tile.signalled_counts (hlt : x.sync[k] < 0xFFFF) (hq : x.awaits k = false) :
    x.signalled k = { x with sync := x.sync.set k (x.sync[k] + 1) } := by
  have hidle : (x.setCount k (x.sync[k] + 1)).serve k = x.setCount k (x.sync[k] + 1) :=
    if_neg fun hc => Bool.false_ne_true (hq.symm.trans (Bool.and_eq_true_iff.mp hc).2)
  exact (if_neg (Nat.ne_of_lt hlt)).trans hidle

/-- A signal with a waiter is the first one's, and the count is as it was. -/
theorem Tile.signalled_serves (hlt : x.sync[k] < 0xFFFF) (hq : x.awaits k = true) :
    x.signalled k = { x with waits := serveFirst k x.waits } := by
  have hserved : (x.setCount k (x.sync[k] + 1)).serve k = { x with waits := serveFirst k x.waits } := by
    refine (if_pos ?_).trans ?_
    · exact Bool.and_eq_true_iff.mpr ⟨by simp [Tile.count, Tile.setCount], hq⟩
    · simp [Tile.setCount, Tile.count]
  exact (if_neg (Nat.ne_of_lt hlt)).trans hserved

end

section
variable {m : Mach} {t : Nat} {k : SyncId}

theorem Mach.signalObj_setTile {x : Tile} (hlt : x.sync[k] < 0xFFFF) :
    (m.setTile t x).signalObj t k = m.setTile t (x.signalled k) := by
  have hne : x.count k ≠ 0xFFFF := Nat.ne_of_lt hlt
  unfold Mach.signalObj Tile.signalled
  simp only [Mach.tile_setTile_same, Mach.setTile_setTile, if_neg hne]

/-- At 0xFFFF the count stays and OVF is set (R217). -/
theorem Mach.signalObj_setTile_full {x : Tile} (hn : x.sync[k] = 0xFFFF) :
    (m.setTile t x).signalObj t k = (m.setTile t x).setBit (Reg.tileSync t k.val) 16 true :=
  if_pos (by rw [Mach.tile_setTile_same]; exact hn)

end

/-! ### The forms of an instruction: scalar core and vector unit -/

section
variable {v : Variant} {m : Mach} {t : Nat}

/-- The vector queue stands while the unit waits. -/
theorem Mach.vecDrain_waiting {n : Nat} (hw : (m.tile t).waiting 1 = true) : Mach.vecDrain v n m t = m := by
  cases n with
  | zero => rfl
  | succ n => rw [Mach.vecDrain]; exact if_pos hw

section
variable {k : SyncId} {n pc : Nat} {r : List VqEntry} (hw : (m.tile t).waiting 1 = false)
  (hq : (m.tile t).vq = ⟨.wait k, pc⟩ :: r)
include hw hq

/-- A WAIT at the head of the queue that takes its count is done. -/
theorem Mach.vecDrain_takes (hn : (m.tile t).sync[k] ≠ 0) (hfirst : (m.tile t).awaits k = false) :
    Mach.vecDrain v (n + 1) m t = Mach.vecDrain v n
      (m.setTile t { m.tile t with vq := r, sync := (m.tile t).sync.set k ((m.tile t).sync[k] - 1) }) t := by
  have htake := Tile.beginWait_takes (x := { m.tile t with vq := r }) 1 hn hfirst
  rw [Mach.vecDrain]
  simp only [hw, hq, htake, Bool.false_eq_true, if_false, if_true]

/-- One that does not stays the head. -/
theorem Mach.vecDrain_waits (h : (m.tile t).sync[k] = 0 ∨ (m.tile t).awaits k = true) :
    Mach.vecDrain v (n + 1) m t =
      m.setTile t { m.tile t with waits := (m.tile t).waits ++ [⟨1, k, false⟩], vq := ⟨.wait k, pc⟩ :: r } := by
  have hwait := Tile.beginWait_waits (x := { m.tile t with vq := r }) 1 h
  rw [Mach.vecDrain]
  simp only [hw, hq, hwait, Bool.false_eq_true, if_false]
  exact Mach.vecDrain_waiting (by rw [Mach.tile_setTile_same]; simp [Tile.waiting])

end

section
variable {k : SyncId} (h : VectorReady m t 4)
include h

/-- WAIT finds the vector unit idle and a count. -/
theorem Mach.vecNow_takes (hn : (m.tile t).sync[k] ≠ 0) (hfirst : (m.tile t).awaits k = false) :
    m.issueNow v t (.vec (.wait k)) = m.setTile t { m.tile t with
      sync := (m.tile t).sync.set k ((m.tile t).sync[k] - 1), pc := (m.tile t).pc + 4 } := by
  obtain ⟨-, hq, hw⟩ := h
  refine (Mach.vecDrain_takes (k := k) (pc := (m.tile t).pc) (r := []) ?_ ?_ ?_ ?_).trans ?_
  · rw [Mach.tile_setTile_same]; exact hw
  · rw [Mach.tile_setTile_same, hq]; rfl
  · rw [Mach.tile_setTile_same]; exact hn
  · rw [Mach.tile_setTile_same]; exact hfirst
  · rw [Mach.vecDrain_nil (by rw [Mach.tile_setTile_same]), Mach.tile_setTile_same, Mach.setTile_setTile, ← hq]
    rfl

/-- It finds the vector unit idle and no count to take. -/
theorem Mach.vecNow_waits (hnone : (m.tile t).sync[k] = 0 ∨ (m.tile t).awaits k = true) :
    m.issueNow v t (.vec (.wait k)) = m.setTile t { m.tile t with
      waits := (m.tile t).waits ++ [⟨1, k, false⟩], vq := [⟨.wait k, (m.tile t).pc⟩], pc := (m.tile t).pc + 4 } := by
  obtain ⟨-, hq, hw⟩ := h
  refine (Mach.vecDrain_waits (k := k) (pc := (m.tile t).pc) (r := []) ?_ ?_ ?_).trans ?_
  · rw [Mach.tile_setTile_same]; exact hw
  · rw [Mach.tile_setTile_same, hq]; rfl
  · rw [Mach.tile_setTile_same]; exact hnone
  · rw [Mach.tile_setTile_same, Mach.setTile_setTile]
    rfl

end

/-- A held instruction is all that would issue late. -/
theorem Mach.unstall_none (h : (m.tile t).stalled = none) : m.unstall v t = m := by simp [Mach.unstall, h]

end

section
variable {c : Instr} {s : State} {t : TileId} {e : Bool}

/-- An instruction with a scalar form, which nothing holds back, and a vector form, which reads no memory and raises no
exception: where both come to the same machine, so does the command. -/
theorem exec_eitherForm {i : TInstr} {op : VOp} {m' : Mach} (hc : exec c s = onTile t (fun _ => if e then .vec op else i) s)
    (h : VectorReady s.mach t.val 4) (hisize : i.size = 4) (hopsize : (TInstr.vec op).size = 4)
    (hstall : (s.mach.tile t.val).mustStall i = false) (hwait : ∀ k, op ≠ .wait k)
    (hcause : vecCause s.variant s.mach t.val op = none) (hreads : vecReads (s.mach.tile t.val) op = [])
    (hscalar : s.mach.issueNow s.variant t.val i = m')
    (hvector : (s.mach.setTile t.val ((s.mach.tile t.val).advance 4)).vecRun s.variant t.val ⟨op, (s.mach.tile t.val).pc⟩ = m')
    (hvq : (m'.tile t.val).vq = []) : exec c s = .next { s with mach := m' } := by
  cases e with
  | false =>
    rw [← hscalar, ← Mach.tileInstr_ready (i := fun _ => i) (by rw [hisize]; exact h.1) hstall]
    exact hc
  | true =>
    exact exec_vec (i := fun _ => .vec op) hc rfl (by rw [hopsize]; exact h) hwait hcause (by simp [hreads]) (by simp [hreads])
      (by rw [hopsize]; exact hvector) hvq

variable {k : SyncId} (h : VectorReady s.mach t.val 4)
include h

/-! ### WAIT, TRYWAIT, SIGNAL, FENCE -/

/-- WAIT on either unit takes a count that no earlier waiter has a claim to. -/
theorem wait_takes (hn : (s.mach.tile t.val).sync[k] ≠ 0) (hq : (s.mach.tile t.val).awaits k = false) :
    Does (.wait t e k) s (OnlyTile t.val { s.mach.tile t.val with
      sync := (s.mach.tile t.val).sync.set k ((s.mach.tile t.val).sync[k] - 1), pc := (s.mach.tile t.val).pc + 4 }) := by
  cases e with
  | false =>
    refine does_onTile (i := fun _ => .wait k) rfl ?_
    rw [Mach.tileInstr_ready (i := fun _ => .wait k) h.1 rfl, Mach.issueNow, Tile.beginWait_takes 0 hn hq]; rfl
  | true =>
    refine does_onTile (i := fun _ => .vec (.wait k)) rfl ?_
    rw [Mach.tileInstr_ready (i := fun _ => .vec (.wait k)) h.1 (by simp [Tile.mustStall, h.2.1]), Mach.vecNow_takes h hn hq]

section
variable (hw : (s.mach.tile t.val).sync[k] = 0 ∨ (s.mach.tile t.val).awaits k = true)
include hw

/-- WAIT of the scalar core waits at its PC. -/
theorem wait_scalarWaits : Does (.wait t false k) s (OnlyTile t.val
    { s.mach.tile t.val with waits := (s.mach.tile t.val).waits ++ [⟨0, k, false⟩] }) := by
  refine does_onTile (i := fun _ => .wait k) rfl ?_
  rw [Mach.tileInstr_ready (i := fun _ => .wait k) h.1 rfl, Mach.issueNow, Tile.beginWait_waits 0 hw]; rfl

/-- WAIT of the vector unit waits in its queue, and the scalar core goes on. -/
theorem wait_vectorWaits : Does (.wait t true k) s (OnlyTile t.val { s.mach.tile t.val with
    waits := (s.mach.tile t.val).waits ++ [⟨1, k, false⟩], vq := [⟨.wait k, (s.mach.tile t.val).pc⟩],
    pc := (s.mach.tile t.val).pc + 4 }) := by
  refine does_onTile (i := fun _ => .vec (.wait k)) rfl ?_
  rw [Mach.tileInstr_ready (i := fun _ => .vec (.wait k)) h.1 (by simp [Tile.mustStall, h.2.1]), Mach.vecNow_waits h hw]

theorem trywait_fails (rd : GReg) : SetsG (.trywait t false k rd) s t.val rd 0 4 :=
  setsG_issue (i := fun _ => .trywait k rd) rfl h.1 rfl
    (by simp only [Mach.issueNow, Tile.beginWait_waits 0 hw, Bool.false_eq_true, if_false]; rfl)

end

theorem trywait_takes (rd : GReg) (hn : (s.mach.tile t.val).sync[k] ≠ 0) (hq : (s.mach.tile t.val).awaits k = false) :
    ∃ y : Tile, Does (.trywait t false k rd) s (OnlyTile t.val y) ∧
      (∀ r : GReg, y.gr r = if r = 0 then 0 else if r = rd then 1 else (s.mach.tile t.val).gr r) ∧
      y = { s.mach.tile t.val with
        g := y.g, sync := (s.mach.tile t.val).sync.set k ((s.mach.tile t.val).sync[k] - 1), pc := (s.mach.tile t.val).pc + 4 } := by
  refine ⟨_, does_onTile (i := fun _ => .trywait k rd) rfl ?_, fun r => Tile.gr_setG { s.mach.tile t.val with
    sync := (s.mach.tile t.val).sync.set k ((s.mach.tile t.val).sync[k] - 1), pc := (s.mach.tile t.val).pc + 4 } rd r 1, ?_⟩
  · rw [Mach.tileInstr_ready (i := fun _ => .trywait k rd) h.1 rfl]
    simp only [Mach.issueNow, Tile.beginWait_takes 0 hn hq, if_true]
    congr 1
    unfold Tile.setG Tile.advance; split <;> rfl
  · unfold Tile.setG; split <;> rfl

/-- SIGNAL on either unit, not flagged by the fence audit, signals its object behind PC. -/
theorem exec_signal (haudit : (s.mach.bit (Reg.tileAudit t.val) 16 && (s.mach.tile t.val).unfenced) = false) {m' : Mach}
    (hm : (s.mach.setTile t.val ((s.mach.tile t.val).advance 4)).signalObj t.val k = m') (hvq : (m'.tile t.val).vq = []) :
    exec (.signal t e k) s = .next { s with mach := m' } := by
  have hsignal : (s.mach.setTile t.val ((s.mach.tile t.val).advance 4)).programSignal t.val k (s.mach.tile t.val).pc = m' := by
    unfold Mach.programSignal
    rw [← hm, if_neg (by rw [Mach.tile_setTile_same]; exact Bool.not_eq_true _ ▸ haudit)]
  exact exec_eitherForm (i := .signal k) (op := .signal k) rfl h rfl rfl rfl nofun rfl rfl hsignal hsignal hvq

/-- Below 0xFFFF a signal changes its tile alone. -/
theorem does_signal (haudit : (s.mach.bit (Reg.tileAudit t.val) 16 && (s.mach.tile t.val).unfenced) = false)
    (hlt : (s.mach.tile t.val).sync[k] < 0xFFFF) {y : Tile} (hy : ((s.mach.tile t.val).advance 4).signalled k = y)
    (hvq : y.vq = (s.mach.tile t.val).vq) : Does (.signal t e k) s (OnlyTile t.val y) :=
  ⟨_, exec_signal h haudit (by rw [Mach.signalObj_setTile (by exact hlt), hy])
    (by rw [Mach.tile_setTile_same, hvq, h.2.1]), onlyTile_setTile _ _ _⟩

/-- A signal at 0xFFFF sets OVF of its object and writes no other register. -/
theorem signal_overflows (haudit : (s.mach.bit (Reg.tileAudit t.val) 16 && (s.mach.tile t.val).unfenced) = false)
    (hn : (s.mach.tile t.val).sync[k] = 0xFFFF) : Does (.signal t e k) s (fun m m' =>
      m'.tile t.val = { s.mach.tile t.val with pc := (s.mach.tile t.val).pc + 4 } ∧
      m'.bit (Reg.tileSync t.val k.val) 16 = true ∧ (∀ r : Nat, r ≠ Reg.tileSync t.val k.val → m'.reg r = m.reg r)) := by
  have htile (m : Mach) (x : Tile) (o i : Nat) (b : Bool) : ((m.setTile t.val x).setBit o i b).tile t.val = x :=
    Mach.tile_setTile_same m t.val x
  refine ⟨_, exec_signal h haudit (Mach.signalObj_setTile_full (by exact hn)) (by rw [htile]; exact h.2.1), htile _ _ _ _ _,
    Mach.bit_setBit_same _ _ _ (by decide), fun r hr => Mach.reg_setBit_other _ _ _ hr⟩

/-- FENCE finds nothing queued on an idle vector unit; with W set it clears the unfenced flag (R220). -/
theorem does_fence {r w : Bool} (hrw : (r || w) = true) : Does (.fence t e r w) s (OnlyTile t.val { s.mach.tile t.val with
    unfenced := if w then false else (s.mach.tile t.val).unfenced, pc := (s.mach.tile t.val).pc + 4 }) := by
  have hfence : (s.mach.setTile t.val ((s.mach.tile t.val).advance 4)).fenced t.val w = s.mach.setTile t.val
      { s.mach.tile t.val with
        unfenced := if w then false else (s.mach.tile t.val).unfenced, pc := (s.mach.tile t.val).pc + 4 } := by
    cases w with
    | false => rfl
    | true => exact (Mach.setTile_setTile _ _ _ _).trans (by rw [Mach.tile_setTile_same]; rfl)
  exact ⟨_, exec_eitherForm (i := .fence w r) (op := .fence w r) (onTile_legal hrw) h rfl rfl (by simp [Tile.mustStall, h.2.1])
    nofun rfl rfl hfence hfence (by rw [Mach.tile_setTile_same]; exact h.2.1), onlyTile_setTile _ _ _⟩

end

/-! ### The release of a served waiter (R215) -/

/-- An engine waits and a signal has served it. -/
def Tile.isServed (x : Tile) (e : EngNo) : Bool := x.waits.any (fun w => w.eng = e && w.served)

/-- The tile without the waits of an engine. -/
def Tile.waitsDropped (x : Tile) (e : EngNo) : Tile := { x with waits := x.waits.filter (fun w => w.eng ≠ e) }

theorem Tile.startHead_started {x : Tile} {e : EngId} (h : (x.engQ e).started = true) : x.startHead e = x := by
  simp only [Tile.startHead, h, Bool.true_or, if_true]
  split <;> rfl

section
variable {s : State} {t : TileId}

theorem waitRelease_unserved {e : EngNo} (h : (s.mach.tile t.val).isServed e = false) :
    Does (.waitRelease t e) s (fun m m' => m' = m) :=
  ⟨_, rfl, if_neg (Bool.not_eq_true _ ▸ h)⟩

/-- A release that replaces its tile does nothing else. -/
theorem does_waitRelease {e : EngNo} {y : Tile} (h : s.mach.release s.variant t.val e = s.mach.setTile t.val y) :
    Does (.waitRelease t e) s (OnlyTile t.val y) :=
  ⟨_, by rw [← h]; rfl, onlyTile_setTile _ _ _⟩

theorem waitRelease_scalar (h : (s.mach.tile t.val).isServed 0 = true) :
    Does (.waitRelease t 0) s (OnlyTile t.val (((s.mach.tile t.val).waitsDropped 0).advance 4)) :=
  does_waitRelease (if_pos h)

variable (hstalled : (s.mach.tile t.val).stalled = none)
include hstalled

theorem waitRelease_vector (h : (s.mach.tile t.val).isServed 1 = true) {w : VqEntry} (hvq : (s.mach.tile t.val).vq = [w]) :
    Does (.waitRelease t 1) s (OnlyTile t.val { (s.mach.tile t.val).waitsDropped 1 with vq := [] }) := by
  refine does_waitRelease ?_
  have hrun : s.mach.release s.variant t.val 1 = (Mach.vecDrain s.variant 17 (s.mach.setTile t.val
      { (s.mach.tile t.val).waitsDropped 1 with vq := (s.mach.tile t.val).vq.drop 1 }) t.val).unstall s.variant t.val :=
    if_pos h
  rw [hrun, hvq, List.drop_one, List.tail_cons, Mach.vecDrain_nil (by rw [Mach.tile_setTile_same]),
    Mach.unstall_none (by rw [Mach.tile_setTile_same]; exact hstalled)]

/-- A descriptor engine starts its head, which goes no further where its operation is known. -/
theorem waitRelease_engine (e : EngId) (h : (s.mach.tile t.val).isServed e.no = true)
    (hknown : ∀ d : List Byte, ((s.mach.tile t.val).engQ e).q.head? = some d → descKnownOp e d = true) :
    Does (.waitRelease t e.no) s (OnlyTile t.val
      (((s.mach.tile t.val).waitsDropped e.no).setEngQ e ⟨((s.mach.tile t.val).engQ e).q, true⟩)) := by
  generalize hy : ((s.mach.tile t.val).waitsDropped e.no).setEngQ e ⟨((s.mach.tile t.val).engQ e).q, true⟩ = y
  have hq : y.engQ e = ⟨((s.mach.tile t.val).engQ e).q, true⟩ := by rw [← hy, Tile.engQ_setEngQ]
  have hrun : s.mach.release s.variant t.val e.no =
      ((s.mach.setTile t.val y).settle s.variant 17 t.val e).unstall s.variant t.val := by
    refine (if_pos h).trans ?_
    rw [← hy]
    cases e <;> rfl
  refine does_waitRelease ?_
  rw [hrun, Mach.settle_stop (x := y) (by rw [Mach.tile_setTile_same]; exact Tile.startHead_started (by rw [hq])),
    Mach.setTile_setTile, Mach.unstall_none]
  · rw [Mach.tile_setTile_same, ← hy, ← hstalled]; cases e <;> rfl
  · intro d r hd _
    exact hknown d (by rw [hq] at hd; rw [hd]; rfl)

end

/-- Settles O13: each instruction by its own lemmas, and the release of each engine by its. -/
theorem syncObjects : Obligations.SyncObjects := by
  refine ⟨fun s t k e rd h => ⟨fun hn hq => ⟨wait_takes h hn hq, trywait_takes h rd hn hq⟩,
    fun hw => ⟨wait_scalarWaits h hw, wait_vectorWaits h hw, trywait_fails h hw rd⟩, fun haudit hlt hq => ?_,
    fun haudit hlt hq => ?_, signal_overflows h, fun r w => does_fence h⟩, fun s t hstalled => ?_⟩
  · exact does_signal h haudit hlt (Tile.signalled_counts (x := (s.mach.tile t.val).advance 4) hlt hq) rfl
  · exact does_signal h haudit hlt (Tile.signalled_serves (x := (s.mach.tile t.val).advance 4) hlt hq) rfl
  · exact ⟨waitRelease_scalar, fun w hserved hvq => waitRelease_vector hstalled hserved hvq,
      fun hserved _ => waitRelease_engine hstalled .gouge hserved, fun hserved _ => waitRelease_engine hstalled .aes hserved,
      fun hserved _ => waitRelease_engine hstalled .dma hserved, fun e => waitRelease_unserved⟩

end Sys2Proof.Machine
end

section
/-!
SUPPORT. The queues of clusters and dies and the entries in them: what reads back after an entry is put or placed, and
what a run's end, a job's end and a job's start leave of them (06_synchronisation_and_work_stealing.md R226, R230, R238).
-/
namespace Sys2Proof.Machine

/-! ### Entries -/

section
variable {m : Mach} {l : QLoc}

@[simp] theorem Mach.tile_putEntry (e : Option QEntry) (t : Nat) : (m.putEntry l e).tile t = m.tile t := by
  rw [Mach.tile, tiles_putEntry]; rfl

@[simp] theorem Mach.putEntry_regs (e : Option QEntry) : (m.putEntry l e).regs = m.regs := by cases l <;> rfl
@[simp] theorem Mach.putEntry_evr (e : Option QEntry) : (m.putEntry l e).evr = m.evr := by cases l <;> rfl
@[simp] theorem Mach.putEntry_jobs (e : Option QEntry) : (m.putEntry l e).jobs = m.jobs := by cases l <;> rfl

theorem Mach.dieQueue_setDieQueue (d k : Nat) (q : SMap QEntry) :
    (m.setDieQueue d q).dieQueue k = if k = d then q else m.dieQueue k := mapGet_set _ _ _ _ _

@[simp] theorem Mach.clus_setClus_same (c : Nat) (x : Cluster) : (m.setClus c x).clus c = x := by
  rw [Mach.clus_setClus, if_pos rfl]

/-- The entry put at a place is the entry there. -/
@[simp] theorem Mach.entryAt_putEntry (e : QEntry) : (m.putEntry l (some e)).entryAt l = some e := by
  cases l with
  | cluster c k => simp [Mach.putEntry, Mach.entryAt]
  | die d k => simp [Mach.putEntry, Mach.entryAt, Mach.dieQueue_setDieQueue]

theorem Mach.entryAt_congr {n : Mach} (h : n.tl = m.tl) (l : QLoc) : n.entryAt l = m.entryAt l := by
  cases l <;> simp [Mach.entryAt, Mach.clus, Mach.dieQueue, h]

end

/-! ### A free position -/

theorem mapFind_eq_none {α : Type} {q : SMap α} {k : Nat} (h : ∀ p ∈ q, p.1 ≠ k) : mapFind q k = none :=
  Option.eq_none_iff_forall_ne_some.mpr fun _ hx => h _ (mem_of_mapFind hx) rfl

/-- A ring with fewer entries than positions has a free one: consecutive keys take every position once. -/
theorem exists_freeKey {q : SMap QEntry} {size : Nat} (next : Nat) (h : q.length < size) :
    ∃ k, freeKey q next size = some k ∧ mapFind q k = none := by
  have hinj : Set.InjOn (fun i => (next + i) % size) (Finset.range size) := by
    intro i hi j hj hij
    rw [Finset.coe_range, Set.mem_Iio] at hi hj
    exact (Nat.ModEq.add_left_cancel' next hij).eq_of_lt_of_lt hi hj
  obtain ⟨r, hr, hfree⟩ : ∃ r ∈ (Finset.range size).image (fun i => (next + i) % size),
      r ∉ (q.map (fun p => p.1 % size)).toFinset := by
    refine Finset.exists_mem_notMem_of_card_lt_card ?_
    rw [Finset.card_image_of_injOn hinj, Finset.card_range]
    exact ((List.toFinset_card_le _).trans_eq (List.length_map _)).trans_lt h
  obtain ⟨i, hi, rfl⟩ := Finset.mem_image.mp hr
  rw [freeKey, if_pos h]
  cases hk : ((List.range size).map (fun i => next + i)).find? (fun k => !q.any (fun p => p.1 % size = k % size)) with
  | none =>
    have hall := List.find?_eq_none.mp hk (next + i) (List.mem_map.mpr ⟨i, List.mem_range.mpr (Finset.mem_range.mp hi), rfl⟩)
    simp only [Bool.not_eq_true, Bool.not_eq_false', List.any_eq_true, decide_eq_true_eq] at hall
    obtain ⟨p, hp, hpr⟩ := hall
    exact absurd (List.mem_toFinset.mpr (List.mem_map.mpr ⟨p, hp, hpr⟩)) hfree
  | some k =>
    refine ⟨k, rfl, mapFind_eq_none fun p hp he => ?_⟩
    have hany := List.find?_some hk
    simp only [Bool.not_eq_true', List.any_eq_false, decide_eq_true_eq] at hany
    exact hany p hp (by rw [he])

/-- A die queue with room takes an entry at a place that held none (R238). -/
theorem Mach.placeDie_room {m : Mach} {d : Nat} (e : QEntry) (h : (m.dieQueue d).length < 8192) :
    ∃ (n : Nat) (dieNext : SMap Nat), mapFind (m.dieQueue d) n = none ∧ m.placeDie d e =
      some { m.setDieQueue d (mapSet (m.dieQueue d) n e) with
        tl := { (m.setDieQueue d (mapSet (m.dieQueue d) n e)).tl with dieNext := dieNext } } := by
  obtain ⟨n, hkey, hfree⟩ := exists_freeKey (mapGet (fun _ => 0) m.tl.dieNext d) h
  refine ⟨n, mapSet m.tl.dieNext d (n + 1), hfree, ?_⟩
  simp only [Mach.placeDie, hkey]
  rfl

/-! ### What the launch of a job leaves (12 R432, R438) -/

@[simp] theorem tl_setPipe (m : Mach) (p q x) : (m.setPipe p q x).tl = m.tl := by simp [Mach.setPipe]
@[simp] theorem tl_countDenied (m : Mach) (st) : (m.countDenied st).tl = m.tl := by
  unfold Mach.countDenied
  split <;> simp
@[simp] theorem tl_pipePost (m : Mach) (p q c) : (m.pipePost p q c).tl = m.tl := by
  unfold Mach.pipePost Mach.pipeWrite
  (repeat' split) <;> simp
@[simp] theorem tl_pipeDone (m : Mach) (p q cid serial result st) : (m.pipeDone p q cid serial result st).tl = m.tl := by
  unfold Mach.pipeDone
  (repeat' split) <;> simp
@[simp] theorem tl_startRunning (m : Mach) (j x launch late) : (m.startRunning j x launch late).tl = m.tl := by
  unfold Mach.startRunning; dsimp only
  split <;> simp
@[simp] theorem tl_fixLaunch (m : Mach) (j launch) : (m.fixLaunch j launch).tl = m.tl := by
  unfold Mach.fixLaunch
  (repeat' split) <;> simp
@[simp] theorem tl_tablesLoaded (m : Mach) (j) : (m.tablesLoaded j).tl = m.tl := by
  unfold Mach.tablesLoaded
  split <;> rfl
@[simp] theorem tl_setStart (m : Mach) (r) : (m.setStart r).tl = m.tl := rfl
@[simp] theorem tl_tryGo (m : Mach) (r) : (m.tryGo r).tl = m.tl := by
  unfold Mach.tryGo
  split
  · extract_lets launch m₁ m₂ m₃
    have h₁ : m₁.tl = m.tl := foldl_keeps Mach.tl (fun m x => by split <;> rfl) _ _
    have h₃ : m₃.tl = m₁.tl := by
      unfold m₃
      split
      · exact tl_fixLaunch _ _ _
      · rfl
    rw [tl_pipeDone, h₃, h₁]
  · rfl
@[simp] theorem tl_ownReady (m : Mach) (j) : (m.ownReady j).tl = m.tl := by
  unfold Mach.ownReady
  (repeat' split) <;> simp
@[simp] theorem tl_sayReady (m : Mach) (j) : (m.sayReady j).tl = m.tl := by
  unfold Mach.sayReady
  (repeat' split) <;> rfl

end Sys2Proof.Machine
end

section
/-!
SUPPORT. Dependencies, spilling, the cluster detector and its examination, clock steps and table loads
(06_synchronisation_and_work_stealing.md R231, R238, R240, R241; 04_tiles_clusters_regions.md R145, R147).
-/
namespace Sys2Proof.Machine

section
variable {s : State} {c : ClusterId}

/-- The entry at the position becomes READY, the others stay as they are (R231). -/
theorem dependencyMet_reached {pos : Fin 4096} {k : Nat} {e : QEntry} (hring : ringEntry (s.mach.clus c.val) pos.val = some (k, e))
    (hwaiting : e.state = .waiting) (hdep : s.mach.depMet e.bytes = true) : Does (.dependencyMet c pos) s (fun m m' =>
      m' = m.setClus c.val { s.mach.clus c.val with ring := mapSet (s.mach.clus c.val).ring k { e with state := .ready } }) := by
  refine ⟨_, rfl, ?_⟩
  simp only [Mach.dependencyMet, hring, hwaiting, hdep, decide_true, Bool.and_self, if_true]
  rfl

/-- The newest READY entry goes to the die queue (R238). -/
theorem spill_above {k : Nat} {e : QEntry} (hmark : s.mach.fld (Reg.pipeClqCfg c.val) 12 0 < countState (s.mach.clus c.val).ring .ready)
    (hlast : ((s.mach.clus c.val).ring.filter (fun p => p.2.state = .ready)).getLast? = some (k, e))
    (hroom : (s.mach.dieQueue (c.val / 8)).length < 8192) : Does (.spill c) s (fun m m' =>
      (m'.clus c.val).ring = mapErase (s.mach.clus c.val).ring k ∧
      (∃ n : Nat, mapFind (s.mach.dieQueue (c.val / 8)) n = none ∧
        m'.dieQueue (c.val / 8) = mapSet (s.mach.dieQueue (c.val / 8)) n e) ∧
      (∀ b : Nat, b ≠ c.val → m'.clus b = m.clus b) ∧ (∀ t : Nat, m'.tile t = m.tile t) ∧ m'.regs = m.regs) := by
  obtain ⟨n, dieNext, hfree, hplace⟩ := s.mach.placeDie_room e hroom
  refine does_of rfl fun m' hm => ?_
  simp only [Mach.spill, if_pos hmark, hlast, hplace] at hm
  subst hm
  refine ⟨?_, ⟨n, hfree, ?_⟩, fun b hb => ?_, fun t => rfl, rfl⟩
  · exact congrArg Cluster.ring (Mach.clus_setClus_same _ _)
  · exact (Mach.dieQueue_setDieQueue _ _ _).trans (if_pos rfl)
  · exact (Mach.clus_setClus _ _ _ _).trans (if_neg hb)

/-- The cluster detector fires once for an examination (R240, R241). -/
theorem clusterDeadlock_fires (hc : c.val < clusterCount s.variant) (henable : s.mach.bit (Reg.pipeClqCfg c.val) 16 = true)
    (harmed : (s.mach.clus c.val).armed = true) (hjobs : s.mach.waitingJobs c.val ≠ [])
    (hblocked : ∀ t ∈ s.mach.dutyTiles s.variant c.val, s.mach.blockedOnQueue t = true) : Does (.clusterDeadlock c) s (fun m m' =>
      m'.bit (Reg.pipeClqStatus c.val) 31 = true ∧ (m'.clus c.val).armed = false ∧
      (m'.clus c.val).ring = (s.mach.clus c.val).ring ∧ c.val ∈ m'.tl.examine ∧ m'.jobs = m.jobs) := by
  have hfires : (c.val < clusterCount s.variant && s.mach.bit (Reg.pipeClqCfg c.val) 16 && (s.mach.clus c.val).armed &&
      !(s.mach.waitingJobs c.val).isEmpty && (s.mach.dutyTiles s.variant c.val).all s.mach.blockedOnQueue) = true := by
    simp [hc, henable, harmed, hjobs, List.all_eq_true.mpr hblocked]
  refine does_of rfl fun m' hm => ?_
  simp only [Mach.clusterDeadlock, if_pos hfires] at hm
  subst hm
  have hclus := Mach.clus_setClus_same (m := s.mach.setBit (Reg.pipeClqStatus c.val) 31 true) c.val
    { s.mach.clus c.val with armed := false }
  exact ⟨Mach.bit_setBit_same _ _ _ (by decide), (congrArg Cluster.armed hclus :), (congrArg Cluster.ring hclus :), by simp, rfl⟩

/-- The examination re-arms the detector where every job still has work (R241). -/
theorem deadlockExamine_alive {yft planned : List JobSlot} (hexamine : c.val ∈ s.mach.tl.examine)
    (halive : ∀ n ∈ s.mach.waitingJobs c.val, s.mach.hasWork n = true ∨ ∃ y ∈ yft ++ planned, y.val = n) :
    Does (.deadlockExamine c yft planned) s (fun m m' => (m'.clus c.val).armed = true ∧
      (m'.clus c.val).ring = (s.mach.clus c.val).ring ∧ c.val ∉ m'.tl.examine ∧ m'.jobs = m.jobs) := by
  have hdead : (s.mach.waitingJobs c.val).filter
      (fun j => !(s.mach.hasWork j || (yft ++ planned).any (fun x => x.val = j))) = [] := by
    refine List.filter_eq_nil_iff.mpr fun n hn => ?_
    rw [Bool.not_eq_true', Bool.not_eq_false, Bool.or_eq_true, List.any_eq_true]
    exact (halive n hn).imp_right fun ⟨y, hy, he⟩ => ⟨y, hy, decide_eq_true he⟩
  refine does_of rfl fun m' hm => ?_
  simp only [Mach.deadlockExamine, List.contains_eq_mem, decide_eq_true hexamine, if_true, hdead, List.foldl_nil] at hm
  subst hm
  refine ⟨?_, ?_, ?_, ?_⟩
  · rw [Mach.clus_congr (Mach.record_tl _ _ _ _ _), Mach.clus_setClus_same]
  · rw [Mach.clus_congr (Mach.record_tl _ _ _ _ _), Mach.clus_setClus_same]; rfl
  · rw [Mach.record_tl]; simp [Mach.setClus]
  · rw [Mach.record_jobs]; rfl

/-- A running clock takes one step of at most 25 MHz (04 R147). -/
theorem clockStep_running (h : s.mach.clockRuns c.val = true) : Does (.clockStep c) s (fun m m' =>
    m' = m.setClus c.val { s.mach.clus c.val with
      current := if (s.mach.clus c.val).current < s.mach.clockEffective c.val
        then min (s.mach.clockEffective c.val) ((s.mach.clus c.val).current + 25)
        else max (s.mach.clockEffective c.val) ((s.mach.clus c.val).current - 25) }) := by
  refine ⟨_, rfl, ?_⟩
  simp only [Mach.clockStep, h, if_true]
  split <;> rfl

/-- The load of a table set changes of its cluster the list of loaded sets alone (04 R145). -/
theorem Mach.clus_tableLoaded {m : Mach} {c j : Nat} (hserves : j ∈ (m.clus c).serves) (hnew : j ∉ (m.clus c).loaded) :
    (m.tableLoaded c j).clus c = { m.clus c with loaded := (m.clus c).loaded ++ [j] } := by
  have hserve : (m.serve c j true).clus c = { m.clus c with loaded := (m.clus c).loaded ++ [j] } := by
    simp [Mach.serve, hserves, hnew]
  have hset : (m.tableSetLoaded c j).tl = (m.serve c j true).tl := by
    unfold Mach.tableSetLoaded; dsimp only
    rw [if_pos (by simp [hserves, hnew])]
    split
    · exact tl_tablesLoaded _ _
    · rfl
  rw [← hserve]
  refine Mach.clus_congr ?_ c
  unfold Mach.tableLoaded; dsimp only
  split
  · rw [tl_ownReady, tl_sayReady, hset]
  · exact hset

theorem tableSetLoaded_serving {j : JobSlot} (hserves : j.val ∈ (s.mach.clus c.val).serves)
    (hnew : j.val ∉ (s.mach.clus c.val).loaded) : Does (.tableSetLoaded c j) s (fun _ m' =>
      j.val ∈ (m'.clus c.val).loaded ∧ (m'.clus c.val).serves = (s.mach.clus c.val).serves ∧
      (m'.clus c.val).ring = (s.mach.clus c.val).ring ∧ (m'.clus c.val).sram = (s.mach.clus c.val).sram) := by
  refine ⟨_, rfl, ?_⟩
  dsimp only
  rw [Mach.clus_tableLoaded hserves hnew]
  exact ⟨by simp, rfl, rfl, rfl⟩

end

/-- Settles O19: each event by its own lemma. -/
theorem queuesAndClocks : Obligations.QueuesAndClocks := by
  intro s c pos j e k
  refine ⟨fun hring hwaiting hdep => dependencyMet_reached hring hwaiting ?_, spill_above, clusterDeadlock_fires,
    fun _ _ => deadlockExamine_alive, clockStep_running, tableSetLoaded_serving⟩
  rw [Mach.depMet, Bool.or_eq_true, Bool.not_eq_true', ← Bool.not_eq_true, reached, decide_eq_true_eq, ← imp_iff_not_or]
  exact hdep

end Sys2Proof.Machine
end

section
/-!
SUPPORT. A work unit on its tile: the entry taken and the tile's fresh start, DONE of an unselected unit, and the tile
detector (06_synchronisation_and_work_stealing.md R218, R222 to R224, R229, R230, R235; 05_falesk_instruction_set.md R161,
R201; 09_decode_augment_cache.md R314).
-/
namespace Sys2Proof.Machine

/-! ### What a unit's code object is read from (08 R279) -/

section
variable {m n : Mach}

/-- Bytes of memory do not see an entry's state change. -/
@[simp] theorem Mach.locByte_putEntry (q : QLoc) (e : Option QEntry) (l : Loc) : (m.putEntry q e).locByte l = m.locByte l := by
  cases q with
  | die d k => cases l <;> rfl
  | cluster c k =>
    cases l with
    | cluster b off =>
      simp only [Mach.putEntry, Mach.locByte, Mach.clus_setClus, Mach.setClus_draws]
      by_cases hb : b = c
      · rw [if_pos hb, hb]
      · rw [if_neg hb]
    | _ => rfl

theorem Mach.codeOf_congr (hjobs : n.jobs = m.jobs) (hbytes : ∀ l, n.locByte l = m.locByte l) (v : Variant) (b : List Byte) :
    n.codeOf v b = m.codeOf v b := by
  simp only [Mach.codeOf, Mach.job?, imageSection, imageSections, Mach.devNat, Mach.devRead, hjobs, hbytes]

end

/-! ### Taking an entry -/

/-- The counts of steals, where the entry came from another queue. -/
def Mach.countSteal (m : Mach) (c : Nat) (l : QLoc) : Mach :=
  match l with
  | .cluster q _ => if q = c then m else (m.addFld (Reg.pipeClqSteals q) 31 16 1).addFld (Reg.pipeClqSteals c) 15 0 1
  | .die _ _ => m.addFld (Reg.pipeClqSteals c) 15 0 1

section
variable {m : Mach} (c : Nat) (l : QLoc)

@[simp] theorem Mach.countSteal_tl : (m.countSteal c l).tl = m.tl := by
  unfold Mach.countSteal
  split
  · split <;> rfl
  · rfl

@[simp] theorem Mach.countSteal_jobs : (m.countSteal c l).jobs = m.jobs := by
  unfold Mach.countSteal
  split
  · split <;> rfl
  · rfl

@[simp] theorem Mach.locByte_countSteal (p : Loc) : (m.countSteal c l).locByte p = m.locByte p := by
  unfold Mach.countSteal
  split
  · split
    · rfl
    · rw [Mach.locByte_addFld, Mach.locByte_addFld]
  · exact Mach.locByte_addFld _ _ _ _ _ _

end

section
variable {v : Variant} {m : Mach} {t : Nat} {l : QLoc} {e : QEntry}

/-- The unit that a tile holds once it has taken an entry. -/
def Mach.unitOf (m : Mach) (v : Variant) (l : QLoc) (e : QEntry) : WorkUnit :=
  ⟨e.bytes, l, e.part, (m.codeOf v e.bytes).1, (m.codeOf v e.bytes).2, e.slotLen⟩

/-- A pending tile configuration applied (R242). -/
def Mach.configured (m : Mach) (t : Nat) : Mach :=
  match (m.tile t).cfgPend with
  | some cfg => m.applyTilecfg t cfg
  | none => m

/-- An entry taken, step by step: TAKEN, steals counted, the tile configured, the unit started. -/
theorem Mach.takeEntry_eq (he : m.entryAt l = some e) : m.takeEntry v t l =
    let n := ((m.putEntry l (some { e with state := .taken, takenBy := some t })).countSteal (t / 16) l).configured t
    (n.setFld (Reg.tileCaliper t) 29 28 0).setTile t (({ n.tile t with cfgPend := none }).startUnit (n.unitOf v l e)) := by
  unfold Mach.takeEntry
  rw [he]
  cases l <;> rfl

/-- With no configuration pending, the unit starts on the tile as it was, and only counters change besides the entry. -/
theorem Mach.takeEntry_started (he : m.entryAt l = some e) (hcfg : (m.tile t).cfgPend = none) :
    ∃ n : Mach, n.tl = (m.putEntry l (some { e with state := .taken, takenBy := some t })).tl ∧
      m.takeEntry v t l = n.setTile t ((m.tile t).startUnit (m.unitOf v l e)) := by
  rw [Mach.takeEntry_eq he]
  generalize hn : (m.putEntry l (some { e with state := .taken, takenBy := some t })).countSteal (t / 16) l = n
  have htl : n.tl = (m.putEntry l (some { e with state := .taken, takenBy := some t })).tl := by rw [← hn, Mach.countSteal_tl]
  have htile : n.tile t = m.tile t := by rw [Mach.tile_congr htl, Mach.tile_putEntry]
  have hunit : n.unitOf v l e = m.unitOf v l e := by
    have hcode : n.codeOf v e.bytes = m.codeOf v e.bytes := by
      refine Mach.codeOf_congr ?_ (fun p => ?_) v e.bytes
      · rw [← hn, Mach.countSteal_jobs, Mach.putEntry_jobs]
      · rw [← hn, Mach.locByte_countSteal, Mach.locByte_putEntry]
    rw [Mach.unitOf, hcode]; rfl
  have hconfigured : n.configured t = n := by rw [Mach.configured, htile, hcfg]
  have hidle : ({ m.tile t with cfgPend := none } : Tile) = m.tile t := by rw [← hcfg]
  refine ⟨n.setFld (Reg.tileCaliper t) 29 28 0, htl, ?_⟩
  rw [hconfigured]
  dsimp only
  rw [htile, hidle, hunit]

end

/-! ### The tile at the start of a unit (R218; 05 R161) -/

section
variable {x : Tile} {u : WorkUnit}

@[simp] theorem Tile.gr_startUnit (r : GReg) : (x.startUnit u).gr r = 0 := by simp [Tile.gr, Tile.startUnit]
@[simp] theorem Tile.vr_startUnit (r : VReg) : (x.startUnit u).vr r = 0 := by simp [Tile.vr, Tile.startUnit]
@[simp] theorem Tile.sync_startUnit (k : SyncId) : (x.startUnit u).sync[k] = 0 := by simp [Tile.startUnit]

/-- The entry lies at its fixed address (R229). -/
theorem Tile.entry_startUnit {i : Nat} (h : i < u.entry.length) :
    memByte (x.startUnit u).sram (0x7FFC0 + i) = u.entry.getD i 0 := by
  rw [show (x.startUnit u).sram = memWrite x.sram 0x7FFC0 u.entry from rfl, memByte_write, if_pos (by omega),
    Nat.add_sub_cancel_left]

end

theorem workUnitTake_ready {s : State} {t : TileId} {l : QLoc} {e : QEntry} (hready : s.mach.tileReady s.variant t.val = true)
    (hnext : s.mach.nextEntry (t.val / 16) = some l) (he : s.mach.entryAt l = some e)
    (hcfg : (s.mach.tile t.val).cfgPend = none) : Does (.workUnitTake t) s (fun m m' =>
      m'.entryAt l = some { e with state := .taken, takenBy := some t.val } ∧
      m'.tile t.val = (m.tile t.val).startUnit (m.unitOf s.variant l e)) := by
  obtain ⟨n, htl, htake⟩ := Mach.takeEntry_started (v := s.variant) he hcfg
  refine does_of rfl fun m' hm => ?_
  simp only [Mach.workUnitTake, hready, if_true, hnext, htake] at hm
  subst hm
  exact ⟨by rw [Mach.entryAt_setTile, Mach.entryAt_congr htl, Mach.entryAt_putEntry], Mach.tile_setTile_same _ _ _⟩

/-! ### DONE (R230, R232; 05 R201) -/

section
variable {v : Variant} {m : Mach} {t : Nat} {u : WorkUnit} {e : QEntry}

/-- Writes of job code touch no entry. -/
@[simp] theorem Mach.entryAt_putLoc (p : Loc) (b : Byte) (l : QLoc) : (m.putLoc p b).entryAt l = m.entryAt l := by
  cases p with
  | cluster c off =>
    cases l with
    | cluster d k =>
      simp only [Mach.putLoc, Mach.entryAt, Mach.clus_setClus]
      by_cases hd : d = c
      · rw [if_pos hd, hd]
      · rw [if_neg hd]
    | die d k => rfl
  | _ => cases l <;> rfl

@[simp] theorem Mach.entryAt_jobWrite (k a : Nat) (bs : List Byte) (l : QLoc) : (m.jobWrite v k a bs).entryAt l = m.entryAt l := by
  induction bs generalizing m a with
  | nil => rfl
  | cons b r ih =>
    rw [Mach.jobWrite, ih]
    split_ifs
    · exact Mach.entryAt_setTile _ _ _ _
    · exact Mach.entryAt_putLoc _ _ _

/-- The tile once its unit is done. -/
def Tile.freed (x : Tile) : Tile := { x.endUnit false with unit := none, aside := [] }

/-- DONE of an unselected unit without held adds, whose entry has had no other run. -/
theorem Mach.unitDone_plain (hunit : (m.tile t).unit = some u) (hpart : u.part = .plain) (hadds : (m.tile t).heldAdds = [])
    (he : m.entryAt u.loc = some e) (hruns : e.runs = []) (st : Nat) : m.unitDone v t st =
      (m.setTile t (m.tile t).freed).putEntry u.loc (some { e with state := .done, status := st, adds := [] }) := by
  simp [Mach.unitDone, hunit, hpart, hadds, Mach.applyAdds, Mach.entryDone, he, Mach.chargeRuns, hruns, Tile.freed]

end

section
variable {s : State} {t : TileId} {rs : GReg} {u : WorkUnit} {e : QEntry} {st : Nat}

/-- DONE with a status that ends a unit, on a tile whose engines have drained. -/
theorem exec_done (hready : ScalarReady s.mach t.val 4) (hvq : (s.mach.tile t.val).vq = []) (hgq : (s.mach.tile t.val).gq.q = [])
    (haq : (s.mach.tile t.val).aq.q = []) (hdq : (s.mach.tile t.val).dq.q = [])
    (hst : ((s.mach.tile t.val).gr rs).toNat % 2 ^ 16 = st) (hends : st = St.ok ∨ st = St.checkFail ∨ st = St.checkAbsent) :
    exec (.done t rs) s = .next { s with mach := s.mach.finishUnit s.variant t.val st } := by
  have hlegal : doneStatus st = true := by obtain rfl | rfl | rfl := hends <;> rfl
  have hi : legal (doneStatus (((s.mach.tile t.val).gr rs).toNat % 2 ^ 16)) (.done rs) = .done rs := by
    rw [hst, hlegal]; rfl
  have hissue : s.mach.issueNow s.variant t.val (.done rs) = s.mach.finishUnit s.variant t.val st := by
    simp only [Mach.issueNow, hst]
    exact if_pos hlegal
  have hc : exec (.done t rs) s = onTile t (fun x => legal (doneStatus ((x.gr rs).toNat % 2 ^ 16)) (.done rs)) s := rfl
  rw [hc, onTile, act, Mach.tileInstr_ready (by rw [hi]; exact hready) (by rw [hi]; simp [Tile.mustStall, hvq, hgq, haq, hdq]),
    hi, hissue]

variable (hexec : exec (.done t rs) s = .next { s with mach := s.mach.finishUnit s.variant t.val st })
  (hunit : (s.mach.tile t.val).unit = some u) (hpart : u.part = .plain) (hadds : (s.mach.tile t.val).heldAdds = [])
  (he : s.mach.entryAt u.loc = some e) (hruns : e.runs = [])
include hexec hunit hpart hadds he hruns

/-- A unit of the job's own code ends with its status. -/
theorem done_own (hkind : e.kind ≠ .kernel) : Does (.done t rs) s (fun m m' =>
    m'.entryAt u.loc = some { e with state := .done, status := st, adds := [] } ∧
    m'.tile t.val = (m.tile t.val).freed ∧ m'.evr = m.evr ∧ m'.regs = m.regs) := by
  refine does_of hexec fun m' hm => ?_
  rw [finishUnit_own hunit he hkind, Mach.unitDone_plain hunit hpart hadds he hruns] at hm
  subst hm
  exact ⟨Mach.entryAt_putEntry _, by rw [Mach.tile_putEntry, Mach.tile_setTile_same], Mach.putEntry_evr _, Mach.putEntry_regs _⟩

/-- A unit of the shipped kernels ends with theirs, and its entry keeps what they made (09 R314). -/
theorem done_kernel {k : KernelOut} (hkind : e.kind = .kernel) (hk : s.mach.runKernel s.variant e.bytes = some k) :
    Does (.done t rs) s (fun _ m' =>
      m'.entryAt u.loc = some { e with state := .done, status := k.status, adds := [], held := some k } ∧
      (m'.tile t.val).unit = none ∧ (m'.tile t.val).running = false) := by
  refine does_of hexec fun m' hm => ?_
  rw [finishUnit_kernel hunit he hkind hk] at hm
  generalize hn : s.mach.jobWrite s.variant t.val (entrySlot e.bytes) ((k.out.getD []).take u.slotLen) = n at hm
  have hkept : (n.tile t.val).besidesWrites = (s.mach.tile t.val).besidesWrites :=
    (besidesWrites_eq_iff.mp (hn ▸ besidesWrites_jobWrite _ _ _ _)).1
  rw [Mach.unitDone_plain (e := { e with held := some k }) (by rw [Mach.tile_putEntry]; exact (congrArg Tile.unit hkept).trans hunit)
    hpart (by rw [Mach.tile_putEntry]; exact (congrArg Tile.heldAdds hkept).trans hadds) (Mach.entryAt_putEntry _) hruns] at hm
  subst hm
  refine ⟨Mach.entryAt_putEntry _, ?_⟩
  rw [Mach.tile_putEntry, Mach.tile_setTile_same]
  exact ⟨rfl, rfl⟩

end

/-! ### The tile detector (R222 to R224) -/

/-- A set of numbers below n is a mask of n bits. -/
theorem bitMask_lt {l : List Nat} {n : Nat} (h : ∀ i ∈ l, i < n) : bitMask l < 2 ^ n :=
  List.foldlRecOn l _ (motive := fun a => a < 2 ^ n) (Nat.two_pow_pos n) fun _ ha i hi =>
    Nat.or_lt_two_pow ha (Nat.pow_lt_pow_right (by decide) (h i hi))

theorem engineBits_lt (f : EngNo → Bool) : engineBits f < 2 ^ 5 :=
  bitMask_lt fun i hi => by
    obtain ⟨e, -, rfl⟩ := List.mem_map.mp hi
    exact e.isLt

/-- A bit outside a field reads as before where the field was written. -/
theorem Mach.bit_setFld_apart (m : Mach) (off : Nat) {hi lo i : Nat} (x : Nat) (h : lo ≤ hi) (h64 : hi < 64)
    (hi' : i < lo ∨ hi < i) : (m.setFld off hi lo x).bit off i = m.bit off i := by
  rw [Mach.bit, Mach.setFld, Mach.reg_setReg_same, getLsbD_putField h h64, if_neg (by omega)]; rfl

/-- The first run of a unit that ends without DONE: its entry is READY again (R230). -/
theorem Mach.unitDrop_first {m : Mach} {t : Nat} {u : WorkUnit} {e : QEntry} (h : FirstRun m t u e) (how : RunEnd) (keep : Bool) :
    m.unitDrop t how keep = (m.setTile t ((m.tile t).endUnit keep)).putEntry u.loc
      (some { e with state := .ready, runs := [⟨t, how⟩], takenBy := none }) := by
  obtain ⟨hunit, hrun, hentry, hfirst⟩ := h
  simp [Mach.unitDrop, hunit, hrun, hentry, Mach.afterRun_first hfirst]

/-- The detector shows which engines wait, and on what, and ends the unit. -/
theorem tileDeadlock_fires {s : State} {t : TileId} {u : WorkUnit} {e : QEntry} (hfirst : FirstRun s.mach t.val u e)
    (henable : s.mach.bit (Reg.tileDlkCfg t.val) 5 = true) (hquiet : ∀ g : EngNo, (s.mach.tile t.val).quiet g = true) {b w : Nat}
    (hb : engineBits (s.mach.tile t.val).blocked = b) (hblocked : b ≠ 0)
    (hw : bitMask (((s.mach.tile t.val).waits.filter (fun w => !w.served)).map (fun w => w.obj.val)) = w) :
    Does (.tileDeadlock t) s (fun m m' =>
      m'.entryAt u.loc = some { e with state := .ready, runs := [⟨t.val, .deadlock b w⟩], takenBy := none } ∧
      m'.tile t.val = (m.tile t.val).endUnit false ∧ m'.evr = m.evr ∧
      m'.bit (Reg.tileDlkStatus t.val) 31 = true ∧ m'.fld (Reg.tileDlkStatus t.val) 20 16 = b ∧
      m'.fld (Reg.tileDlkStatus t.val) 15 0 = w % 2 ^ 16 ∧ m'.reg (Reg.tileExc t.val) = m.reg (Reg.tileExc t.val)) := by
  have hfires : ((s.mach.tile t.val).running && s.mach.bit (Reg.tileDlkCfg t.val) 5 &&
      (List.finRange 5).all (s.mach.tile t.val).quiet && b ≠ 0) = true := by
    simp [hfirst.2.1, henable, hquiet, hblocked]
  have hb32 : b < 2 ^ 5 := hb ▸ engineBits_lt _
  have hother : Reg.tileExc t.val ≠ Reg.tileDlkStatus t.val := by unfold Reg.tileExc Reg.tileDlkStatus; omega
  refine does_of rfl fun m' hm => ?_
  simp only [Mach.tileDeadlock, hb, hw, if_pos hfires] at hm
  rw [Mach.unitDrop_first (e := e) (u := u)] at hm
  · subst hm
    refine ⟨Mach.entryAt_putEntry _, by rw [Mach.tile_putEntry, Mach.tile_setTile_same]; rfl, Mach.putEntry_evr _, ?_⟩
    simp only [Mach.bit, Mach.fld, Mach.reg_congr (Mach.putEntry_regs _), Mach.reg_congr (Mach.setTile_regs _ _ _)]
    refine ⟨?_, ?_, ?_, ?_⟩
    · refine (Mach.bit_setFld_apart _ _ _ (by decide) (by decide) (by decide)).trans ?_
      refine (Mach.bit_setFld_apart _ _ _ (by decide) (by decide) (by decide)).trans ?_
      exact Mach.bit_setBit_same _ _ _ (by decide)
    · refine (Mach.fld_setFld_apart _ _ _ (by decide) (by decide) (by decide)).trans ?_
      exact (Mach.fld_setFld_same _ _ _ (by decide) (by decide)).trans (Nat.mod_eq_of_lt hb32)
    · exact Mach.fld_setFld_same _ _ _ (by decide) (by decide)
    · rw [Mach.reg_setFld_other _ _ _ _ hother, Mach.reg_setFld_other _ _ _ _ hother, Mach.reg_setBit_other _ _ _ hother]
  · exact hfirst

/-- Settles O18: the entry taken, DONE of either kind of unit, and the detector, each by its lemma. -/
theorem unitsTakenAndDone : Obligations.UnitsTakenAndDone := by
  intro s t rs u e m x
  refine ⟨fun l hready hnext he hcfg hlen => ?_,
    fun hready hunit hpart hadds he hruns hvq hgq haq hdq hends => ?_, fun hfirst henable hquiet hblocked => ?_⟩
  · refine does_mono (workUnitTake_ready hready hnext he hcfg) fun m' ⟨hentry, htile⟩ => ⟨hentry, ?_⟩
    rw [htile]
    exact ⟨rfl, rfl, rfl, Tile.gr_startUnit, Tile.vr_startUnit, Tile.sync_startUnit, rfl, rfl,
      fun i hi => Tile.entry_startUnit (hlen.symm ▸ hi)⟩
  · have hexec := exec_done hready hvq hgq haq hdq rfl hends
    refine ⟨fun k hkind hk => done_kernel hexec hunit hpart hadds he hruns hkind hk, fun hkind => ?_⟩
    refine does_mono (done_own hexec hunit hpart hadds he hruns hkind) fun m' ⟨hentry, htile, hevr, hregs⟩ => ?_
    rw [htile]
    exact ⟨hentry, rfl, rfl, rfl, fun k => by simp [Tile.freed, Tile.endUnit], rfl, hevr, hregs⟩
  · refine does_mono (tileDeadlock_fires hfirst henable hquiet rfl hblocked rfl) fun m' ⟨hentry, htile, hrest⟩ => ?_
    rw [htile]
    exact ⟨hentry, rfl, rfl, rfl, hrest⟩

end Sys2Proof.Machine
end
